-- ==== Sys2Proof/Syntax.lean ====
section
/-! DEFINITION. The abstract syntax: one constructor for each row of the opcode table. The first
part holds the rows with a 32-bit encoding (02 R40 to R62), with their fields in the order of the
formats, from the high bits down; the second holds the rows that no word encodes: the steps of the
part's other agents (95_what_each_step_holds.md), with what singles out the message, unit or input
the step takes. -/
namespace Sys2Proof

/-- One step of the part: an instruction word of MIS, or a step of another agent. -/
inductive Instr where
  /-- R99. Adds two registers, 64-bit or sign-extended 32-bit form. -/
  | add (d : BitVec 6) (a : BitVec 6) (b : BitVec 6) (w : BitVec 1)
  /-- R99. Subtracts register b from register a. -/
  | sub (d : BitVec 6) (a : BitVec 6) (b : BitVec 6) (w : BitVec 1)
  /-- R99. Low n bits of the signed product. -/
  | mul (d : BitVec 6) (a : BitVec 6) (b : BitVec 6) (w : BitVec 1)
  /-- R99. High n bits of the signed product. -/
  | mulh (d : BitVec 6) (a : BitVec 6) (b : BitVec 6) (w : BitVec 1)
  /-- R99. High n bits of the unsigned product. -/
  | mulhu (d : BitVec 6) (a : BitVec 6) (b : BitVec 6) (w : BitVec 1)
  /-- R100. Signed division truncating towards zero, never faulting. -/
  | div (d : BitVec 6) (a : BitVec 6) (b : BitVec 6) (w : BitVec 1)
  /-- R100. Unsigned division, never faulting. -/
  | divu (d : BitVec 6) (a : BitVec 6) (b : BitVec 6) (w : BitVec 1)
  /-- R100. Signed remainder with the sign of the dividend. -/
  | rem (d : BitVec 6) (a : BitVec 6) (b : BitVec 6) (w : BitVec 1)
  /-- R100. Unsigned remainder. -/
  | remu (d : BitVec 6) (a : BitVec 6) (b : BitVec 6) (w : BitVec 1)
  /-- R99. Bitwise and. -/
  | and (d : BitVec 6) (a : BitVec 6) (b : BitVec 6) (w : BitVec 1)
  /-- R99. Bitwise or. -/
  | or (d : BitVec 6) (a : BitVec 6) (b : BitVec 6) (w : BitVec 1)
  /-- R99. Bitwise exclusive or. -/
  | xor (d : BitVec 6) (a : BitVec 6) (b : BitVec 6) (w : BitVec 1)
  /-- R99. a and not b. -/
  | andn (d : BitVec 6) (a : BitVec 6) (b : BitVec 6) (w : BitVec 1)
  /-- R99. Logical shift left by b mod n. -/
  | sll (d : BitVec 6) (a : BitVec 6) (b : BitVec 6) (w : BitVec 1)
  /-- R99. Logical shift right by b mod n. -/
  | srl (d : BitVec 6) (a : BitVec 6) (b : BitVec 6) (w : BitVec 1)
  /-- R99. Arithmetic shift right by b mod n. -/
  | sra (d : BitVec 6) (a : BitVec 6) (b : BitVec 6) (w : BitVec 1)
  /-- R99. Rotate right by b mod n. -/
  | ror (d : BitVec 6) (a : BitVec 6) (b : BitVec 6) (w : BitVec 1)
  /-- R99. Signed minimum. -/
  | min (d : BitVec 6) (a : BitVec 6) (b : BitVec 6) (w : BitVec 1)
  /-- R99. Signed maximum. -/
  | max (d : BitVec 6) (a : BitVec 6) (b : BitVec 6) (w : BitVec 1)
  /-- R99. Unsigned minimum. -/
  | minu (d : BitVec 6) (a : BitVec 6) (b : BitVec 6) (w : BitVec 1)
  /-- R99. Unsigned maximum. -/
  | maxu (d : BitVec 6) (a : BitVec 6) (b : BitVec 6) (w : BitVec 1)
  /-- R99. 1 if a < b signed, else 0. -/
  | slt (d : BitVec 6) (a : BitVec 6) (b : BitVec 6) (w : BitVec 1)
  /-- R99. 1 if a < b unsigned, else 0. -/
  | sltu (d : BitVec 6) (a : BitVec 6) (b : BitVec 6) (w : BitVec 1)
  /-- R99. 1 if a = b, else 0. -/
  | seq (d : BitVec 6) (a : BitVec 6) (b : BitVec 6) (w : BitVec 1)
  /-- R99. 1 if a differs from b, else 0. -/
  | sne (d : BitVec 6) (a : BitVec 6) (b : BitVec 6) (w : BitVec 1)
  /-- R99. Counts leading zero bits. -/
  | clz (d : BitVec 6) (a : BitVec 6) (w : BitVec 1)
  /-- R99. Counts trailing zero bits. -/
  | ctz (d : BitVec 6) (a : BitVec 6) (w : BitVec 1)
  /-- R99. Counts one bits. -/
  | popc (d : BitVec 6) (a : BitVec 6) (w : BitVec 1)
  /-- R99. Reverses the bit order. -/
  | brev (d : BitVec 6) (a : BitVec 6) (w : BitVec 1)
  /-- R101. Adds a sign-extended 14-bit immediate. -/
  | addi (d : BitVec 6) (a : BitVec 6) (i : BitVec 14)
  /-- R101. Bitwise and with an immediate. -/
  | andi (d : BitVec 6) (a : BitVec 6) (i : BitVec 14)
  /-- R101. Bitwise or with an immediate. -/
  | ori (d : BitVec 6) (a : BitVec 6) (i : BitVec 14)
  /-- R101. Bitwise exclusive or with an immediate. -/
  | xori (d : BitVec 6) (a : BitVec 6) (i : BitVec 14)
  /-- R102. Logical shift left by an immediate amount. -/
  | slli (d : BitVec 6) (a : BitVec 6) (w : BitVec 1) (s : BitVec 6)
  /-- R102. Logical shift right by an immediate amount. -/
  | srli (d : BitVec 6) (a : BitVec 6) (w : BitVec 1) (s : BitVec 6)
  /-- R102. Arithmetic shift right by an immediate amount. -/
  | srai (d : BitVec 6) (a : BitVec 6) (w : BitVec 1) (s : BitVec 6)
  /-- R101. Signed compare with an immediate. -/
  | slti (d : BitVec 6) (a : BitVec 6) (i : BitVec 14)
  /-- R101. Unsigned compare with a sign-extended immediate. -/
  | sltiu (d : BitVec 6) (a : BitVec 6) (i : BitVec 14)
  /-- R103. Writes k times 2^14 as data. -/
  | lui (d : BitVec 6) (i : BitVec 20)
  /-- R103. Writes PC.ADDR plus k times 2^14 as untagged data. -/
  | auipc (d : BitVec 6) (i : BitVec 20)
  /-- R104. Branches when the registers are equal. -/
  | beq (a : BitVec 6) (b : BitVec 6) (o : BitVec 11)
  /-- R104. Branches when the registers differ. -/
  | bne (a : BitVec 6) (b : BitVec 6) (o : BitVec 11)
  /-- R104. Branches when a < b signed. -/
  | blt (a : BitVec 6) (b : BitVec 6) (o : BitVec 11)
  /-- R104. Branches when a >= b signed. -/
  | bge (a : BitVec 6) (b : BitVec 6) (o : BitVec 11)
  /-- R104. Branches when a < b unsigned. -/
  | bltu (a : BitVec 6) (b : BitVec 6) (o : BitVec 11)
  /-- R104. Branches when a >= b unsigned. -/
  | bgeu (a : BitVec 6) (b : BitVec 6) (o : BitVec 11)
  /-- R104. Branches when the register's tag is 1. -/
  | btag (a : BitVec 6) (o : BitVec 11)
  /-- R104. Branches when the register's tag is 0. -/
  | bntag (a : BitVec 6) (o : BitVec 11)
  /-- R105. Jumps PC-relative and writes the tagged link. -/
  | jal (d : BitVec 6) (i : BitVec 20)
  /-- R106. Writes the link and replaces the whole PC with a register. -/
  | jalr (d : BitVec 6) (a : BitVec 6)
  /-- R119. Loads one byte zero-extended through a capability. -/
  | ldB (d : BitVec 6) (a : BitVec 6) (s : BitVec 4) (q : BitVec 2) (o : BitVec 8)
  /-- R119. Loads two bytes zero-extended. -/
  | ldH (d : BitVec 6) (a : BitVec 6) (s : BitVec 4) (q : BitVec 2) (o : BitVec 8)
  /-- R119. Loads four bytes zero-extended. -/
  | ldW (d : BitVec 6) (a : BitVec 6) (s : BitVec 4) (q : BitVec 2) (o : BitVec 8)
  /-- R119. Loads eight bytes. -/
  | ldD (d : BitVec 6) (a : BitVec 6) (s : BitVec 4) (q : BitVec 2) (o : BitVec 8)
  /-- R119. Stores one byte and clears the granule tag. -/
  | stB (d : BitVec 6) (a : BitVec 6) (s : BitVec 4) (q : BitVec 2) (o : BitVec 8)
  /-- R119. Stores two bytes. -/
  | stH (d : BitVec 6) (a : BitVec 6) (s : BitVec 4) (q : BitVec 2) (o : BitVec 8)
  /-- R119. Stores four bytes. -/
  | stW (d : BitVec 6) (a : BitVec 6) (s : BitVec 4) (q : BitVec 2) (o : BitVec 8)
  /-- R119. Stores eight bytes. -/
  | stD (d : BitVec 6) (a : BitVec 6) (s : BitVec 4) (q : BitVec 2) (o : BitVec 8)
  /-- R107. Adds a register increment to the cursor, keeping the tag only within the window. -/
  | cinc (d : BitVec 6) (a : BitVec 6) (b : BitVec 6)
  /-- R108. Narrows the bounds to ADDR..ADDR+len from a register. -/
  | csetb (d : BitVec 6) (a : BitVec 6) (b : BitVec 6)
  /-- R109. Clears permission bits by a mask. -/
  | cperm (d : BitVec 6) (a : BitVec 6) (b : BitVec 6)
  /-- R110. Sets FMT and BLK keeping the tag. -/
  | cfmt (d : BitVec 6) (a : BitVec 6) (b : BitVec 6)
  /-- R111. Reads one capability field as data by selector. -/
  | cfld (d : BitVec 6) (a : BitVec 6) (s : BitVec 6)
  /-- R112. Writes tag, format, bounds and validity test bits. -/
  | ctest (d : BitVec 6) (a : BitVec 6)
  /-- R113. Copies a register with tag 0. -/
  | cclrt (d : BitVec 6) (a : BitVec 6)
  /-- R113. Subtracts two cursors as data. -/
  | csubc (d : BitVec 6) (a : BitVec 6) (b : BitVec 6)
  /-- R107. Adds an immediate to the cursor; copies a capability with 0. -/
  | cinci (d : BitVec 6) (a : BitVec 6) (i : BitVec 14)
  /-- R108. Narrows the bounds to an immediate length. -/
  | csetbi (d : BitVec 6) (a : BitVec 6) (i : BitVec 14)
  /-- R121. Loads 16 bytes and their tag as a capability. -/
  | ldc (d : BitVec 6) (a : BitVec 6) (s : BitVec 4) (q : BitVec 2) (o : BitVec 8)
  /-- R121. Stores 16 bytes and the register's tag atomically. -/
  | stc (d : BitVec 6) (a : BitVec 6) (s : BitVec 4) (q : BitVec 2) (o : BitVec 8)
  /-- R114. FP32 add, rounded once. -/
  | fadd (d : BitVec 6) (a : BitVec 6) (b : BitVec 6) (m : BitVec 3)
  /-- R114. FP32 subtract. -/
  | fsub (d : BitVec 6) (a : BitVec 6) (b : BitVec 6) (m : BitVec 3)
  /-- R114. FP32 multiply. -/
  | fmul (d : BitVec 6) (a : BitVec 6) (b : BitVec 6) (m : BitVec 3)
  /-- R114. FP32 fused multiply-add with d as addend. -/
  | ffma (d : BitVec 6) (a : BitVec 6) (b : BitVec 6) (m : BitVec 3)
  /-- R114. FP32 divide. -/
  | fdiv (d : BitVec 6) (a : BitVec 6) (b : BitVec 6) (m : BitVec 3)
  /-- R114. FP32 square root. -/
  | fsqrt (d : BitVec 6) (a : BitVec 6) (m : BitVec 3)
  /-- R115. FP32 minimum with NaN handling. -/
  | fmin (d : BitVec 6) (a : BitVec 6) (b : BitVec 6)
  /-- R115. FP32 maximum with NaN handling. -/
  | fmax (d : BitVec 6) (a : BitVec 6) (b : BitVec 6)
  /-- R116. FP32 compare by predicate, writing 1 or 0. -/
  | fcmp (d : BitVec 6) (a : BitVec 6) (b : BitVec 6) (p : BitVec 3)
  /-- R87. Converts by the conversion code in b. -/
  | fcvt (d : BitVec 6) (a : BitVec 6) (c : BitVec 6) (m : BitVec 3)
  /-- R117. Classifies an FP32 value as one set bit. -/
  | fclass (d : BitVec 6) (a : BitVec 6)
  /-- R118. Replaces the sign bit by the variant. -/
  | fsgn (d : BitVec 6) (a : BitVec 6) (b : BitVec 6) (p : BitVec 3)
  /-- R160. Per-lane 32-bit add. -/
  | vadd (d : BitVec 7) (a : BitVec 7) (b : BitVec 7)
  /-- R160. Per-lane subtract. -/
  | vsub (d : BitVec 7) (a : BitVec 7) (b : BitVec 7)
  /-- R160. Per-lane low product. -/
  | vmul (d : BitVec 7) (a : BitVec 7) (b : BitVec 7)
  /-- R160. Per-lane high signed product. -/
  | vmulh (d : BitVec 7) (a : BitVec 7) (b : BitVec 7)
  /-- R160. Per-lane multiply-add into vd. -/
  | vmad (d : BitVec 7) (a : BitVec 7) (b : BitVec 7)
  /-- R160. Per-lane and. -/
  | vand (d : BitVec 7) (a : BitVec 7) (b : BitVec 7)
  /-- R160. Per-lane or. -/
  | vor (d : BitVec 7) (a : BitVec 7) (b : BitVec 7)
  /-- R160. Per-lane exclusive or. -/
  | vxor (d : BitVec 7) (a : BitVec 7) (b : BitVec 7)
  /-- R160. Per-lane and-not. -/
  | vandn (d : BitVec 7) (a : BitVec 7) (b : BitVec 7)
  /-- R160. Per-lane shift left. -/
  | vshl (d : BitVec 7) (a : BitVec 7) (b : BitVec 7)
  /-- R160. Per-lane logical shift right. -/
  | vshr (d : BitVec 7) (a : BitVec 7) (b : BitVec 7)
  /-- R160. Per-lane arithmetic shift right. -/
  | vsra (d : BitVec 7) (a : BitVec 7) (b : BitVec 7)
  /-- R160. Per-lane signed minimum. -/
  | vmin (d : BitVec 7) (a : BitVec 7) (b : BitVec 7)
  /-- R160. Per-lane signed maximum. -/
  | vmax (d : BitVec 7) (a : BitVec 7) (b : BitVec 7)
  /-- R160. Per-lane unsigned minimum. -/
  | vminu (d : BitVec 7) (a : BitVec 7) (b : BitVec 7)
  /-- R160. Per-lane unsigned maximum. -/
  | vmaxu (d : BitVec 7) (a : BitVec 7) (b : BitVec 7)
  /-- R160. Per-lane absolute value. -/
  | vabs (d : BitVec 7) (a : BitVec 7)
  /-- R160. Per-lane select by vd. -/
  | vsel (d : BitVec 7) (a : BitVec 7) (b : BitVec 7)
  /-- R160. Per-lane move. -/
  | vmov (d : BitVec 7) (a : BitVec 7)
  /-- R160. Per-lane equality compare. -/
  | vcmpEq (d : BitVec 7) (a : BitVec 7) (b : BitVec 7)
  /-- R160. Per-lane inequality compare. -/
  | vcmpNe (d : BitVec 7) (a : BitVec 7) (b : BitVec 7)
  /-- R160. Per-lane signed less-than. -/
  | vcmpLt (d : BitVec 7) (a : BitVec 7) (b : BitVec 7)
  /-- R160. Per-lane signed greater-or-equal. -/
  | vcmpGe (d : BitVec 7) (a : BitVec 7) (b : BitVec 7)
  /-- R160. Per-lane unsigned less-than. -/
  | vcmpLtu (d : BitVec 7) (a : BitVec 7) (b : BitVec 7)
  /-- R160. Per-lane unsigned greater-or-equal. -/
  | vcmpGeu (d : BitVec 7) (a : BitVec 7) (b : BitVec 7)
  /-- R161. Per-lane add of a sign-extended immediate. -/
  | vaddi (d : BitVec 7) (a : BitVec 7) (i : BitVec 12)
  /-- R161. Per-lane shift left by an immediate. -/
  | vshli (d : BitVec 7) (a : BitVec 7) (s : BitVec 5)
  /-- R161. Per-lane logical shift right by an immediate. -/
  | vshri (d : BitVec 7) (a : BitVec 7) (s : BitVec 5)
  /-- R161. Per-lane arithmetic shift right by an immediate. -/
  | vsrai (d : BitVec 7) (a : BitVec 7) (s : BitVec 5)
  /-- R161. Per-lane and with a 9-bit immediate. -/
  | vandi (d : BitVec 7) (a : BitVec 7) (i : BitVec 9)
  /-- R161. Per-lane or with a 9-bit immediate. -/
  | vori (d : BitVec 7) (a : BitVec 7) (i : BitVec 9)
  /-- R161. Per-lane exclusive or with a 9-bit immediate. -/
  | vxori (d : BitVec 7) (a : BitVec 7) (i : BitVec 9)
  /-- R161. Writes a sign-extended immediate to each active lane. -/
  | vmovi (d : BitVec 7) (i : BitVec 12)
  /-- R167. Broadcasts a scalar into each active lane. -/
  | vbcst (d : BitVec 7) (c : BitVec 6)
  /-- R167. Lane xor shuffle. -/
  | vshfl (d : BitVec 7) (a : BitVec 7) (c : BitVec 6)
  /-- R167. Lane rotate. -/
  | vrot (d : BitVec 7) (a : BitVec 7) (c : BitVec 6)
  /-- R168. Tree reduction sum of active lanes to a scalar. -/
  | vredAdd (a : BitVec 7) (c : BitVec 6)
  /-- R168. Signed minimum reduction. -/
  | vredMin (a : BitVec 7) (c : BitVec 6)
  /-- R168. Signed maximum reduction. -/
  | vredMax (a : BitVec 7) (c : BitVec 6)
  /-- R168. Unsigned minimum reduction. -/
  | vredMinu (a : BitVec 7) (c : BitVec 6)
  /-- R168. Unsigned maximum reduction. -/
  | vredMaxu (a : BitVec 7) (c : BitVec 6)
  /-- R168. Bitwise and reduction. -/
  | vredAnd (a : BitVec 7) (c : BitVec 6)
  /-- R168. Bitwise or reduction. -/
  | vredOr (a : BitVec 7) (c : BitVec 6)
  /-- R168. Bitwise xor reduction. -/
  | vredXor (a : BitVec 7) (c : BitVec 6)
  /-- R168. FP32 tree sum reduction. -/
  | vredFadd (a : BitVec 7) (c : BitVec 6)
  /-- R168. FP32 minimum reduction. -/
  | vredFmin (a : BitVec 7) (c : BitVec 6)
  /-- R168. FP32 maximum reduction. -/
  | vredFmax (a : BitVec 7) (c : BitVec 6)
  /-- R168. Mask of active lanes with a nonzero value. -/
  | vballot (a : BitVec 7) (c : BitVec 6)
  /-- R168. Count of active nonzero lanes. -/
  | vpopc (a : BitVec 7) (c : BitVec 6)
  /-- R168. Lowest active nonzero lane, or 32. -/
  | vfirst (a : BitVec 7) (c : BitVec 6)
  /-- R167. Extracts one lane into a scalar. -/
  | vextr (l : BitVec 5) (a : BitVec 7) (c : BitVec 6)
  /-- R167. Inserts a scalar into one lane regardless of activity. -/
  | vins (d : BitVec 7) (l : BitVec 5) (c : BitVec 6)
  /-- R166. Per-lane permute from source lanes. -/
  | vperm (d : BitVec 7) (a : BitVec 7) (b : BitVec 7)
  /-- R166. Inclusive add scan over active lanes. -/
  | vscanAdd (d : BitVec 7) (a : BitVec 7)
  /-- R166. Inclusive FP32 add scan. -/
  | vscanFadd (d : BitVec 7) (a : BitVec 7)
  /-- R166. Inclusive signed minimum scan. -/
  | vscanMin (d : BitVec 7) (a : BitVec 7)
  /-- R166. Inclusive signed maximum scan. -/
  | vscanMax (d : BitVec 7) (a : BitVec 7)
  /-- R166. Writes each lane's number. -/
  | vlane (d : BitVec 7)
  /-- R162. Per-lane FP32 add. -/
  | vfadd (d : BitVec 7) (a : BitVec 7) (b : BitVec 7)
  /-- R162. Per-lane FP32 subtract. -/
  | vfsub (d : BitVec 7) (a : BitVec 7) (b : BitVec 7)
  /-- R162. Per-lane FP32 multiply. -/
  | vfmul (d : BitVec 7) (a : BitVec 7) (b : BitVec 7)
  /-- R162. Per-lane fused multiply-add into vd. -/
  | vfma (d : BitVec 7) (a : BitVec 7) (b : BitVec 7)
  /-- R162. Per-lane FP32 minimum. -/
  | vfmin (d : BitVec 7) (a : BitVec 7) (b : BitVec 7)
  /-- R162. Per-lane FP32 maximum. -/
  | vfmax (d : BitVec 7) (a : BitVec 7) (b : BitVec 7)
  /-- R162. Per-lane FP32 divide. -/
  | vfdiv (d : BitVec 7) (a : BitVec 7) (b : BitVec 7)
  /-- R162. Per-lane FP32 square root. -/
  | vfsqrt (d : BitVec 7) (a : BitVec 7)
  /-- R163. Correctly rounded reciprocal. -/
  | vrcp (d : BitVec 7) (a : BitVec 7)
  /-- R163. Correctly rounded reciprocal square root. -/
  | vrsq (d : BitVec 7) (a : BitVec 7)
  /-- R163. Correctly rounded 2^x. -/
  | vexp2 (d : BitVec 7) (a : BitVec 7)
  /-- R163. Correctly rounded log2 x. -/
  | vlog2 (d : BitVec 7) (a : BitVec 7)
  /-- R163. Correctly rounded sine of turns. -/
  | vsin (d : BitVec 7) (a : BitVec 7)
  /-- R163. Correctly rounded cosine of turns. -/
  | vcos (d : BitVec 7) (a : BitVec 7)
  /-- R162. Per-lane FP32 classification. -/
  | vfclass (d : BitVec 7) (a : BitVec 7)
  /-- R162. Per-lane FP equality compare. -/
  | vfcmpEq (d : BitVec 7) (a : BitVec 7) (b : BitVec 7)
  /-- R162. Per-lane FP inequality compare. -/
  | vfcmpNe (d : BitVec 7) (a : BitVec 7) (b : BitVec 7)
  /-- R162. Per-lane FP less-than. -/
  | vfcmpLt (d : BitVec 7) (a : BitVec 7) (b : BitVec 7)
  /-- R162. Per-lane FP less-or-equal. -/
  | vfcmpLe (d : BitVec 7) (a : BitVec 7) (b : BitVec 7)
  /-- R162. Per-lane FP greater-than. -/
  | vfcmpGt (d : BitVec 7) (a : BitVec 7) (b : BitVec 7)
  /-- R162. Per-lane FP greater-or-equal. -/
  | vfcmpGe (d : BitVec 7) (a : BitVec 7) (b : BitVec 7)
  /-- R162. Per-lane FP unordered test. -/
  | vfcmpUn (d : BitVec 7) (a : BitVec 7) (b : BitVec 7)
  /-- R164. Per-lane format conversion by code, mode and saturation. -/
  | vfcvt (d : BitVec 7) (a : BitVec 7) (s : BitVec 1) (r : BitVec 3) (c : BitVec 5)
  /-- R165. Packed BF16 pair add. -/
  | vbadd2 (d : BitVec 7) (a : BitVec 7) (b : BitVec 7)
  /-- R165. Packed BF16 pair multiply. -/
  | vbmul2 (d : BitVec 7) (a : BitVec 7) (b : BitVec 7)
  /-- R165. Packed BF16 pair fused multiply-add. -/
  | vbfma2 (d : BitVec 7) (a : BitVec 7) (b : BitVec 7)
  /-- R165. Packs two FP32 lanes into a BF16 pair. -/
  | vpk (d : BitVec 7) (a : BitVec 7) (b : BitVec 7)
  /-- R165. Widens the low BF16 half exactly. -/
  | vunpkLo (d : BitVec 7) (a : BitVec 7)
  /-- R165. Widens the high BF16 half exactly. -/
  | vunpkHi (d : BitVec 7) (a : BitVec 7)
  /-- R165. Signed 4-byte dot product accumulate. -/
  | vdot4I8 (d : BitVec 7) (a : BitVec 7) (b : BitVec 7)
  /-- R165. Unsigned 4-byte dot product accumulate. -/
  | vdot4Ui8 (d : BitVec 7) (a : BitVec 7) (b : BitVec 7)
  /-- R165. BF16 pair dot product into FP32, rounded once. -/
  | vdotb (d : BitVec 7) (a : BitVec 7) (b : BitVec 7)
  /-- R169. Opens a conditional, updating nesting counters. -/
  | vif (a : BitVec 7)
  /-- R169. Swaps NC 0 and 1 for unfrozen lanes. -/
  | velse
  /-- R169. Decrements nonzero NC of unfrozen lanes. -/
  | vendif
  /-- R169. Opens a loop, shifting inactive and frozen lanes. -/
  | vloop
  /-- R169. Freezes active lanes with a true condition as broken. -/
  | vbrk (a : BitVec 7)
  /-- R169. Freezes active lanes with a true condition as continued. -/
  | vcont (a : BitVec 7)
  /-- R170. Ends a loop iteration, branching back or leaving the loop. -/
  | vendl (i : BitVec 12)
  /-- R171. Branches if any active lane's condition is true. -/
  | vany (a : BitVec 7) (i : BitVec 12)
  /-- R171. Branches if no active lane's condition is true. -/
  | vnone (a : BitVec 7) (i : BitVec 12)
  /-- R173. Replays a vector body with register stagger after checking every pass. -/
  | rep (l : BitVec 4) (c : BitVec 7) (x : BitVec 1) (y : BitVec 1) (z : BitVec 1) (s : BitVec 6)
  /-- R176. Maps flattened row positions to row and offset per lane. -/
  | vrebal (d : BitVec 7) (a : BitVec 7) (c : BitVec 6)
  /-- R177. Forms plane words from 64 mantissas. -/
  | vplane (d : BitVec 7) (a : BitVec 7) (c : BitVec 6)
  /-- R224. Per-lane load by FMT element size after checking all lanes. -/
  | vld (d : BitVec 7) (a : BitVec 7) (c : BitVec 6) (s : BitVec 4) (q : BitVec 2)
  /-- R224. Per-lane store, highest lane winning on overlap. -/
  | vst (d : BitVec 7) (a : BitVec 7) (c : BitVec 6) (s : BitVec 4) (q : BitVec 2)
  /-- R226. Per-lane load with multicast line requests. -/
  | vldmc (d : BitVec 7) (a : BitVec 7) (c : BitVec 6) (s : BitVec 4) (q : BitVec 2)
  /-- R227. 64-bit atomic add at the home. -/
  | atomAdd (d : BitVec 6) (a : BitVec 6) (b : BitVec 6) (s : BitVec 4)
  /-- R227. 64-bit atomic signed minimum. -/
  | atomMin (d : BitVec 6) (a : BitVec 6) (b : BitVec 6) (s : BitVec 4)
  /-- R227. 64-bit atomic signed maximum. -/
  | atomMax (d : BitVec 6) (a : BitVec 6) (b : BitVec 6) (s : BitVec 4)
  /-- R227. 64-bit atomic unsigned minimum. -/
  | atomMinu (d : BitVec 6) (a : BitVec 6) (b : BitVec 6) (s : BitVec 4)
  /-- R227. 64-bit atomic unsigned maximum. -/
  | atomMaxu (d : BitVec 6) (a : BitVec 6) (b : BitVec 6) (s : BitVec 4)
  /-- R227. 64-bit atomic and. -/
  | atomAnd (d : BitVec 6) (a : BitVec 6) (b : BitVec 6) (s : BitVec 4)
  /-- R227. 64-bit atomic or. -/
  | atomOr (d : BitVec 6) (a : BitVec 6) (b : BitVec 6) (s : BitVec 4)
  /-- R227. 64-bit atomic xor. -/
  | atomXor (d : BitVec 6) (a : BitVec 6) (b : BitVec 6) (s : BitVec 4)
  /-- R227. 64-bit atomic swap. -/
  | atomSwap (d : BitVec 6) (a : BitVec 6) (b : BitVec 6) (s : BitVec 4)
  /-- R229. 64-bit atomic compare-and-swap. -/
  | acas (d : BitVec 6) (a : BitVec 6) (b : BitVec 6) (s : BitVec 4)
  /-- R227. 32-bit atomic add. -/
  | atomAddW (d : BitVec 6) (a : BitVec 6) (b : BitVec 6) (s : BitVec 4)
  /-- R227. 32-bit atomic signed minimum. -/
  | atomMinW (d : BitVec 6) (a : BitVec 6) (b : BitVec 6) (s : BitVec 4)
  /-- R227. 32-bit atomic signed maximum. -/
  | atomMaxW (d : BitVec 6) (a : BitVec 6) (b : BitVec 6) (s : BitVec 4)
  /-- R227. 32-bit atomic unsigned minimum. -/
  | atomMinuW (d : BitVec 6) (a : BitVec 6) (b : BitVec 6) (s : BitVec 4)
  /-- R227. 32-bit atomic unsigned maximum. -/
  | atomMaxuW (d : BitVec 6) (a : BitVec 6) (b : BitVec 6) (s : BitVec 4)
  /-- R227. 32-bit atomic and. -/
  | atomAndW (d : BitVec 6) (a : BitVec 6) (b : BitVec 6) (s : BitVec 4)
  /-- R227. 32-bit atomic or. -/
  | atomOrW (d : BitVec 6) (a : BitVec 6) (b : BitVec 6) (s : BitVec 4)
  /-- R227. 32-bit atomic xor. -/
  | atomXorW (d : BitVec 6) (a : BitVec 6) (b : BitVec 6) (s : BitVec 4)
  /-- R227. 32-bit atomic swap. -/
  | atomSwapW (d : BitVec 6) (a : BitVec 6) (b : BitVec 6) (s : BitVec 4)
  /-- R227. 32-bit atomic FP32 add in RNE. -/
  | atomFaddW (d : BitVec 6) (a : BitVec 6) (b : BitVec 6) (s : BitVec 4)
  /-- R232. Two independent BF16 half atomics. -/
  | atomBfadd2W (d : BitVec 6) (a : BitVec 6) (b : BitVec 6) (s : BitVec 4)
  /-- R229. 32-bit atomic compare-and-swap. -/
  | acasW (d : BitVec 6) (a : BitVec 6) (b : BitVec 6) (s : BitVec 4)
  /-- R234. Pushes an entry at the deque's bottom at the descriptor home. -/
  | dqpush (d : BitVec 6) (a : BitVec 6) (b : BitVec 6) (s : BitVec 4)
  /-- R234. Pops from the deque's bottom. -/
  | dqpop (d : BitVec 6) (a : BitVec 6) (s : BitVec 4)
  /-- R234. Steals from the deque's top. -/
  | dqsteal (d : BitVec 6) (a : BitVec 6) (s : BitVec 4)
  /-- R230. Per-lane atomic add with same-address sets pre-merged. -/
  | vatomAdd (d : BitVec 7) (o : BitVec 4) (w : BitVec 1) (a : BitVec 6) (s : BitVec 4)
  /-- R230. Per-lane atomic signed minimum. -/
  | vatomMin (d : BitVec 7) (o : BitVec 4) (w : BitVec 1) (a : BitVec 6) (s : BitVec 4)
  /-- R230. Per-lane atomic signed maximum. -/
  | vatomMax (d : BitVec 7) (o : BitVec 4) (w : BitVec 1) (a : BitVec 6) (s : BitVec 4)
  /-- R230. Per-lane atomic unsigned minimum. -/
  | vatomMinu (d : BitVec 7) (o : BitVec 4) (w : BitVec 1) (a : BitVec 6) (s : BitVec 4)
  /-- R230. Per-lane atomic unsigned maximum. -/
  | vatomMaxu (d : BitVec 7) (o : BitVec 4) (w : BitVec 1) (a : BitVec 6) (s : BitVec 4)
  /-- R230. Per-lane atomic and. -/
  | vatomAnd (d : BitVec 7) (o : BitVec 4) (w : BitVec 1) (a : BitVec 6) (s : BitVec 4)
  /-- R230. Per-lane atomic or. -/
  | vatomOr (d : BitVec 7) (o : BitVec 4) (w : BitVec 1) (a : BitVec 6) (s : BitVec 4)
  /-- R230. Per-lane atomic xor. -/
  | vatomXor (d : BitVec 7) (o : BitVec 4) (w : BitVec 1) (a : BitVec 6) (s : BitVec 4)
  /-- R230. Per-lane atomic swap. -/
  | vatomSwap (d : BitVec 7) (o : BitVec 4) (w : BitVec 1) (a : BitVec 6) (s : BitVec 4)
  /-- R231. Per-lane FP32 atomic add with lane-order folding. -/
  | vatomFadd (d : BitVec 7) (o : BitVec 4) (a : BitVec 6) (s : BitVec 4)
  /-- R232. Per-lane BF16 pair atomic add with folding per half. -/
  | vatomBfadd2 (d : BitVec 7) (o : BitVec 4) (a : BitVec 6) (s : BitVec 4)
  /-- R231. Per-lane compare-and-swap applied in lane order. -/
  | vacas (d : BitVec 7) (o : BitVec 4) (w : BitVec 1) (a : BitVec 6) (s : BitVec 4)
  /-- R238. Initialises a scratch barrier object at its home. -/
  | binit (d : BitVec 6) (a : BitVec 6) (b : BitVec 6)
  /-- R239. Posts one arrival after earlier scratch and gathered stores complete. -/
  | barv (a : BitVec 6)
  /-- R240. Adds to the expected byte count of the current phase. -/
  | bexp (a : BitVec 6) (b : BitVec 6)
  /-- R241. Returns if the phase differs, else registers and parks the wave. -/
  | bwait (d : BitVec 6) (a : BitVec 6) (b : BitVec 6)
  /-- R241. Tests the barrier phase without waiting. -/
  | btry (d : BitVec 6) (a : BitVec 6) (b : BitVec 6)
  /-- R242. Invalidates a barrier and wakes waiters with INVALIDATED. -/
  | binv (d : BitVec 6) (a : BitVec 6)
  /-- R244. Joins named streams, waits for visibility and reports store errors. -/
  | fence (d : BitVec 6) (a : BitVec 6) (s : BitVec 3)
  /-- R246. Makes earlier accesses visible at scope and stores a flag. -/
  | rel (a : BitVec 6) (b : BitVec 6) (s : BitVec 3)
  /-- R247. Reads a flag at the home and orders later accesses after it. -/
  | acq (d : BitVec 6) (a : BitVec 6) (s : BitVec 3)
  /-- R248. Promotes a target core's narrow releases, then acquires the flag. -/
  | acqp (d : BitVec 6) (a : BitVec 6) (b : BitVec 6) (s : BitVec 3)
  /-- R249. Zeroes an aligned region line by line. -/
  | zfill (a : BitVec 6) (b : BitVec 6)
  /-- R296. Pushes a ladle request, stalling while the FIFO is full. -/
  | cqpush (n : BitVec 3) (d : BitVec 6) (a : BitVec 6) (b : BitVec 6)
  /-- R296. Pushes a ladle request or returns BUSY. -/
  | cqtry (n : BitVec 3) (d : BitVec 6) (a : BitVec 6) (b : BitVec 6)
  /-- R297. Writes a channel command word after checking it. -/
  | cset (n : BitVec 3) (d : BitVec 6) (a : BitVec 6)
  /-- R297. Reads channel status, watermark or command, optionally clearing error bits. -/
  | cgete (n : BitVec 3) (d : BitVec 6) (b : BitVec 6)
  /-- R300. Binds a stream register to a ladle channel. -/
  | cbind (n : BitVec 3) (a : BitVec 6)
  /-- R298. Cancels a channel's accepted requests and waits for them to end. -/
  | ccancel (n : BitVec 3) (d : BitVec 6)
  /-- R300. Releases a stream register. -/
  | cunbind (a : BitVec 6)
  /-- R301. Pops the next landed stream element into a scalar. -/
  | spop (d : BitVec 6) (a : BitVec 6)
  /-- R301. Pops one stream element per active lane. -/
  | vspop (d : BitVec 6) (a : BitVec 6)
  /-- R304. Sets sink bits in an event-matrix row. -/
  | evset (a : BitVec 6) (b : BitVec 6)
  /-- R304. Clears sink bits in an event-matrix row. -/
  | evclr (a : BitVec 6) (b : BitVec 6)
  /-- R304. Reads a row or a sink count, optionally clearing OVF and consuming a count. -/
  | evrd (d : BitVec 6) (a : BitVec 6)
  /-- R304. Fires an event source. -/
  | evsig (a : BitVec 6)
  /-- R325. Writes a press register in a sequencer context. -/
  | pset (a : BitVec 6) (b : BitVec 6)
  /-- R325. Reads a press register into an m register. -/
  | pget (d : BitVec 6) (a : BitVec 6)
  /-- R326. Reserves or joins an ACF window. -/
  | pres (d : BitVec 6) (a : BitVec 6)
  /-- R326. Waits for posted operations, then releases a window. -/
  | prel (a : BitVec 6)
  /-- R319. Checks and posts a dense pass to the reservation table. -/
  | ppass (a : BitVec 6) (b : BitVec 6)
  /-- R335. Checks and posts a join pass. -/
  | pjoin (a : BitVec 6) (b : BitVec 6)
  /-- R342. Posts a key-ordered drain of a window. -/
  | pdrainO (a : BitVec 6)
  /-- R342. Posts a slot-ordered drain of a window. -/
  | pdrainU (a : BitVec 6)
  /-- R328. Posts a clear of every slot of a window. -/
  | pclr (a : BitVec 6)
  /-- R323. Starts a sequencer context for the group. -/
  | mstart (d : BitVec 6) (a : BitVec 6) (b : BitVec 6)
  /-- R324. Stops and frees the group's context, returning its status. -/
  | mstop (d : BitVec 6) (a : BitVec 6)
  /-- R353. Checks and enqueues a harp gather request. -/
  | hgath (d : BitVec 6) (a : BitVec 6)
  /-- R353. Checks and enqueues a harp CSR-to-tuples request. -/
  | hcsr (d : BitVec 6) (a : BitVec 6)
  /-- R353. Checks and enqueues a harp scatter request. -/
  | hscat (d : BitVec 6) (a : BitVec 6)
  /-- R375. Takes the oldest inbox ray into a scratch buffer, or parks or returns EMPTY. -/
  | rrecv (d : BitVec 6) (a : BitVec 6) (b : BitVec 6)
  /-- R376. Sets TID and HOPS and routes the ray, spilling if the injection queue is full. -/
  | rsend (d : BitVec 6) (a : BitVec 6) (b : BitVec 6)
  /-- R377. Sends the ray as a hit record to its origin core. -/
  | rhit (d : BitVec 6) (a : BitVec 6)
  /-- R378. Tests the ray against a node's four child boxes exactly. -/
  | rbox4 (d : BitVec 6) (a : BitVec 6) (b : BitVec 6)
  /-- R379. Tests a leaf's triangles and updates the ray on accepted hits. -/
  | rtri (d : BitVec 6) (a : BitVec 6) (b : BitVec 6)
  /-- R380. Resolves a portal's treelet to a holder by the route cache. -/
  | rroute (d : BitVec 6) (a : BitVec 6) (b : BitVec 6)
  /-- R381. Requests an owner or replica copy of a treelet and parks until the reply. -/
  | tlreq (d : BitVec 6) (a : BitVec 6) (b : BitVec 6)
  /-- R381. Evicts the core's copy of a treelet. -/
  | tlevict (d : BitVec 6) (a : BitVec 6)
  /-- R382. Binds or unbinds a hit program to the core's hit queue. -/
  | hqbind (d : BitVec 6) (a : BitVec 6) (b : BitVec 6)
  /-- R392. Arrives at, claims or frees a barrier domain. -/
  | dbar (d : BitVec 6) (a : BitVec 6) (b : BitVec 6)
  /-- R394. Arms the exchange port for a domain phase. -/
  | xph (d : BitVec 6) (a : BitVec 6) (b : BitVec 6)
  /-- R395. Queues a send for a TX slot, faulting EXCH_SLOT if late or wrong. -/
  | xmit (d : BitVec 6) (a : BitVec 6) (b : BitVec 6)
  /-- R393. Selects the slot-table bank for the next XPH. -/
  | xsel (d : BitVec 6) (a : BitVec 6)
  /-- R395. Binds a landing buffer to an RX slot. -/
  | xrecv (d : BitVec 6) (a : BitVec 6) (b : BitVec 6)
  /-- R396. Waits for or disarms the port and reports the phase status. -/
  | xend (d : BitVec 6) (a : BitVec 6)
  /-- R393. Loads and checks a slot table into a bank. -/
  | xslots (d : BitVec 6) (a : BitVec 6) (b : BitVec 6)
  /-- R125. No operation. -/
  | nop
  /-- R122. Reads a state register as data. -/
  | gets (d : BitVec 6) (n : BitVec 12)
  /-- R122. Writes a state register after checking number, access and fields. -/
  | sets (a : BitVec 6) (n : BitVec 12)
  /-- R124. Stalls until the wave's own operation counters fall to the limits. -/
  | cwait (l : BitVec 5) (s : BitVec 5) (c : BitVec 5) (p : BitVec 5)
  /-- R125. Moves the wave from the issue window to the parked pool. -/
  | yield
  /-- R126. Raises fault TRAP with a 20-bit code. -/
  | trap (c : BitVec 20)
  /-- R126. Raises fault BKPT with a 20-bit code. -/
  | bkpt (c : BitVec 20)
  /-- R127. Ends the wave, letting its outstanding work complete. -/
  | exit
  /-- R128. Waits for earlier loads and acquires, then empties the core's L1. -/
  | invl1
  /-- R129. Waits for stores, then invalidates the instruction cache. -/
  | invi
  /-- R145. Releases, reads a launch record and submits it as a child grid. -/
  | launch (d : BitVec 6) (a : BitVec 6)
  /-- R146. Atomically adds groups to a grid's count. -/
  | grow (d : BitVec 6) (a : BitVec 6) (b : BitVec 6)
  /-- R149. Appends a record to a graph node's queue, or closes the node. -/
  | emit (d : BitVec 6) (a : BitVec 6) (b : BitVec 6)
  /-- R410. Removes the oldest fault message into four registers. -/
  | mbxpop (d : BitVec 6)
  /-- R411. Resumes or skips a fault-parked wave. -/
  | wresume (a : BitVec 6)
  /-- R412. Ends a wave or its whole group. -/
  | wkill (a : BitVec 6)
  /-- R413. Kills a grid and its descendants. -/
  | gkill (a : BitVec 6)
  /-- R425. Saves a group into a context image. -/
  | gpreempt (d : BitVec 6) (a : BitVec 6)
  /-- R426. Halts a wave at its next instruction boundary. -/
  | dbghalt (a : BitVec 6)
  /-- R426. Clears a wave's HALT bit. -/
  | dbgrun (a : BitVec 6)
  /-- R63. A fetched word that is not an assigned instruction (or is privileged in a non-supervisor wave) raises ILLEGAL or PRIV with the word as information. -/
  | illegalInstruction (word : BitVec 32)
  /-- R200. An entry unwritten for 4,096 cycles closes and drains. -/
  | sgbIdleDrain (core : Nat) (n : Nat)
  /-- R200. A drain acknowledgement frees its entry, updates GWCT and errors, and retires covered log entries. -/
  | sgbDrainAck (core : Nat) (n : Nat) (err : Nat)
  /-- R204. A read request is served at the home slice in its serial order. -/
  | mreqRead (n : Nat)
  /-- R204. A write or drain takes effect at the home slice and is acknowledged with a GWCT. -/
  | mreqWrite (n : Nat) (err : Nat)
  /-- R204. An atomic, ACAS or deque operation is applied indivisibly at the home. -/
  | mreqAtomic (n : Nat) (err : Nat)
  /-- R194. A scratch-window access or scratch atomic is served at the home core in arrival order. -/
  | scratchRequest (n : Nat)
  /-- R251. A load's data reply binds its value, may fill a replica or L1, and writes the destination. -/
  | loadReply (n : Nat) (fill : Bool) (ecc : Bool)
  /-- R219. A store, atomic or scratch-store acknowledgement arrives with its GWCT and status. -/
  | storeAck (n : Nat)
  /-- R214. A page walk completes, filling TLBs or raising XLATE. -/
  | pageWalkDone (die : Nat) (asid : Nat) (ea : Nat)
  /-- R221. A multicast response leaves the slice after its hold and goes out along an XY tree. -/
  | multicastSend (n : Nat)
  /-- R244. A wide fence, release or acquire completes once the lease clock passes GWCT plus guard. -/
  | leaseWaitDone (wave : Nat)
  /-- R266. A PROMOTE message is accepted, becoming ACTIVE or attaching to a promotion. -/
  | promote (n : Nat)
  /-- R266. An ACTIVE promotion's covered writes are acknowledged and every attached requester is sent PCT. -/
  | promotionDone (core : Nat)
  /-- R248. An ACQP's promotion reply arrives, leading to the flag read or UNREACHABLE. -/
  | promoteReply (n : Nat)
  /-- R236. An arrival reaches a barrier's home and is counted, discarded or marked SA. -/
  | barrierArrival (n : Nat)
  /-- R236. An engine's byte credit reaches a barrier's home, or becomes STRAY. -/
  | barrierCredit (n : Nat)
  /-- R241. A wake reaches a parked BWAIT wave with OK or INVALIDATED. -/
  | barrierWake (n : Nat)
  /-- R179. A core's work request is answered by splitting a pool task or stealing a local range. -/
  | workRequest (core : Nat)
  /-- R179. An empty shadow slot is filled from the core's own local range 4 cycles later. -/
  | localSlotFill (core : Nat)
  /-- R182. The master moves the best task held on another die to the asking die's pool. -/
  | masterTaskRequest (die : Nat)
  /-- R181. A grid's deferred GROW range joins the pools once no other index is pending. -/
  | deferredRangeJoin (grid : Nat)
  /-- R185. A shadow slot's prefetch completes and its group's waves take their slots. -/
  | groupRunnable (core : Nat) (slot : Nat)
  /-- R185. 2,000 cycles after filling, a shadow slot's group becomes runnable regardless. -/
  | prefetchTimeout (core : Nat) (slot : Nat)
  /-- R190. A ready wave waiting 512 cycles displaces the lowest-priority window wave. -/
  | windowRotate (core : Nat)
  /-- R144. The distributor's or queue home's reply to LAUNCH, GROW or EMIT arrives at the wave. -/
  | distributorReply (n : Nat)
  /-- R135. A group's scratch is released once its waves and engine writes are done, invalidating waiters. -/
  | scratchRelease (group : Nat)
  /-- R140. A draining grid retires: stores visible, completion record, CBAR credit. -/
  | gridRetire (grid : Nat)
  /-- R150. A graph-node batch becomes ready QT cycles after its first slot was written. -/
  | batchTimeout (grid : Nat)
  /-- R372. A HIT message is queued, held back, or dropped setting HDROP. -/
  | hitRecordArrive (n : Nat)
  /-- R372. HQT cycles after the oldest record, a shading wave may launch with fewer than 32 records. -/
  | hqtTimeout (core : Nat)
  /-- R372. A shading wave is launched from queued hit records onto available resources. -/
  | shadingWaveLaunch (core : Nat)
  /-- R290. A channel's head request starts, consuming a gate event if gated. -/
  | ladleRequestStart (core : Nat) (ch : Nat)
  /-- R291. A ladle write is acknowledged, advancing the watermark and credits. -/
  | ladleWriteAck (core : Nat) (ch : Nat) (bytes : Nat)
  /-- R291. A request completes: watermark, credits, arrival, event, DONE. -/
  | ladleComplete (core : Nat) (ch : Nat)
  /-- R292. A translation, ECC or write error aborts a request and posts a message. -/
  | ladleAbort (core : Nat) (ch : Nat) (code : Nat) (info : Nat)
  /-- R302. A fired event reaches its sinks, adding to CNT or setting OVF. -/
  | eventArrive (n : Nat)
  /-- R316. The arbiter grants an eligible reservation entry the press. -/
  | pressGrant (vat : Nat)
  /-- R318. A press operation completes: NPASS, NONFIN, event. -/
  | pressOpComplete (vat : Nat)
  /-- R309. A STOPPING context, its operations done, releases windows and becomes FREE. -/
  | contextFree (vat : Nat) (ctx : Nat)
  /-- R340. A stalled port re-reads TAIL every 64 cycles while the ring stays full. -/
  | spillTailReread (vat : Nat)
  /-- R346. The harp starts its next request, consuming a gate event if gated. -/
  | harpStart (vat : Nat)
  /-- R350. A harp request completes with credits, arrival and event. -/
  | harpComplete (vat : Nat)
  /-- R351. A harp request aborts and posts a fault message. -/
  | harpAbort (vat : Nat) (code : Nat) (info : Nat)
  /-- R352. A shipped index sub-list is gathered by the harp on the home die and returned. -/
  | harpShip (vat : Nat) (ok : Bool)
  /-- R368. A RAY message is accepted into the inbox, held back, or forwarded to the directory. -/
  | rayArrive (n : Nat)
  /-- R368. An overflow-ring ray is re-injected when the RAY queue has room. -/
  | rayReinject (core : Nat)
  /-- R365. A ray reaches its directory controller and pends, goes to the owner, starts a page-in or returns LOST. -/
  | dirRay (n : Nat)
  /-- R365. A heat report raises HEAT and may start a replica copy. -/
  | dirHeatReport (n : Nat)
  /-- R365. A TLREQ message is handled by the entry's state. -/
  | dirTlreq (n : Nat)
  /-- R365. A TLEVICT or policy eviction clears a replica or moves ownership. -/
  | dirTlevict (n : Nat)
  /-- R366. A page-in lands: the entry becomes RESIDENT and pending rays go to the owner. -/
  | pageInDone (tid : Nat)
  /-- R355. A header check fails: the entry becomes INVALID and rays are returned LOST. -/
  | pageInFail (tid : Nat)
  /-- R365. A replica copy lands and takes a REPL slot. -/
  | replicaCopyDone (tid : Nat)
  /-- R365. The owner confirms eviction and the entry returns to COLD. -/
  | evictConfirm (tid : Nat)
  /-- R367. A route query reaches the directory controller and is answered. -/
  | routeQuery (n : Nat)
  /-- R367. A route reply fills the core's route-cache entry. -/
  | routeReply (n : Nat)
  /-- R366. A PAGE message of treelet data lands at the host core. -/
  | pageTransfer (n : Nat)
  /-- R381. The directory's reply to TLREQ or TLEVICT reaches the parked wave. -/
  | tlreqReply (n : Nat)
  /-- R386. PHASE-START reaches a tile, moving an armed port to RUN. -/
  | phaseStart (n : Nat)
  /-- R386. A claim or free broadcast updates a tile's copy of a domain's OWNER. -/
  | domainBroadcast (n : Nat)
  /-- R389. At its exchange cycle a queued TX slot sends one beat. -/
  | exchBeatSend (core : Nat)
  /-- R389. An RX beat is landed and credited, or discarded and counted in DROP. -/
  | exchBeatArrive (n : Nat)
  /-- R384. 8 cycles after a drop, the sender's COLL flag is set. -/
  | exchCollReport (n : Nat)
  /-- R389. XC reaches PLEN and the port becomes DONE. -/
  | exchPhaseEnd (core : Nat)
  /-- R406. A fault message reaches the die mailbox and is accepted or refused. -/
  | mailboxMessage (n : Nat)
  /-- R406. A refused message is sent again 1,024 cycles later. -/
  | mailboxRetry (n : Nat)
  /-- R404. A timed wait exceeding LIMIT x 65,536 cycles raises WATCHDOG. -/
  | watchdogExpire (wave : Nat)
  /-- R408. An uncorrectable error on write-back or scrub posts a slice message. The line starts at a multiple of 128; an odd
  `pa` stands for an error in it that was corrected, which is counted (R403). -/
  | sliceEccError (tile : Nat) (pa : Nat)
  /-- R408. A mesh link is found dead; its traffic is answered with errors and a message posted. -/
  | linkDead (tile : Nat) (dir : Nat) (count : Nat)
  /-- R417. A group's save finishes writing its image and frees its resources. -/
  | saveComplete (n : Nat)
  /-- R424. A restore task is taken by a core and the group is rebuilt from its image. -/
  | restore (core : Nat) (n : Nat)
  /-- R441. A lease sync message disciplines a die's TIME towards the reference. -/
  | leaseSync (die : Nat) (ahead : Bool)
  /-- R441. A die unable to confirm its bound for 50 us is fenced. -/
  | leaseBoundTimeout (die : Nat)
  /-- R444. A die is fenced: it stops, survivors are notified, state is cleaned and indices reissued. -/
  | dieFence (dies : List Nat) (cut : Bool)
  /-- R446. A distributor journal entry reaches the master. -/
  | journalEntry (n : Nat)
  /-- R454. A 64-byte write to a launch slot submits a host grid record. -/
  | launchSlotSubmit (slot : Nat) (record : List (BitVec 64))
  /-- R453. A write-one-to-clear of SLOTERR bits. -/
  | sloterrClear (mask : BitVec 64)
  /-- R456. TGCTL GO starts a host write of a granule with its tag. -/
  | taggedWrite (tag : Bool)
  /-- R456. The tagged write is acknowledged and BUSY clears. -/
  | taggedWriteDone
  /-- R456. A TLBINV write starts invalidation of matching translations. -/
  | tlbInvalidate (value : BitVec 64)
  /-- R456. Every TLB has dropped the translations and TLBINV.BUSY clears. -/
  | tlbInvalidateDone
  /-- R467. DEVCTL warm reset kills every grid and repeats bring-up steps 4 to 7. -/
  | warmReset
  /-- R460. A write to a BAR0, BAR2 or side-band map register without behaviour of its own. -/
  | registerWrite (bar2 : Bool) (off : Nat) (value : BitVec 64)
  /-- R274. A host CXL.mem read is served at the home slice. -/
  | hostMemRead (pa : Nat) (len : Nat)
  /-- R274. A host CXL.mem write takes effect at the home slice. -/
  | hostMemWrite (pa : Nat) (bytes : List (BitVec 8))
  /-- R458. A completion record is written to the event ring once there is room and HEAD advances. -/
  | completionRecordWrite (grid : Nat)
  /-- R459. An MSI-X vector fires ITIME ns after its oldest pending record. -/
  | vectorTimeFire (v : Nat)
  /-- R462. A supply droop stretches the vat's clock until recovery. -/
  | droopDetect (vat : Nat)
  /-- R462. The supply recovers and the clock stretch ends. -/
  | droopRecover (vat : Nat)
  /-- R462. Core-rail current above 3,500 A or 4,000 A limits pass rate or halves clocks. -/
  | currentLimit (package : Nat) (amps : Nat)
  /-- R462. A vat at 105 C runs at half clock; at 115 C it fences its die. -/
  | thermalLimit (vat : Nat) (eighths : Int)
  /-- R465. Every 1 ms the temperatures and rail voltages and currents are sampled. -/
  | sensorSample (vat : Nat) (eighths : Int)
  /-- R463. An update writes the inactive bank and verifies digest, signature and version. -/
  | firmwareUpdate (image : List (BitVec 8)) (version : Nat)
  /-- R463. A booted bank not ready within 2 s is abandoned for the other bank. -/
  | bootTimeout
  /-- R464. An attestation request is answered with signed measurements and the nonce. -/
  | attestation (nonce : List (BitVec 8))
  /-- R467. Standby power starts bring-up, which runs steps 1 to 7 in order. -/
  | standbyPowerOn
  /-- R361. A GETS of RAYSTAT returns it and clears HDROP. -/
  | raystatRead (d : BitVec 6)
  /-- R183. A repair in the field removes a core's lane groups, register blocks, slots or scratch, or fences it (PRES = 0), and the core reports its new capacity word. -/
  | fieldRepair (core : Nat) (capacity : BitVec 64)
deriving DecidableEq, Repr

end Sys2Proof
end

