-- ==== Sys2Proof/Word.lean ====
section
/-! DEFINITION. The word types, sparse tables and the plainest arithmetic on them. -/

namespace Sys2Proof

abbrev Word := BitVec 64
abbrev W32 := BitVec 32
abbrev Byte := BitVec 8

/-- A sparse table: values by number, with a default for every number it does not list. Kept with
rising keys; an entry equal to the default is left out by `put`. -/
abbrev Tbl (α : Type) := List (Nat × α)

/-- The value of number `n`. -/
def Tbl.get {α : Type} (d : α) : Tbl α → Nat → α
  | [], _ => d
  | (k, v) :: t, n => if n = k then v else Tbl.get d t n

/-- The value of number `n`, if it is listed. -/
def Tbl.get? {α : Type} : Tbl α → Nat → Option α
  | [], _ => none
  | (k, v) :: t, n => if n = k then some v else Tbl.get? t n

/-- List `x` under `n`, in the place its key has. -/
def Tbl.set {α : Type} : Tbl α → Nat → α → Tbl α
  | [], n, x => [(n, x)]
  | (k, v) :: t, n, x =>
    if n < k then (n, x) :: (k, v) :: t
    else if n = k then (n, x) :: t
    else (k, v) :: Tbl.set t n x

/-- Leave `n` out, so that it reads as the default. -/
def Tbl.erase {α : Type} : Tbl α → Nat → Tbl α
  | [], _ => []
  | (k, v) :: t, n => if n = k then Tbl.erase t n else (k, v) :: Tbl.erase t n

/-- Write `x` under `n`: an entry that would equal the default is left out. -/
def Tbl.put {α : Type} [DecidableEq α] (d : α) (t : Tbl α) (n : Nat) (x : α) : Tbl α :=
  if x = d then Tbl.erase t n else Tbl.set t n x

/-- Keys strictly rising. -/
def Tbl.rising {α : Type} : Tbl α → Bool
  | [] => true
  | (k, _) :: t => (t.all fun e => decide (k < e.1)) && Tbl.rising t

/-- The canonical form: keys strictly rising and no entry equal to the default. -/
def Tbl.wf {α : Type} [DecidableEq α] (d : α) (t : Tbl α) : Bool :=
  Tbl.rising t && t.all fun e => decide (e.2 ≠ d)

/-- The `len` bits of `w` from bit `lo`, as a number. -/
def fld {n : Nat} (w : BitVec n) (lo len : Nat) : Nat := w.toNat / 2 ^ lo % 2 ^ len

/-- Bit `n` of `w`. -/
def bit {k : Nat} (w : BitVec k) (n : Nat) : Bool := w.toNat.testBit n

/-- `x` replaced by `v` in the `len` bits from bit `lo`. -/
def setFld {n : Nat} (w : BitVec n) (lo len v : Nat) : BitVec n :=
  BitVec.ofNat n (w.toNat % 2 ^ lo + v % 2 ^ len * 2 ^ lo + w.toNat / 2 ^ (lo + len) * 2 ^ (lo + len))

/-- The `n`-bit number `x` read as two's complement. -/
def signed (n x : Nat) : Int := if x % 2 ^ n < 2 ^ (n - 1) then (x % 2 ^ n : Nat) else (x % 2 ^ n : Nat) - (2 ^ n : Nat)

/-- 1 for true. -/
def b2n (b : Bool) : Nat := if b then 1 else 0

/-- An integer taken modulo `2 ^ n`. -/
def wrap (n : Nat) (x : Int) : BitVec n := BitVec.ofInt n x

/-- The bytes of `x`, `n` of them, least significant first. -/
def bytesOf : Nat → Nat → List Byte
  | 0, _ => []
  | n + 1, x => BitVec.ofNat 8 x :: bytesOf n (x / 256)

/-- The number whose little-endian bytes are given. -/
def ofBytes : List Byte → Nat
  | [] => 0
  | b :: t => b.toNat + 256 * ofBytes t

/-- The least member of a list of numbers, or the given one. -/
def minOr (d : Nat) (l : List Nat) : Nat := match l with
  | [] => d
  | x :: t => t.foldl min x

/-- Remove the entry at place `n`. -/
def dropAt {α : Type} (l : List α) (n : Nat) : List α := l.take n ++ l.drop (n + 1)

/-- Change the entry at place `n`. -/
def modifyAt {α : Type} (l : List α) (n : Nat) (f : α → α) : List α :=
  match l, n with
  | [], _ => []
  | x :: t, 0 => f x :: t
  | x :: t, n + 1 => x :: modifyAt t n f

/-- The place of the first entry for which `p` holds. -/
def place {α : Type} (p : α → Bool) : List α → Option Nat
  | [] => none
  | x :: t => if p x then some 0 else (place p t).map (· + 1)

end Sys2Proof
end

