-- ==== Sys2Proof/WellFormed.lean ====
section
/-! DEFINITION. The limits on the fields of an instruction that its word alone decides (02 R47, R49 to
R51, R60, R61, R63 items 2 and 3). -/

namespace Sys2Proof

/-- The instruction keeps the limits of its fields; a step of another agent has none. -/
def wellFormed : Instr → Bool
  | .slli _ _ w s => decide (w = 0 ∨ s.toNat < 32)
  | .srli _ _ w s => decide (w = 0 ∨ s.toNat < 32)
  | .srai _ _ w s => decide (w = 0 ∨ s.toNat < 32)
  | .cfld _ _ s => decide (s.toNat < 8)
  | .fadd _ _ _ m => decide (m ≠ 6)
  | .fsub _ _ _ m => decide (m ≠ 6)
  | .fmul _ _ _ m => decide (m ≠ 6)
  | .ffma _ _ _ m => decide (m ≠ 6)
  | .fdiv _ _ _ m => decide (m ≠ 6)
  | .fsqrt _ _ m => decide (m ≠ 6)
  | .fcmp _ _ _ p => decide (p ≠ 7)
  | .fcvt _ _ c m => decide (m ≠ 6 ∧ c.toNat < 8)
  | .fsgn _ _ _ p => decide (p.toNat < 3)
  | .vfcvt _ _ _ r c => decide (r ≠ 6 ∧ c.toNat < 12)
  | .vldmc _ _ _ _ q => decide (q ≠ 0)
  | .fence _ _ s => decide (s ≠ 7)
  | .rel _ _ s => decide (s ≠ 7)
  | .acq _ _ s => decide (s ≠ 7)
  | .acqp _ _ _ s => decide (3 ≤ s.toNat ∧ s.toNat < 7)
  | .cgete _ _ b => decide (b.toNat < 4)
  | .cbind _ a => decide (a.toNat < 8)
  | .cunbind a => decide (a.toNat < 8)
  | .spop _ a => decide (a.toNat < 8)
  | .vspop _ a => decide (a.toNat < 8)
  | .pset a _ => decide (a.toNat < 16)
  | .pget _ a => decide (a.toNat < 16)
  | .mbxpop d => decide (1 ≤ d.toNat ∧ d.toNat ≤ 60)
  | .gpreempt _ a => decide (1 ≤ a.toNat ∧ a.toNat ≤ 62)
  | .illegalInstruction _ => true
  | .add _ _ _ _ => true
  | .sub _ _ _ _ => true
  | .mul _ _ _ _ => true
  | .mulh _ _ _ _ => true
  | .mulhu _ _ _ _ => true
  | .div _ _ _ _ => true
  | .divu _ _ _ _ => true
  | .rem _ _ _ _ => true
  | .remu _ _ _ _ => true
  | .and _ _ _ _ => true
  | .or _ _ _ _ => true
  | .xor _ _ _ _ => true
  | .andn _ _ _ _ => true
  | .sll _ _ _ _ => true
  | .srl _ _ _ _ => true
  | .sra _ _ _ _ => true
  | .ror _ _ _ _ => true
  | .min _ _ _ _ => true
  | .max _ _ _ _ => true
  | .minu _ _ _ _ => true
  | .maxu _ _ _ _ => true
  | .slt _ _ _ _ => true
  | .sltu _ _ _ _ => true
  | .seq _ _ _ _ => true
  | .sne _ _ _ _ => true
  | .clz _ _ _ => true
  | .ctz _ _ _ => true
  | .popc _ _ _ => true
  | .brev _ _ _ => true
  | .addi _ _ _ => true
  | .andi _ _ _ => true
  | .ori _ _ _ => true
  | .xori _ _ _ => true
  | .slti _ _ _ => true
  | .sltiu _ _ _ => true
  | .lui _ _ => true
  | .auipc _ _ => true
  | .beq _ _ _ => true
  | .bne _ _ _ => true
  | .blt _ _ _ => true
  | .bge _ _ _ => true
  | .bltu _ _ _ => true
  | .bgeu _ _ _ => true
  | .btag _ _ => true
  | .bntag _ _ => true
  | .jal _ _ => true
  | .jalr _ _ => true
  | .ldB _ _ _ _ _ => true
  | .ldH _ _ _ _ _ => true
  | .ldW _ _ _ _ _ => true
  | .ldD _ _ _ _ _ => true
  | .stB _ _ _ _ _ => true
  | .stH _ _ _ _ _ => true
  | .stW _ _ _ _ _ => true
  | .stD _ _ _ _ _ => true
  | .cinc _ _ _ => true
  | .csetb _ _ _ => true
  | .cperm _ _ _ => true
  | .cfmt _ _ _ => true
  | .ctest _ _ => true
  | .cclrt _ _ => true
  | .csubc _ _ _ => true
  | .cinci _ _ _ => true
  | .csetbi _ _ _ => true
  | .ldc _ _ _ _ _ => true
  | .stc _ _ _ _ _ => true
  | .fmin _ _ _ => true
  | .fmax _ _ _ => true
  | .fclass _ _ => true
  | .vadd _ _ _ => true
  | .vsub _ _ _ => true
  | .vmul _ _ _ => true
  | .vmulh _ _ _ => true
  | .vmad _ _ _ => true
  | .vand _ _ _ => true
  | .vor _ _ _ => true
  | .vxor _ _ _ => true
  | .vandn _ _ _ => true
  | .vshl _ _ _ => true
  | .vshr _ _ _ => true
  | .vsra _ _ _ => true
  | .vmin _ _ _ => true
  | .vmax _ _ _ => true
  | .vminu _ _ _ => true
  | .vmaxu _ _ _ => true
  | .vabs _ _ => true
  | .vsel _ _ _ => true
  | .vmov _ _ => true
  | .vcmpEq _ _ _ => true
  | .vcmpNe _ _ _ => true
  | .vcmpLt _ _ _ => true
  | .vcmpGe _ _ _ => true
  | .vcmpLtu _ _ _ => true
  | .vcmpGeu _ _ _ => true
  | .vaddi _ _ _ => true
  | .vshli _ _ _ => true
  | .vshri _ _ _ => true
  | .vsrai _ _ _ => true
  | .vandi _ _ _ => true
  | .vori _ _ _ => true
  | .vxori _ _ _ => true
  | .vmovi _ _ => true
  | .vbcst _ _ => true
  | .vshfl _ _ _ => true
  | .vrot _ _ _ => true
  | .vredAdd _ _ => true
  | .vredMin _ _ => true
  | .vredMax _ _ => true
  | .vredMinu _ _ => true
  | .vredMaxu _ _ => true
  | .vredAnd _ _ => true
  | .vredOr _ _ => true
  | .vredXor _ _ => true
  | .vredFadd _ _ => true
  | .vredFmin _ _ => true
  | .vredFmax _ _ => true
  | .vballot _ _ => true
  | .vpopc _ _ => true
  | .vfirst _ _ => true
  | .vextr _ _ _ => true
  | .vins _ _ _ => true
  | .vperm _ _ _ => true
  | .vscanAdd _ _ => true
  | .vscanFadd _ _ => true
  | .vscanMin _ _ => true
  | .vscanMax _ _ => true
  | .vlane _ => true
  | .vfadd _ _ _ => true
  | .vfsub _ _ _ => true
  | .vfmul _ _ _ => true
  | .vfma _ _ _ => true
  | .vfmin _ _ _ => true
  | .vfmax _ _ _ => true
  | .vfdiv _ _ _ => true
  | .vfsqrt _ _ => true
  | .vrcp _ _ => true
  | .vrsq _ _ => true
  | .vexp2 _ _ => true
  | .vlog2 _ _ => true
  | .vsin _ _ => true
  | .vcos _ _ => true
  | .vfclass _ _ => true
  | .vfcmpEq _ _ _ => true
  | .vfcmpNe _ _ _ => true
  | .vfcmpLt _ _ _ => true
  | .vfcmpLe _ _ _ => true
  | .vfcmpGt _ _ _ => true
  | .vfcmpGe _ _ _ => true
  | .vfcmpUn _ _ _ => true
  | .vbadd2 _ _ _ => true
  | .vbmul2 _ _ _ => true
  | .vbfma2 _ _ _ => true
  | .vpk _ _ _ => true
  | .vunpkLo _ _ => true
  | .vunpkHi _ _ => true
  | .vdot4I8 _ _ _ => true
  | .vdot4Ui8 _ _ _ => true
  | .vdotb _ _ _ => true
  | .vif _ => true
  | .velse => true
  | .vendif => true
  | .vloop => true
  | .vbrk _ => true
  | .vcont _ => true
  | .vendl _ => true
  | .vany _ _ => true
  | .vnone _ _ => true
  | .rep _ _ _ _ _ _ => true
  | .vrebal _ _ _ => true
  | .vplane _ _ _ => true
  | .vld _ _ _ _ _ => true
  | .vst _ _ _ _ _ => true
  | .atomAdd _ _ _ _ => true
  | .atomMin _ _ _ _ => true
  | .atomMax _ _ _ _ => true
  | .atomMinu _ _ _ _ => true
  | .atomMaxu _ _ _ _ => true
  | .atomAnd _ _ _ _ => true
  | .atomOr _ _ _ _ => true
  | .atomXor _ _ _ _ => true
  | .atomSwap _ _ _ _ => true
  | .acas _ _ _ _ => true
  | .atomAddW _ _ _ _ => true
  | .atomMinW _ _ _ _ => true
  | .atomMaxW _ _ _ _ => true
  | .atomMinuW _ _ _ _ => true
  | .atomMaxuW _ _ _ _ => true
  | .atomAndW _ _ _ _ => true
  | .atomOrW _ _ _ _ => true
  | .atomXorW _ _ _ _ => true
  | .atomSwapW _ _ _ _ => true
  | .atomFaddW _ _ _ _ => true
  | .atomBfadd2W _ _ _ _ => true
  | .acasW _ _ _ _ => true
  | .dqpush _ _ _ _ => true
  | .dqpop _ _ _ => true
  | .dqsteal _ _ _ => true
  | .vatomAdd _ _ _ _ _ => true
  | .vatomMin _ _ _ _ _ => true
  | .vatomMax _ _ _ _ _ => true
  | .vatomMinu _ _ _ _ _ => true
  | .vatomMaxu _ _ _ _ _ => true
  | .vatomAnd _ _ _ _ _ => true
  | .vatomOr _ _ _ _ _ => true
  | .vatomXor _ _ _ _ _ => true
  | .vatomSwap _ _ _ _ _ => true
  | .vatomFadd _ _ _ _ => true
  | .vatomBfadd2 _ _ _ _ => true
  | .vacas _ _ _ _ _ => true
  | .binit _ _ _ => true
  | .barv _ => true
  | .bexp _ _ => true
  | .bwait _ _ _ => true
  | .btry _ _ _ => true
  | .binv _ _ => true
  | .zfill _ _ => true
  | .cqpush _ _ _ _ => true
  | .cqtry _ _ _ _ => true
  | .cset _ _ _ => true
  | .ccancel _ _ => true
  | .evset _ _ => true
  | .evclr _ _ => true
  | .evrd _ _ => true
  | .evsig _ => true
  | .pres _ _ => true
  | .prel _ => true
  | .ppass _ _ => true
  | .pjoin _ _ => true
  | .pdrainO _ => true
  | .pdrainU _ => true
  | .pclr _ => true
  | .mstart _ _ _ => true
  | .mstop _ _ => true
  | .hgath _ _ => true
  | .hcsr _ _ => true
  | .hscat _ _ => true
  | .rrecv _ _ _ => true
  | .rsend _ _ _ => true
  | .rhit _ _ => true
  | .rbox4 _ _ _ => true
  | .rtri _ _ _ => true
  | .rroute _ _ _ => true
  | .tlreq _ _ _ => true
  | .tlevict _ _ => true
  | .hqbind _ _ _ => true
  | .dbar _ _ _ => true
  | .xph _ _ _ => true
  | .xmit _ _ _ => true
  | .xsel _ _ => true
  | .xrecv _ _ _ => true
  | .xend _ _ => true
  | .xslots _ _ _ => true
  | .nop => true
  | .gets _ _ => true
  | .sets _ _ => true
  | .cwait _ _ _ _ => true
  | .yield => true
  | .trap _ => true
  | .bkpt _ => true
  | .exit => true
  | .invl1 => true
  | .invi => true
  | .launch _ _ => true
  | .grow _ _ _ => true
  | .emit _ _ _ => true
  | .wresume _ => true
  | .wkill _ => true
  | .gkill _ => true
  | .dbghalt _ => true
  | .dbgrun _ => true
  | .sgbIdleDrain _ _ => true
  | .sgbDrainAck _ _ _ => true
  | .mreqRead _ => true
  | .mreqWrite _ _ => true
  | .mreqAtomic _ _ => true
  | .scratchRequest _ => true
  | .loadReply _ _ _ => true
  | .storeAck _ => true
  | .pageWalkDone _ _ _ => true
  | .multicastSend _ => true
  | .leaseWaitDone _ => true
  | .promote _ => true
  | .promotionDone _ => true
  | .promoteReply _ => true
  | .barrierArrival _ => true
  | .barrierCredit _ => true
  | .barrierWake _ => true
  | .workRequest _ => true
  | .localSlotFill _ => true
  | .masterTaskRequest _ => true
  | .deferredRangeJoin _ => true
  | .groupRunnable _ _ => true
  | .prefetchTimeout _ _ => true
  | .windowRotate _ => true
  | .distributorReply _ => true
  | .scratchRelease _ => true
  | .gridRetire _ => true
  | .batchTimeout _ => true
  | .hitRecordArrive _ => true
  | .hqtTimeout _ => true
  | .shadingWaveLaunch _ => true
  | .ladleRequestStart _ _ => true
  | .ladleWriteAck _ _ _ => true
  | .ladleComplete _ _ => true
  | .ladleAbort _ _ _ _ => true
  | .eventArrive _ => true
  | .pressGrant _ => true
  | .pressOpComplete _ => true
  | .contextFree _ _ => true
  | .spillTailReread _ => true
  | .harpStart _ => true
  | .harpComplete _ => true
  | .harpAbort _ _ _ => true
  | .harpShip _ _ => true
  | .rayArrive _ => true
  | .rayReinject _ => true
  | .dirRay _ => true
  | .dirHeatReport _ => true
  | .dirTlreq _ => true
  | .dirTlevict _ => true
  | .pageInDone _ => true
  | .pageInFail _ => true
  | .replicaCopyDone _ => true
  | .evictConfirm _ => true
  | .routeQuery _ => true
  | .routeReply _ => true
  | .pageTransfer _ => true
  | .tlreqReply _ => true
  | .phaseStart _ => true
  | .domainBroadcast _ => true
  | .exchBeatSend _ => true
  | .exchBeatArrive _ => true
  | .exchCollReport _ => true
  | .exchPhaseEnd _ => true
  | .mailboxMessage _ => true
  | .mailboxRetry _ => true
  | .watchdogExpire _ => true
  | .sliceEccError _ _ => true
  | .linkDead _ _ _ => true
  | .saveComplete _ => true
  | .restore _ _ => true
  | .leaseSync _ _ => true
  | .leaseBoundTimeout _ => true
  | .dieFence _ _ => true
  | .journalEntry _ => true
  | .launchSlotSubmit _ _ => true
  | .sloterrClear _ => true
  | .taggedWrite _ => true
  | .taggedWriteDone => true
  | .tlbInvalidate _ => true
  | .tlbInvalidateDone => true
  | .warmReset => true
  | .registerWrite _ _ _ => true
  | .hostMemRead _ _ => true
  | .hostMemWrite _ _ => true
  | .completionRecordWrite _ => true
  | .vectorTimeFire _ => true
  | .droopDetect _ => true
  | .droopRecover _ => true
  | .currentLimit _ _ => true
  | .thermalLimit _ _ => true
  | .sensorSample _ _ => true
  | .firmwareUpdate _ _ => true
  | .bootTimeout => true
  | .attestation _ => true
  | .standbyPowerOn => true
  | .raystatRead _ => true
  | .fieldRepair _ _ => true

end Sys2Proof
end

