-- ==== Sys2Proof/Decode.lean ====
section
/-! DEFINITION. The decoder of instruction words, total, rejecting by name (02 R45 to R63), and the
encoder written from the same maps. -/

namespace Sys2Proof

/-- Why a word is no instruction (02 R63). Safe: each is the ILLEGAL the spec raises. -/
inductive DecodeError where
  /-- R63 item 1: a word or a major opcode that is always illegal, unassigned or reserved. -/
  | unassigned
  /-- R63 item 2: a reserved function, condition, scope, mode, conversion or operation value. -/
  | reserved
  /-- R63 item 3: a field that must be zero is not. -/
  | nonzeroField
  /-- R63 items 2 and 3: an immediate, a mode or a register field outside its stated limit. -/
  | outOfRange
deriving DecidableEq, Repr

/-- The field of `len` bits from bit `lo` of the word. -/
def opnd (w : W32) (lo len : Nat) : BitVec len := BitVec.ofNat len (w.toNat / 2 ^ lo)

/-- The instruction `i`, if the fields listed (from bit, length) are zero and `i` keeps its limits. -/
def accept (w : W32) (zs : List (Nat × Nat)) (i : Instr) : Except DecodeError Instr :=
  if zs.all (fun z => fld w z.1 z.2 = 0) then
    if wellFormed i then .ok i else .error .outOfRange
  else .error .nonzeroField

/-- Major 0x01. -/
def decode01 (w : W32) : Except DecodeError Instr :=
  match fld w 0 6 with
  | 0 => accept w [(7, 1)] (.add (opnd w 20 6) (opnd w 14 6) (opnd w 8 6) (opnd w 6 1))
  | 1 => accept w [(7, 1)] (.sub (opnd w 20 6) (opnd w 14 6) (opnd w 8 6) (opnd w 6 1))
  | 2 => accept w [(7, 1)] (.mul (opnd w 20 6) (opnd w 14 6) (opnd w 8 6) (opnd w 6 1))
  | 3 => accept w [(7, 1)] (.mulh (opnd w 20 6) (opnd w 14 6) (opnd w 8 6) (opnd w 6 1))
  | 4 => accept w [(7, 1)] (.mulhu (opnd w 20 6) (opnd w 14 6) (opnd w 8 6) (opnd w 6 1))
  | 5 => accept w [(7, 1)] (.div (opnd w 20 6) (opnd w 14 6) (opnd w 8 6) (opnd w 6 1))
  | 6 => accept w [(7, 1)] (.divu (opnd w 20 6) (opnd w 14 6) (opnd w 8 6) (opnd w 6 1))
  | 7 => accept w [(7, 1)] (.rem (opnd w 20 6) (opnd w 14 6) (opnd w 8 6) (opnd w 6 1))
  | 8 => accept w [(7, 1)] (.remu (opnd w 20 6) (opnd w 14 6) (opnd w 8 6) (opnd w 6 1))
  | 9 => accept w [(7, 1)] (.and (opnd w 20 6) (opnd w 14 6) (opnd w 8 6) (opnd w 6 1))
  | 10 => accept w [(7, 1)] (.or (opnd w 20 6) (opnd w 14 6) (opnd w 8 6) (opnd w 6 1))
  | 11 => accept w [(7, 1)] (.xor (opnd w 20 6) (opnd w 14 6) (opnd w 8 6) (opnd w 6 1))
  | 12 => accept w [(7, 1)] (.andn (opnd w 20 6) (opnd w 14 6) (opnd w 8 6) (opnd w 6 1))
  | 13 => accept w [(7, 1)] (.sll (opnd w 20 6) (opnd w 14 6) (opnd w 8 6) (opnd w 6 1))
  | 14 => accept w [(7, 1)] (.srl (opnd w 20 6) (opnd w 14 6) (opnd w 8 6) (opnd w 6 1))
  | 15 => accept w [(7, 1)] (.sra (opnd w 20 6) (opnd w 14 6) (opnd w 8 6) (opnd w 6 1))
  | 16 => accept w [(7, 1)] (.ror (opnd w 20 6) (opnd w 14 6) (opnd w 8 6) (opnd w 6 1))
  | 17 => accept w [(7, 1)] (.min (opnd w 20 6) (opnd w 14 6) (opnd w 8 6) (opnd w 6 1))
  | 18 => accept w [(7, 1)] (.max (opnd w 20 6) (opnd w 14 6) (opnd w 8 6) (opnd w 6 1))
  | 20 => accept w [(7, 1)] (.minu (opnd w 20 6) (opnd w 14 6) (opnd w 8 6) (opnd w 6 1))
  | 21 => accept w [(7, 1)] (.maxu (opnd w 20 6) (opnd w 14 6) (opnd w 8 6) (opnd w 6 1))
  | 22 => accept w [(7, 1)] (.slt (opnd w 20 6) (opnd w 14 6) (opnd w 8 6) (opnd w 6 1))
  | 23 => accept w [(7, 1)] (.sltu (opnd w 20 6) (opnd w 14 6) (opnd w 8 6) (opnd w 6 1))
  | 24 => accept w [(7, 1)] (.seq (opnd w 20 6) (opnd w 14 6) (opnd w 8 6) (opnd w 6 1))
  | 25 => accept w [(7, 1)] (.sne (opnd w 20 6) (opnd w 14 6) (opnd w 8 6) (opnd w 6 1))
  | 26 => accept w [(7, 7)] (.clz (opnd w 20 6) (opnd w 14 6) (opnd w 6 1))
  | 27 => accept w [(7, 7)] (.ctz (opnd w 20 6) (opnd w 14 6) (opnd w 6 1))
  | 28 => accept w [(7, 7)] (.popc (opnd w 20 6) (opnd w 14 6) (opnd w 6 1))
  | 29 => accept w [(7, 7)] (.brev (opnd w 20 6) (opnd w 14 6) (opnd w 6 1))
  | _ => .error .reserved

/-- Major 0x0D. -/
def decode0D (w : W32) : Except DecodeError Instr :=
  match fld w 11 3 with
  | 0 => accept w [] (.beq (opnd w 20 6) (opnd w 14 6) (opnd w 0 11))
  | 1 => accept w [] (.bne (opnd w 20 6) (opnd w 14 6) (opnd w 0 11))
  | 2 => accept w [] (.blt (opnd w 20 6) (opnd w 14 6) (opnd w 0 11))
  | 3 => accept w [] (.bge (opnd w 20 6) (opnd w 14 6) (opnd w 0 11))
  | 4 => accept w [] (.bltu (opnd w 20 6) (opnd w 14 6) (opnd w 0 11))
  | 5 => accept w [] (.bgeu (opnd w 20 6) (opnd w 14 6) (opnd w 0 11))
  | 6 => accept w [(14, 6)] (.btag (opnd w 20 6) (opnd w 0 11))
  | 7 => accept w [(14, 6)] (.bntag (opnd w 20 6) (opnd w 0 11))
  | _ => .error .reserved

/-- Major 0x18. -/
def decode18 (w : W32) : Except DecodeError Instr :=
  match fld w 0 8 with
  | 0 => accept w [] (.cinc (opnd w 20 6) (opnd w 14 6) (opnd w 8 6))
  | 1 => accept w [] (.csetb (opnd w 20 6) (opnd w 14 6) (opnd w 8 6))
  | 2 => accept w [] (.cperm (opnd w 20 6) (opnd w 14 6) (opnd w 8 6))
  | 3 => accept w [] (.cfmt (opnd w 20 6) (opnd w 14 6) (opnd w 8 6))
  | 4 => accept w [] (.cfld (opnd w 20 6) (opnd w 14 6) (opnd w 8 6))
  | 5 => accept w [(8, 6)] (.ctest (opnd w 20 6) (opnd w 14 6))
  | 6 => accept w [(8, 6)] (.cclrt (opnd w 20 6) (opnd w 14 6))
  | 7 => accept w [] (.csubc (opnd w 20 6) (opnd w 14 6) (opnd w 8 6))
  | _ => .error .reserved

/-- Major 0x1D. -/
def decode1D (w : W32) : Except DecodeError Instr :=
  match fld w 0 5 with
  | 0 => accept w [] (.fadd (opnd w 20 6) (opnd w 14 6) (opnd w 8 6) (opnd w 5 3))
  | 1 => accept w [] (.fsub (opnd w 20 6) (opnd w 14 6) (opnd w 8 6) (opnd w 5 3))
  | 2 => accept w [] (.fmul (opnd w 20 6) (opnd w 14 6) (opnd w 8 6) (opnd w 5 3))
  | 3 => accept w [] (.ffma (opnd w 20 6) (opnd w 14 6) (opnd w 8 6) (opnd w 5 3))
  | 4 => accept w [] (.fdiv (opnd w 20 6) (opnd w 14 6) (opnd w 8 6) (opnd w 5 3))
  | 5 => accept w [(8, 6)] (.fsqrt (opnd w 20 6) (opnd w 14 6) (opnd w 5 3))
  | 6 => accept w [(5, 3)] (.fmin (opnd w 20 6) (opnd w 14 6) (opnd w 8 6))
  | 7 => accept w [(5, 3)] (.fmax (opnd w 20 6) (opnd w 14 6) (opnd w 8 6))
  | 8 => accept w [] (.fcmp (opnd w 20 6) (opnd w 14 6) (opnd w 8 6) (opnd w 5 3))
  | 9 => accept w [] (.fcvt (opnd w 20 6) (opnd w 14 6) (opnd w 8 6) (opnd w 5 3))
  | 10 => accept w [(5, 9)] (.fclass (opnd w 20 6) (opnd w 14 6))
  | 11 => accept w [] (.fsgn (opnd w 20 6) (opnd w 14 6) (opnd w 8 6) (opnd w 5 3))
  | _ => .error .reserved

/-- Major 0x20. -/
def decode20 (w : W32) : Except DecodeError Instr :=
  match fld w 0 5 with
  | 0 => accept w [] (.vadd (opnd w 19 7) (opnd w 12 7) (opnd w 5 7))
  | 1 => accept w [] (.vsub (opnd w 19 7) (opnd w 12 7) (opnd w 5 7))
  | 2 => accept w [] (.vmul (opnd w 19 7) (opnd w 12 7) (opnd w 5 7))
  | 3 => accept w [] (.vmulh (opnd w 19 7) (opnd w 12 7) (opnd w 5 7))
  | 4 => accept w [] (.vmad (opnd w 19 7) (opnd w 12 7) (opnd w 5 7))
  | 5 => accept w [] (.vand (opnd w 19 7) (opnd w 12 7) (opnd w 5 7))
  | 6 => accept w [] (.vor (opnd w 19 7) (opnd w 12 7) (opnd w 5 7))
  | 7 => accept w [] (.vxor (opnd w 19 7) (opnd w 12 7) (opnd w 5 7))
  | 8 => accept w [] (.vandn (opnd w 19 7) (opnd w 12 7) (opnd w 5 7))
  | 9 => accept w [] (.vshl (opnd w 19 7) (opnd w 12 7) (opnd w 5 7))
  | 10 => accept w [] (.vshr (opnd w 19 7) (opnd w 12 7) (opnd w 5 7))
  | 11 => accept w [] (.vsra (opnd w 19 7) (opnd w 12 7) (opnd w 5 7))
  | 12 => accept w [] (.vmin (opnd w 19 7) (opnd w 12 7) (opnd w 5 7))
  | 13 => accept w [] (.vmax (opnd w 19 7) (opnd w 12 7) (opnd w 5 7))
  | 14 => accept w [] (.vminu (opnd w 19 7) (opnd w 12 7) (opnd w 5 7))
  | 15 => accept w [] (.vmaxu (opnd w 19 7) (opnd w 12 7) (opnd w 5 7))
  | 16 => accept w [(5, 7)] (.vabs (opnd w 19 7) (opnd w 12 7))
  | 17 => accept w [] (.vsel (opnd w 19 7) (opnd w 12 7) (opnd w 5 7))
  | 18 => accept w [(5, 7)] (.vmov (opnd w 19 7) (opnd w 12 7))
  | 20 => accept w [] (.vcmpEq (opnd w 19 7) (opnd w 12 7) (opnd w 5 7))
  | 21 => accept w [] (.vcmpNe (opnd w 19 7) (opnd w 12 7) (opnd w 5 7))
  | 22 => accept w [] (.vcmpLt (opnd w 19 7) (opnd w 12 7) (opnd w 5 7))
  | 23 => accept w [] (.vcmpGe (opnd w 19 7) (opnd w 12 7) (opnd w 5 7))
  | 24 => accept w [] (.vcmpLtu (opnd w 19 7) (opnd w 12 7) (opnd w 5 7))
  | 25 => accept w [] (.vcmpGeu (opnd w 19 7) (opnd w 12 7) (opnd w 5 7))
  | _ => .error .reserved

/-- Major 0x22. -/
def decode22 (w : W32) : Except DecodeError Instr :=
  match fld w 9 3 with
  | 0 => accept w [(5, 4)] (.vshli (opnd w 19 7) (opnd w 12 7) (opnd w 0 5))
  | 1 => accept w [(5, 4)] (.vshri (opnd w 19 7) (opnd w 12 7) (opnd w 0 5))
  | 2 => accept w [(5, 4)] (.vsrai (opnd w 19 7) (opnd w 12 7) (opnd w 0 5))
  | 3 => accept w [] (.vandi (opnd w 19 7) (opnd w 12 7) (opnd w 0 9))
  | 4 => accept w [] (.vori (opnd w 19 7) (opnd w 12 7) (opnd w 0 9))
  | 5 => accept w [] (.vxori (opnd w 19 7) (opnd w 12 7) (opnd w 0 9))
  | _ => .error .reserved

/-- Major 0x24. -/
def decode24 (w : W32) : Except DecodeError Instr :=
  match fld w 0 6 with
  | 0 => accept w [(12, 7)] (.vbcst (opnd w 19 7) (opnd w 6 6))
  | 1 => accept w [] (.vshfl (opnd w 19 7) (opnd w 12 7) (opnd w 6 6))
  | 2 => accept w [] (.vrot (opnd w 19 7) (opnd w 12 7) (opnd w 6 6))
  | 3 => accept w [(19, 7)] (.vredAdd (opnd w 12 7) (opnd w 6 6))
  | 4 => accept w [(19, 7)] (.vredMin (opnd w 12 7) (opnd w 6 6))
  | 5 => accept w [(19, 7)] (.vredMax (opnd w 12 7) (opnd w 6 6))
  | 6 => accept w [(19, 7)] (.vredMinu (opnd w 12 7) (opnd w 6 6))
  | 7 => accept w [(19, 7)] (.vredMaxu (opnd w 12 7) (opnd w 6 6))
  | 8 => accept w [(19, 7)] (.vredAnd (opnd w 12 7) (opnd w 6 6))
  | 9 => accept w [(19, 7)] (.vredOr (opnd w 12 7) (opnd w 6 6))
  | 10 => accept w [(19, 7)] (.vredXor (opnd w 12 7) (opnd w 6 6))
  | 11 => accept w [(19, 7)] (.vredFadd (opnd w 12 7) (opnd w 6 6))
  | 12 => accept w [(19, 7)] (.vredFmin (opnd w 12 7) (opnd w 6 6))
  | 13 => accept w [(19, 7)] (.vredFmax (opnd w 12 7) (opnd w 6 6))
  | 16 => accept w [(19, 7)] (.vballot (opnd w 12 7) (opnd w 6 6))
  | 17 => accept w [(19, 7)] (.vpopc (opnd w 12 7) (opnd w 6 6))
  | 18 => accept w [(19, 7)] (.vfirst (opnd w 12 7) (opnd w 6 6))
  | 19 => accept w [(24, 2)] (.vextr (opnd w 19 5) (opnd w 12 7) (opnd w 6 6))
  | 20 => accept w [(17, 2)] (.vins (opnd w 19 7) (opnd w 12 5) (opnd w 6 6))
  | _ => .error .reserved

/-- Major 0x25. -/
def decode25 (w : W32) : Except DecodeError Instr :=
  match fld w 0 5 with
  | 0 => accept w [] (.vperm (opnd w 19 7) (opnd w 12 7) (opnd w 5 7))
  | 1 => accept w [(5, 7)] (.vscanAdd (opnd w 19 7) (opnd w 12 7))
  | 2 => accept w [(5, 7)] (.vscanFadd (opnd w 19 7) (opnd w 12 7))
  | 3 => accept w [(5, 7)] (.vscanMin (opnd w 19 7) (opnd w 12 7))
  | 4 => accept w [(5, 7)] (.vscanMax (opnd w 19 7) (opnd w 12 7))
  | 5 => accept w [(5, 14)] (.vlane (opnd w 19 7))
  | _ => .error .reserved

/-- Major 0x26. -/
def decode26 (w : W32) : Except DecodeError Instr :=
  match fld w 0 5 with
  | 0 => accept w [] (.vfadd (opnd w 19 7) (opnd w 12 7) (opnd w 5 7))
  | 1 => accept w [] (.vfsub (opnd w 19 7) (opnd w 12 7) (opnd w 5 7))
  | 2 => accept w [] (.vfmul (opnd w 19 7) (opnd w 12 7) (opnd w 5 7))
  | 3 => accept w [] (.vfma (opnd w 19 7) (opnd w 12 7) (opnd w 5 7))
  | 4 => accept w [] (.vfmin (opnd w 19 7) (opnd w 12 7) (opnd w 5 7))
  | 5 => accept w [] (.vfmax (opnd w 19 7) (opnd w 12 7) (opnd w 5 7))
  | 6 => accept w [] (.vfdiv (opnd w 19 7) (opnd w 12 7) (opnd w 5 7))
  | 7 => accept w [(5, 7)] (.vfsqrt (opnd w 19 7) (opnd w 12 7))
  | 8 => accept w [(5, 7)] (.vrcp (opnd w 19 7) (opnd w 12 7))
  | 9 => accept w [(5, 7)] (.vrsq (opnd w 19 7) (opnd w 12 7))
  | 10 => accept w [(5, 7)] (.vexp2 (opnd w 19 7) (opnd w 12 7))
  | 11 => accept w [(5, 7)] (.vlog2 (opnd w 19 7) (opnd w 12 7))
  | 12 => accept w [(5, 7)] (.vsin (opnd w 19 7) (opnd w 12 7))
  | 13 => accept w [(5, 7)] (.vcos (opnd w 19 7) (opnd w 12 7))
  | 14 => accept w [(5, 7)] (.vfclass (opnd w 19 7) (opnd w 12 7))
  | 16 => accept w [] (.vfcmpEq (opnd w 19 7) (opnd w 12 7) (opnd w 5 7))
  | 17 => accept w [] (.vfcmpNe (opnd w 19 7) (opnd w 12 7) (opnd w 5 7))
  | 18 => accept w [] (.vfcmpLt (opnd w 19 7) (opnd w 12 7) (opnd w 5 7))
  | 19 => accept w [] (.vfcmpLe (opnd w 19 7) (opnd w 12 7) (opnd w 5 7))
  | 20 => accept w [] (.vfcmpGt (opnd w 19 7) (opnd w 12 7) (opnd w 5 7))
  | 21 => accept w [] (.vfcmpGe (opnd w 19 7) (opnd w 12 7) (opnd w 5 7))
  | 22 => accept w [] (.vfcmpUn (opnd w 19 7) (opnd w 12 7) (opnd w 5 7))
  | _ => .error .reserved

/-- Major 0x28. -/
def decode28 (w : W32) : Except DecodeError Instr :=
  match fld w 0 5 with
  | 0 => accept w [] (.vbadd2 (opnd w 19 7) (opnd w 12 7) (opnd w 5 7))
  | 1 => accept w [] (.vbmul2 (opnd w 19 7) (opnd w 12 7) (opnd w 5 7))
  | 2 => accept w [] (.vbfma2 (opnd w 19 7) (opnd w 12 7) (opnd w 5 7))
  | 3 => accept w [] (.vpk (opnd w 19 7) (opnd w 12 7) (opnd w 5 7))
  | 4 => accept w [(5, 7)] (.vunpkLo (opnd w 19 7) (opnd w 12 7))
  | 5 => accept w [(5, 7)] (.vunpkHi (opnd w 19 7) (opnd w 12 7))
  | 6 => accept w [] (.vdot4I8 (opnd w 19 7) (opnd w 12 7) (opnd w 5 7))
  | 7 => accept w [] (.vdot4Ui8 (opnd w 19 7) (opnd w 12 7) (opnd w 5 7))
  | 8 => accept w [] (.vdotb (opnd w 19 7) (opnd w 12 7) (opnd w 5 7))
  | _ => .error .reserved

/-- Major 0x2C. -/
def decode2C (w : W32) : Except DecodeError Instr :=
  match fld w 0 5 with
  | 0 => accept w [(5, 7), (19, 7)] (.vif (opnd w 12 7))
  | 1 => accept w [(5, 21)] (.velse)
  | 2 => accept w [(5, 21)] (.vendif)
  | 3 => accept w [(5, 21)] (.vloop)
  | 4 => accept w [(5, 7), (19, 7)] (.vbrk (opnd w 12 7))
  | 5 => accept w [(5, 7), (19, 7)] (.vcont (opnd w 12 7))
  | _ => .error .reserved

/-- Major 0x2D. -/
def decode2D (w : W32) : Except DecodeError Instr :=
  match fld w 19 2 with
  | 0 => accept w [(12, 7), (21, 5)] (.vendl (opnd w 0 12))
  | 1 => accept w [(21, 5)] (.vany (opnd w 12 7) (opnd w 0 12))
  | 2 => accept w [(21, 5)] (.vnone (opnd w 12 7) (opnd w 0 12))
  | _ => .error .reserved

/-- Major 0x2F. -/
def decode2F (w : W32) : Except DecodeError Instr :=
  match fld w 0 6 with
  | 0 => accept w [] (.vrebal (opnd w 19 7) (opnd w 12 7) (opnd w 6 6))
  | 1 => accept w [] (.vplane (opnd w 19 7) (opnd w 12 7) (opnd w 6 6))
  | _ => .error .reserved

/-- Major 0x33. -/
def decode33 (w : W32) : Except DecodeError Instr :=
  match fld w 0 4 with
  | 0 => accept w [] (.atomAdd (opnd w 20 6) (opnd w 14 6) (opnd w 8 6) (opnd w 4 4))
  | 1 => accept w [] (.atomMin (opnd w 20 6) (opnd w 14 6) (opnd w 8 6) (opnd w 4 4))
  | 2 => accept w [] (.atomMax (opnd w 20 6) (opnd w 14 6) (opnd w 8 6) (opnd w 4 4))
  | 3 => accept w [] (.atomMinu (opnd w 20 6) (opnd w 14 6) (opnd w 8 6) (opnd w 4 4))
  | 4 => accept w [] (.atomMaxu (opnd w 20 6) (opnd w 14 6) (opnd w 8 6) (opnd w 4 4))
  | 5 => accept w [] (.atomAnd (opnd w 20 6) (opnd w 14 6) (opnd w 8 6) (opnd w 4 4))
  | 6 => accept w [] (.atomOr (opnd w 20 6) (opnd w 14 6) (opnd w 8 6) (opnd w 4 4))
  | 7 => accept w [] (.atomXor (opnd w 20 6) (opnd w 14 6) (opnd w 8 6) (opnd w 4 4))
  | 8 => accept w [] (.atomSwap (opnd w 20 6) (opnd w 14 6) (opnd w 8 6) (opnd w 4 4))
  | 11 => accept w [] (.acas (opnd w 20 6) (opnd w 14 6) (opnd w 8 6) (opnd w 4 4))
  | _ => .error .reserved

/-- Major 0x34. -/
def decode34 (w : W32) : Except DecodeError Instr :=
  match fld w 0 4 with
  | 0 => accept w [] (.atomAddW (opnd w 20 6) (opnd w 14 6) (opnd w 8 6) (opnd w 4 4))
  | 1 => accept w [] (.atomMinW (opnd w 20 6) (opnd w 14 6) (opnd w 8 6) (opnd w 4 4))
  | 2 => accept w [] (.atomMaxW (opnd w 20 6) (opnd w 14 6) (opnd w 8 6) (opnd w 4 4))
  | 3 => accept w [] (.atomMinuW (opnd w 20 6) (opnd w 14 6) (opnd w 8 6) (opnd w 4 4))
  | 4 => accept w [] (.atomMaxuW (opnd w 20 6) (opnd w 14 6) (opnd w 8 6) (opnd w 4 4))
  | 5 => accept w [] (.atomAndW (opnd w 20 6) (opnd w 14 6) (opnd w 8 6) (opnd w 4 4))
  | 6 => accept w [] (.atomOrW (opnd w 20 6) (opnd w 14 6) (opnd w 8 6) (opnd w 4 4))
  | 7 => accept w [] (.atomXorW (opnd w 20 6) (opnd w 14 6) (opnd w 8 6) (opnd w 4 4))
  | 8 => accept w [] (.atomSwapW (opnd w 20 6) (opnd w 14 6) (opnd w 8 6) (opnd w 4 4))
  | 9 => accept w [] (.atomFaddW (opnd w 20 6) (opnd w 14 6) (opnd w 8 6) (opnd w 4 4))
  | 10 => accept w [] (.atomBfadd2W (opnd w 20 6) (opnd w 14 6) (opnd w 8 6) (opnd w 4 4))
  | 11 => accept w [] (.acasW (opnd w 20 6) (opnd w 14 6) (opnd w 8 6) (opnd w 4 4))
  | _ => .error .reserved

/-- Major 0x35. -/
def decode35 (w : W32) : Except DecodeError Instr :=
  match fld w 0 4 with
  | 0 => accept w [] (.dqpush (opnd w 20 6) (opnd w 14 6) (opnd w 8 6) (opnd w 4 4))
  | 1 => accept w [(8, 6)] (.dqpop (opnd w 20 6) (opnd w 14 6) (opnd w 4 4))
  | 2 => accept w [(8, 6)] (.dqsteal (opnd w 20 6) (opnd w 14 6) (opnd w 4 4))
  | _ => .error .reserved

/-- Major 0x36. -/
def decode36 (w : W32) : Except DecodeError Instr :=
  match fld w 12 2 * 4 + fld w 0 2 with
  | 0 => accept w [] (.vatomAdd (opnd w 19 7) (opnd w 15 4) (opnd w 14 1) (opnd w 6 6) (opnd w 2 4))
  | 1 => accept w [] (.vatomMin (opnd w 19 7) (opnd w 15 4) (opnd w 14 1) (opnd w 6 6) (opnd w 2 4))
  | 2 => accept w [] (.vatomMax (opnd w 19 7) (opnd w 15 4) (opnd w 14 1) (opnd w 6 6) (opnd w 2 4))
  | 3 => accept w [] (.vatomMinu (opnd w 19 7) (opnd w 15 4) (opnd w 14 1) (opnd w 6 6) (opnd w 2 4))
  | 4 => accept w [] (.vatomMaxu (opnd w 19 7) (opnd w 15 4) (opnd w 14 1) (opnd w 6 6) (opnd w 2 4))
  | 5 => accept w [] (.vatomAnd (opnd w 19 7) (opnd w 15 4) (opnd w 14 1) (opnd w 6 6) (opnd w 2 4))
  | 6 => accept w [] (.vatomOr (opnd w 19 7) (opnd w 15 4) (opnd w 14 1) (opnd w 6 6) (opnd w 2 4))
  | 7 => accept w [] (.vatomXor (opnd w 19 7) (opnd w 15 4) (opnd w 14 1) (opnd w 6 6) (opnd w 2 4))
  | 8 => accept w [] (.vatomSwap (opnd w 19 7) (opnd w 15 4) (opnd w 14 1) (opnd w 6 6) (opnd w 2 4))
  | 9 => accept w [(14, 1)] (.vatomFadd (opnd w 19 7) (opnd w 15 4) (opnd w 6 6) (opnd w 2 4))
  | 10 => accept w [(14, 1)] (.vatomBfadd2 (opnd w 19 7) (opnd w 15 4) (opnd w 6 6) (opnd w 2 4))
  | 11 => accept w [] (.vacas (opnd w 19 7) (opnd w 15 4) (opnd w 14 1) (opnd w 6 6) (opnd w 2 4))
  | _ => .error .reserved

/-- Major 0x37. -/
def decode37 (w : W32) : Except DecodeError Instr :=
  match fld w 0 5 with
  | 0 => accept w [(5, 3)] (.binit (opnd w 20 6) (opnd w 14 6) (opnd w 8 6))
  | 1 => accept w [(5, 9), (20, 6)] (.barv (opnd w 14 6))
  | 2 => accept w [(5, 3), (20, 6)] (.bexp (opnd w 14 6) (opnd w 8 6))
  | 3 => accept w [(5, 3)] (.bwait (opnd w 20 6) (opnd w 14 6) (opnd w 8 6))
  | 4 => accept w [(5, 3)] (.btry (opnd w 20 6) (opnd w 14 6) (opnd w 8 6))
  | 5 => accept w [(5, 9)] (.binv (opnd w 20 6) (opnd w 14 6))
  | 8 => accept w [(8, 6)] (.fence (opnd w 20 6) (opnd w 14 6) (opnd w 5 3))
  | 9 => accept w [(20, 6)] (.rel (opnd w 14 6) (opnd w 8 6) (opnd w 5 3))
  | 10 => accept w [(8, 6)] (.acq (opnd w 20 6) (opnd w 14 6) (opnd w 5 3))
  | 11 => accept w [] (.acqp (opnd w 20 6) (opnd w 14 6) (opnd w 8 6) (opnd w 5 3))
  | 12 => accept w [(5, 3), (20, 6)] (.zfill (opnd w 14 6) (opnd w 8 6))
  | _ => .error .reserved

/-- Major 0x38. -/
noncomputable def decode38 (w : W32) : Except DecodeError Instr :=
  match fld w 18 5 with
  | 0 => accept w [] (.cqpush (opnd w 23 3) (opnd w 12 6) (opnd w 6 6) (opnd w 0 6))
  | 1 => accept w [] (.cqtry (opnd w 23 3) (opnd w 12 6) (opnd w 6 6) (opnd w 0 6))
  | 2 => accept w [(0, 6)] (.cset (opnd w 23 3) (opnd w 12 6) (opnd w 6 6))
  | 3 => accept w [(6, 6)] (.cgete (opnd w 23 3) (opnd w 12 6) (opnd w 0 6))
  | 4 => accept w [(0, 6), (12, 6)] (.cbind (opnd w 23 3) (opnd w 6 6))
  | 8 => accept w [(0, 12)] (.ccancel (opnd w 23 3) (opnd w 12 6))
  | 5 => accept w [(0, 6), (12, 6), (23, 3)] (.cunbind (opnd w 6 6))
  | 6 => accept w [(0, 6), (23, 3)] (.spop (opnd w 12 6) (opnd w 6 6))
  | 7 => accept w [(0, 6), (23, 3)] (.vspop (opnd w 12 6) (opnd w 6 6))
  | 16 => accept w [(12, 6), (23, 3)] (.evset (opnd w 6 6) (opnd w 0 6))
  | 17 => accept w [(12, 6), (23, 3)] (.evclr (opnd w 6 6) (opnd w 0 6))
  | 18 => accept w [(0, 6), (23, 3)] (.evrd (opnd w 12 6) (opnd w 6 6))
  | 19 => accept w [(0, 6), (12, 6), (23, 3)] (.evsig (opnd w 6 6))
  | _ => .error .reserved

/-- Major 0x39. -/
noncomputable def decode39 (w : W32) : Except DecodeError Instr :=
  match fld w 23 3 * 32 + fld w 18 5 with
  | 0 => accept w [(12, 6)] (.pset (opnd w 6 6) (opnd w 0 6))
  | 1 => accept w [(0, 6)] (.pget (opnd w 12 6) (opnd w 6 6))
  | 2 => accept w [(0, 6)] (.pres (opnd w 12 6) (opnd w 6 6))
  | 3 => accept w [(0, 6), (12, 6)] (.prel (opnd w 6 6))
  | 4 => accept w [(12, 6)] (.ppass (opnd w 6 6) (opnd w 0 6))
  | 5 => accept w [(12, 6)] (.pjoin (opnd w 6 6) (opnd w 0 6))
  | 6 => accept w [(0, 6), (12, 6)] (.pdrainO (opnd w 6 6))
  | 7 => accept w [(0, 6), (12, 6)] (.pdrainU (opnd w 6 6))
  | 8 => accept w [(0, 6), (12, 6)] (.pclr (opnd w 6 6))
  | 32 => accept w [] (.mstart (opnd w 12 6) (opnd w 6 6) (opnd w 0 6))
  | 33 => accept w [(0, 6)] (.mstop (opnd w 12 6) (opnd w 6 6))
  | 64 => accept w [(0, 6)] (.hgath (opnd w 12 6) (opnd w 6 6))
  | 65 => accept w [(0, 6)] (.hcsr (opnd w 12 6) (opnd w 6 6))
  | 66 => accept w [(0, 6)] (.hscat (opnd w 12 6) (opnd w 6 6))
  | _ => .error .reserved

/-- Major 0x3A. -/
noncomputable def decode3A (w : W32) : Except DecodeError Instr :=
  match fld w 18 5 with
  | 0 => accept w [(23, 3)] (.rrecv (opnd w 12 6) (opnd w 6 6) (opnd w 0 6))
  | 1 => accept w [(23, 3)] (.rsend (opnd w 12 6) (opnd w 6 6) (opnd w 0 6))
  | 2 => accept w [(0, 6), (23, 3)] (.rhit (opnd w 12 6) (opnd w 6 6))
  | 3 => accept w [(23, 3)] (.rbox4 (opnd w 12 6) (opnd w 6 6) (opnd w 0 6))
  | 4 => accept w [(23, 3)] (.rtri (opnd w 12 6) (opnd w 6 6) (opnd w 0 6))
  | 5 => accept w [(23, 3)] (.rroute (opnd w 12 6) (opnd w 6 6) (opnd w 0 6))
  | 6 => accept w [(23, 3)] (.tlreq (opnd w 12 6) (opnd w 6 6) (opnd w 0 6))
  | 7 => accept w [(0, 6), (23, 3)] (.tlevict (opnd w 12 6) (opnd w 6 6))
  | 8 => accept w [(23, 3)] (.hqbind (opnd w 12 6) (opnd w 6 6) (opnd w 0 6))
  | _ => .error .reserved

/-- Major 0x3B. -/
noncomputable def decode3B (w : W32) : Except DecodeError Instr :=
  match fld w 18 5 with
  | 0 => accept w [(23, 3)] (.dbar (opnd w 12 6) (opnd w 6 6) (opnd w 0 6))
  | 1 => accept w [(23, 3)] (.xph (opnd w 12 6) (opnd w 6 6) (opnd w 0 6))
  | 2 => accept w [(23, 3)] (.xmit (opnd w 12 6) (opnd w 6 6) (opnd w 0 6))
  | 3 => accept w [(0, 6), (23, 3)] (.xsel (opnd w 12 6) (opnd w 6 6))
  | 4 => accept w [(23, 3)] (.xrecv (opnd w 12 6) (opnd w 6 6) (opnd w 0 6))
  | 5 => accept w [(0, 6), (23, 3)] (.xend (opnd w 12 6) (opnd w 6 6))
  | 6 => accept w [(23, 3)] (.xslots (opnd w 12 6) (opnd w 6 6) (opnd w 0 6))
  | _ => .error .reserved

/-- Major 0x3D. -/
noncomputable def decode3D (w : W32) : Except DecodeError Instr :=
  match fld w 20 6 with
  | 0 => accept w [(0, 20)] (.nop)
  | 1 => accept w [(12, 2)] (.gets (opnd w 14 6) (opnd w 0 12))
  | 2 => accept w [(12, 2)] (.sets (opnd w 14 6) (opnd w 0 12))
  | 3 => accept w [] (.cwait (opnd w 15 5) (opnd w 10 5) (opnd w 5 5) (opnd w 0 5))
  | 4 => accept w [(0, 20)] (.yield)
  | 5 => accept w [] (.trap (opnd w 0 20))
  | 6 => accept w [] (.bkpt (opnd w 0 20))
  | 7 => accept w [(0, 20)] (.exit)
  | 8 => accept w [(0, 20)] (.invl1)
  | 9 => accept w [(0, 20)] (.invi)
  | 16 => accept w [(0, 8)] (.launch (opnd w 14 6) (opnd w 8 6))
  | 17 => accept w [(0, 2)] (.grow (opnd w 14 6) (opnd w 8 6) (opnd w 2 6))
  | 18 => accept w [(0, 2)] (.emit (opnd w 14 6) (opnd w 8 6) (opnd w 2 6))
  | _ => .error .reserved

/-- Major 0x3E. -/
noncomputable def decode3E (w : W32) : Except DecodeError Instr :=
  match fld w 20 6 with
  | 0 => accept w [(0, 14)] (.mbxpop (opnd w 14 6))
  | 1 => accept w [(0, 14)] (.wresume (opnd w 14 6))
  | 2 => accept w [(0, 14)] (.wkill (opnd w 14 6))
  | 3 => accept w [(0, 14)] (.gkill (opnd w 14 6))
  | 4 => accept w [(0, 8)] (.gpreempt (opnd w 14 6) (opnd w 8 6))
  | 5 => accept w [(0, 14)] (.dbghalt (opnd w 14 6))
  | 6 => accept w [(0, 14)] (.dbgrun (opnd w 14 6))
  | _ => .error .reserved

/-- The instruction of a word (02 R45, R63). -/
noncomputable def decode (w : W32) : Except DecodeError Instr :=
  match fld w 26 6 with
  | 0x01 => decode01 w
  | 0x02 => accept w [] (.addi (opnd w 20 6) (opnd w 14 6) (opnd w 0 14))
  | 0x03 => accept w [] (.andi (opnd w 20 6) (opnd w 14 6) (opnd w 0 14))
  | 0x04 => accept w [] (.ori (opnd w 20 6) (opnd w 14 6) (opnd w 0 14))
  | 0x05 => accept w [] (.xori (opnd w 20 6) (opnd w 14 6) (opnd w 0 14))
  | 0x06 => accept w [(7, 7)] (.slli (opnd w 20 6) (opnd w 14 6) (opnd w 6 1) (opnd w 0 6))
  | 0x07 => accept w [(7, 7)] (.srli (opnd w 20 6) (opnd w 14 6) (opnd w 6 1) (opnd w 0 6))
  | 0x08 => accept w [(7, 7)] (.srai (opnd w 20 6) (opnd w 14 6) (opnd w 6 1) (opnd w 0 6))
  | 0x09 => accept w [] (.slti (opnd w 20 6) (opnd w 14 6) (opnd w 0 14))
  | 0x0A => accept w [] (.sltiu (opnd w 20 6) (opnd w 14 6) (opnd w 0 14))
  | 0x0B => accept w [] (.lui (opnd w 20 6) (opnd w 0 20))
  | 0x0C => accept w [] (.auipc (opnd w 20 6) (opnd w 0 20))
  | 0x0D => decode0D w
  | 0x0E => accept w [] (.jal (opnd w 20 6) (opnd w 0 20))
  | 0x0F => accept w [(0, 14)] (.jalr (opnd w 20 6) (opnd w 14 6))
  | 0x10 => accept w [] (.ldB (opnd w 20 6) (opnd w 14 6) (opnd w 10 4) (opnd w 8 2) (opnd w 0 8))
  | 0x11 => accept w [] (.ldH (opnd w 20 6) (opnd w 14 6) (opnd w 10 4) (opnd w 8 2) (opnd w 0 8))
  | 0x12 => accept w [] (.ldW (opnd w 20 6) (opnd w 14 6) (opnd w 10 4) (opnd w 8 2) (opnd w 0 8))
  | 0x13 => accept w [] (.ldD (opnd w 20 6) (opnd w 14 6) (opnd w 10 4) (opnd w 8 2) (opnd w 0 8))
  | 0x14 => accept w [] (.stB (opnd w 20 6) (opnd w 14 6) (opnd w 10 4) (opnd w 8 2) (opnd w 0 8))
  | 0x15 => accept w [] (.stH (opnd w 20 6) (opnd w 14 6) (opnd w 10 4) (opnd w 8 2) (opnd w 0 8))
  | 0x16 => accept w [] (.stW (opnd w 20 6) (opnd w 14 6) (opnd w 10 4) (opnd w 8 2) (opnd w 0 8))
  | 0x17 => accept w [] (.stD (opnd w 20 6) (opnd w 14 6) (opnd w 10 4) (opnd w 8 2) (opnd w 0 8))
  | 0x18 => decode18 w
  | 0x19 => accept w [] (.cinci (opnd w 20 6) (opnd w 14 6) (opnd w 0 14))
  | 0x1A => accept w [] (.csetbi (opnd w 20 6) (opnd w 14 6) (opnd w 0 14))
  | 0x1B => accept w [] (.ldc (opnd w 20 6) (opnd w 14 6) (opnd w 10 4) (opnd w 8 2) (opnd w 0 8))
  | 0x1C => accept w [] (.stc (opnd w 20 6) (opnd w 14 6) (opnd w 10 4) (opnd w 8 2) (opnd w 0 8))
  | 0x1D => decode1D w
  | 0x20 => decode20 w
  | 0x21 => accept w [] (.vaddi (opnd w 19 7) (opnd w 12 7) (opnd w 0 12))
  | 0x22 => decode22 w
  | 0x23 => accept w [(12, 7)] (.vmovi (opnd w 19 7) (opnd w 0 12))
  | 0x24 => decode24 w
  | 0x25 => decode25 w
  | 0x26 => decode26 w
  | 0x27 => accept w [(9, 3)] (.vfcvt (opnd w 19 7) (opnd w 12 7) (opnd w 8 1) (opnd w 5 3) (opnd w 0 5))
  | 0x28 => decode28 w
  | 0x2C => decode2C w
  | 0x2D => decode2D w
  | 0x2E => accept w [(20, 6)] (.rep (opnd w 16 4) (opnd w 9 7) (opnd w 8 1) (opnd w 7 1) (opnd w 6 1) (opnd w 0 6))
  | 0x2F => decode2F w
  | 0x30 => accept w [] (.vld (opnd w 19 7) (opnd w 12 7) (opnd w 6 6) (opnd w 2 4) (opnd w 0 2))
  | 0x31 => accept w [] (.vst (opnd w 19 7) (opnd w 12 7) (opnd w 6 6) (opnd w 2 4) (opnd w 0 2))
  | 0x32 => accept w [] (.vldmc (opnd w 19 7) (opnd w 12 7) (opnd w 6 6) (opnd w 2 4) (opnd w 0 2))
  | 0x33 => decode33 w
  | 0x34 => decode34 w
  | 0x35 => decode35 w
  | 0x36 => decode36 w
  | 0x37 => decode37 w
  | 0x38 => decode38 w
  | 0x39 => decode39 w
  | 0x3A => decode3A w
  | 0x3B => decode3B w
  | 0x3D => decode3D w
  | 0x3E => decode3E w
  | _ => .error .unassigned

/-- The word made of a base with fields (value, from bit) added. -/
def word (base : Nat) (fs : List (Nat × Nat)) : W32 :=
  BitVec.ofNat 32 (fs.foldl (fun acc f => acc + f.1 * 2 ^ f.2) base)

/-- The word of an instruction (02 R40 to R62); a step of another agent has none. -/
def encode : Instr → Option W32
  | .add d a b w => some (word 0x04000000 [(d.toNat, 20), (a.toNat, 14), (b.toNat, 8), (w.toNat, 6)])
  | .sub d a b w => some (word 0x04000001 [(d.toNat, 20), (a.toNat, 14), (b.toNat, 8), (w.toNat, 6)])
  | .mul d a b w => some (word 0x04000002 [(d.toNat, 20), (a.toNat, 14), (b.toNat, 8), (w.toNat, 6)])
  | .mulh d a b w => some (word 0x04000003 [(d.toNat, 20), (a.toNat, 14), (b.toNat, 8), (w.toNat, 6)])
  | .mulhu d a b w => some (word 0x04000004 [(d.toNat, 20), (a.toNat, 14), (b.toNat, 8), (w.toNat, 6)])
  | .div d a b w => some (word 0x04000005 [(d.toNat, 20), (a.toNat, 14), (b.toNat, 8), (w.toNat, 6)])
  | .divu d a b w => some (word 0x04000006 [(d.toNat, 20), (a.toNat, 14), (b.toNat, 8), (w.toNat, 6)])
  | .rem d a b w => some (word 0x04000007 [(d.toNat, 20), (a.toNat, 14), (b.toNat, 8), (w.toNat, 6)])
  | .remu d a b w => some (word 0x04000008 [(d.toNat, 20), (a.toNat, 14), (b.toNat, 8), (w.toNat, 6)])
  | .and d a b w => some (word 0x04000009 [(d.toNat, 20), (a.toNat, 14), (b.toNat, 8), (w.toNat, 6)])
  | .or d a b w => some (word 0x0400000A [(d.toNat, 20), (a.toNat, 14), (b.toNat, 8), (w.toNat, 6)])
  | .xor d a b w => some (word 0x0400000B [(d.toNat, 20), (a.toNat, 14), (b.toNat, 8), (w.toNat, 6)])
  | .andn d a b w => some (word 0x0400000C [(d.toNat, 20), (a.toNat, 14), (b.toNat, 8), (w.toNat, 6)])
  | .sll d a b w => some (word 0x0400000D [(d.toNat, 20), (a.toNat, 14), (b.toNat, 8), (w.toNat, 6)])
  | .srl d a b w => some (word 0x0400000E [(d.toNat, 20), (a.toNat, 14), (b.toNat, 8), (w.toNat, 6)])
  | .sra d a b w => some (word 0x0400000F [(d.toNat, 20), (a.toNat, 14), (b.toNat, 8), (w.toNat, 6)])
  | .ror d a b w => some (word 0x04000010 [(d.toNat, 20), (a.toNat, 14), (b.toNat, 8), (w.toNat, 6)])
  | .min d a b w => some (word 0x04000011 [(d.toNat, 20), (a.toNat, 14), (b.toNat, 8), (w.toNat, 6)])
  | .max d a b w => some (word 0x04000012 [(d.toNat, 20), (a.toNat, 14), (b.toNat, 8), (w.toNat, 6)])
  | .minu d a b w => some (word 0x04000014 [(d.toNat, 20), (a.toNat, 14), (b.toNat, 8), (w.toNat, 6)])
  | .maxu d a b w => some (word 0x04000015 [(d.toNat, 20), (a.toNat, 14), (b.toNat, 8), (w.toNat, 6)])
  | .slt d a b w => some (word 0x04000016 [(d.toNat, 20), (a.toNat, 14), (b.toNat, 8), (w.toNat, 6)])
  | .sltu d a b w => some (word 0x04000017 [(d.toNat, 20), (a.toNat, 14), (b.toNat, 8), (w.toNat, 6)])
  | .seq d a b w => some (word 0x04000018 [(d.toNat, 20), (a.toNat, 14), (b.toNat, 8), (w.toNat, 6)])
  | .sne d a b w => some (word 0x04000019 [(d.toNat, 20), (a.toNat, 14), (b.toNat, 8), (w.toNat, 6)])
  | .clz d a w => some (word 0x0400001A [(d.toNat, 20), (a.toNat, 14), (w.toNat, 6)])
  | .ctz d a w => some (word 0x0400001B [(d.toNat, 20), (a.toNat, 14), (w.toNat, 6)])
  | .popc d a w => some (word 0x0400001C [(d.toNat, 20), (a.toNat, 14), (w.toNat, 6)])
  | .brev d a w => some (word 0x0400001D [(d.toNat, 20), (a.toNat, 14), (w.toNat, 6)])
  | .addi d a i => some (word 0x08000000 [(d.toNat, 20), (a.toNat, 14), (i.toNat, 0)])
  | .andi d a i => some (word 0x0C000000 [(d.toNat, 20), (a.toNat, 14), (i.toNat, 0)])
  | .ori d a i => some (word 0x10000000 [(d.toNat, 20), (a.toNat, 14), (i.toNat, 0)])
  | .xori d a i => some (word 0x14000000 [(d.toNat, 20), (a.toNat, 14), (i.toNat, 0)])
  | .slli d a w s => some (word 0x18000000 [(d.toNat, 20), (a.toNat, 14), (w.toNat, 6), (s.toNat, 0)])
  | .srli d a w s => some (word 0x1C000000 [(d.toNat, 20), (a.toNat, 14), (w.toNat, 6), (s.toNat, 0)])
  | .srai d a w s => some (word 0x20000000 [(d.toNat, 20), (a.toNat, 14), (w.toNat, 6), (s.toNat, 0)])
  | .slti d a i => some (word 0x24000000 [(d.toNat, 20), (a.toNat, 14), (i.toNat, 0)])
  | .sltiu d a i => some (word 0x28000000 [(d.toNat, 20), (a.toNat, 14), (i.toNat, 0)])
  | .lui d i => some (word 0x2C000000 [(d.toNat, 20), (i.toNat, 0)])
  | .auipc d i => some (word 0x30000000 [(d.toNat, 20), (i.toNat, 0)])
  | .beq a b o => some (word 0x34000000 [(a.toNat, 20), (b.toNat, 14), (o.toNat, 0)])
  | .bne a b o => some (word 0x34000800 [(a.toNat, 20), (b.toNat, 14), (o.toNat, 0)])
  | .blt a b o => some (word 0x34001000 [(a.toNat, 20), (b.toNat, 14), (o.toNat, 0)])
  | .bge a b o => some (word 0x34001800 [(a.toNat, 20), (b.toNat, 14), (o.toNat, 0)])
  | .bltu a b o => some (word 0x34002000 [(a.toNat, 20), (b.toNat, 14), (o.toNat, 0)])
  | .bgeu a b o => some (word 0x34002800 [(a.toNat, 20), (b.toNat, 14), (o.toNat, 0)])
  | .btag a o => some (word 0x34003000 [(a.toNat, 20), (o.toNat, 0)])
  | .bntag a o => some (word 0x34003800 [(a.toNat, 20), (o.toNat, 0)])
  | .jal d i => some (word 0x38000000 [(d.toNat, 20), (i.toNat, 0)])
  | .jalr d a => some (word 0x3C000000 [(d.toNat, 20), (a.toNat, 14)])
  | .ldB d a s q o => some (word 0x40000000 [(d.toNat, 20), (a.toNat, 14), (s.toNat, 10), (q.toNat, 8), (o.toNat, 0)])
  | .ldH d a s q o => some (word 0x44000000 [(d.toNat, 20), (a.toNat, 14), (s.toNat, 10), (q.toNat, 8), (o.toNat, 0)])
  | .ldW d a s q o => some (word 0x48000000 [(d.toNat, 20), (a.toNat, 14), (s.toNat, 10), (q.toNat, 8), (o.toNat, 0)])
  | .ldD d a s q o => some (word 0x4C000000 [(d.toNat, 20), (a.toNat, 14), (s.toNat, 10), (q.toNat, 8), (o.toNat, 0)])
  | .stB d a s q o => some (word 0x50000000 [(d.toNat, 20), (a.toNat, 14), (s.toNat, 10), (q.toNat, 8), (o.toNat, 0)])
  | .stH d a s q o => some (word 0x54000000 [(d.toNat, 20), (a.toNat, 14), (s.toNat, 10), (q.toNat, 8), (o.toNat, 0)])
  | .stW d a s q o => some (word 0x58000000 [(d.toNat, 20), (a.toNat, 14), (s.toNat, 10), (q.toNat, 8), (o.toNat, 0)])
  | .stD d a s q o => some (word 0x5C000000 [(d.toNat, 20), (a.toNat, 14), (s.toNat, 10), (q.toNat, 8), (o.toNat, 0)])
  | .cinc d a b => some (word 0x60000000 [(d.toNat, 20), (a.toNat, 14), (b.toNat, 8)])
  | .csetb d a b => some (word 0x60000001 [(d.toNat, 20), (a.toNat, 14), (b.toNat, 8)])
  | .cperm d a b => some (word 0x60000002 [(d.toNat, 20), (a.toNat, 14), (b.toNat, 8)])
  | .cfmt d a b => some (word 0x60000003 [(d.toNat, 20), (a.toNat, 14), (b.toNat, 8)])
  | .cfld d a s => some (word 0x60000004 [(d.toNat, 20), (a.toNat, 14), (s.toNat, 8)])
  | .ctest d a => some (word 0x60000005 [(d.toNat, 20), (a.toNat, 14)])
  | .cclrt d a => some (word 0x60000006 [(d.toNat, 20), (a.toNat, 14)])
  | .csubc d a b => some (word 0x60000007 [(d.toNat, 20), (a.toNat, 14), (b.toNat, 8)])
  | .cinci d a i => some (word 0x64000000 [(d.toNat, 20), (a.toNat, 14), (i.toNat, 0)])
  | .csetbi d a i => some (word 0x68000000 [(d.toNat, 20), (a.toNat, 14), (i.toNat, 0)])
  | .ldc d a s q o => some (word 0x6C000000 [(d.toNat, 20), (a.toNat, 14), (s.toNat, 10), (q.toNat, 8), (o.toNat, 0)])
  | .stc d a s q o => some (word 0x70000000 [(d.toNat, 20), (a.toNat, 14), (s.toNat, 10), (q.toNat, 8), (o.toNat, 0)])
  | .fadd d a b m => some (word 0x74000000 [(d.toNat, 20), (a.toNat, 14), (b.toNat, 8), (m.toNat, 5)])
  | .fsub d a b m => some (word 0x74000001 [(d.toNat, 20), (a.toNat, 14), (b.toNat, 8), (m.toNat, 5)])
  | .fmul d a b m => some (word 0x74000002 [(d.toNat, 20), (a.toNat, 14), (b.toNat, 8), (m.toNat, 5)])
  | .ffma d a b m => some (word 0x74000003 [(d.toNat, 20), (a.toNat, 14), (b.toNat, 8), (m.toNat, 5)])
  | .fdiv d a b m => some (word 0x74000004 [(d.toNat, 20), (a.toNat, 14), (b.toNat, 8), (m.toNat, 5)])
  | .fsqrt d a m => some (word 0x74000005 [(d.toNat, 20), (a.toNat, 14), (m.toNat, 5)])
  | .fmin d a b => some (word 0x74000006 [(d.toNat, 20), (a.toNat, 14), (b.toNat, 8)])
  | .fmax d a b => some (word 0x74000007 [(d.toNat, 20), (a.toNat, 14), (b.toNat, 8)])
  | .fcmp d a b p => some (word 0x74000008 [(d.toNat, 20), (a.toNat, 14), (b.toNat, 8), (p.toNat, 5)])
  | .fcvt d a c m => some (word 0x74000009 [(d.toNat, 20), (a.toNat, 14), (c.toNat, 8), (m.toNat, 5)])
  | .fclass d a => some (word 0x7400000A [(d.toNat, 20), (a.toNat, 14)])
  | .fsgn d a b p => some (word 0x7400000B [(d.toNat, 20), (a.toNat, 14), (b.toNat, 8), (p.toNat, 5)])
  | .vadd d a b => some (word 0x80000000 [(d.toNat, 19), (a.toNat, 12), (b.toNat, 5)])
  | .vsub d a b => some (word 0x80000001 [(d.toNat, 19), (a.toNat, 12), (b.toNat, 5)])
  | .vmul d a b => some (word 0x80000002 [(d.toNat, 19), (a.toNat, 12), (b.toNat, 5)])
  | .vmulh d a b => some (word 0x80000003 [(d.toNat, 19), (a.toNat, 12), (b.toNat, 5)])
  | .vmad d a b => some (word 0x80000004 [(d.toNat, 19), (a.toNat, 12), (b.toNat, 5)])
  | .vand d a b => some (word 0x80000005 [(d.toNat, 19), (a.toNat, 12), (b.toNat, 5)])
  | .vor d a b => some (word 0x80000006 [(d.toNat, 19), (a.toNat, 12), (b.toNat, 5)])
  | .vxor d a b => some (word 0x80000007 [(d.toNat, 19), (a.toNat, 12), (b.toNat, 5)])
  | .vandn d a b => some (word 0x80000008 [(d.toNat, 19), (a.toNat, 12), (b.toNat, 5)])
  | .vshl d a b => some (word 0x80000009 [(d.toNat, 19), (a.toNat, 12), (b.toNat, 5)])
  | .vshr d a b => some (word 0x8000000A [(d.toNat, 19), (a.toNat, 12), (b.toNat, 5)])
  | .vsra d a b => some (word 0x8000000B [(d.toNat, 19), (a.toNat, 12), (b.toNat, 5)])
  | .vmin d a b => some (word 0x8000000C [(d.toNat, 19), (a.toNat, 12), (b.toNat, 5)])
  | .vmax d a b => some (word 0x8000000D [(d.toNat, 19), (a.toNat, 12), (b.toNat, 5)])
  | .vminu d a b => some (word 0x8000000E [(d.toNat, 19), (a.toNat, 12), (b.toNat, 5)])
  | .vmaxu d a b => some (word 0x8000000F [(d.toNat, 19), (a.toNat, 12), (b.toNat, 5)])
  | .vabs d a => some (word 0x80000010 [(d.toNat, 19), (a.toNat, 12)])
  | .vsel d a b => some (word 0x80000011 [(d.toNat, 19), (a.toNat, 12), (b.toNat, 5)])
  | .vmov d a => some (word 0x80000012 [(d.toNat, 19), (a.toNat, 12)])
  | .vcmpEq d a b => some (word 0x80000014 [(d.toNat, 19), (a.toNat, 12), (b.toNat, 5)])
  | .vcmpNe d a b => some (word 0x80000015 [(d.toNat, 19), (a.toNat, 12), (b.toNat, 5)])
  | .vcmpLt d a b => some (word 0x80000016 [(d.toNat, 19), (a.toNat, 12), (b.toNat, 5)])
  | .vcmpGe d a b => some (word 0x80000017 [(d.toNat, 19), (a.toNat, 12), (b.toNat, 5)])
  | .vcmpLtu d a b => some (word 0x80000018 [(d.toNat, 19), (a.toNat, 12), (b.toNat, 5)])
  | .vcmpGeu d a b => some (word 0x80000019 [(d.toNat, 19), (a.toNat, 12), (b.toNat, 5)])
  | .vaddi d a i => some (word 0x84000000 [(d.toNat, 19), (a.toNat, 12), (i.toNat, 0)])
  | .vshli d a s => some (word 0x88000000 [(d.toNat, 19), (a.toNat, 12), (s.toNat, 0)])
  | .vshri d a s => some (word 0x88000200 [(d.toNat, 19), (a.toNat, 12), (s.toNat, 0)])
  | .vsrai d a s => some (word 0x88000400 [(d.toNat, 19), (a.toNat, 12), (s.toNat, 0)])
  | .vandi d a i => some (word 0x88000600 [(d.toNat, 19), (a.toNat, 12), (i.toNat, 0)])
  | .vori d a i => some (word 0x88000800 [(d.toNat, 19), (a.toNat, 12), (i.toNat, 0)])
  | .vxori d a i => some (word 0x88000A00 [(d.toNat, 19), (a.toNat, 12), (i.toNat, 0)])
  | .vmovi d i => some (word 0x8C000000 [(d.toNat, 19), (i.toNat, 0)])
  | .vbcst d c => some (word 0x90000000 [(d.toNat, 19), (c.toNat, 6)])
  | .vshfl d a c => some (word 0x90000001 [(d.toNat, 19), (a.toNat, 12), (c.toNat, 6)])
  | .vrot d a c => some (word 0x90000002 [(d.toNat, 19), (a.toNat, 12), (c.toNat, 6)])
  | .vredAdd a c => some (word 0x90000003 [(a.toNat, 12), (c.toNat, 6)])
  | .vredMin a c => some (word 0x90000004 [(a.toNat, 12), (c.toNat, 6)])
  | .vredMax a c => some (word 0x90000005 [(a.toNat, 12), (c.toNat, 6)])
  | .vredMinu a c => some (word 0x90000006 [(a.toNat, 12), (c.toNat, 6)])
  | .vredMaxu a c => some (word 0x90000007 [(a.toNat, 12), (c.toNat, 6)])
  | .vredAnd a c => some (word 0x90000008 [(a.toNat, 12), (c.toNat, 6)])
  | .vredOr a c => some (word 0x90000009 [(a.toNat, 12), (c.toNat, 6)])
  | .vredXor a c => some (word 0x9000000A [(a.toNat, 12), (c.toNat, 6)])
  | .vredFadd a c => some (word 0x9000000B [(a.toNat, 12), (c.toNat, 6)])
  | .vredFmin a c => some (word 0x9000000C [(a.toNat, 12), (c.toNat, 6)])
  | .vredFmax a c => some (word 0x9000000D [(a.toNat, 12), (c.toNat, 6)])
  | .vballot a c => some (word 0x90000010 [(a.toNat, 12), (c.toNat, 6)])
  | .vpopc a c => some (word 0x90000011 [(a.toNat, 12), (c.toNat, 6)])
  | .vfirst a c => some (word 0x90000012 [(a.toNat, 12), (c.toNat, 6)])
  | .vextr l a c => some (word 0x90000013 [(l.toNat, 19), (a.toNat, 12), (c.toNat, 6)])
  | .vins d l c => some (word 0x90000014 [(d.toNat, 19), (l.toNat, 12), (c.toNat, 6)])
  | .vperm d a b => some (word 0x94000000 [(d.toNat, 19), (a.toNat, 12), (b.toNat, 5)])
  | .vscanAdd d a => some (word 0x94000001 [(d.toNat, 19), (a.toNat, 12)])
  | .vscanFadd d a => some (word 0x94000002 [(d.toNat, 19), (a.toNat, 12)])
  | .vscanMin d a => some (word 0x94000003 [(d.toNat, 19), (a.toNat, 12)])
  | .vscanMax d a => some (word 0x94000004 [(d.toNat, 19), (a.toNat, 12)])
  | .vlane d => some (word 0x94000005 [(d.toNat, 19)])
  | .vfadd d a b => some (word 0x98000000 [(d.toNat, 19), (a.toNat, 12), (b.toNat, 5)])
  | .vfsub d a b => some (word 0x98000001 [(d.toNat, 19), (a.toNat, 12), (b.toNat, 5)])
  | .vfmul d a b => some (word 0x98000002 [(d.toNat, 19), (a.toNat, 12), (b.toNat, 5)])
  | .vfma d a b => some (word 0x98000003 [(d.toNat, 19), (a.toNat, 12), (b.toNat, 5)])
  | .vfmin d a b => some (word 0x98000004 [(d.toNat, 19), (a.toNat, 12), (b.toNat, 5)])
  | .vfmax d a b => some (word 0x98000005 [(d.toNat, 19), (a.toNat, 12), (b.toNat, 5)])
  | .vfdiv d a b => some (word 0x98000006 [(d.toNat, 19), (a.toNat, 12), (b.toNat, 5)])
  | .vfsqrt d a => some (word 0x98000007 [(d.toNat, 19), (a.toNat, 12)])
  | .vrcp d a => some (word 0x98000008 [(d.toNat, 19), (a.toNat, 12)])
  | .vrsq d a => some (word 0x98000009 [(d.toNat, 19), (a.toNat, 12)])
  | .vexp2 d a => some (word 0x9800000A [(d.toNat, 19), (a.toNat, 12)])
  | .vlog2 d a => some (word 0x9800000B [(d.toNat, 19), (a.toNat, 12)])
  | .vsin d a => some (word 0x9800000C [(d.toNat, 19), (a.toNat, 12)])
  | .vcos d a => some (word 0x9800000D [(d.toNat, 19), (a.toNat, 12)])
  | .vfclass d a => some (word 0x9800000E [(d.toNat, 19), (a.toNat, 12)])
  | .vfcmpEq d a b => some (word 0x98000010 [(d.toNat, 19), (a.toNat, 12), (b.toNat, 5)])
  | .vfcmpNe d a b => some (word 0x98000011 [(d.toNat, 19), (a.toNat, 12), (b.toNat, 5)])
  | .vfcmpLt d a b => some (word 0x98000012 [(d.toNat, 19), (a.toNat, 12), (b.toNat, 5)])
  | .vfcmpLe d a b => some (word 0x98000013 [(d.toNat, 19), (a.toNat, 12), (b.toNat, 5)])
  | .vfcmpGt d a b => some (word 0x98000014 [(d.toNat, 19), (a.toNat, 12), (b.toNat, 5)])
  | .vfcmpGe d a b => some (word 0x98000015 [(d.toNat, 19), (a.toNat, 12), (b.toNat, 5)])
  | .vfcmpUn d a b => some (word 0x98000016 [(d.toNat, 19), (a.toNat, 12), (b.toNat, 5)])
  | .vfcvt d a s r c => some (word 0x9C000000 [(d.toNat, 19), (a.toNat, 12), (s.toNat, 8), (r.toNat, 5), (c.toNat, 0)])
  | .vbadd2 d a b => some (word 0xA0000000 [(d.toNat, 19), (a.toNat, 12), (b.toNat, 5)])
  | .vbmul2 d a b => some (word 0xA0000001 [(d.toNat, 19), (a.toNat, 12), (b.toNat, 5)])
  | .vbfma2 d a b => some (word 0xA0000002 [(d.toNat, 19), (a.toNat, 12), (b.toNat, 5)])
  | .vpk d a b => some (word 0xA0000003 [(d.toNat, 19), (a.toNat, 12), (b.toNat, 5)])
  | .vunpkLo d a => some (word 0xA0000004 [(d.toNat, 19), (a.toNat, 12)])
  | .vunpkHi d a => some (word 0xA0000005 [(d.toNat, 19), (a.toNat, 12)])
  | .vdot4I8 d a b => some (word 0xA0000006 [(d.toNat, 19), (a.toNat, 12), (b.toNat, 5)])
  | .vdot4Ui8 d a b => some (word 0xA0000007 [(d.toNat, 19), (a.toNat, 12), (b.toNat, 5)])
  | .vdotb d a b => some (word 0xA0000008 [(d.toNat, 19), (a.toNat, 12), (b.toNat, 5)])
  | .vif a => some (word 0xB0000000 [(a.toNat, 12)])
  | .velse => some (word 0xB0000001 [])
  | .vendif => some (word 0xB0000002 [])
  | .vloop => some (word 0xB0000003 [])
  | .vbrk a => some (word 0xB0000004 [(a.toNat, 12)])
  | .vcont a => some (word 0xB0000005 [(a.toNat, 12)])
  | .vendl i => some (word 0xB4000000 [(i.toNat, 0)])
  | .vany a i => some (word 0xB4080000 [(a.toNat, 12), (i.toNat, 0)])
  | .vnone a i => some (word 0xB4100000 [(a.toNat, 12), (i.toNat, 0)])
  | .rep l c x y z s => some (word 0xB8000000 [(l.toNat, 16), (c.toNat, 9), (x.toNat, 8), (y.toNat, 7), (z.toNat, 6), (s.toNat, 0)])
  | .vrebal d a c => some (word 0xBC000000 [(d.toNat, 19), (a.toNat, 12), (c.toNat, 6)])
  | .vplane d a c => some (word 0xBC000001 [(d.toNat, 19), (a.toNat, 12), (c.toNat, 6)])
  | .vld d a c s q => some (word 0xC0000000 [(d.toNat, 19), (a.toNat, 12), (c.toNat, 6), (s.toNat, 2), (q.toNat, 0)])
  | .vst d a c s q => some (word 0xC4000000 [(d.toNat, 19), (a.toNat, 12), (c.toNat, 6), (s.toNat, 2), (q.toNat, 0)])
  | .vldmc d a c s q => some (word 0xC8000000 [(d.toNat, 19), (a.toNat, 12), (c.toNat, 6), (s.toNat, 2), (q.toNat, 0)])
  | .atomAdd d a b s => some (word 0xCC000000 [(d.toNat, 20), (a.toNat, 14), (b.toNat, 8), (s.toNat, 4)])
  | .atomMin d a b s => some (word 0xCC000001 [(d.toNat, 20), (a.toNat, 14), (b.toNat, 8), (s.toNat, 4)])
  | .atomMax d a b s => some (word 0xCC000002 [(d.toNat, 20), (a.toNat, 14), (b.toNat, 8), (s.toNat, 4)])
  | .atomMinu d a b s => some (word 0xCC000003 [(d.toNat, 20), (a.toNat, 14), (b.toNat, 8), (s.toNat, 4)])
  | .atomMaxu d a b s => some (word 0xCC000004 [(d.toNat, 20), (a.toNat, 14), (b.toNat, 8), (s.toNat, 4)])
  | .atomAnd d a b s => some (word 0xCC000005 [(d.toNat, 20), (a.toNat, 14), (b.toNat, 8), (s.toNat, 4)])
  | .atomOr d a b s => some (word 0xCC000006 [(d.toNat, 20), (a.toNat, 14), (b.toNat, 8), (s.toNat, 4)])
  | .atomXor d a b s => some (word 0xCC000007 [(d.toNat, 20), (a.toNat, 14), (b.toNat, 8), (s.toNat, 4)])
  | .atomSwap d a b s => some (word 0xCC000008 [(d.toNat, 20), (a.toNat, 14), (b.toNat, 8), (s.toNat, 4)])
  | .acas d a b s => some (word 0xCC00000B [(d.toNat, 20), (a.toNat, 14), (b.toNat, 8), (s.toNat, 4)])
  | .atomAddW d a b s => some (word 0xD0000000 [(d.toNat, 20), (a.toNat, 14), (b.toNat, 8), (s.toNat, 4)])
  | .atomMinW d a b s => some (word 0xD0000001 [(d.toNat, 20), (a.toNat, 14), (b.toNat, 8), (s.toNat, 4)])
  | .atomMaxW d a b s => some (word 0xD0000002 [(d.toNat, 20), (a.toNat, 14), (b.toNat, 8), (s.toNat, 4)])
  | .atomMinuW d a b s => some (word 0xD0000003 [(d.toNat, 20), (a.toNat, 14), (b.toNat, 8), (s.toNat, 4)])
  | .atomMaxuW d a b s => some (word 0xD0000004 [(d.toNat, 20), (a.toNat, 14), (b.toNat, 8), (s.toNat, 4)])
  | .atomAndW d a b s => some (word 0xD0000005 [(d.toNat, 20), (a.toNat, 14), (b.toNat, 8), (s.toNat, 4)])
  | .atomOrW d a b s => some (word 0xD0000006 [(d.toNat, 20), (a.toNat, 14), (b.toNat, 8), (s.toNat, 4)])
  | .atomXorW d a b s => some (word 0xD0000007 [(d.toNat, 20), (a.toNat, 14), (b.toNat, 8), (s.toNat, 4)])
  | .atomSwapW d a b s => some (word 0xD0000008 [(d.toNat, 20), (a.toNat, 14), (b.toNat, 8), (s.toNat, 4)])
  | .atomFaddW d a b s => some (word 0xD0000009 [(d.toNat, 20), (a.toNat, 14), (b.toNat, 8), (s.toNat, 4)])
  | .atomBfadd2W d a b s => some (word 0xD000000A [(d.toNat, 20), (a.toNat, 14), (b.toNat, 8), (s.toNat, 4)])
  | .acasW d a b s => some (word 0xD000000B [(d.toNat, 20), (a.toNat, 14), (b.toNat, 8), (s.toNat, 4)])
  | .dqpush d a b s => some (word 0xD4000000 [(d.toNat, 20), (a.toNat, 14), (b.toNat, 8), (s.toNat, 4)])
  | .dqpop d a s => some (word 0xD4000001 [(d.toNat, 20), (a.toNat, 14), (s.toNat, 4)])
  | .dqsteal d a s => some (word 0xD4000002 [(d.toNat, 20), (a.toNat, 14), (s.toNat, 4)])
  | .vatomAdd d o w a s => some (word 0xD8000000 [(d.toNat, 19), (o.toNat, 15), (w.toNat, 14), (a.toNat, 6), (s.toNat, 2)])
  | .vatomMin d o w a s => some (word 0xD8000001 [(d.toNat, 19), (o.toNat, 15), (w.toNat, 14), (a.toNat, 6), (s.toNat, 2)])
  | .vatomMax d o w a s => some (word 0xD8000002 [(d.toNat, 19), (o.toNat, 15), (w.toNat, 14), (a.toNat, 6), (s.toNat, 2)])
  | .vatomMinu d o w a s => some (word 0xD8000003 [(d.toNat, 19), (o.toNat, 15), (w.toNat, 14), (a.toNat, 6), (s.toNat, 2)])
  | .vatomMaxu d o w a s => some (word 0xD8001000 [(d.toNat, 19), (o.toNat, 15), (w.toNat, 14), (a.toNat, 6), (s.toNat, 2)])
  | .vatomAnd d o w a s => some (word 0xD8001001 [(d.toNat, 19), (o.toNat, 15), (w.toNat, 14), (a.toNat, 6), (s.toNat, 2)])
  | .vatomOr d o w a s => some (word 0xD8001002 [(d.toNat, 19), (o.toNat, 15), (w.toNat, 14), (a.toNat, 6), (s.toNat, 2)])
  | .vatomXor d o w a s => some (word 0xD8001003 [(d.toNat, 19), (o.toNat, 15), (w.toNat, 14), (a.toNat, 6), (s.toNat, 2)])
  | .vatomSwap d o w a s => some (word 0xD8002000 [(d.toNat, 19), (o.toNat, 15), (w.toNat, 14), (a.toNat, 6), (s.toNat, 2)])
  | .vatomFadd d o a s => some (word 0xD8002001 [(d.toNat, 19), (o.toNat, 15), (a.toNat, 6), (s.toNat, 2)])
  | .vatomBfadd2 d o a s => some (word 0xD8002002 [(d.toNat, 19), (o.toNat, 15), (a.toNat, 6), (s.toNat, 2)])
  | .vacas d o w a s => some (word 0xD8002003 [(d.toNat, 19), (o.toNat, 15), (w.toNat, 14), (a.toNat, 6), (s.toNat, 2)])
  | .binit d a b => some (word 0xDC000000 [(d.toNat, 20), (a.toNat, 14), (b.toNat, 8)])
  | .barv a => some (word 0xDC000001 [(a.toNat, 14)])
  | .bexp a b => some (word 0xDC000002 [(a.toNat, 14), (b.toNat, 8)])
  | .bwait d a b => some (word 0xDC000003 [(d.toNat, 20), (a.toNat, 14), (b.toNat, 8)])
  | .btry d a b => some (word 0xDC000004 [(d.toNat, 20), (a.toNat, 14), (b.toNat, 8)])
  | .binv d a => some (word 0xDC000005 [(d.toNat, 20), (a.toNat, 14)])
  | .fence d a s => some (word 0xDC000008 [(d.toNat, 20), (a.toNat, 14), (s.toNat, 5)])
  | .rel a b s => some (word 0xDC000009 [(a.toNat, 14), (b.toNat, 8), (s.toNat, 5)])
  | .acq d a s => some (word 0xDC00000A [(d.toNat, 20), (a.toNat, 14), (s.toNat, 5)])
  | .acqp d a b s => some (word 0xDC00000B [(d.toNat, 20), (a.toNat, 14), (b.toNat, 8), (s.toNat, 5)])
  | .zfill a b => some (word 0xDC00000C [(a.toNat, 14), (b.toNat, 8)])
  | .cqpush n d a b => some (word 0xE0000000 [(n.toNat, 23), (d.toNat, 12), (a.toNat, 6), (b.toNat, 0)])
  | .cqtry n d a b => some (word 0xE0040000 [(n.toNat, 23), (d.toNat, 12), (a.toNat, 6), (b.toNat, 0)])
  | .cset n d a => some (word 0xE0080000 [(n.toNat, 23), (d.toNat, 12), (a.toNat, 6)])
  | .cgete n d b => some (word 0xE00C0000 [(n.toNat, 23), (d.toNat, 12), (b.toNat, 0)])
  | .cbind n a => some (word 0xE0100000 [(n.toNat, 23), (a.toNat, 6)])
  | .ccancel n d => some (word 0xE0200000 [(n.toNat, 23), (d.toNat, 12)])
  | .cunbind a => some (word 0xE0140000 [(a.toNat, 6)])
  | .spop d a => some (word 0xE0180000 [(d.toNat, 12), (a.toNat, 6)])
  | .vspop d a => some (word 0xE01C0000 [(d.toNat, 12), (a.toNat, 6)])
  | .evset a b => some (word 0xE0400000 [(a.toNat, 6), (b.toNat, 0)])
  | .evclr a b => some (word 0xE0440000 [(a.toNat, 6), (b.toNat, 0)])
  | .evrd d a => some (word 0xE0480000 [(d.toNat, 12), (a.toNat, 6)])
  | .evsig a => some (word 0xE04C0000 [(a.toNat, 6)])
  | .pset a b => some (word 0xE4000000 [(a.toNat, 6), (b.toNat, 0)])
  | .pget d a => some (word 0xE4040000 [(d.toNat, 12), (a.toNat, 6)])
  | .pres d a => some (word 0xE4080000 [(d.toNat, 12), (a.toNat, 6)])
  | .prel a => some (word 0xE40C0000 [(a.toNat, 6)])
  | .ppass a b => some (word 0xE4100000 [(a.toNat, 6), (b.toNat, 0)])
  | .pjoin a b => some (word 0xE4140000 [(a.toNat, 6), (b.toNat, 0)])
  | .pdrainO a => some (word 0xE4180000 [(a.toNat, 6)])
  | .pdrainU a => some (word 0xE41C0000 [(a.toNat, 6)])
  | .pclr a => some (word 0xE4200000 [(a.toNat, 6)])
  | .mstart d a b => some (word 0xE4800000 [(d.toNat, 12), (a.toNat, 6), (b.toNat, 0)])
  | .mstop d a => some (word 0xE4840000 [(d.toNat, 12), (a.toNat, 6)])
  | .hgath d a => some (word 0xE5000000 [(d.toNat, 12), (a.toNat, 6)])
  | .hcsr d a => some (word 0xE5040000 [(d.toNat, 12), (a.toNat, 6)])
  | .hscat d a => some (word 0xE5080000 [(d.toNat, 12), (a.toNat, 6)])
  | .rrecv d a b => some (word 0xE8000000 [(d.toNat, 12), (a.toNat, 6), (b.toNat, 0)])
  | .rsend d a b => some (word 0xE8040000 [(d.toNat, 12), (a.toNat, 6), (b.toNat, 0)])
  | .rhit d a => some (word 0xE8080000 [(d.toNat, 12), (a.toNat, 6)])
  | .rbox4 d a b => some (word 0xE80C0000 [(d.toNat, 12), (a.toNat, 6), (b.toNat, 0)])
  | .rtri d a b => some (word 0xE8100000 [(d.toNat, 12), (a.toNat, 6), (b.toNat, 0)])
  | .rroute d a b => some (word 0xE8140000 [(d.toNat, 12), (a.toNat, 6), (b.toNat, 0)])
  | .tlreq d a b => some (word 0xE8180000 [(d.toNat, 12), (a.toNat, 6), (b.toNat, 0)])
  | .tlevict d a => some (word 0xE81C0000 [(d.toNat, 12), (a.toNat, 6)])
  | .hqbind d a b => some (word 0xE8200000 [(d.toNat, 12), (a.toNat, 6), (b.toNat, 0)])
  | .dbar d a b => some (word 0xEC000000 [(d.toNat, 12), (a.toNat, 6), (b.toNat, 0)])
  | .xph d a b => some (word 0xEC040000 [(d.toNat, 12), (a.toNat, 6), (b.toNat, 0)])
  | .xmit d a b => some (word 0xEC080000 [(d.toNat, 12), (a.toNat, 6), (b.toNat, 0)])
  | .xsel d a => some (word 0xEC0C0000 [(d.toNat, 12), (a.toNat, 6)])
  | .xrecv d a b => some (word 0xEC100000 [(d.toNat, 12), (a.toNat, 6), (b.toNat, 0)])
  | .xend d a => some (word 0xEC140000 [(d.toNat, 12), (a.toNat, 6)])
  | .xslots d a b => some (word 0xEC180000 [(d.toNat, 12), (a.toNat, 6), (b.toNat, 0)])
  | .nop => some (word 0xF4000000 [])
  | .gets d n => some (word 0xF4100000 [(d.toNat, 14), (n.toNat, 0)])
  | .sets a n => some (word 0xF4200000 [(a.toNat, 14), (n.toNat, 0)])
  | .cwait l s c p => some (word 0xF4300000 [(l.toNat, 15), (s.toNat, 10), (c.toNat, 5), (p.toNat, 0)])
  | .yield => some (word 0xF4400000 [])
  | .trap c => some (word 0xF4500000 [(c.toNat, 0)])
  | .bkpt c => some (word 0xF4600000 [(c.toNat, 0)])
  | .exit => some (word 0xF4700000 [])
  | .invl1 => some (word 0xF4800000 [])
  | .invi => some (word 0xF4900000 [])
  | .launch d a => some (word 0xF5000000 [(d.toNat, 14), (a.toNat, 8)])
  | .grow d a b => some (word 0xF5100000 [(d.toNat, 14), (a.toNat, 8), (b.toNat, 2)])
  | .emit d a b => some (word 0xF5200000 [(d.toNat, 14), (a.toNat, 8), (b.toNat, 2)])
  | .mbxpop d => some (word 0xF8000000 [(d.toNat, 14)])
  | .wresume a => some (word 0xF8100000 [(a.toNat, 14)])
  | .wkill a => some (word 0xF8200000 [(a.toNat, 14)])
  | .gkill a => some (word 0xF8300000 [(a.toNat, 14)])
  | .gpreempt d a => some (word 0xF8400000 [(d.toNat, 14), (a.toNat, 8)])
  | .dbghalt a => some (word 0xF8500000 [(a.toNat, 14)])
  | .dbgrun a => some (word 0xF8600000 [(a.toNat, 14)])
  | .illegalInstruction _ => none
  | .sgbIdleDrain _ _ => none
  | .sgbDrainAck _ _ _ => none
  | .mreqRead _ => none
  | .mreqWrite _ _ => none
  | .mreqAtomic _ _ => none
  | .scratchRequest _ => none
  | .loadReply _ _ _ => none
  | .storeAck _ => none
  | .pageWalkDone _ _ _ => none
  | .multicastSend _ => none
  | .leaseWaitDone _ => none
  | .promote _ => none
  | .promotionDone _ => none
  | .promoteReply _ => none
  | .barrierArrival _ => none
  | .barrierCredit _ => none
  | .barrierWake _ => none
  | .workRequest _ => none
  | .localSlotFill _ => none
  | .masterTaskRequest _ => none
  | .deferredRangeJoin _ => none
  | .groupRunnable _ _ => none
  | .prefetchTimeout _ _ => none
  | .windowRotate _ => none
  | .distributorReply _ => none
  | .scratchRelease _ => none
  | .gridRetire _ => none
  | .batchTimeout _ => none
  | .hitRecordArrive _ => none
  | .hqtTimeout _ => none
  | .shadingWaveLaunch _ => none
  | .ladleRequestStart _ _ => none
  | .ladleWriteAck _ _ _ => none
  | .ladleComplete _ _ => none
  | .ladleAbort _ _ _ _ => none
  | .eventArrive _ => none
  | .pressGrant _ => none
  | .pressOpComplete _ => none
  | .contextFree _ _ => none
  | .spillTailReread _ => none
  | .harpStart _ => none
  | .harpComplete _ => none
  | .harpAbort _ _ _ => none
  | .harpShip _ _ => none
  | .rayArrive _ => none
  | .rayReinject _ => none
  | .dirRay _ => none
  | .dirHeatReport _ => none
  | .dirTlreq _ => none
  | .dirTlevict _ => none
  | .pageInDone _ => none
  | .pageInFail _ => none
  | .replicaCopyDone _ => none
  | .evictConfirm _ => none
  | .routeQuery _ => none
  | .routeReply _ => none
  | .pageTransfer _ => none
  | .tlreqReply _ => none
  | .phaseStart _ => none
  | .domainBroadcast _ => none
  | .exchBeatSend _ => none
  | .exchBeatArrive _ => none
  | .exchCollReport _ => none
  | .exchPhaseEnd _ => none
  | .mailboxMessage _ => none
  | .mailboxRetry _ => none
  | .watchdogExpire _ => none
  | .sliceEccError _ _ => none
  | .linkDead _ _ _ => none
  | .saveComplete _ => none
  | .restore _ _ => none
  | .leaseSync _ _ => none
  | .leaseBoundTimeout _ => none
  | .dieFence _ _ => none
  | .journalEntry _ => none
  | .launchSlotSubmit _ _ => none
  | .sloterrClear _ => none
  | .taggedWrite _ => none
  | .taggedWriteDone => none
  | .tlbInvalidate _ => none
  | .tlbInvalidateDone => none
  | .warmReset => none
  | .registerWrite _ _ _ => none
  | .hostMemRead _ _ => none
  | .hostMemWrite _ _ => none
  | .completionRecordWrite _ => none
  | .vectorTimeFire _ => none
  | .droopDetect _ => none
  | .droopRecover _ => none
  | .currentLimit _ _ => none
  | .thermalLimit _ _ => none
  | .sensorSample _ _ => none
  | .firmwareUpdate _ _ => none
  | .bootTimeout => none
  | .attestation _ => none
  | .standbyPowerOn => none
  | .raystatRead _ => none
  | .fieldRepair _ _ => none

/-- The word of an instruction as the information word of its fault (01 R29). -/
def Instr.code (i : Instr) : W32 := (encode i).getD 0

/-- The decoder on a row's bits as the opcode table numbers them: one 32-bit word. -/
noncomputable def decodeTableWord (nbits w : Nat) : Option Instr :=
  if nbits ≤ 32 then (decode (BitVec.ofNat 32 w)).toOption else none

end Sys2Proof
end

