-- ==== Sys2Proof/Config.lean ====
section
/-! DEFINITION. What a part fixes and the free values: constants with no body, of which nothing can
prove a value. -/

namespace Sys2Proof.Config

/-- An undefined value (00 R5), drawn afresh for each number; a narrower one is its low bits (log 9). -/
opaque freeWord : Nat → BitVec 64

/-- A choice the spec leaves between two named outcomes (log 9): an old or a new instruction word
(01 R38), an old or a new translation (08 R215), an old or a new word (10 R272). -/
opaque freeBit : Nat → Bool

/-- `Random16()` of 03 R80, R95 (log 10). -/
opaque random16 : Nat → BitVec 16

/-- Whether an update bears a Falcon-1024 signature by the vendor key over its digest (22 R463; log 8). -/
opaque signatureOk (update digest : List Byte) : Bool

/-- The controller, bring-up and supervisor images of an update (22 R463; log 8). -/
opaque images : List Byte → List (List Byte)

/-- The launch record that a supervisor image carries (22 R469; log 8). -/
opaque imageRecord : List Byte → List Word

/-- The board has a package at the position of this id (22 R467 step 3; log 5). -/
opaque onBoard : Nat → Bool

/-- The capacity word that test and repair give a core at bring-up (22 R467 step 2; log 5). -/
opaque tested : Nat → Word

/-- How many rails a package has beside the core rail (22 R465; log 8). -/
opaque otherRails : Nat

/-- The Falcon-1024 signature with the device identity key (22 R464; log 8). -/
opaque sign : List Byte → List Byte

end Sys2Proof.Config
end

