-- ==== Sys2Proof/Machine/State.lean ====
section
/-! DEFINITION. The state of the machine as plain data, the reasons a step can stop, and the machine
after reset. Numbers that index tables: a core is x × 1,024 + y; a wave slot is core × 32 + slot; a vat
is named by its core-in-vat 0; a die is 4 × package + die; a tile's slice by its core. A memory key is
a physical address, or 2^48 + core × 2^21 + offset for a byte of scratch. -/

namespace Sys2Proof.Machine

/-- Why the machine as a whole stops. Every fault of the part itself is a NEXT state (18 R402). -/
inductive Fault where
  /-- A wave's or context's instruction is executed while no agent moves (`State.cur`). Raised by
  `checked`. Safe: the part executes no instruction then. -/
  | noAgent
deriving DecidableEq, Repr

/-- Why an instruction has no meaning here. -/
inductive Refusal where
  /-- An arm of `exec` that has no meaning yet. Safe. -/
  | notModelled (mnemonic : String)
deriving DecidableEq, Repr

/-- A register, a capability or plain data: 128 bits and a tag (01 R8). -/
structure Cap where
  tag : Bool := false
  hi : Word := 0
  lo : Word := 0
deriving DecidableEq, Repr

/-- A fault message (18 R405). -/
structure FaultMsg where
  m0 : Word := 0
  m1 : Word := 0
  m2 : Word := 0
  m3 : Word := 0
deriving DecidableEq, Repr

/-- What moves in a step. -/
inductive Agent where
  | none
  /-- The wave in a wave slot. -/
  | wave (w : Nat)
  /-- A press sequencer context of a vat. -/
  | ctx (vat n : Nat)
deriving DecidableEq, Repr

/-- A step chosen from outside: one of the table's steps that no wave executes, or an agent's next instruction. -/
inductive Turn where
  | event (i : Instr)
  | agent (a : Agent)
deriving DecidableEq, Repr

/-- What a parked wave waits for (07 R189). -/
inductive Wait where
  /-- Its instruction is executed afresh when it is taken up again. -/
  | retry
  /-- The same, in a wait that the watchdog times (18 R404). -/
  | timed
  /-- The lease clock: the instruction is executed afresh once TIME is at least `t`. -/
  | lease (t : Nat)
  /-- Registered in `BWAIT` on the barrier at a memory key; the status goes to c[d] (09 R241). -/
  | barrier (key d : Nat)
  /-- A reply on its way writes c[d]; whether the watchdog times the wait (18 R404). -/
  | reply (d : Nat) (timed : Bool := false)
  /-- A posted fault: only the supervisor ends it (18 R402). -/
  | fault
deriving DecidableEq, Repr

/-- Where a resident wave stands (07 R189). -/
inductive Run where
  | window
  | ready
  | waiting (why : Wait)
  /-- Ended by `EXIT` or a kill; the slot is held until its loads complete (04 R127). -/
  | ended
deriving DecidableEq, Repr

/-- A wave (01 R7, R25 to R31; 04 R123; 05 R131, R141; 09 R243, R245). -/
structure Wave where
  live : Bool := false
  full : Bool := false
  vregs : Nat := 0
  /-- Home lane group of a full wave (07 R186). -/
  home : Nat := 0
  sup : Bool := false
  grid : Nat := 0
  group : Nat := 0
  gidx : Nat := 0
  widx : Nat := 0
  c : Tbl Cap := []
  pc : Cap := {}
  v : Tbl W32 := []
  nc : Tbl Nat := []
  bk : Tbl Bool := []
  fmode : W32 := 0
  fflags : W32 := 0
  fstat : Word := 0
  finfo : Word := 0
  svst : Word := 0
  loads : Nat := 0
  stores : Nat := 0
  copies : Nat := 0
  passes : Nat := 0
  mg : Tbl Nat := []
  mgg : Nat := 0
  lk : BitVec 16 := 0
  rf : BitVec 16 := 0
  gl : Bool := false
  gr : Bool := false
  run : Run := .window
  /-- Cycle since which it could issue without issuing, of its last issue, of its entry into its window or ready
  state, and of the start of its wait (07 R190, R191, 18 R404). -/
  since : Nat := 0
  last : Nat := 0
  entered : Nat := 0
  waitAt : Nat := 0
  /-- The word of the instruction it issued last or waits with (18 R405). -/
  word : W32 := 0
  /-- Its vector queue, oldest entry first: the intervals that an entry has still to be granted; and its pass value (07
  R192). -/
  vq : List (List Nat) := []
  pass : Nat := 0
  /-- Its next instruction has been tried and could not go on: it is inside a wait. -/
  again : Bool := false
  halt : Bool := false
  /-- The fault it is parked with (18 R402, R414). -/
  fault : Option FaultMsg := none
  /-- The reply to its PROMOTE: PCT, or an error (09 R248). -/
  promo : Option (Nat × Bool) := none
  /-- Registers a load has still to write: c n as n, v n as 64 + n (04 R98). -/
  pend : List Nat := []
  /-- Registers with a deferred ECC mark, and the pa of the line: c n as n, v n as 64 + n, and as 256 + n one that no
  register keeps (18 R403). -/
  poison : Tbl Nat := []
  /-- Its number among all agents that ever were; and, by agent, the number of the latest release that happens-before
  its next access, now and at its last INVL1 (01 R37, 10 R258; log 12). -/
  uid : Nat := 0
  clk : Tbl Nat := []
  l1clk : Tbl Nat := []
  /-- The place in that order at which its PROMOTE was accepted (10 R269). -/
  promoAt : Nat := 0
deriving DecidableEq, Repr

/-- A release whose value stands at a location: its scope, the core, group and agent that made it, its number, and what
happens-before it (10 R257). -/
structure Rel where
  key : Nat
  scope : Nat
  core : Nat
  group : Nat
  uid : Nat
  no : Nat
  clk : Tbl Nat
deriving DecidableEq, Repr

/-- An entry of the store gather buffer (08 R199, 10 R263). -/
structure Sgb where
  line : Nat
  data : Tbl Byte := []
  tags : Tbl Bool := []
  gs : Tbl Nat := []
  fgs : Nat := 0
  /-- Slots of its writers, and their grids. -/
  writers : List Nat := []
  grids : List Nat := []
  /-- The releases whose values it holds. -/
  rels : List Rel := []
  last : Nat := 0
  closed : Bool := false
  /-- Its write has been sent; GWCT and error once the home has served it. -/
  sent : Bool := false
  served : Option (Nat × Nat) := none
deriving DecidableEq, Repr

/-- A gathered store in the store queue (08 R199): its wave, its instruction's number, its bytes. -/
structure Queued where
  wave : Nat
  sid : Nat
  id : Nat
  key : Nat
  bytes : List Byte
  tag : Bool
  grid : Nat := 0
  uid : Nat := 0
  rels : List Rel := []
deriving DecidableEq, Repr

/-- A cached translation (08 R215): a leaf entry under an ASID and the number of the page it maps. -/
structure TlbE where
  asid : Nat
  page : Nat
  pte : Word
  /-- Level of the leaf, and the memory key of its entry. -/
  lvl : Nat
  entry : Nat
deriving DecidableEq, Repr

/-- Who handed an engine its request: the wave, or 2^40 + its slot once the wave is gone; its slot's tag, its
group, grid, group index and ASID. -/
structure Pusher where
  wave : Nat
  wtag : BitVec 16
  group : Nat
  grid : Nat
  gidx : Nat
  asid : Nat
  /-- The wave's index in its group (19 R421). -/
  widx : Nat := 0
deriving DecidableEq, Repr

/-- A ladle request (12 R282, R283, R290). -/
structure LReq where
  ch : Nat
  src : Cap
  dst : Cap
  ccmd : Word
  by_ : Pusher
  seq : Nat
  /-- Its number among all agents (log 12). -/
  uid : Nat := 0
  /-- Output bytes in all, and those it has made and not yet landed. -/
  len : Nat
  out : List Byte := []
  running : Bool := false
  landed : Nat := 0
  credited : Nat := 0
  /-- The aligned word of the source that was read last, and its bytes (10 R272). -/
  word : Option (Nat × List Byte) := none
deriving DecidableEq, Repr

/-- The output of one request, as a stream register reads it (12 R299). -/
structure Span where
  seq : Nat
  base : Nat
  len : Nat
  /-- Size of an element, 1, 2 or 8 bytes. -/
  size : Nat
  /-- The request was aborted or cancelled after this many bytes (12 R301). -/
  cut : Option Nat := none
deriving DecidableEq, Repr

/-- A stream register (12 R299). -/
structure Stream where
  owner : Option Nat := none
  ch : Nat := 0
  /-- The outputs with bytes not yet popped, and the byte of the first to pop next. -/
  spans : List Span := []
  pos : Nat := 0
deriving DecidableEq, Repr

/-- A ray or hit record: its 512 bits, W0 lowest (15 R358). -/
abbrev Ray := BitVec 512

/-- A treelet slot that holds, or is receiving, an image (15 R360, R366). -/
structure TSlot where
  tid : Nat
  total : Nat
  landed : Bool := false
  accepted : Nat := 0
deriving DecidableEq, Repr

/-- A route-cache entry (15 R367). -/
structure Route where
  tid : Nat
  viaDir : Bool
  holders : List Nat
  expiry : Nat
deriving DecidableEq, Repr

/-- The state of an exchange port (16 R389). -/
inductive PortSt where
  | idle | armed | run | done
deriving DecidableEq, Repr

/-- The last PHASE-START of a domain that a tile has seen: its phase, the cycle, and the phase before (16 R386). -/
structure Seen where
  phase : Nat
  cyc : Nat
  prev : Option Nat
deriving DecidableEq, Repr

/-- The exchange port of a core (16 R386 to R396). -/
structure Port where
  st : PortSt := .idle
  owner : Nat := 0
  domain : Nat := 0
  phase : Nat := 0
  /-- In RUN: the cycle in which XC was 0, and the next exchange cycle whose beat is still to be sent. -/
  start : Nat := 0
  next : Nat := 0
  bank : Nat := 0
  sel : Nat := 0
  sends : Tbl Cap := []
  lands : Tbl Cap := []
  drop : Nat := 0
  unsent : Nat := 0
  unbound : Nat := 0
  stray : Bool := false
  coll : Bool := false
  /-- The owner has ended: the port is set IDLE when it reaches DONE (16 R390). -/
  orphan : Bool := false
  /-- Its domain has been freed since it was armed: no PHASE-START will come (16 R386). -/
  stale : Bool := false
  /-- The four table banks: header, then E0, E1 of each entry. -/
  banks : Tbl (List Word) := []
  /-- Copies of each domain's OWNER and own mask bit, and the last phase seen (16 R386). -/
  owners : Tbl Nat := []
  member : Tbl Bool := []
  seen : Tbl Seen := []
deriving DecidableEq, Repr

/-- A shadow task slot (07 R185). -/
structure Shadow where
  grid : Nat
  gidx : Nat
  soff : Nat
  slen : Nat
  slots : List Nat
  filled : Nat
  /-- At the fill its grid was that of the group most recently started on the core. -/
  same : Bool := false
deriving DecidableEq, Repr

/-- The hit program bound to a core (15 R372, R382). -/
structure HitProg where
  grid : Nat
  hqt : Nat
  unbound : Bool := false
  /-- The reservation of R373: wave slot, register blocks, scratch; the shading group that uses it. -/
  slot : Nat
  blocks : Nat
  soff : Nat
  slen : Nat
  user : Option Nat := none
deriving DecidableEq, Repr

/-- An instruction issued in this cycle: its wave, its pipe, whether its wave issues no other beside it, and the
scalar registers it writes (04 R98, 07 R191). -/
structure Issued where
  wave : Nat
  pipe : Nat
  alone : Bool
  wr : List Nat
deriving DecidableEq, Repr

/-- A core and the units it owns. -/
structure Core where
  /-- The capacity word (07 R183), an unrepaired core (log 5). -/
  capw : Word := 0x0000_FC10_0200_0000
  wtag : Tbl (BitVec 16) := []
  /-- The lines that L1 holds, most recently used first, and how often it has been emptied (08 R197, R198). -/
  l1 : Tbl (List Byte × List Bool) := []
  l1use : List Nat := []
  l1e : Nat := 0
  /-- The lines that the instruction cache holds with the place of each fill in the order of writes, most recently used
  first, and the number of the core's last INVI among all (01 R38, 04 R129). -/
  icache : Tbl (Nat × List Byte) := []
  icuse : List Nat := []
  inviAt : Nat := 0
  /-- The micro-TLB (08 R215). -/
  utlb : List TlbE := []
  sgb : List Sgb := []
  squeue : List Queued := []
  gs : Nat := 0
  log : List Nat := []
  /-- Waves whose narrow release waits for room in the log, by arrival (10 R265). -/
  relq : List Nat := []
  cgw : Nat := 0
  /-- The ACTIVE promotion: its coverage and requesters; and the WAITING one (10 R263). -/
  active : Option (Option Nat × List Nat) := none
  promoWait : Option (List Nat) := none
  ccmd : Tbl Word := []
  cwmk : Tbl Word := []
  cerr : Tbl Nat := []
  cstray : Tbl Bool := []
  cabort : Tbl Bool := []
  cdone : Tbl Nat := []
  pushes : Tbl Nat := []
  fifo : List LReq := []
  streams : Tbl Stream := []
  raycfg : Word := 0x0000_10D0_0000_0100
  rayovf : Word := 0
  hdrop : Bool := false
  tslots : Tbl TSlot := []
  inbox : List Ray := []
  rrecv : List Nat := []
  hits : List (Ray × Nat) := []
  routes : List Route := []
  queries : List Nat := []
  ovfHead : Nat := 0
  ovfN : Nat := 0
  hprog : Option HitProg := none
  port : Port := {}
  shadow : Tbl Shadow := []
  /-- The cycle in which the group of shadow slot 1 became runnable last (07 R185). -/
  ran1 : Option Nat := none
  lastGrid : Nat := 0
  /-- Cycle of its last rotation (07 R190). -/
  rotated : Nat := 0
  /-- The scalar pipes given in this cycle (07 R191). -/
  issued : List Issued := []
  /-- The cycle up to which each lane group is held (06 R159, 07 R192). -/
  lanesBusy : Tbl Nat := []
deriving DecidableEq, Repr

/-- An accumulator slot (13 R306, 14 R333). -/
structure Slot where
  st : Nat := 0
  key : Nat := 0
  val : W32 := 0
deriving DecidableEq, Repr

/-- A window of the accumulator file (13 R307). -/
structure Window where
  hash : Bool
  baseu : Nat
  sizeu : Nat
  holders : List Nat
deriving DecidableEq, Repr

/-- The state of a sequencer context (13 R309). -/
inductive CtxSt where
  | free | run | halted | faulted | stopping
deriving DecidableEq, Repr

/-- A sequencer context (13 R309, R314, 14 R331). -/
structure Ctx where
  st : CtxSt := .free
  group : Nat := 0
  grid : Nat := 0
  /-- The wave that started it, and its slot's tag (18 R405). -/
  wave : Nat := 0
  wtag : BitVec 16 := 0
  /-- Its number among all agents, and what happens-before its next operation (log 12). -/
  uid : Nat := 0
  clk : Tbl Nat := []
  m : Tbl Word := []
  pc : Cap := {}
  arena : Cap := {}
  regs : Tbl Word := []
  /-- Registered in `BWAIT`, or waiting for posted operations. -/
  wait : Option Wait := none
  /-- The wave and register that wait in `MSTOP`, and the status it will get (13 R324). -/
  stopper : Option (Nat × Nat × Nat) := none
deriving DecidableEq, Repr

/-- What an entry of the reservation table does. -/
inductive PressOp where
  | pass | join | drain (ordered : Bool) | clear
deriving DecidableEq, Repr

/-- An entry of the reservation table (13 R315). -/
structure REntry where
  ctx : Nat
  op : PressOp
  /-- The posting instruction's address, word and operands. -/
  fpc : Nat
  word : W32
  ma : Word
  mb : Word
  /-- The latched press registers. -/
  regs : Tbl Word
  /-- The latched port: capability and CAPLG of a join's spill or a drain (14 R339). -/
  cap : Cap := {}
  lg : Nat := 0
  posted : Nat
  granted : Bool := false
  finished : Bool := false
  nonfin : Bool := false
  /-- HEAD and TAIL as the operation holds them. -/
  head : Nat := 0
  tail : Nat := 0
  /-- Products still to apply: key, bits, whether an input or the product is non-finite, and how many tuples had been
  read when it was emitted. -/
  todo : List (Nat × W32 × Bool × Nat) := []
  unsorted : Bool := false
  /-- A source error that ends it after them: whether ECC (else XLATE), and the information word. -/
  err : Option (Bool × Word) := none
  /-- Slots that a drain has still to write, and all that it emits. -/
  slots : List Nat := []
  emitted : List Nat := []
  /-- Cycles it holds the press: those known at its grant, products and probe steps a bank so far, cycles
  stalled, and the cycle of the last stall (13 R322, 14 R338, R343). -/
  hold : Nat := 0
  prods : Nat := 0
  banks : Tbl Nat := []
  waited : Nat := 0
  since : Nat := 0
deriving DecidableEq, Repr

/-- A request in the harp queue (14 R346 to R349): 0 gather, 1 CSR, 2 scatter. -/
structure HReq where
  op : Nat
  /-- The capability of the request block (19 R421). -/
  block : Cap := {}
  tbl : Cap
  idx : Cap
  aux : Cap
  dst : Cap
  h0 : Word
  h1 : Word
  /-- The core whose wave pushed it. -/
  core : Nat
  by_ : Pusher
  /-- Its number among all agents (log 12). -/
  uid : Nat := 0
  running : Bool := false
  landed : Nat := 0
  credited : Nat := 0
  /-- Positions whose rows another die has gathered and written (14 R352). -/
  shipped : List Nat := []
  /-- The index list or row pointers, once read: each entry, and the code of the error that it met. -/
  ix : Option (List (Nat × Option Nat)) := none
  stray : Bool := false
deriving DecidableEq, Repr

/-- A vat's press, harp and event matrix. -/
structure Vat where
  rows : Tbl Word := []
  cnt : Tbl Nat := []
  ovf : Tbl Bool := []
  acf : Tbl Slot := []
  wins : Tbl Window := []
  ctxs : Tbl Ctx := []
  rtab : List REntry := []
  harp : List HReq := []
  nf : Bool := false
  vbud : Word := 0x0000_00FF_FFFF_FFFF
  vpol : Word := 0x10
  /-- The cycle in which a firing reached its event matrix last (12 R303). -/
  fired : Option Nat := none
  /-- The cycle up to which VBUD is refilled. -/
  bcyc : Nat := 0
  /-- The vat's TLB (08 R215). -/
  tlb : List TlbE := []
  /-- The context that issued last, and whether one has issued in this cycle (13 R309). -/
  lastCtx : Nat := 0
  ctxDone : Bool := false
  temp : Int := 0
  /-- Its clock is stretched by a droop; it runs at half clock for heat (22 R462). -/
  stretched : Bool := false
  hot : Bool := false
  /-- The cycles that it has not run while its die did, and whether this is one (01 R28; log 6). -/
  lag : Nat := 0
  idle : Bool := false
deriving DecidableEq, Repr

/-- The reply of a core to a PROMOTE: the acquiring wave, PCT, or an error (10 R266, R270). -/
structure PromoRep where
  wave : Nat
  pct : Nat
  core : Nat
  err : Bool := false
deriving DecidableEq, Repr

/-- A replica of a line, and the place of its grant in the order of writes (08 R209). -/
structure Replica where
  line : Nat
  data : List Byte
  tags : List Bool
  expiry : Nat
  granted : Nat
deriving DecidableEq, Repr

/-- How a die is fenced (21 R443). -/
inductive FenceSt where
  | live | pass | cut
deriving DecidableEq, Repr

/-- A die: mailbox, limits, distributor budget, translation and replica caches. -/
structure Die where
  mailbox : List FaultMsg := []
  naks : BitVec 32 := 0
  /-- SUPLOC as an offset from die-local (0, 0): reset value die-local (0, 0) (18 R407). -/
  suploc : Nat := 0
  wdog : Word := 0
  mcfg : Word := 0x1004_0001
  tlb : List TlbE := []
  replicas : List Replica := []
  dbud : Word := 0x0000_00FF_FFFF_FFFF
  ecost : Word := 0
  /-- The cycle up to which DBUD is refilled. -/
  bcyc : Nat := 0
  fence : FenceSt := .live
  skew : Int := 0
  /-- Half clock (22 R462); the cycles that it has not run, and whether this is one (01 R28; log 6). -/
  halved : Bool := false
  lag : Nat := 0
  idle : Bool := false
  /-- The cycle in which its mailbox took a message last, and that message's source coordinate, y then x (18 R406). -/
  took : Nat × Nat := (0, 0)
deriving DecidableEq, Repr

/-- A home slice: its lines with a tag, most recently used first, those of them whose data is not in HBM, and
those marked first for eviction (08 R205, R206); and its counters (08 R210, R221, 18 R403). -/
structure Slice where
  lines : List Nat := []
  dirty : List Nat := []
  marked : List Nat := []
  sx : Nat := 0
  mcreq : BitVec 32 := 0
  mcsent : BitVec 32 := 0
  ecc : BitVec 32 := 0
deriving DecidableEq, Repr

/-- The life of a grid (05 R139). -/
inductive GridSt where
  | pending | running | draining | retired
deriving DecidableEq, Repr

/-- A batch of a graph node (05 R150), and what happens-before its group (05 R144). -/
structure Batch where
  no : Nat
  written : Nat
  clk : Tbl Nat := []
  /-- Whether its group has been handed to a distributor, and has released its scratch. -/
  released : Bool := false
deriving DecidableEq, Repr

/-- A grid (05 R136, R139 to R150; 18 R416; 22 R457). -/
structure Grid where
  st : GridSt := .pending
  record : List Word
  depth : Nat := 1
  parent : Nat := 0
  asid : Nat := 0
  vec : Nat := 0
  groups : Nat := 0
  sup : Bool := false
  killed : Bool := false
  lost : Bool := false
  replayed : Bool := false
  nofit : Bool := false
  fcode : Nat := 0
  nfault : Nat := 0
  ngrp : Nat := 0
  accepted : Nat := 0
  /-- The place of its acceptance in the order of writes, and the greatest GWCT of its stores. -/
  start : Nat := 0
  gw : Nat := 0
  /-- What happens-before the first instruction of its waves; what each GROW adds for the indices from `n` on; what the
  EMITs of the open batch add (05 R144; log 12). -/
  clk : Tbl Nat := []
  grown : List (Nat × Tbl Nat) := []
  emits : Tbl Nat := []
  /-- What its ended waves pass on at its retirement (05 R140). -/
  passed : Tbl Nat := []
  /-- The place of the launch slot's write that it or an ancestor came from: its waves see earlier host writes (22 R454). -/
  host : Nat := 0
  /-- Graph node: the place of its queue descriptor (05 R148). -/
  qkey : Nat := 0
  /-- Graph node: closed, slots of the open batch written, when its first was written, ready batches. -/
  closed : Bool := false
  first : Nat := 0
  batches : List Batch := []
  /-- Whether the completion record has been written (05 R140 step 2). -/
  recorded : Bool := false
deriving DecidableEq, Repr

/-- Where pending indices stand (07 R178). -/
inductive Hold where
  | pool (die : Nat)
  | core (core : Nat)
  | deferred
deriving DecidableEq, Repr

/-- A half-open range of pending indices (07 R178). -/
structure Task where
  grid : Nat
  lo : Nat
  hi : Nat
  hold : Hold
  since : Nat := 0
deriving DecidableEq, Repr

/-- A group from its grant to the release of its scratch (05 R133, R135). -/
structure Group where
  grid : Nat
  gidx : Nat
  core : Nat
  waves : List Nat
  soff : Nat
  slen : Nat
  shading : Bool := false
  /-- Wave slots elsewhere that are held for it (19 R418). -/
  held : List Nat := []
  /-- It is being saved into an image: the image's place and the wave and register that wait (19 R417). -/
  saving : Option (Cap × Nat × Nat) := none
deriving DecidableEq, Repr

/-- What an image does not hold of a wave: its index, whether it is halted, its deferred errors and its place in the
order of writes (log 32). -/
structure Kept where
  widx : Nat
  halt : Bool
  poison : Tbl Nat
  uid : Nat
  clk : Tbl Nat
  l1clk : Tbl Nat
deriving DecidableEq, Repr

/-- A saved group waiting to be restored (19 R417, R418, R423). -/
structure Saved where
  grid : Nat
  gidx : Nat
  /-- The image's address, and the ASID and core under which it was written. -/
  image : Nat
  asid : Nat
  viewer : Nat
  /-- The core saved from, and the wave slots that are held. -/
  core : Nat
  slots : List Nat
  /-- The group indices of the waves that had not ended, in order, and of the wave that started the context. -/
  alive : List Nat
  starter : Option Nat := none
  /-- The waves that had not ended; and its context's number among all agents, and what happened-before it. -/
  kept : List Kept := []
  context : Option (Nat × Tbl Nat) := none
  /-- The recorded reservation entries, for what the image does not hold of them. -/
  entries : List REntry := []
  /-- The cycle of the save: its W runs from here (07 R180). -/
  since : Nat := 0
deriving DecidableEq, Repr

/-- An atomic's operation and width (02 R58). -/
inductive AtomOp where
  | add | min | max | minu | maxu | and | or | xor | swap | fadd | bfadd2 | cas
deriving DecidableEq, Repr

/-- One lane of an atomic: its lane, memory key, operand, comparison value and effective address. -/
structure AtomLane where
  lane : Nat
  key : Nat
  x : Nat
  cmp : Nat := 0
  ea : Nat := 0
deriving DecidableEq, Repr

/-- What a request asks of its home (08 R217). -/
inductive ReqKind where
  /-- A scalar load of `n` bytes into c[d]. -/
  | load (d key n : Nat)
  /-- A capability load; `lc` says whether the tag is kept. -/
  | loadCap (d key : Nat) (lc : Bool)
  /-- A vector load: lanes and keys, element size, sign extension; `mc` for a multicast read. -/
  | vload (vd n : Nat) (sx mc : Bool) (lanes : List (Nat × Nat))
  /-- Direct writes of bytes at keys; a tag is set only by `STC`. -/
  | store (writes : List (Nat × List Byte)) (tag : Bool)
  /-- A drain of a core's SGB entry, named by its FGS (08 R200). -/
  | drain (core fgs : Nat)
  /-- Lines made zero (09 R249). -/
  | zero (lines : List Nat)
  /-- A scalar atomic of `n` bytes; the old value goes to c[d]. -/
  | atom (d n : Nat) (op : AtomOp) (lane : AtomLane)
  /-- A vector atomic; old values go to vd (and vd + 1). -/
  | vatom (vd n : Nat) (op : AtomOp) (lanes : List AtomLane)
  /-- A deque operation: 0 push, 1 pop, 2 steal (09 R234). -/
  | deque (d key op : Nat) (x : Word)
deriving DecidableEq, Repr

/-- A request on its way to its home. A wave that is gone is named by 2^40 + its number. -/
structure Req where
  wave : Nat
  sid : Nat
  q : Nat
  kind : ReqKind
  /-- The page is replicable (08 R209). -/
  rep : Bool := false
  /-- Its instruction's number, and how often L1 had been emptied when it was issued (08 R198). -/
  id : Nat := 0
  l1e : Nat := 0
  /-- The wave's grid, its number among all agents, and the releases whose values a write stands for (log 12). -/
  grid : Nat := 0
  uid : Nat := 0
  rels : List Rel := []
deriving DecidableEq, Repr

/-- What a data reply writes. -/
inductive ReplyData where
  | reg (d : Nat) (value : Cap)
  /-- A granule; `lc` says whether a tag is kept (01 R16). -/
  | cap (d : Nat) (value : Cap) (lc : Bool)
  | lanes (ws : List (Nat × Nat × W32))
  /-- One half of a BFADD2's old value: bits `off` and up, to c[d] or to lanes (09 R232). -/
  | half (d off v : Nat)
  | halves (off : Nat) (ws : List (Nat × Nat × W32))
deriving DecidableEq, Repr

/-- A data reply (08 R251). -/
structure Reply where
  wave : Nat
  data : ReplyData
  /-- The keys read. -/
  keys : List Nat := []
  q : Nat := 1
  sid : Nat := 0
  /-- The home has an uncorrectable error or is lost: the pa of the line (18 R403, R415). -/
  bad : Option Nat := none
  /-- Replicas that the home granted with it (08 R209). -/
  grants : List Replica := []
  id : Nat := 0
deriving DecidableEq, Repr

/-- An acknowledgement (08 R219): `err` 0 none, 1 dead link, 2 refused. -/
structure Ack where
  wave : Nat
  sid : Nat
  gwct : Nat
  err : Nat := 0
  /-- The acknowledgement of a store to scratch. -/
  scr : Bool := false
  id : Nat := 0
  grid : Nat := 0
  /-- The core of the home that answers. -/
  home : Nat := 0
deriving DecidableEq, Repr

/-- Who sent an arrival or a credit, for ChannelError (09 R236). -/
inductive Creditor where
  | agent (a : Agent)
  | ladle (core ch : Nat)
  /-- A harp: whose request it serves, and the position it has reached. -/
  | harp (vat : Nat) (by_ : Pusher) (pos : Nat)
  | port (core : Nat)
  | grid
deriving DecidableEq, Repr

/-- An arrival or a credit on its way to a barrier. -/
structure Credit where
  key : Nat
  amount : Nat
  src : Creditor
  /-- What happens-before it (log 12). -/
  clk : Tbl Nat := []
deriving DecidableEq, Repr

/-- An agent registered in `BWAIT` (09 R241). -/
structure Waiter where
  key : Nat
  agent : Agent
  d : Nat
deriving DecidableEq, Repr

/-- A value that will be written to c[d] of a parked agent, which then goes on; `time`: not before this
lease time. -/
structure Wake where
  agent : Agent
  d : Nat
  value : Word
  time : Nat := 0
  /-- A deferred error of the value (18 R403). -/
  bad : Option Nat := none
  /-- The first cycle in which it may arrive (09 R242). -/
  due : Nat := 0
  /-- Not before this die's broadcasts of this domain have reached every tile (16 R392). -/
  tree : Option (Nat × Nat) := none
  /-- What happens-before it (log 12). -/
  clk : Tbl Nat := []
  /-- The grid that it tells of, and the groups that a GROW gave it: none for a LAUNCH (21 R449). -/
  made : Option (Nat × Option Nat) := none
deriving DecidableEq, Repr

/-- A multicast response at a home slice (08 R220). -/
structure Mcast where
  line : Nat
  reqs : List Req
  since : Nat
  /-- Its data has arrived from HBM, or was there. -/
  arrived : Bool := false
deriving DecidableEq, Repr

/-- A `TLREQ` at or on its way to a directory controller (15 R381). -/
structure TlReq where
  tid : Nat
  core : Nat
  wave : Nat
  d : Nat
  replica : Bool
  pin : Bool
deriving DecidableEq, Repr

/-- A `TLEVICT` or policy eviction (15 R369). -/
structure TlEvict where
  tid : Nat
  core : Nat
  /-- The wave and register that wait for it, if any. -/
  waiter : Option (Nat × Nat)
deriving DecidableEq, Repr

/-- What a directory controller keeps beside the entry in memory (15 R365). -/
structure DirTid where
  pend : List Ray := []
  waiting : List TlReq := []
  /-- The `TLREQ` that started the page-in. -/
  starter : Option TlReq := none
  /-- A replica copy on its way: the host, and the `TLREQ` it is for. -/
  copyTo : Option Nat := none
  copyFor : Option TlReq := none
  /-- The wave and register that wait for the owner to confirm an eviction. -/
  evicting : Option (Nat × Nat) := none
  /-- The owner's confirmation is on its way. -/
  confirm : Bool := false
  /-- `TLREQ`s that waited and are to be handled afresh, before any other message of the entry. -/
  redo : List TlReq := []
deriving DecidableEq, Repr

/-- A route reply (15 R367). -/
structure RouteRep where
  core : Nat
  tid : Nat
  viaDir : Bool
  holders : List Nat
deriving DecidableEq, Repr

/-- A PAGE message with treelet data, 1 KiB at `off` of the image (15 R366). -/
structure Page where
  tid : Nat
  host : Nat
  src : Nat
  off : Nat
  total : Nat
deriving DecidableEq, Repr

/-- A beat on the exchange plane (16 R383): the cycle in which it was sent. -/
structure Beat where
  src : Nat
  dst : Nat
  data : List Byte
  sent : Nat
deriving DecidableEq, Repr

/-- A PHASE-START or a broadcast on its way to one tile (16 R386). -/
structure TileMsg where
  core : Nat
  domain : Nat
  value : Nat
  member : Bool := false
  /-- The cycle in which it arrives; 0 for any (16 R386). -/
  due : Nat := 0
deriving DecidableEq, Repr

/-- A fault message on its way to, or refused by, a mailbox (18 R406). -/
structure Posting where
  die : Nat
  msg : FaultMsg
  refused : Bool := false
  /-- Cycle of the posting or of the last refusal. -/
  cyc : Nat := 0
deriving DecidableEq, Repr

/-- A firing on its way: the vat, the source, and the cycle in which it reaches the sinks (12 R303, R304). -/
structure Fired where
  vat : Nat
  src : Nat
  due : Nat
deriving DecidableEq, Repr

/-- A distributor's journal entry (21 R446): 0 range received, 1 index granted, 2 group runnable,
3 scratch released. -/
structure Journal where
  die : Nat
  grid : Nat
  what : Nat
  lo : Nat
  hi : Nat
deriving DecidableEq, Repr

/-- Messages in flight (08 R216, R217). -/
structure Net where
  reqs : List Req := []
  replies : List Reply := []
  acks : List Ack := []
  mcasts : List Mcast := []
  /-- PROMOTE messages: target core and acquiring wave; and their replies. -/
  promotes : List (Nat × Nat) := []
  promoReps : List PromoRep := []
  arrivals : List Credit := []
  credits : List Credit := []
  wakes : List Wake := []
  replies2 : List Wake := []
  hits : List (Nat × Ray) := []
  rays : List (Nat × Ray) := []
  dirRays : List Ray := []
  /-- Heat reports: treelet, count, ORG. -/
  heats : List (Nat × Nat × Nat) := []
  tlreqs : List TlReq := []
  evicts : List TlEvict := []
  queries : List (Nat × Nat) := []
  routeReps : List RouteRep := []
  pages : List Page := []
  tlreps : List Wake := []
  phases : List TileMsg := []
  bcasts : List TileMsg := []
  beats : List Beat := []
  /-- Dropped beats: the sender and the cycle of the drop (16 R384). -/
  colls : List (Nat × Nat) := []
  posts : List Posting := []
  events : List Fired := []
  journal : List Journal := []
deriving DecidableEq, Repr

/-- The host's registers (22 R453, R455). -/
structure Bar0 where
  slotst : Word := 0
  sloterr : Word := 0
  slotctl : Tbl Word := []
  lres : Tbl Word := []
  erbase : Word := 0
  ercfg : Word := 0
  erhead : Nat := 0
  ertail : Nat := 0
  icoal : Tbl Word := []
  tgaddr : Word := 0
  tglo : Word := 0
  tghi : Word := 0
  devctl : Word := 0
  tgtag : Bool := false
  tgerr : Bool := false
  /-- The tagged write in flight: granule pa, value, tag. -/
  tgbusy : Option (Nat × Cap) := none
  tlbinv : Word := 0
  /-- ASIDBASE as written, and as translations use it (22 R456). -/
  asidbase : Word := 0
  asidlive : Word := 0
  /-- Per MSI-X vector: records pending and when the oldest was written; messages fired. -/
  pending : Tbl Nat := []
  oldest : Tbl Nat := []
  fired : List Nat := []
deriving DecidableEq, Repr

/-- The management controller (22 R463 to R467). -/
structure Ctrl where
  /-- The two flash banks: the controller, bring-up and supervisor images, their version, the launch record that the
  supervisor image carries (22 R469); the bank that runs, and the one to boot at the next reset. -/
  banks : Tbl (List (List Byte)) := []
  versions : Tbl Nat := []
  records : Tbl (List Word) := []
  active : Nat := 0
  next : Nat := 0
  minVersion : Nat := 0
  mr : Tbl (List Byte) := []
  /-- Log entries: lease time, source, code (22 R466). -/
  log : List (Nat × Nat × Nat) := []
  /-- Per package: the current of the core rail, A; and the voltage and current of its rails as sampled last, by
  package × 256 + 2 × rail (+ 1 for the current) (22 R465). -/
  sensors : Tbl Nat := []
  rails : Tbl Nat := []
  /-- HDMB of the HDM decoder, which the host sets (22 R451). -/
  hdmb : Nat := 0
  /-- Signed attestation replies sent (22 R464). -/
  sent : List (List Byte) := []
  /-- Data answered to host reads. -/
  reads : List (List Byte) := []
deriving DecidableEq, Repr

/-- A package: directory configuration, its view of the topology and its limits (15 R363, 21 R450, 22 R462). -/
structure Package where
  dircfg : Word := 0
  epoch : Nat := 0
  /-- Every vat runs with PSL at most 8 (22 R462). -/
  capped : Bool := false
deriving DecidableEq, Repr

/-- The last write of some bytes of a line by one agent in one stream: where, its place in the order of writes, by
which agent, in which stream, of which grid, the core that gathered it, and the numbers of the release of `.vat` or
wider, and of the writer's own FENCE, that published it (01 R37, log 12). -/
structure Wrote where
  off : Nat
  len : Nat
  no : Nat
  uid : Nat
  sid : Nat := 0
  grid : Nat := 0
  gath : Option Nat := none
  pub : Option Nat := none
  own : Option Nat := none
deriving DecidableEq, Repr

/-- A translated line as it was before a write: how many INVI had been executed then, the write's place, and its
bytes (01 R38, log 14). -/
structure Old where
  invis : Nat
  no : Nat
  data : List Byte
deriving DecidableEq, Repr

/-- A dead mesh link (18 R408, 08 R219): where, since when, how many messages it has had answered with an error, and
whether its message has been posted. -/
structure DeadLink where
  tile : Nat
  dir : Nat
  since : Nat
  count : Nat := 0
  told : Bool := false
deriving DecidableEq, Repr

/-- A page found with Z = 1 and not yet cleared (08 R206, R207). -/
structure ZPage where
  base : Nat
  size : Nat
  /-- The memory key of its entry. -/
  entry : Nat
deriving DecidableEq, Repr

/-- The whole machine. -/
structure State where
  /-- Which agent moves (the model's own, log 1). -/
  cur : Agent := .none
  /-- Steps chosen from outside, to come first (the model's own, log 1). -/
  agenda : List Turn := []
  /-- Draws of free values and of Random16 (the model's own, log 9, 10). -/
  fresh : Nat := 0
  rnd : Nat := 0
  /-- Memory instructions issued so far, which number them; agents so far; writes, grants and releases so far (the
  model's own, log 2, 12). -/
  reqNo : Nat := 0
  agents : Nat := 0
  seq : Nat := 0
  /-- A step of a unit has been made in this cycle (the model's own, log 1). -/
  moved : Bool := false
  /-- Core cycles since reset, and lease-clock nanoseconds ahead of the cycle count (log 6). -/
  cyc : Nat := 0
  ahead : Nat := 0
  mem : List Host.Cell := []
  tags : Tbl Bool := []
  zeroed : Tbl Bool := []
  zpages : List ZPage := []
  /-- Greatest lease expiry granted per line (08 R210). -/
  lx : Tbl Nat := []
  wrote : Tbl (List Wrote) := []
  /-- The places of the host's writes to a line, the latest first (22 R454). -/
  hosted : Tbl (List Nat) := []
  /-- The releases whose values stand in memory; and what happens-before the completion of each phase of a barrier, by
  key and phase (10 R257; log 12). -/
  flags : List Rel := []
  bars : Tbl (Tbl (Tbl Nat)) := []
  /-- Translated lines as they were before writes, and how many INVI have been executed (01 R38, log 14). -/
  olds : Tbl (List Old) := []
  invis : Nat := 0
  /-- Deque entries pushed and not taken, by key / 8 (09 R234). -/
  ringed : List Nat := []
  /-- Lines of cleared Z pages whose data in a slice is clean: HBM holds zeros for them (08 R207). -/
  hollow : List Nat := []
  links : List DeadLink := []
  /-- Lines of package memory that hold an uncorrectable error (18 R403, R408). -/
  badLines : List Nat := []
  waves : Tbl Wave := []
  cores : Tbl Core := []
  vats : Tbl Vat := []
  dies : Tbl Die := []
  slices : Tbl Slice := []
  packages : Tbl Package := []
  /-- The rectangle of present packages: NX, NY (21 R435). -/
  nx : Nat := 1
  ny : Nat := 1
  master : Nat := 0
  standby : Option Nat := none
  grids : Tbl Grid := []
  handle : Nat := 1
  groups : Tbl Group := []
  groupNo : Nat := 1
  saved : List Saved := []
  tasks : List Task := []
  waiters : List Waiter := []
  dirs : Tbl DirTid := []
  net : Net := {}
  bar0 : Bar0 := {}
  ctrl : Ctrl := {}
  /-- Bring-up has reached step 7 (22 R467). -/
  up : Bool := false
  /-- Cores without a stack ordinal: PRES was 0 at the last bring-up (05 R138). -/
  unnumbered : List Nat := []
  journal : List Journal := []
deriving DecidableEq, Repr

/-- The machine after reset: powered off but for the standby rail, nothing resident (22 R467; log 1, 3
to 8). -/
def State.reset : State := {}

end Sys2Proof.Machine
end

