-- ==== Sys2Proof/Machine/Ops.lean ====
section
/-! DEFINITION. The named operations of the machine: places, time, memory bytes and tags, capabilities,
registers of the agent that moves, address translation, taking a fault and resuming from one. -/

namespace Sys2Proof.Machine

abbrev Res := Host.Outcome State Fault Refusal

/-! ### Tables of the state -/

def State.wave (s : State) (w : Nat) : Wave := Tbl.get {} s.waves w
def State.core (s : State) (c : Nat) : Core := Tbl.get {} s.cores c
def State.vat (s : State) (v : Nat) : Vat := Tbl.get {} s.vats v
def State.die (s : State) (d : Nat) : Die := Tbl.get {} s.dies d
def State.slice (s : State) (c : Nat) : Slice := Tbl.get {} s.slices c
def State.package (s : State) (p : Nat) : Package := Tbl.get {} s.packages p
def State.ctx (s : State) (v n : Nat) : Ctx := Tbl.get {} (s.vat v).ctxs n
def State.grid? (s : State) (h : Nat) : Option Grid := Tbl.get? s.grids h
def State.dir (s : State) (t : Nat) : DirTid := Tbl.get {} s.dirs t

def State.setWave (s : State) (w : Nat) (x : Wave) : State := { s with waves := Tbl.set s.waves w x }
def State.setCore (s : State) (c : Nat) (x : Core) : State := { s with cores := Tbl.set s.cores c x }
def State.setVat (s : State) (v : Nat) (x : Vat) : State := { s with vats := Tbl.set s.vats v x }
def State.setDie (s : State) (d : Nat) (x : Die) : State := { s with dies := Tbl.set s.dies d x }
def State.setSlice (s : State) (c : Nat) (x : Slice) : State := { s with slices := Tbl.set s.slices c x }
def State.setGrid (s : State) (h : Nat) (g : Grid) : State := { s with grids := Tbl.set s.grids h g }
def State.setDir (s : State) (t : Nat) (x : DirTid) : State := { s with dirs := Tbl.set s.dirs t x }
def State.setCtx (s : State) (v n : Nat) (x : Ctx) : State :=
  s.setVat v { s.vat v with ctxs := Tbl.set (s.vat v).ctxs n x }
def State.modWave (s : State) (w : Nat) (f : Wave → Wave) : State := s.setWave w (f (s.wave w))
def State.modCore (s : State) (c : Nat) (f : Core → Core) : State := s.setCore c (f (s.core c))
def State.modVat (s : State) (v : Nat) (f : Vat → Vat) : State := s.setVat v (f (s.vat v))
def State.modDie (s : State) (d : Nat) (f : Die → Die) : State := s.setDie d (f (s.die d))
def State.modSlice (s : State) (c : Nat) (f : Slice → Slice) : State := s.setSlice c (f (s.slice c))
def State.modGrid (s : State) (h : Nat) (f : Grid → Grid) : State :=
  match s.grid? h with
  | none => s
  | some g => s.setGrid h (f g)
def State.modCtx (s : State) (v n : Nat) (f : Ctx → Ctx) : State := s.setCtx v n (f (s.ctx v n))
/-- Change a wave, unless it is gone (named by 2^40 + its number). -/
def State.modOwner (s : State) (w : Nat) (f : Wave → Wave) : State := if w < 2 ^ 40 then s.modWave w f else s
def State.modNet (s : State) (f : Net → Net) : State := { s with net := f s.net }

/-! ### Places (00 R3, 01 R22, 21 R434, R435) -/

def coreOf (x y : Nat) : Nat := x * 1024 + y
def coreX (c : Nat) : Nat := c / 1024
def coreY (c : Nat) : Nat := c % 1024
/-- The core of a wave slot, and the slot's number on it; 2^40 + its number names a wave that is gone. -/
def waveCore (w : Nat) : Nat := w % 2 ^ 40 / 32
def waveSlot (w : Nat) : Nat := w % 32
/-- The package id at a core coordinate; x reaches 511 (21 R435). -/
def corePkg (c : Nat) : Nat := coreY c / 24 * 16 + coreX c / 32
/-- The die number in its package. -/
def coreDieLocal (c : Nat) : Nat := coreX c % 32 / 16 + 2 * (coreY c % 24 / 12)
def coreDie (c : Nat) : Nat := 4 * corePkg c + coreDieLocal c
/-- Core-in-vat 0 of the core's vat, and the core's own number in the vat. -/
def coreVat (c : Nat) : Nat := coreOf (coreX c / 2 * 2) (coreY c / 2 * 2)
def coreInVat (c : Nat) : Nat := coreX c % 2 + 2 * (coreY c % 2)
/-- Core number `q` of a vat. -/
def vatCore (v q : Nat) : Nat := coreOf (coreX v + q % 2) (coreY v + q / 2)
/-- The core at die-local (lx, ly). -/
def dieCore (d lx ly : Nat) : Nat :=
  coreOf (d / 4 % 16 * 32 + d % 2 * 16 + lx) (d / 4 / 16 * 24 + d % 4 / 2 * 12 + ly)
/-- Tile number `t` of a die. -/
def dieTile (d t : Nat) : Nat := dieCore d (t % 16) (t / 16)
/-- Tile number of a core in its die. -/
def tileOf (c : Nat) : Nat := coreX c % 16 + 16 * (coreY c % 12)

def pkgPresent (s : State) (p : Nat) : Bool := decide (p < 240 ∧ p % 16 < s.nx ∧ p / 16 < s.ny)
def dieLive (s : State) (d : Nat) : Bool := decide ((s.die d).fence = .live)
/-- The capacity word of a core (07 R183); an unrepaired die-local (0, 0) core has SCRU 511. -/
def capWord (s : State) (c : Nat) : Word :=
  let w := (s.core c).capw
  if tileOf c = 0 ∧ fld w 16 11 = 512 then setFld w 16 11 511 else w
/-- A core is present: in a present package, not fenced by repair, not on a fenced die (01 R23). -/
def corePresent (s : State) (c : Nat) : Bool :=
  pkgPresent s (corePkg c) && bit (s.core c).capw 47 && dieLive s (coreDie c) && decide (coreX c < 512)

/-- The present packages, in ascending id. -/
def pkgs (s : State) : List Nat := (List.range 240).filter (pkgPresent s)
/-- The live dies of the system, by rank (21 R445). -/
def liveDies (s : State) : List Nat := (pkgs s).flatMap fun p => (List.range 4).map (4 * p + ·) |>.filter (dieLive s)
/-- The cores of a die, by y, then x. -/
def dieCores (d : Nat) : List Nat := (List.range 192).map (dieTile d)
def presentCores (s : State) (d : Nat) : List Nat := (dieCores d).filter (corePresent s)

/-! ### Time (01 R28, 21 R441; log 6) -/

/-- TIME of a die: `LeaseNow()` there. -/
def leaseNow (s : State) (d : Nat) : Nat := (((2 * s.cyc / 5 + s.ahead : Nat) : Int) + (s.die d).skew).toNat

/-- The guard between two dies (08 R208). -/
def guardNs (d e : Nat) : Nat := if d / 4 = e / 4 then 4 else 32

/-- The lease clocks move on until that of a die reads `t` (log 6). -/
def passTime (s : State) (d t : Nat) : State := { s with ahead := s.ahead + (t - leaseNow s d) }

/-- CYC of a core: the cycles that it has run (01 R28, 22 R462; log 6). -/
def coreCyc (s : State) (c : Nat) : Nat := s.cyc - (s.vat (coreVat c)).lag - (s.die (coreDie c)).lag
/-- The clock of a vat does not run in this cycle (22 R462). -/
def vatIdle (s : State) (v : Nat) : Bool := (s.vat v).idle || (s.die (coreDie v)).idle

/-! ### The order of writes and releases (01 R37, 10 R257, R258; log 12) -/

/-- What happens-before each of two, joined. -/
def joinClk (a b : Tbl Nat) : Tbl Nat := b.foldl (fun t e => Tbl.set t e.1 (Nat.max e.2 (Tbl.get 0 t e.1))) a
/-- A new place in the order. -/
def State.stamp (s : State) : State := { s with seq := s.seq + 1 }
/-- A new agent's number. -/
def State.newAgent (s : State) : Nat × State := (s.agents + 1, { s with agents := s.agents + 1 })
/-- What happens-before the next access of the agent that moves. -/
def State.curClk (s : State) : Tbl Nat := match s.cur with
  | .wave w => (s.wave w).clk
  | .ctx v n => (s.ctx v n).clk
  | .none => []
/-- The agent that moves learns of what happens-before it. -/
def State.learn (s : State) (k : Tbl Nat) : State := match s.cur with
  | .wave w => s.modWave w fun x => { x with clk := joinClk x.clk k }
  | .ctx v n => s.modCtx v n fun x => { x with clk := joinClk x.clk k }
  | .none => s
/-- The agent that moves makes a release: what it knows, itself included, is passed on with it. -/
def State.release (s : State) : State :=
  let s := s.stamp
  match s.cur with
  | .wave w => s.modWave w fun x => { x with clk := Tbl.set x.clk x.uid s.seq }
  | .ctx v n => s.modCtx v n fun x => { x with clk := Tbl.set x.clk x.uid s.seq }
  | .none => s
/-- The release happens-before the next access of an agent with this clock. -/
def Rel.known (r : Rel) (k : Tbl Nat) : Bool := decide (r.no ≤ Tbl.get 0 k r.uid)

/-! ### Free values (00 R5; log 9) -/

def drawWord (s : State) : Word × State := (Config.freeWord s.fresh, { s with fresh := s.fresh + 1 })
def drawBit (s : State) : Bool × State := (Config.freeBit s.fresh, { s with fresh := s.fresh + 1 })

/-! ### The mesh: routes that are cut (08 R218, R219, 21 R443) -/

/-- The tile at the other end of a link: x−, x+, y−, y+ (18 R405). -/
def linkEnd (tile dir : Nat) : Nat × Nat :=
  let x := coreX tile
  let y := coreY tile
  if dir = 0 then (x - 1, y) else if dir = 1 then (x + 1, y) else if dir = 2 then (x, y - 1) else (x, y + 1)

/-- A message from `a` to `b` may cross the link: it goes by a shortest way (08 R218), both ends lie between them, and
it does not stay in one vat (R196). -/
def crossesLink (tile dir a b : Nat) : Bool :=
  let mid (p q v : Nat) : Bool := decide (Nat.min p q ≤ v ∧ v ≤ Nat.max p q)
  let e := linkEnd tile dir
  decide (coreVat a ≠ coreVat b ∧ e ≠ (coreX tile, coreY tile)) && mid (coreX a) (coreX b) (coreX tile)
    && mid (coreX a) (coreX b) e.1 && mid (coreY a) (coreY b) (coreY tile) && mid (coreY a) (coreY b) e.2

/-- The numbers from `a` to `b`. -/
def between (a b : Nat) : List Nat := (List.range (Nat.max a b - Nat.min a b + 1)).map (Nat.min a b + ·)
/-- The XY route from `a` to `b` enters a die that is CUT (21 R443). -/
def crossesCut (s : State) (a b : Nat) : Bool :=
  let cut (c : Nat) : Bool := decide ((s.die (coreDie c)).fence = .cut)
  (s.dies.any fun d => decide (d.2.fence = .cut))
    && ((between (coreX a) (coreX b)).any (fun x => cut (coreOf x (coreY a))) || (between (coreY a) (coreY b)).any fun y => cut (coreOf (coreX b) y))

/-- The least cycles that a load of the scratch of core `b` takes from core `a` (08 R222). -/
def loadTrip (a b : Nat) : Nat :=
  let far (p q : Nat) : Nat := Nat.max p q - Nat.min p q
  if a = b then 12 else if coreVat a = coreVat b then 24
  else 30 + 4 * (far (coreX a) (coreX b) + far (coreY a) (coreY b)) + 12 * (far (coreX a / 16) (coreX b / 16) + far (coreY a / 12) (coreY b / 12))
/-- The least cycles that a wake takes from core `a` to core `b` (09 R242; log 6). -/
def wakeTrip (a b : Nat) : Nat := if a = b then 4 else loadTrip a b

/-- A link that a message answered with an error met has one more in its count of the first 1,024 cycles (18 R408). -/
def countCut (s : State) (a b : Nat) : State :=
  { s with links := s.links.map fun l =>
      if crossesLink l.tile l.dir a b && decide (s.cyc < l.since + 1024) then { l with count := l.count + 1 } else l }

/-- Whether the route of a message is cut: for sure where every shortest way is, else as the adaptive route goes
(08 R218, 21 R443; log 9). -/
def routeCut (s : State) (a b : Nat) : Bool × State :=
  if !((s.links.any fun l => crossesLink l.tile l.dir a b) || crossesCut s a b) then (false, s)
  else if coreX a = coreX b ∨ coreY a = coreY b then (true, countCut s a b)
  else
    let (c, s) := drawBit s
    if c then (true, countCut s a b) else (false, s)

/-! ### Memory: bytes and tags by memory key (01 R20) -/

/-- The memory key of a byte of a core's scratch. -/
def scratchKey (c off : Nat) : Nat := 2 ^ 48 + c * 2 ^ 21 + off
def isScratch (k : Nat) : Bool := decide (2 ^ 48 ≤ k)
def keyCore (k : Nat) : Nat := (k - 2 ^ 48) / 2 ^ 21
def keyOff (k : Nat) : Nat := (k - 2 ^ 48) % 2 ^ 21
/-- The 128-byte line of a key. -/
def lineOf (k : Nat) : Nat := k / 128

/-- The canonical form of memory: addresses rising, and no entry equal to what an unlisted byte reads
as (0, log 3). -/
def Memory.wf (m : List Host.Cell) : Bool := Tbl.wf 0 m

def readByte (m : List Host.Cell) (k : Nat) : Byte := Tbl.get 0 m k
def writeByte (m : List Host.Cell) (k : Nat) (b : Byte) : List Host.Cell := Tbl.put 0 m k b

def readBytes (m : List Host.Cell) (k : Nat) : Nat → List Byte
  | 0 => []
  | n + 1 => readByte m k :: readBytes m (k + 1) n

def writeBytes (m : List Host.Cell) (k : Nat) : List Byte → List Host.Cell
  | [] => m
  | b :: t => writeBytes (writeByte m k b) (k + 1) t

/-- The little-endian number in `n` bytes of memory. -/
def readNat (m : List Host.Cell) (k n : Nat) : Nat := ofBytes (readBytes m k n)

/-- Clear the tags of the granules that `n` bytes from `k` touch. -/
def clearTags (t : Tbl Bool) (k n : Nat) : Tbl Bool :=
  if n = 0 then t else t.filter fun e => decide (e.1 < k / 16 ∨ (k + n - 1) / 16 < e.1)

def readTag (s : State) (k : Nat) : Bool := Tbl.get false s.tags (k / 16)
def memBytes (s : State) (k n : Nat) : List Byte := readBytes s.mem k n
def memWord (s : State) (k : Nat) : Word := BitVec.ofNat 64 (readNat s.mem k 8)

/-- Put bytes into memory and clear the tags of their granules (01 R20). -/
def poke (s : State) (k : Nat) (bs : List Byte) : State :=
  { s with mem := writeBytes s.mem k bs, tags := clearTags s.tags k bs.length }

/-- Put a whole granule and its tag (01 R20). -/
def pokeCap (s : State) (k : Nat) (c : Cap) : State :=
  let s := poke s k (bytesOf 8 c.lo.toNat ++ bytesOf 8 c.hi.toNat)
  { s with tags := Tbl.put false s.tags (k / 16) c.tag }

/-- The 16 bytes and tag of a granule. -/
def peekCap (s : State) (k : Nat) : Cap := ⟨readTag s k, memWord s (k + 8), memWord s k⟩

/-- Make `n` bytes from `k` zero, with their tags. -/
def zeroRange (s : State) (k n : Nat) : State :=
  { s with
    mem := s.mem.filter fun e => decide (e.1 < k ∨ k + n ≤ e.1)
    tags := clearTags s.tags k n }

/-- The entries of a table for bytes from `k` on, none for a zero. -/
def cellsOf (k : Nat) : List Byte → List Host.Cell
  | [] => []
  | b :: t => if b = 0 then cellsOf (k + 1) t else (k, b) :: cellsOf (k + 1) t
/-- Free bytes, 8 from a draw. -/
def drawBytes (s : State) : Nat → List Byte × State
  | 0 => ([], s)
  | n + 1 =>
    let (w, s) := drawWord s
    let (t, s) := drawBytes s n
    (bytesOf 8 w.toNat ++ t, s)
/-- `n` granules from `k` on hold undefined bytes (00 R5) and no tag (01 R20, 20 R432; log 9). -/
def scribble (s : State) (k n : Nat) : State :=
  let (bs, s) := drawBytes s (2 * n)
  { s with
    mem := (s.mem.filter fun e => decide (e.1 < k)) ++ cellsOf k bs ++ s.mem.filter fun e => decide (k + 16 * n ≤ e.1)
    tags := s.tags.filter fun e => decide (e.1 < k / 16 ∨ k / 16 + n ≤ e.1) }

/-! ### Capabilities (01 R11 to R14) -/

def Cap.data (w : Word) : Cap := ⟨false, 0, w⟩
def Cap.addr (c : Cap) : Nat := c.lo.toNat % 2 ^ 55
def Cap.z55 (c : Cap) : Bool := bit c.lo 55
def Cap.blk (c : Cap) : Nat := fld c.lo 56 2
def Cap.fmt (c : Cap) : Nat := fld c.lo 58 6
def Cap.perm (c : Cap) : Nat := fld c.hi 56 8
def Cap.exp (c : Cap) : Nat := fld c.hi 50 6
def Cap.b (c : Cap) : Nat := fld c.hi 25 25
def Cap.len (c : Cap) : Nat := fld c.hi 0 25
def Cap.base (c : Cap) : Nat := c.addr / 2 ^ (c.exp + 25) * 2 ^ (c.exp + 25) + c.b * 2 ^ c.exp
def Cap.top (c : Cap) : Nat := c.base + c.len * 2 ^ c.exp
def Cap.setAddr (c : Cap) (a : Nat) : Cap := { c with lo := setFld c.lo 0 55 a }
/-- An engine that holds the capability may reach `n` bytes at `ea`: inside its bounds, below 2^55, and with
Z55 and E as the part makes them (01 R13, R15, R17). -/
def Cap.grants (c : Cap) (ea n : Nat) : Bool :=
  !c.z55 && decide (c.exp ≤ 30 ∧ c.base ≤ ea ∧ ea + n ≤ c.top ∧ ea + n ≤ 2 ^ 55)
/-- Bytes from its base that an engine may reach by offset: none for one that no instruction makes (01 R15). -/
def Cap.extent (c : Cap) : Nat := if c.z55 || decide (30 < c.exp) then 0 else Nat.min c.top (2 ^ 55) - c.base
/-- 129 zero bits (05 R149, 15 R382). -/
def Cap.isZero (c : Cap) : Bool := decide (c = {})

/-- Pointer arithmetic (01 R14, 04 R107). -/
def Cap.inc (c : Cap) (i : Int) : Cap :=
  let n : Int := (c.addr : Int) + i
  let keep := c.tag && decide (0 ≤ n ∧ n < 2 ^ 55) && decide (n.toNat / 2 ^ (c.exp + 25) = c.addr / 2 ^ (c.exp + 25))
  { (c.setAddr (n % (2 ^ 55 : Int)).toNat) with tag := keep }

/-- A capability with E = 0, FMT = 0, BLK = 0 (05 R138). -/
def Cap.make (perm base len : Nat) (addr : Nat) : Cap :=
  ⟨true, BitVec.ofNat 64 (perm * 2 ^ 56 + base % 2 ^ 25 * 2 ^ 25 + len % 2 ^ 25), BitVec.ofNat 64 (addr % 2 ^ 55)⟩

/-- Permission masks, PERM.LD highest (01 R12). -/
def permLD : Nat := 0x80
def permST : Nat := 0x40
def permEX : Nat := 0x20
def permLC : Nat := 0x10
def permSC : Nat := 0x08
def permAT : Nat := 0x04
def permES : Nat := 0x02
def permED : Nat := 0x01

/-- Format codes that are not assigned (03 R71). -/
def reservedFormat (f : Nat) : Bool := decide (0x24 ≤ f)

/-! ### Faults (18 R401) -/

inductive Code where
  | illegal | priv | capTag | capBound | capPerm | align | xlate | format | nest | bar | exchSlot
  | pressSpill | ecc | watchdog | bkpt | trap
deriving DecidableEq, Repr

def Code.num : Code → Nat
  | .illegal => 0x01 | .priv => 0x02 | .capTag => 0x03 | .capBound => 0x04 | .capPerm => 0x05
  | .align => 0x06 | .xlate => 0x07 | .format => 0x08 | .nest => 0x09 | .bar => 0x0B | .exchSlot => 0x0C
  | .pressSpill => 0x0D | .ecc => 0x0E | .watchdog => 0x0F | .bkpt => 0x10 | .trap => 0x11

/-- A fault code and its information word. -/
structure Trap where
  code : Code
  info : Word
deriving DecidableEq, Repr

/-- The first six checks of an access, in their order (01 R17); the effective address is an unbounded
integer. -/
def checkCap (c : Cap) (ea : Int) (size need align : Nat) : Option Trap :=
  let info := wrap 64 ea
  if c.tag = false then some ⟨.capTag, info⟩
  else if c.perm &&& need ≠ need then some ⟨.capPerm, info⟩
  else if c.z55 || decide (30 < c.exp) then some ⟨.capBound, info⟩
  else if ea < c.base ∨ (c.top : Int) < ea + size ∨ (2 ^ 55 : Int) < ea + size then some ⟨.capBound, info⟩
  else if reservedFormat c.fmt then some ⟨.format, info⟩
  else if ea % (align : Int) ≠ 0 then some ⟨.align, info⟩
  else none

/-! ### The agent that moves, its registers and its program counter -/

/-- The wave that moves, or 0. -/
def State.curW (s : State) : Nat := match s.cur with
  | .wave w => w
  | _ => 0
def State.curWave (s : State) : Wave := s.wave s.curW
/-- The core of the agent that moves: for a context, that of the wave that started it. -/
def State.curCore (s : State) : Nat := match s.cur with
  | .wave w => waveCore w
  | .ctx v n => waveCore (s.ctx v n).wave
  | .none => 0
def State.curDie (s : State) : Nat := coreDie s.curCore
def State.modCur (s : State) (f : Wave → Wave) : State := s.modWave s.curW f

/-- Read register n of a wave: c0 is zero (01 R9). -/
def Wave.reg (x : Wave) (n : Nat) : Cap := if n = 0 then {} else Tbl.get {} x.c n
/-- A register is written over: a read of it meets no deferred ECC any more, a wait on the loads still does
(18 R403). A mark that only waits meet is kept at 256 + the register's number. -/
def Wave.cover (x : Wave) (n : Nat) : Wave := match Tbl.get? x.poison n with
  | some pa => { x with poison := Tbl.set (Tbl.erase x.poison n) (256 + n) pa }
  | none => x
/-- Write register n of a wave: a write to c0 is discarded. -/
def Wave.setReg (x : Wave) (n : Nat) (v : Cap) : Wave :=
  if n = 0 then x else { x.cover n with c := Tbl.set x.c n v }
/-- Lane `l` of vector register `n`. -/
def Wave.lane (x : Wave) (n l : Nat) : W32 := Tbl.get 0 x.v (n * 32 + l)
def Wave.setLane (x : Wave) (n l : Nat) (v : W32) : Wave := { x with v := Tbl.set x.v (n * 32 + l) v }
def Ctx.reg (x : Ctx) (n : Nat) : Word := if n = 0 then 0 else Tbl.get 0 x.m n
def Ctx.setReg (x : Ctx) (n : Nat) (v : Word) : Ctx := if n = 0 then x else { x with m := Tbl.set x.m n v }

/-- A register of the agent that moves: c n of a wave, m n of a context (02 R65). -/
def State.reg (s : State) (n : Nat) : Cap := match s.cur with
  | .wave w => (s.wave w).reg n
  | .ctx v m => .data ((s.ctx v m).reg n)
  | .none => {}
def State.setReg (s : State) (n : Nat) (c : Cap) : State := match s.cur with
  | .wave w => s.modWave w (·.setReg n c)
  | .ctx v m => s.modCtx v m (·.setReg n c.lo)
  | .none => s
/-- Mark a register with a deferred error (18 R403): c n as n, v n as 64 + n; a value that c0 discards leaves a mark that
only waits meet. -/
def Wave.mark (x : Wave) (n : Nat) (bad : Option Nat) : Wave := match bad with
  | some pa => { x with poison := Tbl.set x.poison (if n = 0 then 256 else n) pa }
  | none => x
def State.markReg (s : State) (n : Nat) (bad : Option Nat) : State := match s.cur with
  | .wave w => s.modWave w (·.mark n bad)
  | _ => s
/-- The low 64 bits of a register (04 R97). -/
def State.lo (s : State) (n : Nat) : Word := (s.reg n).lo
/-- Write a data result (04 R97). -/
def State.setData (s : State) (n : Nat) (w : Word) : State := s.setReg n (.data w)

def State.pc (s : State) : Cap := match s.cur with
  | .wave w => (s.wave w).pc
  | .ctx v m => (s.ctx v m).pc
  | .none => {}
def State.setPc (s : State) (c : Cap) : State := match s.cur with
  | .wave w => s.modWave w fun x => { x with pc := c }
  | .ctx v m => s.modCtx v m fun x => { x with pc := c }
  | .none => s
/-- next := PC.ADDR + 4 (01 R32). -/
def State.advance (s : State) : State := s.setPc (s.pc.setAddr (s.pc.addr + 4))
/-- A branch by a signed byte offset, under the rule of R14 (01 R34). -/
def State.branch (s : State) (off : Int) : State := s.setPc (s.pc.inc off)

/-- The ASID of the agent that moves (08 R212). -/
def State.curAsid (s : State) : Nat :=
  let g := match s.cur with
    | .wave w => (s.wave w).grid
    | .ctx v m => (s.ctx v m).grid
    | .none => 0
  match s.grid? g with
  | some g => g.asid
  | none => 0

/-! ### Storage and translation (08 R202, R203, R212 to R215) -/

/-- A physical address that names storage (08 R202). -/
def paStorage (s : State) (pa : Nat) : Bool :=
  let p := pa / 2 ^ 40
  p = 0xFF || (pkgPresent s p && decide (pa % 2 ^ 40 < 0x60_0000_0000))

/-- The tile that is home to a physical address (08 R203, 21 R436). -/
def paHome (pa : Nat) : Nat :=
  let la := pa % 2 ^ 40
  if pa / 2 ^ 40 = 0xFF then 0 else dieTile (4 * (pa / 2 ^ 40) + la / 0x18_0000_0000) (la / 128 % 192)
/-- The home tile of a memory key. -/
def keyHome (k : Nat) : Nat := if isScratch k then keyCore k else paHome k
def homeDie (k : Nat) : Nat := coreDie (keyHome k)
/-- The home of a key is lost: its die is fenced (18 R415). -/
def homeLost (s : State) (k : Nat) : Bool := !dieLive s (homeDie k)
/-- Its line holds an uncorrectable error, or its home is lost: a read of it fails (18 R403, R415). -/
def homeBad (s : State) (k : Nat) : Bool := homeLost s k || (!isScratch k && s.badLines.contains (lineOf k))

/-- A translation: physical address, and the leaf entry with its own memory key. -/
structure Leaf where
  pa : Nat
  pte : Word
  size : Nat
  entry : Nat
deriving DecidableEq, Repr

def pteV (e : Word) : Bool := bit e 63
def pteLeaf (e : Word) : Bool := bit e 62
def pteWR (e : Word) : Bool := bit e 61
def pteEXE (e : Word) : Bool := bit e 60
def pteZ (e : Word) : Bool := bit e 59
def pteREP (e : Word) : Bool := bit e 58
def pteSZ (e : Word) : Bool := bit e 57
def ptePA (e : Word) : Nat := fld e 16 32 * 2 ^ 16
/-- No valid entry, or a reserved field is not zero (08 R214). -/
def pteBad (e : Word) : Bool := !pteV e || decide (fld e 48 6 ≠ 0) || decide (fld e 0 16 ≠ 0)
/-- A pointer entry breaks R214. -/
def pointerBad (s : State) (e : Word) : Bool :=
  pteBad e || pteLeaf e || decide (fld e 54 8 ≠ 0) || !paStorage s (ptePA e)

/-- The page size of a leaf at a level (08 R212): level 0 or 1. -/
def leafSize (lvl : Nat) (e : Word) : Nat := 2 ^ (if lvl = 0 then (if pteSZ e then 21 else 16) else if pteSZ e then 34 else 29)
/-- The leaf gives a translation of `ea`, or breaks R214. -/
def useLeaf (s : State) (lvl ea : Nat) (e : Word) (entry : Nat) : Option Leaf :=
  let z := leafSize lvl e
  if pteBad e || (decide (lvl = 1) && pteZ e) || decide (ptePA e % z ≠ 0) then none
  else
    let pa := ptePA e + ea % z
    if paStorage s (ptePA e) && paStorage s pa then some ⟨pa, e, z, entry⟩ else none

/-! ### Slices (08 R204 to R207) -/

def pteSame (e : Word) (base size : Nat) : Bool := pteV e && pteLeaf e && pteZ e && decide (ptePA e / size * size = base)

/-- Package HBM, which has slices; scratch and host memory have none. -/
def isHbm (k : Nat) : Bool := !isScratch k && decide (k / 2 ^ 40 ≠ 0xFF)

/-- The page with Z = 1 that holds a key (08 R206). -/
def zpageOf (s : State) (k : Nat) : Option ZPage :=
  s.zpages.find? fun z => decide (z.base ≤ k ∧ k < z.base + z.size) && pteSame (memWord s z.entry) z.base z.size

/-- The entries of a table of `n` 8-byte entries that are not zero in their top byte. -/
def tableKeys (s : State) (base n : Nat) : List Nat :=
  (s.mem.filter fun e => decide (base ≤ e.1 ∧ e.1 < base + 8 * n ∧ e.1 % 8 = 7)).map (·.1 - 7)
/-- The tables that the entries of a table point to. -/
def tablesBelow (s : State) (base n : Nat) : List Nat :=
  (((tableKeys s base n).map (memWord s)).filter fun e => !pointerBad s e).map ptePA
/-- A page with Z = 1 that some page table maps and that holds `k`, whether or not it has been translated (08 R206). -/
def findZ (s : State) (k : Nat) : Option ZPage :=
  let l1s := (tablesBelow s (fld s.bar0.asidlive 16 32 * 2 ^ 16) 4096).flatMap fun t => tablesBelow s t 8192
  (l1s.flatMap fun t => ((tableKeys s t 8192).filter fun e => !pteLeaf (memWord s e) && !pointerBad s (memWord s e)).flatMap fun e =>
    (tableKeys s (ptePA (memWord s e)) 8192).filterMap fun k0 =>
      let e0 := memWord s k0
      let z := leafSize 0 e0
      let p := ptePA e0
      if pteLeaf e0 && pteZ e0 && !pteBad e0 && decide (p % z = 0 ∧ p ≤ k ∧ k < p + z) then some ⟨p, z, k0⟩ else none).head?
/-- Remember the Z page that holds a physical address, as an access without a translation of it finds it. -/
def notePage (s : State) (k : Nat) : State :=
  if !isHbm k || (zpageOf s k).isSome then s
  else match findZ s k with
    | some z => { s with zpages := z :: s.zpages.filter fun y => y.entry ≠ z.entry }
    | none => s

def resident (s : State) (line : Nat) : Bool := (s.slice (paHome (line * 128))).lines.contains line
/-- The line has a tag and no data. -/
def zeroFlagged (s : State) (line : Nat) : Bool := Tbl.get false s.zeroed line
/-- The set of its slice that a line belongs to: 768 sets of 16 ways (00 R1; log 41). -/
def sliceSet (line : Nat) : Nat := line / 192 % 768

/-- The entries that map a page: one, or the 32 of a 2 MiB page (08 R212; log 41). -/
def ZPage.entries (z : ZPage) : List Nat :=
  if z.size = 2 ^ 16 then [z.entry] else (List.range 32).map fun i => z.entry / 256 * 256 + 8 * i
/-- Z is cleared in an entry of the page. -/
def clearEntry (s : State) (z : ZPage) (k : Nat) : State :=
  if pteSame (memWord s k) z.base z.size then poke s k (bytesOf 8 (memWord s k &&& ~~~(BitVec.ofNat 64 (2 ^ 59))).toNat) else s
/-- Keep only the cached translations for which `p` holds, in every TLB of every die. -/
def keepTlbs (s : State) (p : TlbE → Bool) : State :=
  { s with
    cores := s.cores.map fun c => (c.1, { c.2 with utlb := c.2.utlb.filter p })
    vats := s.vats.map fun v => (v.1, { v.2 with tlb := v.2.tlb.filter p })
    dies := s.dies.map fun d => (d.1, { d.2 with tlb := d.2.tlb.filter p }) }

/-- The lines of a page that a slice holds with data that no write-back will write. -/
def cleanLines (s : State) (z : ZPage) : List Nat :=
  (s.slices.flatMap fun c => c.2.lines.filter fun l => decide (paHome (l * 128) = c.1) && !c.2.dirty.contains l && !zeroFlagged s l).filter
    fun l => decide (z.base ≤ l * 128 ∧ l * 128 < z.base + z.size)

/-- The first write-back of a line with data in a Z page: the image is cleared, but for what the slices hold until they
let go of it; Z is cleared in every entry of the page, and every TLB drops it (08 R207). -/
def clearZPage (s : State) (z : ZPage) (keep : Nat) : State :=
  let out (k : Nat) : Bool := decide (k < z.base ∨ z.base + z.size ≤ k) || resident s (lineOf k) || decide (lineOf k = keep)
  let clean := cleanLines s z
  let s := { s with
    mem := s.mem.filter fun e => out e.1
    tags := s.tags.filter fun e => out (e.1 * 16)
    hollow := clean ++ s.hollow.filter fun l => !clean.contains l
    zpages := s.zpages.filter fun y => y.base ≠ z.base }
  keepTlbs (z.entries.foldl (clearEntry · z ·) s) fun t => !z.entries.contains t.entry

/-- A replica leaves the slice that keeps it (08 R209). -/
def dropReplica (s : State) (tile line : Nat) : State :=
  (s.modSlice tile fun c => { c with lines := c.lines.filter (· ≠ line) }).modDie (coreDie tile) fun d =>
    { d with replicas := d.replicas.filter fun r => r.line ≠ line }

/-- A line leaves its slice: one with data that is not in HBM is written back (08 R205, R207, R210). -/
def evictLine (s : State) (home line : Nat) : State :=
  if paHome (line * 128) ≠ home then dropReplica s home line
  else
    let x := Tbl.get 0 s.lx line
    let back := (s.slice home).dirty.contains line
    let s := { s.modSlice home fun c => { c with
      lines := c.lines.filter (· ≠ line)
      dirty := c.dirty.filter (· ≠ line)
      marked := c.marked.filter (· ≠ line)
      sx := if leaseNow s (coreDie home) < x then Nat.max c.sx x else c.sx } with zeroed := Tbl.erase s.zeroed line }
    let gone := s.hollow.contains line && !back
    let s := { s with hollow := s.hollow.filter (· ≠ line) }
    if gone then zeroRange s (line * 128) 128
    else if !back then s
    else
      let s := notePage s (line * 128)
      match zpageOf s (line * 128) with
      | some z => clearZPage s z line
      | none => s

/-- Of lines in order of use, the one to evict: one marked first for eviction, else the least recently used. -/
def victimLine (c : Slice) (ls : List Nat) : Option Nat := (ls.find? c.marked.contains).or ls.getLast?

/-- A set holds at most 16 lines (00 R1), and a slice at most 6,144 with data (08 R206). -/
def trimSlice (s : State) (home set_ : Nat) : State :=
  let c := s.slice home
  let ways := c.lines.filter fun l => sliceSet l = set_
  let s := if 16 < ways.length then (match victimLine c (ways.drop 1) with
    | some x => evictLine s home x
    | none => s) else s
  let full := (s.slice home).lines.filter fun l => !(zeroFlagged s l && decide (paHome (l * 128) = home))
  if 6144 < full.length then
    match full.getLast? with
    | some x => evictLine s home x
    | none => s
  else s

/-- A line is the most recently used of its slice; one that had no tag gets one. -/
def touchLine (s : State) (h line : Nat) : State :=
  trimSlice (s.modSlice h fun c => { c with lines := line :: c.lines.filter (· ≠ line) }) h (sliceSet line)
/-- A write gives a line with a tag its data (08 R206). -/
def dirtyLine (s : State) (h line : Nat) : State :=
  let s := { s with zeroed := Tbl.erase s.zeroed line }
  trimSlice (s.modSlice h fun c => { c with dirty := line :: c.dirty.filter (· ≠ line) }) h (sliceSet line)

/-- An access reaches a line at its slice: a miss in a Z page gives a zero-flagged line, any other miss
allocates when `alloc`; a write gives the line data, also one with q = 2 in a Z page (08 R205, R206; log 41). -/
def accessLine (s : State) (line : Nat) (alloc write : Bool) : State :=
  let k := line * 128
  if !isHbm k then s else
  let h := paHome k
  let data (s : State) : State := if write then dirtyLine s h line else s
  if resident s line then data (touchLine s h line)
  else if (zpageOf s k).isSome then
    data (touchLine { zeroRange s k 128 with zeroed := Tbl.set s.zeroed line true } h line)
  else if alloc then data (touchLine s h line)
  else s

/-- A word as its home gives it: one of a lost home, or of a line with an error, is undefined (18 R403, R415; log 9), and
a line of a Z page without a tag reads as zero (08 R206). -/
def homeWord (s : State) (k : Nat) : Word :=
  if homeBad s k then Config.freeWord (2 ^ 80 * (k + 1) + s.fresh)
  else if isHbm k && !resident s (lineOf k) && (zpageOf s k).isSome then 0 else memWord s k

/-! ### Translation (08 R212 to R215) -/

/-- The walk of four levels (08 R212, R214): none is XLATE. -/
def walk (s : State) (asid ea : Nat) : Option Leaf :=
  let k0 := fld s.bar0.asidlive 16 32 * 2 ^ 16 + asid % 4096 * 8
  if !paStorage s k0 then none else
  let e0 := homeWord s k0
  if pointerBad s e0 then none else
  let e1 := homeWord s (ptePA e0 + ea / 2 ^ 42 % 8192 * 8)
  if pointerBad s e1 then none else
  let k2 := ptePA e1 + ea / 2 ^ 29 % 8192 * 8
  let e2 := homeWord s k2
  if pteLeaf e2 then useLeaf s 1 ea e2 k2 else
  if pointerBad s e2 then none else
  let k3 := ptePA e2 + ea / 2 ^ 16 % 8192 * 8
  let e3 := homeWord s k3
  if pteLeaf e3 then useLeaf s 0 ea e3 k3 else none

/-- What an access does to memory (08 R214). -/
inductive Use where
  | load | store | fetch
deriving DecidableEq, Repr

def Leaf.allows (l : Leaf) : Use → Bool
  | .load => true
  | .store => pteWR l.pte
  | .fetch => pteEXE l.pte

/-- The keys of the entries that a walk reads, as far as it goes. -/
def walkKeys (s : State) (asid ea : Nat) : List Nat :=
  let k0 := fld s.bar0.asidlive 16 32 * 2 ^ 16 + asid % 4096 * 8
  if !paStorage s k0 then [] else
  let e0 := homeWord s k0
  if pointerBad s e0 then [k0] else
  let k1 := ptePA e0 + ea / 2 ^ 42 % 8192 * 8
  let e1 := homeWord s k1
  if pointerBad s e1 then [k0, k1] else
  let k2 := ptePA e1 + ea / 2 ^ 29 % 8192 * 8
  let e2 := homeWord s k2
  if pteLeaf e2 || pointerBad s e2 then [k0, k1, k2] else [k0, k1, k2, ptePA e2 + ea / 2 ^ 16 % 8192 * 8]
/-- The walker's reads are bypass loads at the entries' home slices (08 R215). -/
def walkReads (s : State) (asid ea : Nat) : State :=
  (walkKeys s asid ea).foldl (fun s k => accessLine s (lineOf k) true false) s

/-- A cached translation covers an address. -/
def TlbE.covers (t : TlbE) (asid ea : Nat) : Bool := decide (t.asid = asid ∧ t.page = ea / leafSize t.lvl t.pte)
/-- A cached translation, used. -/
def TlbE.leaf (s : State) (t : TlbE) (ea : Nat) : Option Leaf := useLeaf s t.lvl ea t.pte t.entry
/-- What a TLB keeps of a translation. -/
def Leaf.cached (l : Leaf) (asid ea : Nat) : TlbE := ⟨asid, ea / l.size, l.pte, if l.size < 2 ^ 29 then 0 else 1, l.entry⟩
/-- A TLB of `n` entries takes a translation. -/
def tlbPut (n asid ea : Nat) (l : Leaf) (ts : List TlbE) : List TlbE :=
  (l.cached asid ea :: ts.filter fun t => !t.covers asid ea).take n

/-- Keep a translation in the die's last-level TLB (08 R215). -/
def tlbAdd (s : State) (die asid ea : Nat) (l : Leaf) : State :=
  s.modDie die fun d => { d with tlb := tlbPut 4096 asid ea l d.tlb }
/-- Keep a translation in the TLBs over a core. -/
def tlbFill (s : State) (core asid ea : Nat) (l : Leaf) : State :=
  let s := s.modCore core fun c => { c with utlb := tlbPut 64 asid ea l c.utlb }
  let s := s.modVat (coreVat core) fun v => { v with tlb := tlbPut 512 asid ea l v.tlb }
  tlbAdd s (coreDie core) asid ea l
/-- The cached translation that a core meets first. -/
def tlbFind (s : State) (core asid ea : Nat) : Option TlbE :=
  ((s.core core).utlb ++ (s.vat (coreVat core)).tlb ++ (s.die (coreDie core)).tlb).find? (·.covers asid ea)

/-- Translate for a core: an entry that was changed and not yet invalidated gives the old or the new one (08 R215). -/
def translate (s : State) (core asid ea : Nat) (u : Use) : Option Leaf × State :=
  let new := (walk s asid ea).filter (·.allows u)
  let keep (s : State) : State := match new with
    | some l => tlbFill s core asid ea l
    | none => s
  match tlbFind s core asid ea with
  | none => (new, keep (walkReads s asid ea))
  | some t =>
    let old := (t.leaf s ea).filter (·.allows u)
    if old.map (fun l => (l.pa, l.pte)) = new.map (fun l => (l.pa, l.pte)) then (new, s)
    else
      let (b, s) := drawBit s
      if b then (old, s) else (new, keep s)

/-- Where an effective address leads: a memory key, and the leaf if it is translated. -/
structure Place where
  key : Nat
  leaf : Option Leaf := none
deriving DecidableEq, Repr

/-- The scratch windows (01 R21, R23), seen from core `c`. -/
def scratchWindow (s : State) (c ea : Nat) : Option Nat :=
  let w := ea / 2 ^ 48
  if w = 0x7F then
    if ea / 2 ^ 21 % 2 ^ 27 = 0 then some (scratchKey c (ea % 2 ^ 21)) else none
  else if w = 0x7E then
    let t := vatCore (coreVat c) (ea / 2 ^ 21 % 4)
    if ea / 2 ^ 23 % 2 ^ 25 = 0 ∧ corePresent s t then some (scratchKey t (ea % 2 ^ 21)) else none
  else
    let t := coreOf (ea / 2 ^ 31 % 1024) (ea / 2 ^ 21 % 1024)
    if ea / 2 ^ 41 % 2 ^ 7 = 0 ∧ corePresent s t then some (scratchKey t (ea % 2 ^ 21)) else none

/-- The treelet region of a core (15 R360): its first byte's offset. -/
def treeletStart (s : State) (c : Nat) : Nat := 2 ^ 21 - 2 ^ 16 * fld (s.core c).raycfg 32 5
def treeletRegion (s : State) (k : Nat) : Bool := isScratch k && decide (treeletStart s (keyCore k) ≤ keyOff k)
/-- The agent that moves is a supervisor wave. -/
def State.curSup (s : State) : Bool := match s.cur with
  | .wave w => (s.wave w).sup
  | _ => false

/-- A die's domain block: bytes 0 to 1,023 of the scratch of die-local (0, 0) (16 R385). -/
def domainBlock (k : Nat) : Bool := isScratch k && decide (tileOf (keyCore k) = 0 ∧ keyOff k < 1024)

/-- `Window(ea)` (01 R17, R21), seen from core `c` under an ASID: none is XLATE. Only its home writes the
domain block (16 R385), and only a supervisor wave loads from a treelet region (15 R360). -/
def window (s : State) (c asid ea : Nat) (u : Use) : Option Place × State :=
  if 0x7D ≤ ea / 2 ^ 48 % 128 then
    (((scratchWindow s c (ea % 2 ^ 55)).filter fun k => !(decide (u = .store) && domainBlock k)
      && !(treeletRegion s k && !(decide (u = .load) && s.curSup))).map fun k => ⟨k, none⟩, s)
  else
    let (l, s) := translate s c asid ea u
    (l.map fun l => ⟨l.pa, some l⟩, s)

/-- The same for an engine. -/
def engineWindow (s : State) (c asid ea : Nat) (u : Use) : Option Place × State :=
  let (p, t) := window { s with cur := .none } c asid ea u
  (p, { t with cur := s.cur })

/-- `CheckAccess` (01 R17) from core `c` under an ASID. -/
def checkAccessAt (s : State) (c asid : Nat) (cap : Cap) (ea : Int) (size need align : Nat) (u : Use) :
    Except Trap Place × State :=
  match checkCap cap ea size need align with
  | some t => (.error t, s)
  | none =>
    match window s c asid ea.toNat u with
    | (some p, s) => (.ok p, s)
    | (none, s) => (.error ⟨.xlate, wrap 64 ea⟩, s)

/-- `CheckAccess` of the agent that moves. -/
def checkAccess (s : State) (cap : Cap) (ea : Int) (size need align : Nat) (u : Use) : Except Trap Place × State :=
  checkAccessAt s s.curCore s.curAsid cap ea size need align u

/-! ### The mailbox (18 R405, R406) and the event log (22 R466) -/

/-- M0 of a fault message. -/
def msgWord0 (code src slot sub coord : Nat) (dfr sup restored nf stray : Bool) (wtag : Nat) : Word :=
  BitVec.ofNat 64 (code * 2 ^ 56 + src * 2 ^ 52 + slot * 2 ^ 47 + sub * 2 ^ 44 + coord * 2 ^ 24 + b2n dfr * 2 ^ 23
    + b2n sup * 2 ^ 22 + b2n restored * 2 ^ 21 + b2n nf * 2 ^ 20 + b2n stray * 2 ^ 19 + wtag % 2 ^ 16)

/-- Fire an MSI-X vector (22 R459). -/
def fireVector (s : State) (v : Nat) : State :=
  { s with bar0 := { s.bar0 with fired := s.bar0.fired ++ [v], pending := Tbl.erase s.bar0.pending v, oldest := Tbl.erase s.bar0.oldest v } }
/-- ICOAL of a vector (22 R455). -/
def icoal (s : State) (v : Nat) : Word := Tbl.get 0x0000_0001_0000_0000 s.bar0.icoal v

/-- Record an event in the log ring, and fire vector 15 (22 R459, R466). -/
def logEvent (s : State) (src code : Nat) : State :=
  let s := { s with ctrl := { s.ctrl with log := (s.ctrl.log ++ [(leaseNow s 0, src, code)]).drop (s.ctrl.log.length + 1 - 4096) } }
  if bit (icoal s 15) 63 then fireVector s 15 else s

/-- What names the source of a message: SRC, SUB and COORD, and SLOT for a wave. -/
def msgSource (m : FaultMsg) : Nat × Nat × Nat := (fld m.m0 52 4, if fld m.m0 52 4 = 0 then fld m.m0 47 5 else 0, fld m.m0 24 23)

/-- The source coordinate of a message, y then x. -/
def msgKey (m : FaultMsg) : Nat := coreY (fld m.m0 24 20) * 1024 + coreX (fld m.m0 24 20)
/-- Messages of one cycle are taken by ascending source coordinate (18 R406). -/
def mayTake (s : State) (d : Nat) (m : FaultMsg) : Bool := decide ((s.die d).took.1 ≠ s.cyc ∨ (s.die d).took.2 ≤ msgKey m)

/-- The mailbox of a die takes a message, or refuses it when it is full (18 R406). A supervisor wave's
fault is told to the management controller. -/
def mailboxTake (s : State) (d : Nat) (m : FaultMsg) : State :=
  if (s.die d).mailbox.length < 64 then
    let s := s.modDie d fun x => { x with mailbox := x.mailbox ++ [m], took := (s.cyc, msgKey m) }
    if bit m.m0 22 then logEvent s 0 (fld m.m0 56 8) else s
  else
    (s.modDie d fun x => { x with naks := x.naks + 1 }).modNet fun n => { n with posts := n.posts ++ [⟨d, m, true, s.cyc⟩] }

/-- The source of a message holds one that the mailbox has not accepted (18 R406). -/
def unsent (s : State) (d : Nat) (m : FaultMsg) : Bool := s.net.posts.any fun p => p.die = d ∧ msgSource p.msg = msgSource m

/-- Post a message: a source with an unsent one only counts in NAKS (18 R406). -/
def postMessage (s : State) (d : Nat) (m : FaultMsg) : State :=
  if unsent s d m then
    s.modDie d fun x => { x with naks := x.naks + 1 }
  else
    let s := s.modGrid (fld m.m1 32 32) fun g => { g with
      nfault := Nat.min (g.nfault + 1) (2 ^ 32 - 1)
      fcode := if g.fcode = 0 then fld m.m0 56 8 else g.fcode }
    s.modNet fun n => { n with posts := n.posts ++ [⟨d, m, false, s.cyc⟩] }

/-- An uncorrectable error met by a write, a write-back or a scrub: the slice of the line posts a message, if its
home is not lost (18 R403, R408). -/
def sliceMessage (s : State) (k : Nat) : State :=
  if homeLost s k then s
  else postMessage s (homeDie k)
    { m0 := msgWord0 Code.ecc.num 6 0 0 (keyHome k) false false false false false 0, m2 := BitVec.ofNat 64 (lineOf k * 128) }

/-! ### Taking a fault and returning from one (01 R35, 18 R402, R411, 13 R312) -/

/-- The fault message of a wave (18 R405). -/
def waveMsg (s : State) (w : Nat) (t : Trap) (dfr restored : Bool) : FaultMsg :=
  let x := s.wave w
  let c := waveCore w
  { m0 := msgWord0 t.code.num 0 (waveSlot w) 0 c dfr x.sup restored false false (Tbl.get 0 (s.core c).wtag (waveSlot w)).toNat
    m1 := BitVec.ofNat 64 (x.grid * 2 ^ 32 + x.gidx % 2 ^ 32)
    m2 := t.info
    m3 := BitVec.ofNat 64 x.pc.addr }

/-- A wave faults: it parks at the faulting instruction, where it waits for room in no log any more (10 R265), and its
message goes to the mailbox (18 R402). -/
def waveFault (s : State) (w : Nat) (t : Trap) (dfr : Bool) : State :=
  let m := waveMsg s w t dfr false
  let s := s.modCore (waveCore w) fun c => { c with relq := c.relq.filter (· ≠ w) }
  let s := s.modWave w fun x => { x with run := .waiting .fault, fault := some m, entered := s.cyc, again := false }
  postMessage s (coreDie (waveCore w)) m

/-- The fault message of a context (18 R405): FPC is the address given. -/
def ctxMsg (s : State) (v n : Nat) (t : Trap) (fpc : Nat) : FaultMsg :=
  let x := s.ctx v n
  { m0 := msgWord0 t.code.num 2 (waveSlot x.wave) n v false false false false false
      x.wtag.toNat
    m1 := BitVec.ofNat 64 (x.grid * 2 ^ 32 + ((Tbl.get? s.groups x.group).map (·.gidx)).getD 0 % 2 ^ 32)
    m2 := t.info
    m3 := BitVec.ofNat 64 (fpc % 2 ^ 55) }

/-- A context fault: PSTAT.ERR takes the code, the context is FAULTED, a message is posted (13 R312); one that
is STOPPING goes on to FREE (R309). DESIGN CHOICE (log 23): the fault of a posted operation takes a HALTED context to
FAULTED too, and in one that is FAULTED already ERR takes the later code. -/
def ctxFault (s : State) (v n : Nat) (t : Trap) (fpc : Nat) : State :=
  let m := ctxMsg s v n t fpc
  let s := s.modCtx v n fun x => { x with
    st := if x.st = .stopping then .stopping else .faulted
    regs := Tbl.set x.regs 0 (setFld (Tbl.get 0 x.regs 0) 56 8 t.code.num) }
  postMessage s (coreDie v) m

/-- The agent that moves takes a fault: the one entry of every exception of the part. No other effect is
made (01 R35). -/
def raise (s : State) (t : Trap) : State := match s.cur with
  | .wave w => waveFault s w t false
  | .ctx v n => ctxFault s v n t (s.ctx v n).pc.addr
  | .none => s

/-- The instruction word as information word (01 R29). -/
def codeTrap (c : Code) (w : W32) : Trap := ⟨c, w.setWidth 64⟩

/-- Return from a fault: FSTAT and FINFO are written from it, the next instruction is set, and the wave
is ready (18 R411). `skip` is ACT 1. -/
def resumeWave (s : State) (w : Nat) (m : FaultMsg) (skip : Bool) : State :=
  let code := fld m.m0 56 8
  s.modWave w fun x => { x with
    fstat := BitVec.ofNat 64 (code * 2 ^ 56 + m.m3.toNat % 2 ^ 55)
    finfo := m.m2
    pc := if skip || decide (code = 0x10 ∨ code = 0x11) then x.pc.setAddr (x.pc.addr + 4) else x.pc
    fault := none
    run := .ready
    since := s.cyc
    entered := s.cyc }

/-- The group is being saved into an image (19 R417). -/
def beingSaved (s : State) (g : Nat) : Bool := (Tbl.get? s.groups g).any fun x => x.saving.isSome

/-! ### Waiting (07 R189) -/

/-- Park the agent that moves. -/
def park (s : State) (why : Wait) : State := match s.cur with
  | .wave w => s.modWave w fun x => { x with run := .waiting why, entered := s.cyc, waitAt := s.cyc }
  | .ctx v n => s.modCtx v n fun x => { x with wait := some why }
  | .none => s
/-- The agent's instruction cannot go on now: it is executed afresh later. -/
def stall (s : State) : State := park s .retry

/-- Park for a reply that writes c[d], which is on its way from now on. -/
def reply (s : State) (d : Nat) (v : Word) (time : Nat := 0) (bad : Option Nat := none) (due : Nat := 0) : State :=
  (park s (.reply d)).modNet fun n => { n with wakes := n.wakes ++ [{ agent := s.cur, d := d, value := v, time := time, bad := bad, due := due }] }

/-- The agent waits for a reply that writes c[d]. -/
def awaits (s : State) (a : Agent) (d : Nat) : Bool := match a with
  | .wave w => decide ((s.wave w).run = .waiting (.reply d) ∨ (s.wave w).run = .waiting (.reply d true))
  | .ctx v n => decide ((s.ctx v n).wait = some (.reply d))
  | .none => false

/-- A parked agent receives its reply and goes on; an agent that no longer waits for it gets nothing. -/
def wakeAgent (s : State) (k : Wake) : State :=
  if !awaits s k.agent k.d then s else
  let old := s.cur
  let s := ((({ s with cur := k.agent }.learn k.clk).setData k.d k.value).markReg k.d k.bad).advance
  let s := match k.agent with
    | .wave w => s.modWave w fun x => { x with run := .ready, again := false, since := s.cyc, entered := s.cyc }
    | .ctx v n => s.modCtx v n fun x => { x with wait := none }
    | .none => s
  { s with cur := old }

end Sys2Proof.Machine
end

