-- ==== Sys2Proof/Machine/Operands.lean ====
section
/-! DEFINITION. What each instruction names: the registers it reads and writes, the state it needs and
the counters it enters; and the checks made before an instruction executes (02 R63 items 4 and 5, R64,
R65, 04 R98, R123, 18 R403). -/

namespace Sys2Proof.Machine

/-- The operands of an instruction. -/
structure RegUse where
  /-- Scalar registers read and written. -/
  rd : List Nat := []
  wr : List Nat := []
  /-- Vector registers read and written, the implied ones too (02 R64). -/
  vr : List Nat := []
  vw : List Nat := []
  /-- Needs vector registers (02 R64). -/
  vec : Bool := false
  /-- In the sequencer subset (02 R65). -/
  ctx : Bool := false
  /-- Valid in a wave (13: engine 0 is not). -/
  wav : Bool := true
  /-- Privileged (02 R62). -/
  priv : Bool := false
  /-- The counters of 04 R123 it enters. -/
  load : Bool := false
  store : Bool := false
  pass_ : Bool := false
  /-- Waits on the wave's loads (18 R403). -/
  waits : Bool := false
deriving DecidableEq, Repr

/-- The operands of every instruction; a step of another agent has none. -/
def regs : Instr → RegUse
  | .illegalInstruction _ => {}
  | .add d a b _ => { rd := [a.toNat, b.toNat], wr := [d.toNat], ctx := true }
  | .sub d a b _ => { rd := [a.toNat, b.toNat], wr := [d.toNat], ctx := true }
  | .mul d a b _ => { rd := [a.toNat, b.toNat], wr := [d.toNat], ctx := true }
  | .mulh d a b _ => { rd := [a.toNat, b.toNat], wr := [d.toNat], ctx := true }
  | .mulhu d a b _ => { rd := [a.toNat, b.toNat], wr := [d.toNat], ctx := true }
  | .div d a b _ => { rd := [a.toNat, b.toNat], wr := [d.toNat], ctx := true }
  | .divu d a b _ => { rd := [a.toNat, b.toNat], wr := [d.toNat], ctx := true }
  | .rem d a b _ => { rd := [a.toNat, b.toNat], wr := [d.toNat], ctx := true }
  | .remu d a b _ => { rd := [a.toNat, b.toNat], wr := [d.toNat], ctx := true }
  | .and d a b _ => { rd := [a.toNat, b.toNat], wr := [d.toNat], ctx := true }
  | .or d a b _ => { rd := [a.toNat, b.toNat], wr := [d.toNat], ctx := true }
  | .xor d a b _ => { rd := [a.toNat, b.toNat], wr := [d.toNat], ctx := true }
  | .andn d a b _ => { rd := [a.toNat, b.toNat], wr := [d.toNat], ctx := true }
  | .sll d a b _ => { rd := [a.toNat, b.toNat], wr := [d.toNat], ctx := true }
  | .srl d a b _ => { rd := [a.toNat, b.toNat], wr := [d.toNat], ctx := true }
  | .sra d a b _ => { rd := [a.toNat, b.toNat], wr := [d.toNat], ctx := true }
  | .ror d a b _ => { rd := [a.toNat, b.toNat], wr := [d.toNat], ctx := true }
  | .min d a b _ => { rd := [a.toNat, b.toNat], wr := [d.toNat], ctx := true }
  | .max d a b _ => { rd := [a.toNat, b.toNat], wr := [d.toNat], ctx := true }
  | .minu d a b _ => { rd := [a.toNat, b.toNat], wr := [d.toNat], ctx := true }
  | .maxu d a b _ => { rd := [a.toNat, b.toNat], wr := [d.toNat], ctx := true }
  | .slt d a b _ => { rd := [a.toNat, b.toNat], wr := [d.toNat], ctx := true }
  | .sltu d a b _ => { rd := [a.toNat, b.toNat], wr := [d.toNat], ctx := true }
  | .seq d a b _ => { rd := [a.toNat, b.toNat], wr := [d.toNat], ctx := true }
  | .sne d a b _ => { rd := [a.toNat, b.toNat], wr := [d.toNat], ctx := true }
  | .clz d a _ => { rd := [a.toNat], wr := [d.toNat], ctx := true }
  | .ctz d a _ => { rd := [a.toNat], wr := [d.toNat], ctx := true }
  | .popc d a _ => { rd := [a.toNat], wr := [d.toNat], ctx := true }
  | .brev d a _ => { rd := [a.toNat], wr := [d.toNat], ctx := true }
  | .addi d a _ => { rd := [a.toNat], wr := [d.toNat], ctx := true }
  | .andi d a _ => { rd := [a.toNat], wr := [d.toNat], ctx := true }
  | .ori d a _ => { rd := [a.toNat], wr := [d.toNat], ctx := true }
  | .xori d a _ => { rd := [a.toNat], wr := [d.toNat], ctx := true }
  | .slli d a _ _ => { rd := [a.toNat], wr := [d.toNat], ctx := true }
  | .srli d a _ _ => { rd := [a.toNat], wr := [d.toNat], ctx := true }
  | .srai d a _ _ => { rd := [a.toNat], wr := [d.toNat], ctx := true }
  | .slti d a _ => { rd := [a.toNat], wr := [d.toNat], ctx := true }
  | .sltiu d a _ => { rd := [a.toNat], wr := [d.toNat], ctx := true }
  | .lui d _ => { wr := [d.toNat], ctx := true }
  | .auipc d _ => { wr := [d.toNat], ctx := true }
  | .beq a b _ => { rd := [a.toNat, b.toNat], ctx := true }
  | .bne a b _ => { rd := [a.toNat, b.toNat], ctx := true }
  | .blt a b _ => { rd := [a.toNat, b.toNat], ctx := true }
  | .bge a b _ => { rd := [a.toNat, b.toNat], ctx := true }
  | .bltu a b _ => { rd := [a.toNat, b.toNat], ctx := true }
  | .bgeu a b _ => { rd := [a.toNat, b.toNat], ctx := true }
  | .btag a _ => { rd := [a.toNat] }
  | .bntag a _ => { rd := [a.toNat] }
  | .jal d _ => { wr := [d.toNat] }
  | .jalr d a => { rd := [a.toNat], wr := [d.toNat] }
  | .ldB d a _ _ _ => { rd := [a.toNat], wr := [d.toNat], load := true }
  | .ldH d a _ _ _ => { rd := [a.toNat], wr := [d.toNat], load := true }
  | .ldW d a _ _ _ => { rd := [a.toNat], wr := [d.toNat], load := true }
  | .ldD d a _ _ _ => { rd := [a.toNat], wr := [d.toNat], load := true }
  | .stB d a _ _ _ => { rd := [d.toNat, a.toNat], store := true }
  | .stH d a _ _ _ => { rd := [d.toNat, a.toNat], store := true }
  | .stW d a _ _ _ => { rd := [d.toNat, a.toNat], store := true }
  | .stD d a _ _ _ => { rd := [d.toNat, a.toNat], store := true }
  | .cinc d a b => { rd := [a.toNat, b.toNat], wr := [d.toNat] }
  | .csetb d a b => { rd := [a.toNat, b.toNat], wr := [d.toNat] }
  | .cperm d a b => { rd := [a.toNat, b.toNat], wr := [d.toNat] }
  | .cfmt d a b => { rd := [a.toNat, b.toNat], wr := [d.toNat] }
  | .cfld d a _ => { rd := [a.toNat], wr := [d.toNat] }
  | .ctest d a => { rd := [a.toNat], wr := [d.toNat] }
  | .cclrt d a => { rd := [a.toNat], wr := [d.toNat] }
  | .csubc d a b => { rd := [a.toNat, b.toNat], wr := [d.toNat] }
  | .cinci d a _ => { rd := [a.toNat], wr := [d.toNat] }
  | .csetbi d a _ => { rd := [a.toNat], wr := [d.toNat] }
  | .ldc d a _ _ _ => { rd := [a.toNat], wr := [d.toNat], load := true }
  | .stc d a _ _ _ => { rd := [d.toNat, a.toNat], store := true }
  | .fadd d a b _ => { rd := [a.toNat, b.toNat], wr := [d.toNat] }
  | .fsub d a b _ => { rd := [a.toNat, b.toNat], wr := [d.toNat] }
  | .fmul d a b _ => { rd := [a.toNat, b.toNat], wr := [d.toNat] }
  | .ffma d a b _ => { rd := [a.toNat, b.toNat, d.toNat], wr := [d.toNat] }
  | .fdiv d a b _ => { rd := [a.toNat, b.toNat], wr := [d.toNat] }
  | .fsqrt d a _ => { rd := [a.toNat], wr := [d.toNat] }
  | .fmin d a b => { rd := [a.toNat, b.toNat], wr := [d.toNat] }
  | .fmax d a b => { rd := [a.toNat, b.toNat], wr := [d.toNat] }
  | .fcmp d a b _ => { rd := [a.toNat, b.toNat], wr := [d.toNat] }
  | .fcvt d a _ _ => { rd := [a.toNat], wr := [d.toNat] }
  | .fclass d a => { rd := [a.toNat], wr := [d.toNat] }
  | .fsgn d a b _ => { rd := [a.toNat, b.toNat], wr := [d.toNat] }
  | .vadd d a b => { vr := [a.toNat, b.toNat], vw := [d.toNat], vec := true }
  | .vsub d a b => { vr := [a.toNat, b.toNat], vw := [d.toNat], vec := true }
  | .vmul d a b => { vr := [a.toNat, b.toNat], vw := [d.toNat], vec := true }
  | .vmulh d a b => { vr := [a.toNat, b.toNat], vw := [d.toNat], vec := true }
  | .vmad d a b => { vr := [a.toNat, b.toNat, d.toNat], vw := [d.toNat], vec := true }
  | .vand d a b => { vr := [a.toNat, b.toNat], vw := [d.toNat], vec := true }
  | .vor d a b => { vr := [a.toNat, b.toNat], vw := [d.toNat], vec := true }
  | .vxor d a b => { vr := [a.toNat, b.toNat], vw := [d.toNat], vec := true }
  | .vandn d a b => { vr := [a.toNat, b.toNat], vw := [d.toNat], vec := true }
  | .vshl d a b => { vr := [a.toNat, b.toNat], vw := [d.toNat], vec := true }
  | .vshr d a b => { vr := [a.toNat, b.toNat], vw := [d.toNat], vec := true }
  | .vsra d a b => { vr := [a.toNat, b.toNat], vw := [d.toNat], vec := true }
  | .vmin d a b => { vr := [a.toNat, b.toNat], vw := [d.toNat], vec := true }
  | .vmax d a b => { vr := [a.toNat, b.toNat], vw := [d.toNat], vec := true }
  | .vminu d a b => { vr := [a.toNat, b.toNat], vw := [d.toNat], vec := true }
  | .vmaxu d a b => { vr := [a.toNat, b.toNat], vw := [d.toNat], vec := true }
  | .vabs d a => { vr := [a.toNat], vw := [d.toNat], vec := true }
  | .vsel d a b => { vr := [a.toNat, b.toNat, d.toNat], vw := [d.toNat], vec := true }
  | .vmov d a => { vr := [a.toNat], vw := [d.toNat], vec := true }
  | .vcmpEq d a b => { vr := [a.toNat, b.toNat], vw := [d.toNat], vec := true }
  | .vcmpNe d a b => { vr := [a.toNat, b.toNat], vw := [d.toNat], vec := true }
  | .vcmpLt d a b => { vr := [a.toNat, b.toNat], vw := [d.toNat], vec := true }
  | .vcmpGe d a b => { vr := [a.toNat, b.toNat], vw := [d.toNat], vec := true }
  | .vcmpLtu d a b => { vr := [a.toNat, b.toNat], vw := [d.toNat], vec := true }
  | .vcmpGeu d a b => { vr := [a.toNat, b.toNat], vw := [d.toNat], vec := true }
  | .vaddi d a _ => { vr := [a.toNat], vw := [d.toNat], vec := true }
  | .vshli d a _ => { vr := [a.toNat], vw := [d.toNat], vec := true }
  | .vshri d a _ => { vr := [a.toNat], vw := [d.toNat], vec := true }
  | .vsrai d a _ => { vr := [a.toNat], vw := [d.toNat], vec := true }
  | .vandi d a _ => { vr := [a.toNat], vw := [d.toNat], vec := true }
  | .vori d a _ => { vr := [a.toNat], vw := [d.toNat], vec := true }
  | .vxori d a _ => { vr := [a.toNat], vw := [d.toNat], vec := true }
  | .vmovi d _ => { vw := [d.toNat], vec := true }
  | .vbcst d c => { rd := [c.toNat], vw := [d.toNat], vec := true }
  | .vshfl d a c => { rd := [c.toNat], vr := [a.toNat], vw := [d.toNat], vec := true }
  | .vrot d a c => { rd := [c.toNat], vr := [a.toNat], vw := [d.toNat], vec := true }
  | .vredAdd a c => { wr := [c.toNat], vr := [a.toNat], vec := true }
  | .vredMin a c => { wr := [c.toNat], vr := [a.toNat], vec := true }
  | .vredMax a c => { wr := [c.toNat], vr := [a.toNat], vec := true }
  | .vredMinu a c => { wr := [c.toNat], vr := [a.toNat], vec := true }
  | .vredMaxu a c => { wr := [c.toNat], vr := [a.toNat], vec := true }
  | .vredAnd a c => { wr := [c.toNat], vr := [a.toNat], vec := true }
  | .vredOr a c => { wr := [c.toNat], vr := [a.toNat], vec := true }
  | .vredXor a c => { wr := [c.toNat], vr := [a.toNat], vec := true }
  | .vredFadd a c => { wr := [c.toNat], vr := [a.toNat], vec := true }
  | .vredFmin a c => { wr := [c.toNat], vr := [a.toNat], vec := true }
  | .vredFmax a c => { wr := [c.toNat], vr := [a.toNat], vec := true }
  | .vballot a c => { wr := [c.toNat], vr := [a.toNat], vec := true }
  | .vpopc a c => { wr := [c.toNat], vr := [a.toNat], vec := true }
  | .vfirst a c => { wr := [c.toNat], vr := [a.toNat], vec := true }
  | .vextr _ a c => { wr := [c.toNat], vr := [a.toNat], vec := true }
  | .vins d _ c => { rd := [c.toNat], vw := [d.toNat], vec := true }
  | .vperm d a b => { vr := [a.toNat, b.toNat], vw := [d.toNat], vec := true }
  | .vscanAdd d a => { vr := [a.toNat], vw := [d.toNat], vec := true }
  | .vscanFadd d a => { vr := [a.toNat], vw := [d.toNat], vec := true }
  | .vscanMin d a => { vr := [a.toNat], vw := [d.toNat], vec := true }
  | .vscanMax d a => { vr := [a.toNat], vw := [d.toNat], vec := true }
  | .vlane d => { vw := [d.toNat], vec := true }
  | .vfadd d a b => { vr := [a.toNat, b.toNat], vw := [d.toNat], vec := true }
  | .vfsub d a b => { vr := [a.toNat, b.toNat], vw := [d.toNat], vec := true }
  | .vfmul d a b => { vr := [a.toNat, b.toNat], vw := [d.toNat], vec := true }
  | .vfma d a b => { vr := [a.toNat, b.toNat, d.toNat], vw := [d.toNat], vec := true }
  | .vfmin d a b => { vr := [a.toNat, b.toNat], vw := [d.toNat], vec := true }
  | .vfmax d a b => { vr := [a.toNat, b.toNat], vw := [d.toNat], vec := true }
  | .vfdiv d a b => { vr := [a.toNat, b.toNat], vw := [d.toNat], vec := true }
  | .vfsqrt d a => { vr := [a.toNat], vw := [d.toNat], vec := true }
  | .vrcp d a => { vr := [a.toNat], vw := [d.toNat], vec := true }
  | .vrsq d a => { vr := [a.toNat], vw := [d.toNat], vec := true }
  | .vexp2 d a => { vr := [a.toNat], vw := [d.toNat], vec := true }
  | .vlog2 d a => { vr := [a.toNat], vw := [d.toNat], vec := true }
  | .vsin d a => { vr := [a.toNat], vw := [d.toNat], vec := true }
  | .vcos d a => { vr := [a.toNat], vw := [d.toNat], vec := true }
  | .vfclass d a => { vr := [a.toNat], vw := [d.toNat], vec := true }
  | .vfcmpEq d a b => { vr := [a.toNat, b.toNat], vw := [d.toNat], vec := true }
  | .vfcmpNe d a b => { vr := [a.toNat, b.toNat], vw := [d.toNat], vec := true }
  | .vfcmpLt d a b => { vr := [a.toNat, b.toNat], vw := [d.toNat], vec := true }
  | .vfcmpLe d a b => { vr := [a.toNat, b.toNat], vw := [d.toNat], vec := true }
  | .vfcmpGt d a b => { vr := [a.toNat, b.toNat], vw := [d.toNat], vec := true }
  | .vfcmpGe d a b => { vr := [a.toNat, b.toNat], vw := [d.toNat], vec := true }
  | .vfcmpUn d a b => { vr := [a.toNat, b.toNat], vw := [d.toNat], vec := true }
  | .vfcvt d a _ _ _ => { vr := [a.toNat], vw := [d.toNat], vec := true }
  | .vbadd2 d a b => { vr := [a.toNat, b.toNat], vw := [d.toNat], vec := true }
  | .vbmul2 d a b => { vr := [a.toNat, b.toNat], vw := [d.toNat], vec := true }
  | .vbfma2 d a b => { vr := [a.toNat, b.toNat, d.toNat], vw := [d.toNat], vec := true }
  | .vpk d a b => { vr := [a.toNat, b.toNat], vw := [d.toNat], vec := true }
  | .vunpkLo d a => { vr := [a.toNat], vw := [d.toNat], vec := true }
  | .vunpkHi d a => { vr := [a.toNat], vw := [d.toNat], vec := true }
  | .vdot4I8 d a b => { vr := [a.toNat, b.toNat, d.toNat], vw := [d.toNat], vec := true }
  | .vdot4Ui8 d a b => { vr := [a.toNat, b.toNat, d.toNat], vw := [d.toNat], vec := true }
  | .vdotb d a b => { vr := [a.toNat, b.toNat, d.toNat], vw := [d.toNat], vec := true }
  | .vif a => { vr := [a.toNat], vec := true }
  | .velse => { vec := true }
  | .vendif => { vec := true }
  | .vloop => { vec := true }
  | .vbrk a => { vr := [a.toNat], vec := true }
  | .vcont a => { vr := [a.toNat], vec := true }
  | .vendl _ => { vec := true }
  | .vany a _ => { vr := [a.toNat], vec := true }
  | .vnone a _ => { vr := [a.toNat], vec := true }
  | .rep _ _ _ _ _ _ => {}
  | .vrebal d a c => { rd := [c.toNat], vr := [a.toNat], vw := [d.toNat, d.toNat + 1], vec := true }
  | .vplane d a c => { rd := [c.toNat], vr := [a.toNat, a.toNat + 1], vw := [d.toNat], vec := true }
  | .vld d a c _ _ => { rd := [c.toNat], vr := [a.toNat], vw := [d.toNat], vec := true, load := true }
  | .vst d a c _ _ => { rd := [c.toNat], vr := [a.toNat, d.toNat], vec := true, store := true }
  | .vldmc d a c _ _ => { rd := [c.toNat], vr := [a.toNat], vw := [d.toNat], vec := true, load := true }
  | .atomAdd d a b _ => { rd := [a.toNat, b.toNat], wr := [d.toNat], load := decide (d ≠ 0), store := true }
  | .atomMin d a b _ => { rd := [a.toNat, b.toNat], wr := [d.toNat], load := decide (d ≠ 0), store := true }
  | .atomMax d a b _ => { rd := [a.toNat, b.toNat], wr := [d.toNat], load := decide (d ≠ 0), store := true }
  | .atomMinu d a b _ => { rd := [a.toNat, b.toNat], wr := [d.toNat], load := decide (d ≠ 0), store := true }
  | .atomMaxu d a b _ => { rd := [a.toNat, b.toNat], wr := [d.toNat], load := decide (d ≠ 0), store := true }
  | .atomAnd d a b _ => { rd := [a.toNat, b.toNat], wr := [d.toNat], load := decide (d ≠ 0), store := true }
  | .atomOr d a b _ => { rd := [a.toNat, b.toNat], wr := [d.toNat], load := decide (d ≠ 0), store := true }
  | .atomXor d a b _ => { rd := [a.toNat, b.toNat], wr := [d.toNat], load := decide (d ≠ 0), store := true }
  | .atomSwap d a b _ => { rd := [a.toNat, b.toNat], wr := [d.toNat], load := decide (d ≠ 0), store := true }
  | .acas d a b _ => { rd := [a.toNat, b.toNat, d.toNat], wr := [d.toNat], load := decide (d ≠ 0), store := true }
  | .atomAddW d a b _ => { rd := [a.toNat, b.toNat], wr := [d.toNat], load := decide (d ≠ 0), store := true }
  | .atomMinW d a b _ => { rd := [a.toNat, b.toNat], wr := [d.toNat], load := decide (d ≠ 0), store := true }
  | .atomMaxW d a b _ => { rd := [a.toNat, b.toNat], wr := [d.toNat], load := decide (d ≠ 0), store := true }
  | .atomMinuW d a b _ => { rd := [a.toNat, b.toNat], wr := [d.toNat], load := decide (d ≠ 0), store := true }
  | .atomMaxuW d a b _ => { rd := [a.toNat, b.toNat], wr := [d.toNat], load := decide (d ≠ 0), store := true }
  | .atomAndW d a b _ => { rd := [a.toNat, b.toNat], wr := [d.toNat], load := decide (d ≠ 0), store := true }
  | .atomOrW d a b _ => { rd := [a.toNat, b.toNat], wr := [d.toNat], load := decide (d ≠ 0), store := true }
  | .atomXorW d a b _ => { rd := [a.toNat, b.toNat], wr := [d.toNat], load := decide (d ≠ 0), store := true }
  | .atomSwapW d a b _ => { rd := [a.toNat, b.toNat], wr := [d.toNat], load := decide (d ≠ 0), store := true }
  | .atomFaddW d a b _ => { rd := [a.toNat, b.toNat], wr := [d.toNat], load := decide (d ≠ 0), store := true }
  | .atomBfadd2W d a b _ => { rd := [a.toNat, b.toNat], wr := [d.toNat], load := decide (d ≠ 0), store := true }
  | .acasW d a b _ => { rd := [a.toNat, b.toNat, d.toNat], wr := [d.toNat], load := decide (d ≠ 0), store := true }
  | .dqpush d a b _ => { rd := [a.toNat, b.toNat], wr := [d.toNat], load := decide (d ≠ 0), store := true }
  | .dqpop d a _ => { rd := [a.toNat], wr := [d.toNat], load := decide (d ≠ 0), store := true }
  | .dqsteal d a _ => { rd := [a.toNat], wr := [d.toNat], load := decide (d ≠ 0), store := true }
  | .vatomAdd d o w a _ => { vr := if w = 1 then [8 * o.toNat, d.toNat, d.toNat + 1] else [8 * o.toNat, d.toNat], vw := if w = 1 then [d.toNat, d.toNat + 1] else [d.toNat], rd := [a.toNat], vec := true, load := true, store := true }
  | .vatomMin d o w a _ => { vr := if w = 1 then [8 * o.toNat, d.toNat, d.toNat + 1] else [8 * o.toNat, d.toNat], vw := if w = 1 then [d.toNat, d.toNat + 1] else [d.toNat], rd := [a.toNat], vec := true, load := true, store := true }
  | .vatomMax d o w a _ => { vr := if w = 1 then [8 * o.toNat, d.toNat, d.toNat + 1] else [8 * o.toNat, d.toNat], vw := if w = 1 then [d.toNat, d.toNat + 1] else [d.toNat], rd := [a.toNat], vec := true, load := true, store := true }
  | .vatomMinu d o w a _ => { vr := if w = 1 then [8 * o.toNat, d.toNat, d.toNat + 1] else [8 * o.toNat, d.toNat], vw := if w = 1 then [d.toNat, d.toNat + 1] else [d.toNat], rd := [a.toNat], vec := true, load := true, store := true }
  | .vatomMaxu d o w a _ => { vr := if w = 1 then [8 * o.toNat, d.toNat, d.toNat + 1] else [8 * o.toNat, d.toNat], vw := if w = 1 then [d.toNat, d.toNat + 1] else [d.toNat], rd := [a.toNat], vec := true, load := true, store := true }
  | .vatomAnd d o w a _ => { vr := if w = 1 then [8 * o.toNat, d.toNat, d.toNat + 1] else [8 * o.toNat, d.toNat], vw := if w = 1 then [d.toNat, d.toNat + 1] else [d.toNat], rd := [a.toNat], vec := true, load := true, store := true }
  | .vatomOr d o w a _ => { vr := if w = 1 then [8 * o.toNat, d.toNat, d.toNat + 1] else [8 * o.toNat, d.toNat], vw := if w = 1 then [d.toNat, d.toNat + 1] else [d.toNat], rd := [a.toNat], vec := true, load := true, store := true }
  | .vatomXor d o w a _ => { vr := if w = 1 then [8 * o.toNat, d.toNat, d.toNat + 1] else [8 * o.toNat, d.toNat], vw := if w = 1 then [d.toNat, d.toNat + 1] else [d.toNat], rd := [a.toNat], vec := true, load := true, store := true }
  | .vatomSwap d o w a _ => { vr := if w = 1 then [8 * o.toNat, d.toNat, d.toNat + 1] else [8 * o.toNat, d.toNat], vw := if w = 1 then [d.toNat, d.toNat + 1] else [d.toNat], rd := [a.toNat], vec := true, load := true, store := true }
  | .vatomFadd d o a _ => { rd := [a.toNat], vr := [8 * o.toNat, d.toNat], vw := [d.toNat], vec := true, load := true, store := true }
  | .vatomBfadd2 d o a _ => { rd := [a.toNat], vr := [8 * o.toNat, d.toNat], vw := [d.toNat], vec := true, load := true, store := true }
  | .vacas d o w a _ => { vr := if w = 1 then [8 * o.toNat, d.toNat, d.toNat + 1, d.toNat + 2, d.toNat + 3] else [8 * o.toNat, d.toNat, d.toNat + 1], vw := if w = 1 then [d.toNat, d.toNat + 1] else [d.toNat], rd := [a.toNat], vec := true, load := true, store := true }
  | .binit d a b => { rd := [a.toNat, b.toNat], wr := [d.toNat] }
  | .barv a => { rd := [a.toNat], ctx := true, store := true }
  | .bexp a b => { rd := [a.toNat, b.toNat], store := true }
  | .bwait d a b => { rd := [a.toNat, b.toNat], wr := [d.toNat], ctx := true }
  | .btry d a b => { rd := [a.toNat, b.toNat], wr := [d.toNat] }
  | .binv d a => { rd := [a.toNat], wr := [d.toNat] }
  | .fence d a _ => { rd := [a.toNat], wr := [d.toNat], waits := true }
  | .rel a b _ => { rd := [a.toNat, b.toNat], store := true, waits := true }
  | .acq d a _ => { rd := [a.toNat], wr := [d.toNat], waits := true }
  | .acqp d a b _ => { rd := [a.toNat, b.toNat], wr := [d.toNat], waits := true }
  | .zfill a b => { rd := [a.toNat, b.toNat], store := true }
  | .cqpush _ d a b => { rd := [a.toNat, b.toNat], wr := [d.toNat] }
  | .cqtry _ d a b => { rd := [a.toNat, b.toNat], wr := [d.toNat] }
  | .cset _ d a => { rd := [a.toNat], wr := [d.toNat] }
  | .cgete _ d _ => { wr := [d.toNat] }
  | .cbind _ _ => {}
  | .ccancel _ d => { wr := [d.toNat] }
  | .cunbind _ => {}
  | .spop d _ => { wr := [d.toNat], load := true }
  | .vspop d _ => { vw := [d.toNat], vec := true, load := true }
  | .evset a b => { rd := [a.toNat, b.toNat] }
  | .evclr a b => { rd := [a.toNat, b.toNat] }
  | .evrd d a => { rd := [a.toNat], wr := [d.toNat] }
  | .evsig a => { rd := [a.toNat] }
  | .pset _ b => { rd := [b.toNat], ctx := true, wav := false }
  | .pget d _ => { wr := [d.toNat], ctx := true, wav := false }
  | .pres d a => { rd := [a.toNat], wr := [d.toNat], ctx := true, wav := false }
  | .prel a => { rd := [a.toNat], ctx := true, wav := false }
  | .ppass a b => { rd := [a.toNat, b.toNat], ctx := true, wav := false }
  | .pjoin a b => { rd := [a.toNat, b.toNat], ctx := true, wav := false }
  | .pdrainO a => { rd := [a.toNat], ctx := true, wav := false }
  | .pdrainU a => { rd := [a.toNat], ctx := true, wav := false }
  | .pclr a => { rd := [a.toNat], ctx := true, wav := false }
  | .mstart d a b => { rd := [a.toNat, b.toNat], wr := [d.toNat], pass_ := true }
  | .mstop d a => { rd := [a.toNat], wr := [d.toNat], pass_ := true }
  | .hgath d a => { rd := [a.toNat], wr := [d.toNat], pass_ := true }
  | .hcsr d a => { rd := [a.toNat], wr := [d.toNat], pass_ := true }
  | .hscat d a => { rd := [a.toNat], wr := [d.toNat], pass_ := true }
  | .rrecv d a b => { rd := [a.toNat, b.toNat], wr := [d.toNat], store := true }
  | .rsend d a b => { rd := [a.toNat, b.toNat], wr := [d.toNat] }
  | .rhit d a => { rd := [a.toNat], wr := [d.toNat] }
  | .rbox4 d a b => { rd := [a.toNat, b.toNat], wr := [d.toNat] }
  | .rtri d a b => { rd := [a.toNat, b.toNat], wr := [d.toNat], store := true }
  | .rroute d a b => { rd := [a.toNat, b.toNat], wr := [d.toNat] }
  | .tlreq d a b => { rd := [a.toNat, b.toNat], wr := [d.toNat] }
  | .tlevict d a => { rd := [a.toNat], wr := [d.toNat] }
  | .hqbind d a b => { rd := [a.toNat, b.toNat], wr := [d.toNat] }
  | .dbar d a b => { rd := [a.toNat, b.toNat], wr := [d.toNat] }
  | .xph d a b => { rd := [a.toNat, b.toNat], wr := [d.toNat] }
  | .xmit d a b => { rd := [a.toNat, b.toNat], wr := [d.toNat] }
  | .xsel d a => { rd := [a.toNat], wr := [d.toNat] }
  | .xrecv d a b => { rd := [a.toNat, b.toNat], wr := [d.toNat] }
  | .xend d a => { rd := [a.toNat], wr := [d.toNat] }
  | .xslots d a b => { rd := [a.toNat, b.toNat], wr := [d.toNat] }
  | .nop => {}
  | .gets d n => { wr := [d.toNat], priv := decide (2048 ≤ n.toNat) }
  | .sets a n => { rd := [a.toNat], priv := decide (2048 ≤ n.toNat) }
  | .cwait l _ _ _ => { waits := decide (l ≠ 31) }
  | .yield => {}
  | .trap _ => {}
  | .bkpt _ => {}
  | .exit => { waits := true }
  | .invl1 => {}
  | .invi => { waits := true }
  | .launch d a => { rd := [a.toNat], wr := [d.toNat] }
  | .grow d a b => { rd := [a.toNat, b.toNat], wr := [d.toNat] }
  | .emit d a b => { rd := [a.toNat, b.toNat], wr := [d.toNat] }
  | .mbxpop d => { wr := [d.toNat, d.toNat + 1, d.toNat + 2, d.toNat + 3], priv := true }
  | .wresume a => { rd := [a.toNat], priv := true }
  | .wkill a => { rd := [a.toNat], priv := true }
  | .gkill a => { rd := [a.toNat], priv := true }
  | .gpreempt d a => { rd := [a.toNat, a.toNat + 1], wr := [d.toNat], priv := true }
  | .dbghalt a => { rd := [a.toNat], priv := true }
  | .dbgrun a => { rd := [a.toNat], priv := true }
  | .sgbIdleDrain _ _ => {}
  | .sgbDrainAck _ _ _ => {}
  | .mreqRead _ => {}
  | .mreqWrite _ _ => {}
  | .mreqAtomic _ _ => {}
  | .scratchRequest _ => {}
  | .loadReply _ _ _ => {}
  | .storeAck _ => {}
  | .pageWalkDone _ _ _ => {}
  | .multicastSend _ => {}
  | .leaseWaitDone _ => {}
  | .promote _ => {}
  | .promotionDone _ => {}
  | .promoteReply _ => {}
  | .barrierArrival _ => {}
  | .barrierCredit _ => {}
  | .barrierWake _ => {}
  | .workRequest _ => {}
  | .localSlotFill _ => {}
  | .masterTaskRequest _ => {}
  | .deferredRangeJoin _ => {}
  | .groupRunnable _ _ => {}
  | .prefetchTimeout _ _ => {}
  | .windowRotate _ => {}
  | .distributorReply _ => {}
  | .scratchRelease _ => {}
  | .gridRetire _ => {}
  | .batchTimeout _ => {}
  | .hitRecordArrive _ => {}
  | .hqtTimeout _ => {}
  | .shadingWaveLaunch _ => {}
  | .ladleRequestStart _ _ => {}
  | .ladleWriteAck _ _ _ => {}
  | .ladleComplete _ _ => {}
  | .ladleAbort _ _ _ _ => {}
  | .eventArrive _ => {}
  | .pressGrant _ => {}
  | .pressOpComplete _ => {}
  | .contextFree _ _ => {}
  | .spillTailReread _ => {}
  | .harpStart _ => {}
  | .harpComplete _ => {}
  | .harpAbort _ _ _ => {}
  | .harpShip _ _ => {}
  | .rayArrive _ => {}
  | .rayReinject _ => {}
  | .dirRay _ => {}
  | .dirHeatReport _ => {}
  | .dirTlreq _ => {}
  | .dirTlevict _ => {}
  | .pageInDone _ => {}
  | .pageInFail _ => {}
  | .replicaCopyDone _ => {}
  | .evictConfirm _ => {}
  | .routeQuery _ => {}
  | .routeReply _ => {}
  | .pageTransfer _ => {}
  | .tlreqReply _ => {}
  | .phaseStart _ => {}
  | .domainBroadcast _ => {}
  | .exchBeatSend _ => {}
  | .exchBeatArrive _ => {}
  | .exchCollReport _ => {}
  | .exchPhaseEnd _ => {}
  | .mailboxMessage _ => {}
  | .mailboxRetry _ => {}
  | .watchdogExpire _ => {}
  | .sliceEccError _ _ => {}
  | .linkDead _ _ _ => {}
  | .saveComplete _ => {}
  | .restore _ _ => {}
  | .leaseSync _ _ => {}
  | .leaseBoundTimeout _ => {}
  | .dieFence _ _ => {}
  | .journalEntry _ => {}
  | .launchSlotSubmit _ _ => {}
  | .sloterrClear _ => {}
  | .taggedWrite _ => {}
  | .taggedWriteDone => {}
  | .tlbInvalidate _ => {}
  | .tlbInvalidateDone => {}
  | .warmReset => {}
  | .registerWrite _ _ _ => {}
  | .hostMemRead _ _ => {}
  | .hostMemWrite _ _ => {}
  | .completionRecordWrite _ => {}
  | .vectorTimeFire _ => {}
  | .droopDetect _ => {}
  | .droopRecover _ => {}
  | .currentLimit _ _ => {}
  | .thermalLimit _ _ => {}
  | .sensorSample _ _ => {}
  | .firmwareUpdate _ _ => {}
  | .bootTimeout => {}
  | .attestation _ => {}
  | .standbyPowerOn => {}
  | .raystatRead d => { wr := [d.toNat], priv := true }
  | .fieldRepair _ _ => {}

/-- What comes of the checks before an instruction executes. -/
inductive Verdict where
  | go
  | trap (t : Trap) (deferred : Bool)
  /-- It waits (04 R98, R123). -/
  | hold
deriving DecidableEq, Repr

/-- A vector register outside the wave's allocation is named (02 R64). -/
def vregBad (x : Wave) (u : RegUse) : Bool := (u.vr ++ u.vw).any fun n => decide (x.vregs ≤ n)

/-- The instruction meets a deferred ECC mark (18 R403). -/
def RegUse.meets (u : RegUse) (n : Nat) : Bool := u.waits || u.rd.contains n || (u.vr.map (64 + ·)).contains n
/-- The deferred ECC mark the instruction meets: the pa. -/
def poisonHit (x : Wave) (u : RegUse) : Option Nat := (x.poison.find? fun e => u.meets e.1).map (·.2)
/-- The marks that the instruction meets have been told of: it was the first later one (18 R403). -/
def Wave.told (x : Wave) (u : RegUse) : Wave := { x with poison := x.poison.filter fun e => !u.meets e.1 }

/-- A register it names is still to be written by a load, or a counter stands at 30 (04 R98, R123). -/
def mustHold (x : Wave) (u : RegUse) : Bool :=
  x.pend.any (fun n => u.rd.contains n || u.wr.contains n || ((u.vr ++ u.vw).map (64 + ·)).contains n)
  || (u.load && decide (30 ≤ x.loads)) || (u.store && decide (30 ≤ x.stores))
  || (u.pass_ && decide (30 ≤ x.passes))

/-- The checks before an instruction of a wave executes, in their order. -/
def waveCheck (u : RegUse) (code : W32) (x : Wave) : Verdict :=
  if !u.wav || (u.vec && (!x.full || vregBad x u)) then .trap (codeTrap .illegal code) false
  else if u.priv && !x.sup then .trap (codeTrap .priv code) false
  else if mustHold x u then .hold
  else match poisonHit x u with
    | some pa => .trap ⟨.ecc, BitVec.ofNat 64 pa⟩ true
    | none => .go

/-- The checks before an instruction of a sequencer context executes (02 R65). -/
def ctxCheck (u : RegUse) (code : W32) : Verdict :=
  if u.ctx && (u.rd ++ u.wr).all (fun n => decide (n < 16)) then .go else .trap (codeTrap .illegal code) false

/-- Execute an instruction of the agent that moves, of which the operands and the word are given: the
checks first, then its own effect `k`. -/
def checkedWith (u : RegUse) (code : W32) (s : State) (k : State → State) : Res := match s.cur with
  | .none => .fault .noAgent
  | .wave w => .next (match waveCheck u code (s.wave w) with
    | .go => k s
    | .hold => stall s
    | .trap t dfr => waveFault (if dfr then s.modWave w (·.told u) else s) w t dfr)
  | .ctx v n => .next (match ctxCheck u code with
    | .go => k s
    | .hold => s
    | .trap t _ => ctxFault s v n t (s.ctx v n).pc.addr)

def waveVerdict (i : Instr) (x : Wave) : Verdict := waveCheck (regs i) i.code x
def ctxVerdict (i : Instr) : Verdict := ctxCheck (regs i) i.code
/-- Execute an instruction of the agent that moves. -/
def checked (i : Instr) (s : State) (k : State → State) : Res := checkedWith (regs i) i.code s k

/-- The agent that moves may execute `i`: the checks before an instruction all pass. -/
def Admitted (i : Instr) (s : State) : Prop := match s.cur with
  | .none => False
  | .wave w => waveVerdict i (s.wave w) = .go
  | .ctx _ _ => ctxVerdict i = .go

/-! The same for each instruction whose constructor the Lean runtime cannot build (its number is too
great): `Laws.Checks` shows that each is `checked` of its instruction. -/

def useVspop (d : BitVec 6) (_a : BitVec 6) : RegUse := { vw := [d.toNat], vec := true, load := true }
def wordVspop (d : BitVec 6) (a : BitVec 6) : W32 := word 0xE01C0000 [(d.toNat, 12), (a.toNat, 6)]
def checkedVspop (d : BitVec 6) (a : BitVec 6) (st : State) (k : State → State) : Res := checkedWith (useVspop d a) (wordVspop d a) st k
def useEvset (a : BitVec 6) (b : BitVec 6) : RegUse := { rd := [a.toNat, b.toNat] }
def wordEvset (a : BitVec 6) (b : BitVec 6) : W32 := word 0xE0400000 [(a.toNat, 6), (b.toNat, 0)]
def checkedEvset (a : BitVec 6) (b : BitVec 6) (st : State) (k : State → State) : Res := checkedWith (useEvset a b) (wordEvset a b) st k
def useEvclr (a : BitVec 6) (b : BitVec 6) : RegUse := { rd := [a.toNat, b.toNat] }
def wordEvclr (a : BitVec 6) (b : BitVec 6) : W32 := word 0xE0440000 [(a.toNat, 6), (b.toNat, 0)]
def checkedEvclr (a : BitVec 6) (b : BitVec 6) (st : State) (k : State → State) : Res := checkedWith (useEvclr a b) (wordEvclr a b) st k
def useEvrd (d : BitVec 6) (a : BitVec 6) : RegUse := { rd := [a.toNat], wr := [d.toNat] }
def wordEvrd (d : BitVec 6) (a : BitVec 6) : W32 := word 0xE0480000 [(d.toNat, 12), (a.toNat, 6)]
def checkedEvrd (d : BitVec 6) (a : BitVec 6) (st : State) (k : State → State) : Res := checkedWith (useEvrd d a) (wordEvrd d a) st k
def useEvsig (a : BitVec 6) : RegUse := { rd := [a.toNat] }
def wordEvsig (a : BitVec 6) : W32 := word 0xE04C0000 [(a.toNat, 6)]
def checkedEvsig (a : BitVec 6) (st : State) (k : State → State) : Res := checkedWith (useEvsig a) (wordEvsig a) st k
def usePset (_a : BitVec 6) (b : BitVec 6) : RegUse := { rd := [b.toNat], ctx := true, wav := false }
def wordPset (a : BitVec 6) (b : BitVec 6) : W32 := word 0xE4000000 [(a.toNat, 6), (b.toNat, 0)]
def checkedPset (a : BitVec 6) (b : BitVec 6) (st : State) (k : State → State) : Res := checkedWith (usePset a b) (wordPset a b) st k
def usePget (d : BitVec 6) (_a : BitVec 6) : RegUse := { wr := [d.toNat], ctx := true, wav := false }
def wordPget (d : BitVec 6) (a : BitVec 6) : W32 := word 0xE4040000 [(d.toNat, 12), (a.toNat, 6)]
def checkedPget (d : BitVec 6) (a : BitVec 6) (st : State) (k : State → State) : Res := checkedWith (usePget d a) (wordPget d a) st k
def usePres (d : BitVec 6) (a : BitVec 6) : RegUse := { rd := [a.toNat], wr := [d.toNat], ctx := true, wav := false }
def wordPres (d : BitVec 6) (a : BitVec 6) : W32 := word 0xE4080000 [(d.toNat, 12), (a.toNat, 6)]
def checkedPres (d : BitVec 6) (a : BitVec 6) (st : State) (k : State → State) : Res := checkedWith (usePres d a) (wordPres d a) st k
def usePrel (a : BitVec 6) : RegUse := { rd := [a.toNat], ctx := true, wav := false }
def wordPrel (a : BitVec 6) : W32 := word 0xE40C0000 [(a.toNat, 6)]
def checkedPrel (a : BitVec 6) (st : State) (k : State → State) : Res := checkedWith (usePrel a) (wordPrel a) st k
def usePpass (a : BitVec 6) (b : BitVec 6) : RegUse := { rd := [a.toNat, b.toNat], ctx := true, wav := false }
def wordPpass (a : BitVec 6) (b : BitVec 6) : W32 := word 0xE4100000 [(a.toNat, 6), (b.toNat, 0)]
def checkedPpass (a : BitVec 6) (b : BitVec 6) (st : State) (k : State → State) : Res := checkedWith (usePpass a b) (wordPpass a b) st k
def usePjoin (a : BitVec 6) (b : BitVec 6) : RegUse := { rd := [a.toNat, b.toNat], ctx := true, wav := false }
def wordPjoin (a : BitVec 6) (b : BitVec 6) : W32 := word 0xE4140000 [(a.toNat, 6), (b.toNat, 0)]
def checkedPjoin (a : BitVec 6) (b : BitVec 6) (st : State) (k : State → State) : Res := checkedWith (usePjoin a b) (wordPjoin a b) st k
def usePdrainO (a : BitVec 6) : RegUse := { rd := [a.toNat], ctx := true, wav := false }
def wordPdrainO (a : BitVec 6) : W32 := word 0xE4180000 [(a.toNat, 6)]
def checkedPdrainO (a : BitVec 6) (st : State) (k : State → State) : Res := checkedWith (usePdrainO a) (wordPdrainO a) st k
def usePdrainU (a : BitVec 6) : RegUse := { rd := [a.toNat], ctx := true, wav := false }
def wordPdrainU (a : BitVec 6) : W32 := word 0xE41C0000 [(a.toNat, 6)]
def checkedPdrainU (a : BitVec 6) (st : State) (k : State → State) : Res := checkedWith (usePdrainU a) (wordPdrainU a) st k
def usePclr (a : BitVec 6) : RegUse := { rd := [a.toNat], ctx := true, wav := false }
def wordPclr (a : BitVec 6) : W32 := word 0xE4200000 [(a.toNat, 6)]
def checkedPclr (a : BitVec 6) (st : State) (k : State → State) : Res := checkedWith (usePclr a) (wordPclr a) st k
def useMstart (d : BitVec 6) (a : BitVec 6) (b : BitVec 6) : RegUse := { rd := [a.toNat, b.toNat], wr := [d.toNat], pass_ := true }
def wordMstart (d : BitVec 6) (a : BitVec 6) (b : BitVec 6) : W32 := word 0xE4800000 [(d.toNat, 12), (a.toNat, 6), (b.toNat, 0)]
def checkedMstart (d : BitVec 6) (a : BitVec 6) (b : BitVec 6) (st : State) (k : State → State) : Res := checkedWith (useMstart d a b) (wordMstart d a b) st k
def useMstop (d : BitVec 6) (a : BitVec 6) : RegUse := { rd := [a.toNat], wr := [d.toNat], pass_ := true }
def wordMstop (d : BitVec 6) (a : BitVec 6) : W32 := word 0xE4840000 [(d.toNat, 12), (a.toNat, 6)]
def checkedMstop (d : BitVec 6) (a : BitVec 6) (st : State) (k : State → State) : Res := checkedWith (useMstop d a) (wordMstop d a) st k
def useHgath (d : BitVec 6) (a : BitVec 6) : RegUse := { rd := [a.toNat], wr := [d.toNat], pass_ := true }
def wordHgath (d : BitVec 6) (a : BitVec 6) : W32 := word 0xE5000000 [(d.toNat, 12), (a.toNat, 6)]
def checkedHgath (d : BitVec 6) (a : BitVec 6) (st : State) (k : State → State) : Res := checkedWith (useHgath d a) (wordHgath d a) st k
def useHcsr (d : BitVec 6) (a : BitVec 6) : RegUse := { rd := [a.toNat], wr := [d.toNat], pass_ := true }
def wordHcsr (d : BitVec 6) (a : BitVec 6) : W32 := word 0xE5040000 [(d.toNat, 12), (a.toNat, 6)]
def checkedHcsr (d : BitVec 6) (a : BitVec 6) (st : State) (k : State → State) : Res := checkedWith (useHcsr d a) (wordHcsr d a) st k
def useHscat (d : BitVec 6) (a : BitVec 6) : RegUse := { rd := [a.toNat], wr := [d.toNat], pass_ := true }
def wordHscat (d : BitVec 6) (a : BitVec 6) : W32 := word 0xE5080000 [(d.toNat, 12), (a.toNat, 6)]
def checkedHscat (d : BitVec 6) (a : BitVec 6) (st : State) (k : State → State) : Res := checkedWith (useHscat d a) (wordHscat d a) st k
def useRrecv (d : BitVec 6) (a : BitVec 6) (b : BitVec 6) : RegUse := { rd := [a.toNat, b.toNat], wr := [d.toNat], store := true }
def wordRrecv (d : BitVec 6) (a : BitVec 6) (b : BitVec 6) : W32 := word 0xE8000000 [(d.toNat, 12), (a.toNat, 6), (b.toNat, 0)]
def checkedRrecv (d : BitVec 6) (a : BitVec 6) (b : BitVec 6) (st : State) (k : State → State) : Res := checkedWith (useRrecv d a b) (wordRrecv d a b) st k
def useRsend (d : BitVec 6) (a : BitVec 6) (b : BitVec 6) : RegUse := { rd := [a.toNat, b.toNat], wr := [d.toNat] }
def wordRsend (d : BitVec 6) (a : BitVec 6) (b : BitVec 6) : W32 := word 0xE8040000 [(d.toNat, 12), (a.toNat, 6), (b.toNat, 0)]
def checkedRsend (d : BitVec 6) (a : BitVec 6) (b : BitVec 6) (st : State) (k : State → State) : Res := checkedWith (useRsend d a b) (wordRsend d a b) st k
def useRhit (d : BitVec 6) (a : BitVec 6) : RegUse := { rd := [a.toNat], wr := [d.toNat] }
def wordRhit (d : BitVec 6) (a : BitVec 6) : W32 := word 0xE8080000 [(d.toNat, 12), (a.toNat, 6)]
def checkedRhit (d : BitVec 6) (a : BitVec 6) (st : State) (k : State → State) : Res := checkedWith (useRhit d a) (wordRhit d a) st k
def useRbox4 (d : BitVec 6) (a : BitVec 6) (b : BitVec 6) : RegUse := { rd := [a.toNat, b.toNat], wr := [d.toNat] }
def wordRbox4 (d : BitVec 6) (a : BitVec 6) (b : BitVec 6) : W32 := word 0xE80C0000 [(d.toNat, 12), (a.toNat, 6), (b.toNat, 0)]
def checkedRbox4 (d : BitVec 6) (a : BitVec 6) (b : BitVec 6) (st : State) (k : State → State) : Res := checkedWith (useRbox4 d a b) (wordRbox4 d a b) st k
def useRtri (d : BitVec 6) (a : BitVec 6) (b : BitVec 6) : RegUse := { rd := [a.toNat, b.toNat], wr := [d.toNat], store := true }
def wordRtri (d : BitVec 6) (a : BitVec 6) (b : BitVec 6) : W32 := word 0xE8100000 [(d.toNat, 12), (a.toNat, 6), (b.toNat, 0)]
def checkedRtri (d : BitVec 6) (a : BitVec 6) (b : BitVec 6) (st : State) (k : State → State) : Res := checkedWith (useRtri d a b) (wordRtri d a b) st k
def useRroute (d : BitVec 6) (a : BitVec 6) (b : BitVec 6) : RegUse := { rd := [a.toNat, b.toNat], wr := [d.toNat] }
def wordRroute (d : BitVec 6) (a : BitVec 6) (b : BitVec 6) : W32 := word 0xE8140000 [(d.toNat, 12), (a.toNat, 6), (b.toNat, 0)]
def checkedRroute (d : BitVec 6) (a : BitVec 6) (b : BitVec 6) (st : State) (k : State → State) : Res := checkedWith (useRroute d a b) (wordRroute d a b) st k
def useTlreq (d : BitVec 6) (a : BitVec 6) (b : BitVec 6) : RegUse := { rd := [a.toNat, b.toNat], wr := [d.toNat] }
def wordTlreq (d : BitVec 6) (a : BitVec 6) (b : BitVec 6) : W32 := word 0xE8180000 [(d.toNat, 12), (a.toNat, 6), (b.toNat, 0)]
def checkedTlreq (d : BitVec 6) (a : BitVec 6) (b : BitVec 6) (st : State) (k : State → State) : Res := checkedWith (useTlreq d a b) (wordTlreq d a b) st k
def useTlevict (d : BitVec 6) (a : BitVec 6) : RegUse := { rd := [a.toNat], wr := [d.toNat] }
def wordTlevict (d : BitVec 6) (a : BitVec 6) : W32 := word 0xE81C0000 [(d.toNat, 12), (a.toNat, 6)]
def checkedTlevict (d : BitVec 6) (a : BitVec 6) (st : State) (k : State → State) : Res := checkedWith (useTlevict d a) (wordTlevict d a) st k
def useHqbind (d : BitVec 6) (a : BitVec 6) (b : BitVec 6) : RegUse := { rd := [a.toNat, b.toNat], wr := [d.toNat] }
def wordHqbind (d : BitVec 6) (a : BitVec 6) (b : BitVec 6) : W32 := word 0xE8200000 [(d.toNat, 12), (a.toNat, 6), (b.toNat, 0)]
def checkedHqbind (d : BitVec 6) (a : BitVec 6) (b : BitVec 6) (st : State) (k : State → State) : Res := checkedWith (useHqbind d a b) (wordHqbind d a b) st k
def useDbar (d : BitVec 6) (a : BitVec 6) (b : BitVec 6) : RegUse := { rd := [a.toNat, b.toNat], wr := [d.toNat] }
def wordDbar (d : BitVec 6) (a : BitVec 6) (b : BitVec 6) : W32 := word 0xEC000000 [(d.toNat, 12), (a.toNat, 6), (b.toNat, 0)]
def checkedDbar (d : BitVec 6) (a : BitVec 6) (b : BitVec 6) (st : State) (k : State → State) : Res := checkedWith (useDbar d a b) (wordDbar d a b) st k
def useXph (d : BitVec 6) (a : BitVec 6) (b : BitVec 6) : RegUse := { rd := [a.toNat, b.toNat], wr := [d.toNat] }
def wordXph (d : BitVec 6) (a : BitVec 6) (b : BitVec 6) : W32 := word 0xEC040000 [(d.toNat, 12), (a.toNat, 6), (b.toNat, 0)]
def checkedXph (d : BitVec 6) (a : BitVec 6) (b : BitVec 6) (st : State) (k : State → State) : Res := checkedWith (useXph d a b) (wordXph d a b) st k
def useXmit (d : BitVec 6) (a : BitVec 6) (b : BitVec 6) : RegUse := { rd := [a.toNat, b.toNat], wr := [d.toNat] }
def wordXmit (d : BitVec 6) (a : BitVec 6) (b : BitVec 6) : W32 := word 0xEC080000 [(d.toNat, 12), (a.toNat, 6), (b.toNat, 0)]
def checkedXmit (d : BitVec 6) (a : BitVec 6) (b : BitVec 6) (st : State) (k : State → State) : Res := checkedWith (useXmit d a b) (wordXmit d a b) st k
def useXsel (d : BitVec 6) (a : BitVec 6) : RegUse := { rd := [a.toNat], wr := [d.toNat] }
def wordXsel (d : BitVec 6) (a : BitVec 6) : W32 := word 0xEC0C0000 [(d.toNat, 12), (a.toNat, 6)]
def checkedXsel (d : BitVec 6) (a : BitVec 6) (st : State) (k : State → State) : Res := checkedWith (useXsel d a) (wordXsel d a) st k
def useXrecv (d : BitVec 6) (a : BitVec 6) (b : BitVec 6) : RegUse := { rd := [a.toNat, b.toNat], wr := [d.toNat] }
def wordXrecv (d : BitVec 6) (a : BitVec 6) (b : BitVec 6) : W32 := word 0xEC100000 [(d.toNat, 12), (a.toNat, 6), (b.toNat, 0)]
def checkedXrecv (d : BitVec 6) (a : BitVec 6) (b : BitVec 6) (st : State) (k : State → State) : Res := checkedWith (useXrecv d a b) (wordXrecv d a b) st k
def useXend (d : BitVec 6) (a : BitVec 6) : RegUse := { rd := [a.toNat], wr := [d.toNat] }
def wordXend (d : BitVec 6) (a : BitVec 6) : W32 := word 0xEC140000 [(d.toNat, 12), (a.toNat, 6)]
def checkedXend (d : BitVec 6) (a : BitVec 6) (st : State) (k : State → State) : Res := checkedWith (useXend d a) (wordXend d a) st k
def useXslots (d : BitVec 6) (a : BitVec 6) (b : BitVec 6) : RegUse := { rd := [a.toNat, b.toNat], wr := [d.toNat] }
def wordXslots (d : BitVec 6) (a : BitVec 6) (b : BitVec 6) : W32 := word 0xEC180000 [(d.toNat, 12), (a.toNat, 6), (b.toNat, 0)]
def checkedXslots (d : BitVec 6) (a : BitVec 6) (b : BitVec 6) (st : State) (k : State → State) : Res := checkedWith (useXslots d a b) (wordXslots d a b) st k
def useGets (d : BitVec 6) (n : BitVec 12) : RegUse := { wr := [d.toNat], priv := decide (2048 ≤ n.toNat) }
def wordGets (d : BitVec 6) (n : BitVec 12) : W32 := word 0xF4100000 [(d.toNat, 14), (n.toNat, 0)]
def checkedGets (d : BitVec 6) (n : BitVec 12) (st : State) (k : State → State) : Res := checkedWith (useGets d n) (wordGets d n) st k
def useSets (a : BitVec 6) (n : BitVec 12) : RegUse := { rd := [a.toNat], priv := decide (2048 ≤ n.toNat) }
def wordSets (a : BitVec 6) (n : BitVec 12) : W32 := word 0xF4200000 [(a.toNat, 14), (n.toNat, 0)]
def checkedSets (a : BitVec 6) (n : BitVec 12) (st : State) (k : State → State) : Res := checkedWith (useSets a n) (wordSets a n) st k
def useCwait (l : BitVec 5) (_s : BitVec 5) (_c : BitVec 5) (_p : BitVec 5) : RegUse := { waits := decide (l ≠ 31) }
def wordCwait (l : BitVec 5) (s : BitVec 5) (c : BitVec 5) (p : BitVec 5) : W32 := word 0xF4300000 [(l.toNat, 15), (s.toNat, 10), (c.toNat, 5), (p.toNat, 0)]
def checkedCwait (l : BitVec 5) (s : BitVec 5) (c : BitVec 5) (p : BitVec 5) (st : State) (k : State → State) : Res := checkedWith (useCwait l s c p) (wordCwait l s c p) st k
def useTrap (_c : BitVec 20) : RegUse := {}
def wordTrap (c : BitVec 20) : W32 := word 0xF4500000 [(c.toNat, 0)]
def checkedTrap (c : BitVec 20) (st : State) (k : State → State) : Res := checkedWith (useTrap c) (wordTrap c) st k
def useBkpt (_c : BitVec 20) : RegUse := {}
def wordBkpt (c : BitVec 20) : W32 := word 0xF4600000 [(c.toNat, 0)]
def checkedBkpt (c : BitVec 20) (st : State) (k : State → State) : Res := checkedWith (useBkpt c) (wordBkpt c) st k
def useLaunch (d : BitVec 6) (a : BitVec 6) : RegUse := { rd := [a.toNat], wr := [d.toNat] }
def wordLaunch (d : BitVec 6) (a : BitVec 6) : W32 := word 0xF5000000 [(d.toNat, 14), (a.toNat, 8)]
def checkedLaunch (d : BitVec 6) (a : BitVec 6) (st : State) (k : State → State) : Res := checkedWith (useLaunch d a) (wordLaunch d a) st k
def useGrow (d : BitVec 6) (a : BitVec 6) (b : BitVec 6) : RegUse := { rd := [a.toNat, b.toNat], wr := [d.toNat] }
def wordGrow (d : BitVec 6) (a : BitVec 6) (b : BitVec 6) : W32 := word 0xF5100000 [(d.toNat, 14), (a.toNat, 8), (b.toNat, 2)]
def checkedGrow (d : BitVec 6) (a : BitVec 6) (b : BitVec 6) (st : State) (k : State → State) : Res := checkedWith (useGrow d a b) (wordGrow d a b) st k
def useEmit (d : BitVec 6) (a : BitVec 6) (b : BitVec 6) : RegUse := { rd := [a.toNat, b.toNat], wr := [d.toNat] }
def wordEmit (d : BitVec 6) (a : BitVec 6) (b : BitVec 6) : W32 := word 0xF5200000 [(d.toNat, 14), (a.toNat, 8), (b.toNat, 2)]
def checkedEmit (d : BitVec 6) (a : BitVec 6) (b : BitVec 6) (st : State) (k : State → State) : Res := checkedWith (useEmit d a b) (wordEmit d a b) st k
def useMbxpop (d : BitVec 6) : RegUse := { wr := [d.toNat, d.toNat + 1, d.toNat + 2, d.toNat + 3], priv := true }
def wordMbxpop (d : BitVec 6) : W32 := word 0xF8000000 [(d.toNat, 14)]
def checkedMbxpop (d : BitVec 6) (st : State) (k : State → State) : Res := checkedWith (useMbxpop d) (wordMbxpop d) st k
def useWresume (a : BitVec 6) : RegUse := { rd := [a.toNat], priv := true }
def wordWresume (a : BitVec 6) : W32 := word 0xF8100000 [(a.toNat, 14)]
def checkedWresume (a : BitVec 6) (st : State) (k : State → State) : Res := checkedWith (useWresume a) (wordWresume a) st k
def useWkill (a : BitVec 6) : RegUse := { rd := [a.toNat], priv := true }
def wordWkill (a : BitVec 6) : W32 := word 0xF8200000 [(a.toNat, 14)]
def checkedWkill (a : BitVec 6) (st : State) (k : State → State) : Res := checkedWith (useWkill a) (wordWkill a) st k
def useGkill (a : BitVec 6) : RegUse := { rd := [a.toNat], priv := true }
def wordGkill (a : BitVec 6) : W32 := word 0xF8300000 [(a.toNat, 14)]
def checkedGkill (a : BitVec 6) (st : State) (k : State → State) : Res := checkedWith (useGkill a) (wordGkill a) st k
def useGpreempt (d : BitVec 6) (a : BitVec 6) : RegUse := { rd := [a.toNat, a.toNat + 1], wr := [d.toNat], priv := true }
def wordGpreempt (d : BitVec 6) (a : BitVec 6) : W32 := word 0xF8400000 [(d.toNat, 14), (a.toNat, 8)]
def checkedGpreempt (d : BitVec 6) (a : BitVec 6) (st : State) (k : State → State) : Res := checkedWith (useGpreempt d a) (wordGpreempt d a) st k
def useDbghalt (a : BitVec 6) : RegUse := { rd := [a.toNat], priv := true }
def wordDbghalt (a : BitVec 6) : W32 := word 0xF8500000 [(a.toNat, 14)]
def checkedDbghalt (a : BitVec 6) (st : State) (k : State → State) : Res := checkedWith (useDbghalt a) (wordDbghalt a) st k
def useDbgrun (a : BitVec 6) : RegUse := { rd := [a.toNat], priv := true }
def wordDbgrun (a : BitVec 6) : W32 := word 0xF8600000 [(a.toNat, 14)]
def checkedDbgrun (a : BitVec 6) (st : State) (k : State → State) : Res := checkedWith (useDbgrun a) (wordDbgrun a) st k

end Sys2Proof.Machine
end

