-- ==== Sys2Proof/Machine/Alu.lean ====
section
/-! DEFINITION. Integer instructions, branches and jumps (04 R99 to R106). -/

namespace Sys2Proof.Machine

inductive AluOp where
  | add | sub | mul | mulh | mulhu | div | divu | rem | remu | and | or | xor | andn | sll | srl | sra | ror
  | min | max | minu | maxu | slt | sltu | seq | sne | clz | ctz | popc | brev
deriving DecidableEq, Repr

/-- Trailing zero bits, counting up to `n` bits. -/
def countTrailing (x : Nat) : Nat → Nat
  | 0 => 0
  | n + 1 => if x % 2 = 1 then 0 else countTrailing (x / 2) n + 1
/-- One bits among `n`. -/
def countOnes (x : Nat) : Nat → Nat
  | 0 => 0
  | n + 1 => x % 2 + countOnes (x / 2) n

/-- The result of an operation on `n`-bit values (04 R99, R100). -/
def aluOp {n : Nat} (op : AluOp) (x y : BitVec n) : BitVec n :=
  let sh := y.toNat % n
  match op with
  | .add => x + y
  | .sub => x - y
  | .mul => x * y
  | .mulh => BitVec.ofInt n (x.toInt * y.toInt / 2 ^ n)
  | .mulhu => BitVec.ofNat n (x.toNat * y.toNat / 2 ^ n)
  | .div => if y = 0 then BitVec.allOnes n else BitVec.sdiv x y
  | .divu => if y = 0 then BitVec.allOnes n else x / y
  | .rem => if y = 0 then x else BitVec.srem x y
  | .remu => if y = 0 then x else x % y
  | .and => x &&& y
  | .or => x ||| y
  | .xor => x ^^^ y
  | .andn => x &&& ~~~y
  | .sll => x <<< sh
  | .srl => x >>> sh
  | .sra => x.sshiftRight sh
  | .ror => x.rotateRight sh
  | .min => if x.toInt ≤ y.toInt then x else y
  | .max => if x.toInt ≤ y.toInt then y else x
  | .minu => if x.toNat ≤ y.toNat then x else y
  | .maxu => if x.toNat ≤ y.toNat then y else x
  | .slt => BitVec.ofNat n (b2n (decide (x.toInt < y.toInt)))
  | .sltu => BitVec.ofNat n (b2n (decide (x.toNat < y.toNat)))
  | .seq => BitVec.ofNat n (b2n (decide (x = y)))
  | .sne => BitVec.ofNat n (b2n (decide (x ≠ y)))
  | .clz => BitVec.ofNat n (if x = 0 then n else n - 1 - x.toNat.log2)
  | .ctz => BitVec.ofNat n (countTrailing x.toNat n)
  | .popc => BitVec.ofNat n (countOnes x.toNat n)
  | .brev => x.reverse

/-- The 64-bit form, or the 32-bit form sign-extended (04 R99). -/
def aluRes (op : AluOp) (w : BitVec 1) (x y : Word) : Word :=
  if w = 1 then (aluOp op (x.setWidth 32) (y.setWidth 32)).signExtend 64 else aluOp op x y

/-- A register-form operation (04 R99). -/
def alu (op : AluOp) (d a b : BitVec 6) (w : BitVec 1) (s : State) : State :=
  (s.setData d.toNat (aluRes op w (s.lo a.toNat) (s.lo b.toNat))).advance

/-- An operation with a second operand from the word (04 R101, R102). -/
def aluImm (op : AluOp) (d a : BitVec 6) (w : BitVec 1) (y : Word) (s : State) : State :=
  (s.setData d.toNat (aluRes op w (s.lo a.toNat) y)).advance

/-- 04 R99. -/
def execAdd (d a b : BitVec 6) (w : BitVec 1) (s : State) : Res := checked (.add d a b w) s (alu .add d a b w)
/-- 04 R99. -/
def execSub (d a b : BitVec 6) (w : BitVec 1) (s : State) : Res := checked (.sub d a b w) s (alu .sub d a b w)
/-- 04 R99. -/
def execMul (d a b : BitVec 6) (w : BitVec 1) (s : State) : Res := checked (.mul d a b w) s (alu .mul d a b w)
/-- 04 R99. -/
def execMulh (d a b : BitVec 6) (w : BitVec 1) (s : State) : Res := checked (.mulh d a b w) s (alu .mulh d a b w)
/-- 04 R99. -/
def execMulhu (d a b : BitVec 6) (w : BitVec 1) (s : State) : Res := checked (.mulhu d a b w) s (alu .mulhu d a b w)
/-- 04 R99, R100. -/
def execDiv (d a b : BitVec 6) (w : BitVec 1) (s : State) : Res := checked (.div d a b w) s (alu .div d a b w)
/-- 04 R99, R100. -/
def execDivu (d a b : BitVec 6) (w : BitVec 1) (s : State) : Res := checked (.divu d a b w) s (alu .divu d a b w)
/-- 04 R99, R100. -/
def execRem (d a b : BitVec 6) (w : BitVec 1) (s : State) : Res := checked (.rem d a b w) s (alu .rem d a b w)
/-- 04 R99, R100. -/
def execRemu (d a b : BitVec 6) (w : BitVec 1) (s : State) : Res := checked (.remu d a b w) s (alu .remu d a b w)
/-- 04 R99. -/
def execAnd (d a b : BitVec 6) (w : BitVec 1) (s : State) : Res := checked (.and d a b w) s (alu .and d a b w)
/-- 04 R99. -/
def execOr (d a b : BitVec 6) (w : BitVec 1) (s : State) : Res := checked (.or d a b w) s (alu .or d a b w)
/-- 04 R99. -/
def execXor (d a b : BitVec 6) (w : BitVec 1) (s : State) : Res := checked (.xor d a b w) s (alu .xor d a b w)
/-- 04 R99. -/
def execAndn (d a b : BitVec 6) (w : BitVec 1) (s : State) : Res := checked (.andn d a b w) s (alu .andn d a b w)
/-- 04 R99. -/
def execSll (d a b : BitVec 6) (w : BitVec 1) (s : State) : Res := checked (.sll d a b w) s (alu .sll d a b w)
/-- 04 R99. -/
def execSrl (d a b : BitVec 6) (w : BitVec 1) (s : State) : Res := checked (.srl d a b w) s (alu .srl d a b w)
/-- 04 R99. -/
def execSra (d a b : BitVec 6) (w : BitVec 1) (s : State) : Res := checked (.sra d a b w) s (alu .sra d a b w)
/-- 04 R99. -/
def execRor (d a b : BitVec 6) (w : BitVec 1) (s : State) : Res := checked (.ror d a b w) s (alu .ror d a b w)
/-- 04 R99. -/
def execMin (d a b : BitVec 6) (w : BitVec 1) (s : State) : Res := checked (.min d a b w) s (alu .min d a b w)
/-- 04 R99. -/
def execMax (d a b : BitVec 6) (w : BitVec 1) (s : State) : Res := checked (.max d a b w) s (alu .max d a b w)
/-- 04 R99. -/
def execMinu (d a b : BitVec 6) (w : BitVec 1) (s : State) : Res := checked (.minu d a b w) s (alu .minu d a b w)
/-- 04 R99. -/
def execMaxu (d a b : BitVec 6) (w : BitVec 1) (s : State) : Res := checked (.maxu d a b w) s (alu .maxu d a b w)
/-- 04 R99. -/
def execSlt (d a b : BitVec 6) (w : BitVec 1) (s : State) : Res := checked (.slt d a b w) s (alu .slt d a b w)
/-- 04 R99. -/
def execSltu (d a b : BitVec 6) (w : BitVec 1) (s : State) : Res := checked (.sltu d a b w) s (alu .sltu d a b w)
/-- 04 R99. -/
def execSeq (d a b : BitVec 6) (w : BitVec 1) (s : State) : Res := checked (.seq d a b w) s (alu .seq d a b w)
/-- 04 R99. -/
def execSne (d a b : BitVec 6) (w : BitVec 1) (s : State) : Res := checked (.sne d a b w) s (alu .sne d a b w)
/-- 04 R99. -/
def execClz (d a : BitVec 6) (w : BitVec 1) (s : State) : Res := checked (.clz d a w) s (alu .clz d a 0 w)
/-- 04 R99. -/
def execCtz (d a : BitVec 6) (w : BitVec 1) (s : State) : Res := checked (.ctz d a w) s (alu .ctz d a 0 w)
/-- 04 R99. -/
def execPopc (d a : BitVec 6) (w : BitVec 1) (s : State) : Res := checked (.popc d a w) s (alu .popc d a 0 w)
/-- 04 R99. -/
def execBrev (d a : BitVec 6) (w : BitVec 1) (s : State) : Res := checked (.brev d a w) s (alu .brev d a 0 w)
/-- 04 R101. -/
def execAddi (d a : BitVec 6) (i : BitVec 14) (s : State) : Res := checked (.addi d a i) s (aluImm .add d a 0 (i.signExtend 64))
/-- 04 R101. -/
def execAndi (d a : BitVec 6) (i : BitVec 14) (s : State) : Res := checked (.andi d a i) s (aluImm .and d a 0 (i.signExtend 64))
/-- 04 R101. -/
def execOri (d a : BitVec 6) (i : BitVec 14) (s : State) : Res := checked (.ori d a i) s (aluImm .or d a 0 (i.signExtend 64))
/-- 04 R101. -/
def execXori (d a : BitVec 6) (i : BitVec 14) (s : State) : Res := checked (.xori d a i) s (aluImm .xor d a 0 (i.signExtend 64))
/-- 04 R101. -/
def execSlti (d a : BitVec 6) (i : BitVec 14) (s : State) : Res := checked (.slti d a i) s (aluImm .slt d a 0 (i.signExtend 64))
/-- 04 R101. -/
def execSltiu (d a : BitVec 6) (i : BitVec 14) (s : State) : Res := checked (.sltiu d a i) s (aluImm .sltu d a 0 (i.signExtend 64))
/-- 04 R102. -/
def execSlli (d a : BitVec 6) (w : BitVec 1) (s : BitVec 6) (t : State) : Res := checked (.slli d a w s) t (aluImm .sll d a w (s.setWidth 64))
/-- 04 R102. -/
def execSrli (d a : BitVec 6) (w : BitVec 1) (s : BitVec 6) (t : State) : Res := checked (.srli d a w s) t (aluImm .srl d a w (s.setWidth 64))
/-- 04 R102. -/
def execSrai (d a : BitVec 6) (w : BitVec 1) (s : BitVec 6) (t : State) : Res := checked (.srai d a w s) t (aluImm .sra d a w (s.setWidth 64))

/-- A 20-bit immediate in bits [33:14] (04 R103). -/
def upper (i : BitVec 20) : Word := i.signExtend 64 <<< 14
/-- 04 R103. -/
def execLui (d : BitVec 6) (i : BitVec 20) (s : State) : Res := checked (.lui d i) s fun s => (s.setData d.toNat (upper i)).advance
/-- 04 R103: untagged data, from the address of the instruction. -/
def execAuipc (d : BitVec 6) (i : BitVec 20) (s : State) : Res :=
  checked (.auipc d i) s fun s => (s.setData d.toNat (BitVec.ofNat 64 s.pc.addr + upper i)).advance

/-! ### Branches and jumps -/

/-- Branch by words if the condition holds (04 R104). -/
def branchIf (c : Bool) (o : BitVec 11) (s : State) : State := if c then s.branch (4 * o.toInt) else s.advance

/-- 02 R48, 04 R104. -/
def execBeq (a b : BitVec 6) (o : BitVec 11) (s : State) : Res := checked (.beq a b o) s fun s => branchIf (decide (s.lo a.toNat = s.lo b.toNat)) o s
/-- 02 R48, 04 R104. -/
def execBne (a b : BitVec 6) (o : BitVec 11) (s : State) : Res := checked (.bne a b o) s fun s => branchIf (decide (s.lo a.toNat ≠ s.lo b.toNat)) o s
/-- 02 R48, 04 R104. -/
def execBlt (a b : BitVec 6) (o : BitVec 11) (s : State) : Res := checked (.blt a b o) s fun s => branchIf (decide ((s.lo a.toNat).toInt < (s.lo b.toNat).toInt)) o s
/-- 02 R48, 04 R104. -/
def execBge (a b : BitVec 6) (o : BitVec 11) (s : State) : Res := checked (.bge a b o) s fun s => branchIf (decide ((s.lo b.toNat).toInt ≤ (s.lo a.toNat).toInt)) o s
/-- 02 R48, 04 R104. -/
def execBltu (a b : BitVec 6) (o : BitVec 11) (s : State) : Res := checked (.bltu a b o) s fun s => branchIf (decide ((s.lo a.toNat).toNat < (s.lo b.toNat).toNat)) o s
/-- 02 R48, 04 R104. -/
def execBgeu (a b : BitVec 6) (o : BitVec 11) (s : State) : Res := checked (.bgeu a b o) s fun s => branchIf (decide ((s.lo b.toNat).toNat ≤ (s.lo a.toNat).toNat)) o s
/-- 02 R48, 04 R104. -/
def execBtag (a : BitVec 6) (o : BitVec 11) (s : State) : Res := checked (.btag a o) s fun s => branchIf (s.reg a.toNat).tag o s
/-- 02 R48, 04 R104. -/
def execBntag (a : BitVec 6) (o : BitVec 11) (s : State) : Res := checked (.bntag a o) s fun s => branchIf (!(s.reg a.toNat).tag) o s

/-- The link: the PC with ADDR + 4, and its tag (01 R34). -/
def link (s : State) : Cap := s.pc.setAddr (s.pc.addr + 4)
/-- 04 R105. -/
def execJal (d : BitVec 6) (i : BitVec 20) (s : State) : Res := checked (.jal d i) s fun s => (s.setReg d.toNat (link s)).branch (4 * i.toInt)
/-- 04 R106: c[a] is read before anything is written. -/
def execJalr (d a : BitVec 6) (s : State) : Res := checked (.jalr d a) s fun s => (s.setReg d.toNat (link s)).setPc (s.reg a.toNat)

end Sys2Proof.Machine
end

