-- ==== Sys2Proof/Machine/Flags.lean ====
section
/-! DEFINITION. Number formats, exact values, rounding and the floating-point flags (chapter 03): every
flag computation of scalar and vector floating point is here. -/

namespace Sys2Proof.Machine

/-! ### Flags (01 R27, 03 R85) -/

def flNV : Nat := 16
def flDZ : Nat := 8
def flOF : Nat := 4
def flUF : Nat := 2
def flNX : Nat := 1

/-- Set flags that an instruction raised; none is ever cleared here (03 R85). -/
def State.raiseFlags (s : State) (fl : Nat) : State := s.modCur fun x => { x with fflags := x.fflags ||| BitVec.ofNat 32 fl }

/-! ### Exact values -/

/-- An exact value: NaN (signalling or quiet), an infinity, or the fraction num / den with its sign. -/
inductive Val where
  | nan (signalling : Bool)
  | inf (neg : Bool)
  | fin (neg : Bool) (num den : Nat)
deriving DecidableEq, Repr

def Val.zero : Val := .fin false 0 1
/-- num × 2^e. -/
def Val.scaled (neg : Bool) (num : Nat) (e : Int) : Val :=
  if 0 ≤ e then .fin neg (num * 2 ^ e.toNat) 1 else .fin neg num (2 ^ (-e).toNat)
def Val.ofInt (i : Int) : Val := .fin (decide (i < 0)) i.natAbs 1
def Val.isNan : Val → Bool
  | .nan _ => true
  | _ => false
def Val.signalling : Val → Bool
  | .nan b => b
  | _ => false
def Val.finite : Val → Bool
  | .fin _ _ _ => true
  | _ => false
def Val.isZero : Val → Bool
  | .fin _ n _ => decide (n = 0)
  | _ => false
def Val.neg : Val → Bool
  | .nan _ => false
  | .inf n => n
  | .fin n _ _ => n
def Val.negate : Val → Val
  | .nan b => .nan b
  | .inf n => .inf (!n)
  | .fin n x d => .fin (!n) x d
/-- The signed numerator. -/
def Val.snum : Val → Int
  | .fin n x _ => if n then -(x : Int) else x
  | _ => 0
def Val.den : Val → Nat
  | .fin _ _ d => d
  | _ => 1

/-- Whether a ≤ b, for values that are no NaN; −0 and +0 are equal. -/
def Val.le : Val → Val → Bool
  | .inf true, _ => true
  | _, .inf false => true
  | .inf false, _ => false
  | _, .inf true => false
  | a, b => decide (a.snum * b.den ≤ b.snum * a.den)

/-! ### Binary formats (03 R73 to R75) -/

/-- A format: exponent and significand widths, bias, whether it has infinities, the magnitude code of its
largest finite value and of its default NaN, and whether FMODE.FTZ may apply (03 R84). -/
structure Fmt where
  ew : Nat
  tw : Nat
  bias : Nat
  hasInf : Bool
  maxBits : Nat
  dnan : Nat
  flush : Bool
deriving DecidableEq, Repr

def fmtFP32 : Fmt := ⟨8, 23, 127, true, 0x7F7F_FFFF, 0x7FC0_0000, true⟩
def fmtFP16 : Fmt := ⟨5, 10, 15, true, 0x7BFF, 0x7E00, true⟩
def fmtBF16 : Fmt := ⟨8, 7, 127, true, 0x7F7F, 0x7FC0, true⟩
def fmtE5M2 : Fmt := ⟨5, 2, 15, true, 0x7B, 0x7E, false⟩
def fmtE4M3 : Fmt := ⟨4, 3, 7, false, 0x7E, 0x7F, false⟩

/-- The value of an exponent field and a trailing significand (03 R74). -/
def fieldValue (neg : Bool) (e t tw bias : Nat) : Val :=
  if e = 0 then .scaled neg t (1 - (bias : Int) - tw) else .scaled neg (2 ^ tw + t) ((e : Int) - bias - tw)

def Fmt.sign (f : Fmt) (x : Nat) : Bool := x.testBit (f.ew + f.tw)
def Fmt.mag (f : Fmt) (x : Nat) : Nat := x % 2 ^ (f.ew + f.tw)
def Fmt.infBits (f : Fmt) : Nat := (2 ^ f.ew - 1) * 2 ^ f.tw
def Fmt.signBits (f : Fmt) (neg : Bool) : Nat := if neg then 2 ^ (f.ew + f.tw) else 0
def Fmt.subnormal (f : Fmt) (x : Nat) : Bool := decide (0 < f.mag x ∧ f.mag x < 2 ^ f.tw)

/-- The value of the bits of a format. -/
def Fmt.decode (f : Fmt) (x : Nat) : Val :=
  let m := f.mag x
  if f.hasInf then
    if m = f.infBits then .inf (f.sign x)
    else if f.infBits < m then .nan (decide (m % 2 ^ f.tw < 2 ^ (f.tw - 1)))
    else fieldValue (f.sign x) (m / 2 ^ f.tw) (m % 2 ^ f.tw) f.tw f.bias
  else if f.maxBits < m then .nan false
  else fieldValue (f.sign x) (m / 2 ^ f.tw) (m % 2 ^ f.tw) f.tw f.bias

/-- The value an instruction reads: with FTZ a subnormal is a zero of its sign (03 R83, R84). -/
def Fmt.read (f : Fmt) (ftz : Bool) (x : Nat) : Val :=
  if ftz && f.flush && f.subnormal x then .fin (f.sign x) 0 1 else f.decode x

/-! ### Rounding (03 R79 to R83) -/

/-- floor(log2(num / den)) for a positive fraction. -/
def floorLog2 (num den : Nat) : Int :=
  let k : Int := (num.log2 : Int) - den.log2
  let below := if 0 ≤ k then decide (num < den * 2 ^ k.toNat) else decide (num * 2 ^ (-k).toNat < den)
  if below then k - 1 else k

/-- The fraction num / den in units of 2^u, rounded to an integer in a mode, with a random value for
stochastic rounding (03 R79, R80); and whether it was inexact. -/
def roundUnits (mode : Nat) (neg : Bool) (rnd num den : Nat) (u : Int) : Nat × Bool :=
  let n := if 0 ≤ u then num else num * 2 ^ (-u).toNat
  let d := if 0 ≤ u then den * 2 ^ u.toNat else den
  let q := n / d
  let r := n % d
  let up := match mode with
    | 0 => decide (d < 2 * r ∨ (2 * r = d ∧ q % 2 = 1))
    | 1 => false
    | 2 => !neg
    | 3 => neg
    | 4 => decide (d ≤ 2 * r)
    | _ => decide (rnd < r * 2 ^ 16 / d)
  if r = 0 then (q, false) else (if up then q + 1 else q, true)

/-- `RoundFmt` (03 R81 to R83): the bits and the flags. `r 0` and `r 1` are the random values of the two
roundings. -/
def roundFmt (f : Fmt) (mode : Nat) (sat ftz : Bool) (r : Nat → Nat) (x : Val) : Nat × Nat :=
  match x with
  | .nan sg => (f.dnan, if sg then flNV else 0)
  | .inf neg =>
    if f.hasInf then (f.signBits neg + f.infBits, 0)
    else if sat then (f.signBits neg + f.maxBits, flNX) else (f.dnan, flNV)
  | .fin neg num den =>
    if num = 0 then (f.signBits neg, 0) else
    let k := floorLog2 num den
    let (q, inexact) := roundUnits mode neg (r 0) num den (k - f.tw)
    let carry := decide (q = 2 ^ (f.tw + 1))
    let k := if carry then k + 1 else k
    let q := if carry then 2 ^ f.tw else q
    let e := k + f.bias
    if 1 ≤ e then
      let bits := e.toNat * 2 ^ f.tw + (q - 2 ^ f.tw)
      if f.maxBits < bits then
        let toInf := match mode with
          | 1 => false
          | 2 => !neg
          | 3 => neg
          | _ => true
        (if !toInf || sat then f.signBits neg + f.maxBits
          else if f.hasInf then f.signBits neg + f.infBits else f.dnan, flOF + flNX)
      else (f.signBits neg + bits, if inexact then flNX else 0)
    else if ftz && f.flush then (f.signBits neg, flUF + flNX)
    else
      let (q, inexact) := roundUnits mode neg (r 1) num den (1 - (f.bias : Int) - f.tw)
      (f.signBits neg + q, if inexact then flUF + flNX else 0)

/-- `RoundFP32(x, RNE)` (03 R95): no random value is drawn. -/
def roundFP32 (x : Val) : Nat := (roundFmt fmtFP32 0 false false (fun _ => 0) x).1

/-! ### Exact arithmetic (04 R114) -/

/-- The sum; an exact zero is +0, and −0 when rounding down. -/
def Val.add (mode : Nat) : Val → Val → Val × Nat
  | .nan a, y => (.nan false, if a || y.signalling then flNV else 0)
  | _, .nan b => (.nan false, if b then flNV else 0)
  | .inf a, .inf b => if a = b then (.inf a, 0) else (.nan false, flNV)
  | .inf a, .fin _ _ _ => (.inf a, 0)
  | .fin _ _ _, .inf b => (.inf b, 0)
  | .fin a n d, .fin b m e =>
    let t : Int := (Val.fin a n d).snum * e + (Val.fin b m e).snum * d
    if t = 0 then (.fin (if n = 0 ∧ m = 0 ∧ a = b then a else decide (mode = 3)) 0 1, 0)
    else (.fin (decide (t < 0)) t.natAbs (d * e), 0)

/-- The product; 0 × Inf is invalid. -/
def Val.mul : Val → Val → Val × Nat
  | .nan a, y => (.nan false, if a || y.signalling then flNV else 0)
  | _, .nan b => (.nan false, if b then flNV else 0)
  | .inf a, y => if y.isZero then (.nan false, flNV) else (.inf (a != y.neg), 0)
  | x, .inf b => if x.isZero then (.nan false, flNV) else (.inf (x.neg != b), 0)
  | .fin a n d, .fin b m e => (.fin (a != b) (n * m) (d * e), 0)

/-- The quotient. -/
def Val.div : Val → Val → Val × Nat
  | .nan a, y => (.nan false, if a || y.signalling then flNV else 0)
  | _, .nan b => (.nan false, if b then flNV else 0)
  | .inf _, .inf _ => (.nan false, flNV)
  | .inf a, .fin b _ _ => (.inf (a != b), 0)
  | .fin a _ _, .inf b => (.fin (a != b) 0 1, 0)
  | .fin a n d, .fin b m e =>
    if m = 0 then (if n = 0 then (.nan false, flNV) else (.inf (a != b), flDZ))
    else (.fin (a != b) (n * e) (d * m), 0)

/-- a × b + c: an invalid product is invalid whatever the addend (04 R114). -/
def Val.fma (mode : Nat) (a b c : Val) : Val × Nat :=
  let (p, f) := Val.mul a b
  if f = flNV ∧ !a.signalling ∧ !b.signalling then (.nan false, flNV)
  else
    let (t, g) := Val.add mode p c
    (t, f ||| g)

/-- The integer square root, bit by bit. -/
def isqrtFrom (n : Nat) : Nat → Nat → Nat
  | 0, r => if (r + 1) * (r + 1) ≤ n then r + 1 else r
  | i + 1, r => isqrtFrom n i (if (r + 2 ^ (i + 1)) * (r + 2 ^ (i + 1)) ≤ n then r + 2 ^ (i + 1) else r)
def isqrt (n : Nat) : Nat := isqrtFrom n (n.log2 / 2 + 1) 0

/-- The square root: exact, or a fraction that every rounding to at most 24 bits, and the 16 fraction
bits of a stochastic one, treats as the root. -/
def Val.sqrt : Val → Val × Nat
  | .nan sg => (.nan false, if sg then flNV else 0)
  | .inf neg => if neg then (.nan false, flNV) else (.inf false, 0)
  | .fin neg n d =>
    if n = 0 then (.fin neg 0 1, 0)
    else if neg then (.nan false, flNV)
    else
      let k := d.log2 + 64
      let t := n * d * 4 ^ k
      let r := isqrt t
      if r * r = t then (.fin false r (d * 2 ^ k), 0) else (.fin false (2 * r + 1) (2 * d * 2 ^ k), 0)

/-! ### Operations on bits -/

/-- The operands read, an exact operation, one rounding; the bits and the flags (04 R114). -/
def fpOut (f : Fmt) (mode : Nat) (ftz : Bool) (r : Nat → Nat) (v : Val × Nat) : Nat × Nat :=
  let (b, fl) := roundFmt f mode false ftz r v.1
  (b, fl ||| v.2)

def fpAdd (f : Fmt) (mode : Nat) (ftz : Bool) (r : Nat → Nat) (a b : Nat) : Nat × Nat :=
  fpOut f mode ftz r (Val.add mode (f.read ftz a) (f.read ftz b))
def fpSub (f : Fmt) (mode : Nat) (ftz : Bool) (r : Nat → Nat) (a b : Nat) : Nat × Nat :=
  fpOut f mode ftz r (Val.add mode (f.read ftz a) (f.read ftz b).negate)
def fpMul (f : Fmt) (mode : Nat) (ftz : Bool) (r : Nat → Nat) (a b : Nat) : Nat × Nat :=
  fpOut f mode ftz r (Val.mul (f.read ftz a) (f.read ftz b))
def fpDiv (f : Fmt) (mode : Nat) (ftz : Bool) (r : Nat → Nat) (a b : Nat) : Nat × Nat :=
  fpOut f mode ftz r (Val.div (f.read ftz a) (f.read ftz b))
def fpFma (f : Fmt) (mode : Nat) (ftz : Bool) (r : Nat → Nat) (a b c : Nat) : Nat × Nat :=
  fpOut f mode ftz r (Val.fma mode (f.read ftz a) (f.read ftz b) (f.read ftz c))
def fpSqrt (f : Fmt) (mode : Nat) (ftz : Bool) (r : Nat → Nat) (a : Nat) : Nat × Nat :=
  fpOut f mode ftz r (Val.sqrt (f.read ftz a))

/-- `RoundFP32(a + b, RNE)` on bits, subnormals kept (09 R227, 13, 14). -/
def addFP32 (a b : Nat) : Nat := roundFP32 (Val.add 0 (fmtFP32.decode a) (fmtFP32.decode b)).1
/-- `RoundFmt(a + b, BF16, RNE, 0, 0)` on bits (09 R232). -/
def addBF16 (a b : Nat) : Nat := (roundFmt fmtBF16 0 false false (fun _ => 0) (Val.add 0 (fmtBF16.decode a) (fmtBF16.decode b)).1).1

/-- Ordering with −0 below +0, for values that are no NaN (04 R115). -/
def totalLe (a b : Val) : Bool :=
  if a.isZero && b.isZero then a.neg || !b.neg else Val.le a b

/-- FMIN and FMAX (04 R115). -/
def fpMinMax (f : Fmt) (ftz : Bool) (wantMax : Bool) (a b : Nat) : Nat × Nat :=
  let x := f.read ftz a
  let y := f.read ftz b
  let bits (v : Val) (o : Nat) := if v.isZero then f.signBits v.neg else o
  let fl := if x.signalling || y.signalling then flNV else 0
  if x.isNan && y.isNan then (f.dnan, fl)
  else if x.isNan then (bits y b, fl)
  else if y.isNan then (bits x a, fl)
  else if (totalLe x y) != wantMax then (bits x a, fl) else (bits y b, fl)

/-- FCMP by predicate: .EQ, .NE, .LT, .LE, .GT, .GE, .UN (02 R50, 04 R116). -/
def fpCmp (f : Fmt) (ftz : Bool) (p a b : Nat) : Bool × Nat :=
  let x := f.read ftz a
  let y := f.read ftz b
  let un := x.isNan || y.isNan
  let le := Val.le x y
  let ge := Val.le y x
  let res := match p with
    | 0 => !un && le && ge
    | 1 => un || !(le && ge)
    | 2 => !un && le && !ge
    | 3 => !un && le
    | 4 => !un && ge && !le
    | 5 => !un && ge
    | _ => un
  let quiet := decide (p = 0 ∨ p = 1 ∨ p = 6)
  (res, if (if quiet then x.signalling || y.signalling else un) then flNV else 0)

/-- FCLASS: the bit number of the class (04 R117). -/
def fpClass (f : Fmt) (a : Nat) : Nat :=
  let neg := f.sign a
  match f.decode a with
  | .nan sg => if sg then 8 else 9
  | .inf _ => if neg then 0 else 7
  | .fin _ n _ =>
    if n = 0 then (if neg then 3 else 4)
    else if f.subnormal a then (if neg then 2 else 5)
    else if neg then 1 else 6

/-- FSGN: .J, .JN, .JX (04 R118). -/
def fpSgn (p a b : Nat) : Nat × Nat :=
  let f := fmtFP32
  match f.decode a with
  | .nan sg => (f.dnan, if sg then flNV else 0)
  | _ =>
    let s := match p with
      | 0 => f.sign b
      | 1 => !f.sign b
      | _ => f.sign a != f.sign b
    (f.mag a + f.signBits s, 0)

/-- FP32 to an integer of `n` bits, signed or not (03 R87): its bits and the flags. -/
def fpToInt (n : Nat) (isSigned : Bool) (mode : Nat) (r : Nat → Nat) (x : Val) : Nat × Nat :=
  let lo : Int := if isSigned then -(2 ^ (n - 1) : Nat) else 0
  let hi : Int := if isSigned then (2 ^ (n - 1) : Nat) - 1 else (2 ^ n : Nat) - 1
  let out (i : Int) := (i % (2 ^ n : Nat)).toNat
  match x with
  | .nan _ => (0, flNV)
  | .inf neg => (out (if neg then lo else hi), flNV)
  | .fin neg num den =>
    let (q, inexact) := roundUnits mode neg (r 0) num den 0
    let i : Int := if neg then -(q : Int) else q
    if i < lo then (out lo, flNV) else if hi < i then (out hi, flNV) else (out i, if inexact then flNX else 0)

/-- A conversion between floating formats (03 R82, R86). -/
def fpConvert (src dst : Fmt) (mode : Nat) (sat ftz : Bool) (r : Nat → Nat) (a : Nat) : Nat × Nat :=
  roundFmt dst mode sat ftz r (src.read ftz a)

/-! ### The other formats (03 R72, R76, R77): every code of R71 -/

/-- The value of a P3109 binary8 byte, signed (03 R76). -/
def p3109Signed (p : Nat) (hasInf : Bool) (x : Nat) : Val :=
  let m := x % 128
  let neg := decide (128 ≤ x)
  if x = 0 then .zero else if x = 0x80 then .nan false
  else if hasInf && decide (m = 127) then .inf neg
  else if p = 1 then .scaled neg 1 ((m : Int) - 64)
  else fieldValue neg (m / 2 ^ (p - 1)) (m % 2 ^ (p - 1)) (p - 1) (2 ^ (7 - p))

/-- The value of a P3109 binary8 byte, unsigned (03 R77). -/
def p3109Unsigned (p : Nat) (hasInf : Bool) (x : Nat) : Val :=
  if x = 0 then .zero else if x = 0xFF then .nan false
  else if hasInf && decide (x = 0xFE) then .inf false
  else if p = 1 then .scaled false 1 ((x : Int) - 128)
  else fieldValue false (x / 2 ^ (p - 1)) (x % 2 ^ (p - 1)) (p - 1) (2 ^ (8 - p))

/-- `Decode(f, bits)` for every format code that has values (03 R71, R95). -/
def decodeFmt (f x : Nat) : Val :=
  if f = 1 then fmtFP32.decode x
  else if f = 2 then fmtBF16.decode x
  else if f = 3 then fmtFP16.decode x
  else if f = 4 then fmtE4M3.decode x
  else if f = 5 then fmtE5M2.decode x
  else if f = 6 then .ofInt (signed 8 x)
  else if f = 7 then .ofInt (signed 4 x)
  else if f ≤ 0x0E then p3109Signed (f - 0x07) true x
  else if f ≤ 0x15 then p3109Signed (f - 0x0E) false x
  else if f ≤ 0x1C then p3109Unsigned (f - 0x15) true x
  else p3109Unsigned (f - 0x1C) false x

/-- Element size in bits (03 R71). -/
def elemBits (f : Nat) : Nat := if f = 1 then 32 else if f = 2 ∨ f = 3 then 16 else if f = 7 then 4 else 8

/-! ### Plane layout (03 R88 to R90) -/

/-- The magnitude of each mantissa: x / 2^u rounded, with its sign. -/
def planeMantissa (mode : Nat) (rnd : Nat) (u : Int) (v : Val) : Int :=
  match v with
  | .fin neg n d =>
    let q := (roundUnits mode neg rnd n d u).1
    if neg then -(q : Int) else q
  | _ => 0

/-- A mantissa above the greatest is written as the greatest, whatever the saturation bit says (03 R90 item 4). -/
def planeClamp (w : Nat) (m : Int) : Int := min m (2 ^ (w - 1) - 1)

/-- One block of 64 elements in `w` planes (03 R90): its 8 + 8w bytes. -/
def planeBlock (w mode : Nat) (r : Nat → Nat) (vals : List Val) : List Byte :=
  let zero := List.replicate (7 + 8 * w) (0 : Byte)
  if vals.any (!·.finite) then (0xFF : Byte) :: zero
  else
    let lead := (vals.filter (!·.isZero)).map fun v => floorLog2 v.snum.natAbs v.den
    match lead with
    | [] => 0 :: zero
    | e :: t =>
      let top := t.foldl max e
      let sc : Nat := (max 1 (min 254 (top + 127))).toNat
      let u : Int := (sc : Int) - 127 - ((w : Int) - 2)
      let ms := (vals.zipIdx).map fun v => planeMantissa mode (r v.2) u v.1
      if ms.all (· = 0) then 0 :: zero
      else
        let word (b : Nat) : Nat := (ms.zipIdx).foldl (fun (a : Nat) (m : Int × Nat) => a + (planeClamp w m.1 % ((2 ^ w : Nat) : Int)).toNat / 2 ^ b % 2 * 2 ^ m.2) 0
        BitVec.ofNat 8 sc :: List.replicate 7 0 ++ (List.range w).flatMap fun b => bytesOf 8 (word b)

/-- The mantissas of a plane block: element e from bit e of each plane (03 R88, R89). -/
def planeMantissas (w : Nat) (blk : List Byte) : List Int :=
  let planes := (List.range w).map fun b => ofBytes ((blk.drop (8 + 8 * b)).take 8)
  (List.range 64).map fun e => signed w ((planes.zipIdx).foldl (fun a p => a + p.1 / 2 ^ e % 2 * 2 ^ p.2) 0)

/-- The 64 values of a plane block; none when it is non-finite (03 R89). -/
def planeValues (w : Nat) (blk : List Byte) : List Val :=
  let sc := (blk.headD 0).toNat
  if sc = 0xFF then List.replicate 64 (.nan false)
  else if sc = 0 then List.replicate 64 .zero
  else (planeMantissas w blk).map fun m => .scaled (decide (m < 0)) m.natAbs ((sc : Int) - 127 - ((w : Int) - 2))

/-! ### Stochastic rounding's random source (03 R80; log 10) -/

/-- The k-th random value of this step. -/
def State.rand (s : State) (k : Nat) : Nat := (Config.random16 (s.rnd + k)).toNat
/-- `n` random values were drawn, when the mode draws them. -/
def State.drew (s : State) (mode n : Nat) : State := if mode = 5 then { s with rnd := s.rnd + n } else s

/-- FMODE of the wave that moves. -/
def State.ftz (s : State) : Bool := bit s.curWave.fmode 3
def State.rm (s : State) : Nat := fld s.curWave.fmode 0 3
/-- The rounding mode of a mode field: 0b111 takes FMODE.RM (02 R50). -/
def State.mode (s : State) (m : Nat) : Nat := if m = 7 then s.rm else m

end Sys2Proof.Machine
end

