-- ==== Sys2Proof/Machine/Home.lean ====
section
/-! DEFINITION. What happens at the home of memory: lines of a slice and Z pages (08 R204 to R207),
writes with their GWCT (R210), atomics (09 R227 to R232) and deque operations (R234). -/

namespace Sys2Proof.Machine

/-! ### Z pages -/

/-- Remember a Z page that an access found, where its entry places it now (08 R206). -/
def noteLeaf (s : State) (p : Place) : State := match p.leaf with
  | some l =>
    let z : ZPage := ⟨l.pa / l.size * l.size, l.size, l.entry⟩
    if pteZ l.pte && !s.zpages.contains z then { s with zpages := z :: s.zpages.filter fun y => y.entry ≠ l.entry } else s
  | none => s

/-! ### Writes (08 R194, R204, R210) -/

/-- The completion time that an acknowledgement carries. -/
def gwctOf (s : State) (k : Nat) : Nat :=
  let t := leaseNow s (homeDie k)
  if isHbm k then Nat.max t (Nat.max (Tbl.get 0 s.lx (lineOf k)) (s.slice (paHome k)).sx) else t

/-- Who writes: an agent's number and grid, its stream, whether it is an engine or the host, whose writes are
acknowledged before it passes anything on (10 R273), and the releases whose values the write stands for. -/
structure Writer where
  uid : Nat := 0
  grid : Nat := 0
  sid : Nat := 0
  engine : Bool := true
  rels : List Rel := []
deriving DecidableEq, Repr

/-- Keep a line as it was before a write, for cores that have not executed INVI since (01 R38; log 14). -/
def keepOld (s : State) (k : Nat) : State :=
  let line := lineOf k
  let os := Tbl.get [] s.olds line
  let host := (Tbl.get [] s.hosted line).headD 0
  if isScratch k || os.any (fun o => decide (s.invis ≤ o.invis ∧ host ≤ o.no)) then s
  else { s with olds := Tbl.set s.olds line (⟨s.invis, s.seq, memBytes s (line * 128) 128⟩ :: os) }

/-- A deque operation on its way to its descriptor. -/
def Req.dequeAt (r : Req) : Option Nat := match r.kind with
  | .deque _ key _ _ => some key
  | _ => none
/-- An 8-byte word becomes undefined. -/
def freeWordAt (s : State) (k : Nat) : State :=
  let (w, s) := drawWord s
  { s with mem := writeBytes s.mem k (bytesOf 8 w.toNat) }
/-- Bytes have been written by other means than a deque operation: entries of a deque that they touch become undefined,
and so do BOT and TOP of a descriptor that an operation is on its way to (09 R233, R234; log 9). -/
def misuse (s : State) (k n : Nat) : State :=
  let hit (a len : Nat) : Bool := decide (a < k + n ∧ k < a + len)
  let on := ((s.net.reqs.filterMap Req.dequeAt).filter (hit · 32)).foldl (fun a d => if a.contains d then a else a ++ [d]) []
  (on.map (· + 8) ++ (s.ringed.filter fun e => hit (e * 8) 8).map (8 * ·)).foldl freeWordAt s

/-- Remember the write of `n` bytes of one line for 01 R37; of a gathered one, by which core (log 12). -/
def noteWrite (s : State) (k n : Nat) (by_ : Writer) (gath : Option Nat := none) : State :=
  if isScratch k then s
  else
    let s := s.stamp
    let r : Wrote := { off := k % 128, len := n, no := s.seq, uid := by_.uid, sid := by_.sid, grid := by_.grid, gath := gath,
                       pub := if by_.engine then some s.seq else none }
    let old := (Tbl.get [] s.wrote (lineOf k)).filter fun e =>
      !(decide (e.uid = r.uid ∧ e.sid = r.sid ∧ e.gath = r.gath) && decide (r.off ≤ e.off ∧ e.off + e.len ≤ r.off + r.len))
    { s with wrote := Tbl.set s.wrote (lineOf k) (r :: old) }

/-- The value of a release stands at its location until other bytes are written there (10 R257). -/
def Rel.meets (r : Rel) (k n : Nat) : Bool := decide (r.key < k + n ∧ k < r.key + 8)
/-- Writes of bytes take the releases that stood there away, and put theirs in their place. -/
def putRels (fs : List Rel) (k n : Nat) (new : List Rel) : List Rel :=
  (new.filter (·.meets k n)) ++ fs.filter fun r => !r.meets k n

/-- Bytes within one line take effect at their home; a new tag if one is given (01 R20, 08 R205). -/
def plainWrite (s : State) (by_ : Writer) (q : Nat) (k : Nat) (bs : List Byte) (tag : Option Bool) : State × Nat :=
  let s := keepOld s k
  let s := accessLine s (lineOf k) (q != 2) true
  let s := poke s k bs
  let s := match tag with
    | some t => { s with tags := Tbl.put false s.tags (k / 16) t }
    | none => s
  let s := if q = 3 ∧ isHbm k then
      s.modSlice (paHome k) fun c => { c with marked := lineOf k :: c.marked.filter (· ≠ lineOf k) } else s
  (noteWrite { s with flags := putRels s.flags k bs.length by_.rels } k bs.length by_, gwctOf s k)
/-- The same for every agent but a deque's home. -/
def homeWrite (s : State) (by_ : Writer) (q : Nat) (k : Nat) (bs : List Byte) (tag : Option Bool) : State × Nat :=
  let (s, g) := plainWrite s by_ q k bs tag
  (misuse s k bs.length, g)

/-- A line becomes zero: zero-flagged in package HBM, written elsewhere (09 R249). -/
def homeZero (s : State) (by_ : Writer) (line : Nat) : State × Nat :=
  let k := line * 128
  let s := zeroRange (keepOld s k) k 128
  let s := { s with badLines := s.badLines.filter (· ≠ line), flags := putRels s.flags k 128 [] }
  let s := if isHbm k then
      touchLine { s.modSlice (paHome k) fun c => { c with dirty := c.dirty.filter (· ≠ line) } with zeroed := Tbl.set s.zeroed line true }
        (paHome k) line
    else s
  (misuse (noteWrite s k 128 by_) k 128, gwctOf s k)

/-! ### Atomics (09 R227, R229, R231, R232) -/

/-- The new value of `n` bits (09 R227); BFADD2 adds each half, or one half by itself (R232). -/
def atomNew (op : AtomOp) (n old x : Nat) : Nat :=
  let lt (a b : Nat) : Bool := decide (signed n a < signed n b)
  match op with
  | .add => (old + x) % 2 ^ n
  | .min => if lt x old then x else old
  | .max => if lt old x then x else old
  | .minu => Nat.min old x
  | .maxu => Nat.max old x
  | .and => old &&& x
  | .or => old ||| x
  | .xor => old ^^^ x
  | .swap => x
  | .cas => x
  | .fadd => addFP32 old x
  | .bfadd2 => if n = 16 then addBF16 old x else addBF16 (old % 2 ^ 16) (x % 2 ^ 16) + addBF16 (old / 2 ^ 16) (x / 2 ^ 16) * 2 ^ 16

/-- Apply one lane at its location: the old value; a failed ACAS writes nothing (09 R229). -/
def atomOne (s : State) (by_ : Writer) (n : Nat) (op : AtomOp) (l : AtomLane) : State × Nat × Option Nat :=
  let s := accessLine s (lineOf l.key) true false
  let old := readNat s.mem l.key n
  if op = .cas ∧ old ≠ l.cmp then (s, old, none)
  else
    let (s, g) := homeWrite s by_ 1 l.key (bytesOf n (atomNew op (8 * n) old l.x)) none
    (s, old, some g)

/-- A floating sum is folded first (09 R231, R232): its operation. -/
def foldsFirst (op : AtomOp) : Bool := decide (op = .fadd ∨ op = .bfadd2)

/-- The values that the lanes of one folded set receive, from the old value and the running fold p. -/
def foldOlds (op : AtomOp) (n old : Nat) : Nat → List Nat → List Nat
  | _, [] => []
  | p, x :: t => atomNew op n old p :: foldOlds op n old (atomNew op n p x) t

/-- Lanes in ascending order with one location: one indivisible read-modify-write (09 R231). The old value
of each lane in order, and the GWCT if something was written. -/
def atomSet (s : State) (by_ : Writer) (n : Nat) (op : AtomOp) : List AtomLane → State × List Nat × Option Nat
  | [] => (s, [], none)
  | l :: t =>
    if foldsFirst op then
      let s := accessLine s (lineOf l.key) true false
      let old := readNat s.mem l.key n
      let p := t.foldl (fun p y => atomNew op (8 * n) p y.x) l.x
      let (s, g) := homeWrite s by_ 1 l.key (bytesOf n (atomNew op (8 * n) old p)) none
      (s, old :: foldOlds op (8 * n) old l.x (t.map (·.x)), some g)
    else
      let (s, old, g) := atomOne s by_ n op l
      let (s, olds, g') := atomSet s by_ n op t
      (s, old :: olds, match g, g' with
        | some a, some b => some (Nat.max a b)
        | some a, none => some a
        | none, b => b)

/-- The distinct effective addresses of lanes, in order of their first lane (09 R231). -/
def laneKeys (ls : List AtomLane) : List Nat := (ls.map (·.ea)).foldl (fun a k => if a.contains k then a else a ++ [k]) []

/-- The lanes of a vector atomic: the sets of equal ea one after another; (lane, old) pairs. -/
def atomLanes (s : State) (by_ : Writer) (n : Nat) (op : AtomOp) (ls : List AtomLane) : State × List (Nat × Nat) × Option Nat :=
  (laneKeys ls).foldl (fun (a : State × List (Nat × Nat) × Option Nat) k =>
    let set := ls.filter fun l => l.ea = k
    let (s, olds, g) := atomSet a.1 by_ n op set
    (s, a.2.1 ++ (set.map (·.lane)).zip olds, match a.2.2, g with
      | some x, some y => some (Nat.max x y)
      | some x, none => some x
      | none, y => y)) (s, [], none)

/-! ### Deques (09 R233, R234) -/

/-- The ring entry's place: an absolute address, under the grid's ASID, from the descriptor's home. -/
def dequeEntry (s : State) (home asid ring capLg k : Nat) (write : Bool) : Option Place × State :=
  let ea := ring + 8 * (k % 2 ^ capLg)
  let w := ea / 2 ^ 48 % 128
  if 0x7E ≤ w ∨ 2 ^ 55 ≤ ea then (none, s)
  else
    let (p, s) := window s home asid ea (if write then .store else .load)
    match p with
    | some p => if homeBad s p.key then (none, s) else (some p, s)
    | none => (none, s)

/-- A deque operation at the descriptor's home: 0 push, 1 pop, 2 steal; the result word and the GWCT. -/
def dequeOp (s : State) (by_ : Writer) (asid key op : Nat) (x : Word) : State × Word × Nat :=
  let s := accessLine s (lineOf key) true false
  let dq0 := memWord s key
  let dq1 := memWord s (key + 8)
  let dq2 := memWord s (key + 16)
  let dq3 := memWord s (key + 24)
  let ring := fld dq0 0 55
  let bot := fld dq1 32 32
  let top := fld dq1 0 32
  let lg := fld dq2 0 8
  let st (c v : Nat) : Word := BitVec.ofNat 64 (c * 2 ^ 56 + v)
  let finish (s : State) (c v bot top g : Nat) : State × Word × Nat :=
    let (s, g') := plainWrite s by_ 1 key (bytesOf 8 dq0.toNat ++ bytesOf 4 top ++ bytesOf 4 bot) none
    (s, st c v, Nat.max g g')
  if fld dq0 55 9 ≠ 0 ∨ fld dq2 8 56 ≠ 0 ∨ dq3 ≠ 0 ∨ lg = 0 ∨ 24 < lg ∨ ring % 8 ≠ 0 then finish s 3 0 bot top 0
  else
    let n := (bot + 2 ^ 32 - top) % 2 ^ 32
    let at_ := if op = 0 then bot else if op = 1 then (bot + 2 ^ 32 - 1) % 2 ^ 32 else top
    if op = 0 ∧ n = 2 ^ lg then finish s 2 0 bot top 0
    else if op ≠ 0 ∧ n = 0 then finish s 1 0 bot top 0
    else
      match dequeEntry s (keyHome key) asid ring lg at_ (op = 0) with
      | (none, s) => finish s 4 0 bot top 0
      | (some p, s) =>
        let s := noteLeaf s p
        if op = 0 then
          let (s, g) := plainWrite s by_ 1 p.key (bytesOf 8 (fld x 0 56)) none
          let s := { s with ringed := p.key / 8 :: s.ringed.filter (· ≠ p.key / 8) }
          finish s 0 bot ((bot + 1) % 2 ^ 32) top g
        else
          let s := accessLine s (lineOf p.key) true false
          let v := fld (memWord s p.key) 0 56
          let s := { s with ringed := s.ringed.filter (· ≠ p.key / 8) }
          if op = 1 then finish s 0 v at_ top 0 else finish s 0 v bot ((top + 1) % 2 ^ 32) 0

end Sys2Proof.Machine
end

