-- ==== Sys2Proof/Machine/Path.lean ====
section
/-! DEFINITION. The paths of memory accesses: the store gather buffer and the promotion log (08 R199 to
R201, 10 R263 to R265), the L1 and replicas (08 R197, R209), requests, their service at the home, and
what their replies and acknowledgements do (08 R219, 10 R251). -/

namespace Sys2Proof.Machine

/-! ### Acknowledgements (09 R243, R245) -/

/-- The acknowledgement of a direct write of a wave of a grid: MG, CGW and the error bits; `err` 0 none, 1 dead link, 2 refused. -/
def ackStore (s : State) (w grid sid gwct err : Nat) : State :=
  let s := s.modOwner w fun x =>
    if err = 0 then { x with mg := Tbl.set x.mg sid (Nat.max (Tbl.get 0 x.mg sid) gwct) }
    else if err = 1 then { x with lk := x.lk ||| BitVec.ofNat 16 (2 ^ sid) }
    else { x with rf := x.rf ||| BitVec.ofNat 16 (2 ^ sid) }
  if err = 0 then
    (s.modCore (waveCore w) fun c => { c with cgw := Nat.max c.cgw gwct }).modGrid grid fun g => { g with gw := Nat.max g.gw gwct }
  else s

/-! ### The store gather buffer -/

/-- Sequence values are 32 bits wide and compared within a window of 2^31 (10 R263). -/
def seqNext (g : Nat) : Nat := (g + 1) % 2 ^ 32
def seqLe (a b : Nat) : Bool := decide ((b + 2 ^ 32 - a) % 2 ^ 32 < 2 ^ 31)

/-- A coverage point covers an SGB entry (10 R263). -/
def Sgb.coveredBy (e : Sgb) (p : Nat) : Bool := seqLe e.fgs p

/-- Log entries retire in order once no entry they cover is left (10 R264). -/
def retireLog (c : Core) : Core := { c with log := c.log.dropWhile fun p => !c.sgb.any (·.coveredBy p) }

/-- The acknowledgement of a drain: the entry is freed, MGG or the error bits of its writers are set, and the
promotion log retires (08 R200, 09 R243, R245, 10 R264). -/
def ackDrain (s : State) (c : Nat) (e : Sgb) (gwct err : Nat) : State :=
  let s := e.writers.foldl (fun s n => s.modWave (c * 32 + n) fun x =>
    if err = 0 then { x with mgg := Nat.max x.mgg gwct } else if err = 1 then { x with gl := true } else { x with gr := true }) s
  let s := e.grids.foldl (fun s h => s.modGrid h fun g => { g with gw := Nat.max g.gw (if err = 0 then gwct else 0) }) s
  s.modCore c fun x => retireLog { x with
    sgb := x.sgb.filter fun y => y.fgs ≠ e.fgs
    cgw := if err = 0 then Nat.max x.cgw gwct else x.cgw }

/-- The valid bytes of an entry of core `by_` take effect at the line's home as one direct write, with its tags;
what they are of gathered stores not yet published was written now (01 R37, log 12). -/
def homeDrain (s : State) (e : Sgb) (by_ : Nat) : State × Nat :=
  let k := e.line * 128
  let s := accessLine (keepOld s k) e.line true true
  let s := { s with mem := e.data.foldl (fun m (b : Nat × Byte) => writeByte m (k + b.1) b.2) s.mem }
  let s := { s with badLines := s.badLines.filter (· ≠ e.line) }
  let s := { s with tags := e.tags.foldl (fun t (b : Nat × Bool) => Tbl.put false t (k / 16 + b.1) b.2) s.tags }
  let s := { s.stamp with flags := (s.flags.filter fun (r : Rel) => !e.data.any fun b => r.meets (k + b.1) 1) ++ e.rels }
  let mine (r : Wrote) : Bool := decide (r.gath = some by_) && r.pub.isNone
  let s := { s with wrote := Tbl.set s.wrote e.line ((Tbl.get [] s.wrote e.line).map fun r => if mine r then { r with no := s.seq } else r) }
  (e.data.foldl (fun s (b : Nat × Byte) => misuse s (k + b.1) 1) s, gwctOf s k)

/-- The home refuses the write of an entry: it is lost, or its line holds an error and the entry does not replace
all of it (18 R403, log 46). -/
def Sgb.refused (e : Sgb) (s : State) : Bool :=
  homeLost s (e.line * 128) || (homeBad s (e.line * 128) && decide (e.data.length < 128))

/-- Close an entry and send it, unless an older entry of its line is still unacknowledged (08 R200). -/
def drainEntry (s : State) (c fgs : Nat) : State :=
  match (s.core c).sgb.find? fun e => e.fgs = fgs with
  | none => s
  | some e =>
    let older := (s.core c).sgb.any fun y => decide (y.line = e.line ∧ y.fgs ≠ e.fgs) && seqLe y.fgs e.fgs
    let s := s.modCore c fun x => { x with
      sgb := x.sgb.map fun y => if y.fgs = fgs then { y with closed := true, sent := y.sent || !older } else y }
    if older || e.sent then s
    else s.modNet fun n => { n with reqs := n.reqs ++ [{ wave := c * 32, sid := 16, q := 1, kind := .drain c fgs }] }

/-- Drain every entry of a core for which `p` holds, in the order of their allocation. -/
def drainWhere (s : State) (c : Nat) (p : Sgb → Bool) : State :=
  ((s.core c).sgb.filter p).foldl (fun s e => drainEntry s c e.fgs) s

/-- Entries whose writer mask holds the wave (09 R244). -/
def holdsWave (w : Nat) (e : Sgb) : Bool := e.writers.contains (waveSlot w)

/-- A gathered store to a line finds its open entry or a free one (08 R199). -/
def sgbRoom (c : Core) (line : Nat) : Bool := decide (c.sgb.length < 64) || c.sgb.any fun e => decide (e.line = line) && !e.closed
/-- The entry that is still open and was allocated earliest is closed and drains (08 R200). -/
def drainOldest (s : State) (c : Nat) : State :=
  match (s.core c).sgb.find? fun e => !e.closed with
  | some e => drainEntry s c e.fgs
  | none => s

/-- The bytes of a store written into an entry (08 R199, 10 R263). -/
def Sgb.put (e : Sgb) (q : Queued) (gs now : Nat) : Sgb :=
  let off := q.key % 128
  { e with
    data := (q.bytes.zipIdx).foldl (fun t b => Tbl.set t (off + b.2) b.1) e.data
    gs := (q.bytes.zipIdx).foldl (fun t b => Tbl.set t (off + b.2) gs) e.gs
    tags := Tbl.set e.tags (off / 16) q.tag
    writers := if 2 ^ 40 ≤ q.wave || e.writers.contains (waveSlot q.wave) then e.writers else waveSlot q.wave :: e.writers
    grids := if e.grids.contains q.grid then e.grids else q.grid :: e.grids
    rels := putRels e.rels q.key q.bytes.length q.rels
    last := now }

/-- A gathered store enters the SGB of the wave's core, and an entry that must drain does (08 R199, R200). DESIGN CHOICE
(log 42): while closed entries keep more than 48 in use, each gathered store closes one further entry. -/
def gatherStore (s : State) (q : Queued) : State :=
  let c := waveCore q.wave
  let line := lineOf q.key
  let gs := seqNext (s.core c).gs
  let fill (e : Sgb) : Sgb := e.put q gs s.cyc
  let old := (s.core c).sgb.find? fun e => e.line = line ∧ !e.closed
  let s := noteWrite (s.modCore c fun x => { x with
    gs := gs
    sgb := match old with
      | some o => x.sgb.map fun e => if e.fgs = o.fgs then fill e else e
      | none => x.sgb ++ [fill { line := line, fgs := gs }] }) q.key q.bytes.length { uid := q.uid, grid := q.grid, sid := q.sid, engine := false } (some c)
  let s := drainWhere s c fun e => e.line = line && !e.closed && decide (e.data.length = 128)
  if 48 < (s.core c).sgb.length then drainOldest s c else s

/-- The store queue passes stores on, in order, while the SGB takes them (08 R199); `n` bounds their number. -/
def passQueue (s : State) (c : Nat) : Nat → State
  | 0 => s
  | n + 1 => match (s.core c).squeue with
    | [] => s
    | q :: t =>
      if sgbRoom (s.core c) (lineOf q.key) then
        passQueue (gatherStore (s.modCore c fun x => { x with squeue := t }) q) c n
      else s

/-- Stores of this instruction wait in the queue. -/
def inQueue (s : State) (w id : Nat) : Bool := (s.core (waveCore w)).squeue.any fun q => decide (q.wave = w ∧ q.id = id)
/-- The instructions with stores in a queue. -/
def queueIds (qs : List Queued) : List (Nat × Nat) :=
  (qs.map fun q => (q.wave, q.id)).foldl (fun a p => if a.contains p then a else a ++ [p]) []

/-- Some of what an instruction stores is still in the queue, or sent and not acknowledged. -/
def moreStores (s : State) (w id : Nat) : Bool :=
  inQueue s w id || s.net.reqs.any (fun r => decide (r.wave = w ∧ r.id = id ∧ r.sid < 16))
    || s.net.acks.any fun a => decide (a.wave = w ∧ a.id = id)

/-- The queue passes on what it can; a store leaves the wave's counter with the last of its bytes (08 R199). The
instructions that had stores in it are given. -/
def runQueue (s : State) (c : Nat) (was : List (Nat × Nat)) : State :=
  let s := passQueue s c (s.core c).squeue.length
  (was.filter fun p => !moreStores s p.1 p.2).foldl (fun s p => s.modOwner p.1 fun x => { x with stores := x.stores - 1 }) s

/-- The held bytes that a load sees in place of those below, oldest first: the SGB, but for entries whose write
has taken effect at its home, and then the store queue (08 R201, 10 R259; log 13). -/
def Core.held (c : Core) : List Sgb := c.sgb.filter fun e => e.served.isNone
/-- A byte held in the SGB or the store queue of a core, the youngest store winning (08 R201). -/
def sgbByte (c : Core) (k : Nat) : Option Byte :=
  let o := c.held.foldl (fun o e => if e.line = lineOf k then (Tbl.get? e.data (k % 128)).or o else o) none
  c.squeue.foldl (fun o q => if q.key ≤ k then (q.bytes[k - q.key]?).or o else o) o
/-- A granule's tag held there. -/
def sgbTag (c : Core) (k : Nat) : Option Bool :=
  let o := c.held.foldl (fun o e => if e.line = lineOf k then (Tbl.get? e.tags (k % 128 / 16)).or o else o) none
  c.squeue.foldl (fun o q => if q.key / 16 = k / 16 then some q.tag else o) o

/-- Bytes with those held by the core in their place. -/
def overlaySgb (c : Core) (k : Nat) (bs : List Byte) : List Byte :=
  if c.sgb.isEmpty && c.squeue.isEmpty then bs else (bs.zipIdx).map fun b => (sgbByte c (k + b.2)).getD b.1

/-! ### Reading -/

/-- What a read returns: bytes, the granule's tag, the pa of a line that could not be read, and what the home
granted with it (08 R209). -/
structure Got where
  bytes : List Byte
  tag : Bool := false
  bad : Option Nat := none
  grants : List Replica := []
deriving DecidableEq, Repr

/-- Undefined bytes (00 R5). -/
def freeBytes (s : State) : Nat → List Byte × State
  | 0 => ([], s)
  | n + 1 =>
    let (w, s) := drawWord s
    let (t, s) := freeBytes s n
    (BitVec.ofNat 8 w.toNat :: t, s)
/-- An undefined value in place of what was read. -/
def Got.undefined (s : State) (g : Got) : Got × State :=
  let (b, s) := freeBytes s g.bytes.length
  let (t, s) := drawBit s
  ({ g with bytes := b, tag := t }, s)

/-- The read of a line that cannot be read: an undefined value with a deferred error (18 R403, R415). -/
def lostRead (s : State) (k n : Nat) : Got × State :=
  Got.undefined s { bytes := List.replicate n 0, bad := some (lineOf k * 128) }

/-- The bytes as the home holds them. -/
def homeRead (s : State) (k n q : Nat) : Got × State :=
  if homeBad s k then lostRead s k n
  else
    let s := accessLine s (lineOf k) (q != 2) false
    ({ bytes := memBytes s k n, tag := readTag s k }, s)

/-- The tags of a line's granules. -/
def lineTags (s : State) (line : Nat) : List Bool := (List.range 8).map fun i => readTag s (line * 128 + 16 * i)

/-- The home grants a replica of a line to the die of a core that reads it: a copy of the line as it is, and LX
(08 R209, R210). Whether it does is the part's choice (log 16). -/
def grantReplica (s : State) (c key q : Nat) (rep : Bool) : List Replica × State :=
  let d := coreDie c
  let h := homeDie key
  if !rep || decide (1 < q) || isScratch key || !isHbm key || decide (h = d) || !bit (s.die d).mcfg 0 || homeBad s key then ([], s)
  else
    let (b, s) := drawBit s
    if !b then ([], s)
    else
      let line := lineOf key
      let x := leaseNow s h + fld (s.die h).mcfg 11 10 * 16
      ([⟨line, memBytes s (line * 128) 128, lineTags s line, x, s.seq + 1⟩],
        { s.stamp with lx := Tbl.set s.lx line (Nat.max (Tbl.get 0 s.lx line) x) })

/-- The tile of a die whose slice keeps replicas of a line (08 R209). -/
def replicaTile (d line : Nat) : Nat := dieTile d (line % 192)
/-- A replica that came with a reply is placed on the die of the core: it takes a tag and data of its slice (08 R209). -/
def placeReplica (s : State) (d : Nat) (r : Replica) : State :=
  touchLine (s.modDie d fun x => { x with replicas := r :: x.replicas.filter fun y => y.line ≠ r.line }) (replicaTile d r.line) r.line
def placeReplicas (s : State) (c : Nat) (rs : List Replica) : State := rs.foldl (fun s r => placeReplica s (coreDie c) r) s

/-- A live replica of the line on the die (08 R209). -/
def replicaOf (s : State) (d line : Nat) : Option Replica :=
  (s.die d).replicas.find? fun r => r.line = line ∧ leaseNow s d + guardNs d (coreDie (paHome (line * 128))) < r.expiry

/-- The place of the launch slot's write that the grid of a wave came from (22 R454). -/
def hostSeen (s : State) (w : Option Nat) : Nat := match w with
  | some w => ((s.grid? (s.wave w).grid).map (·.host)).getD 0
  | none => 0
/-- A copy of a line, as old as `no`, lacks no write of the host up to the place `seen` (22 R454). -/
def hostFresh (s : State) (seen line no : Nat) : Bool := (Tbl.get [] s.hosted line).all fun p => decide (p ≤ no ∨ seen < p)

/-- No store that the reader must see is younger than the replica: neither one of the wave itself (01 R37, R39)
nor one gathered in its core's SGB (10 Test 2), nor one that the host made before the launch (22 R454). -/
def Replica.serves (s : State) (r : Replica) (c : Nat) (w : Option Nat) (k n : Nat) : Bool :=
  hostFresh s (hostSeen s w) r.line r.granted && (Tbl.get [] s.wrote (lineOf k)).all fun e =>
    decide (k % 128 + n ≤ e.off ∨ e.off + e.len ≤ k % 128 ∨ e.no ≤ r.granted)
    || !(w.any (fun w => decide ((s.wave w).uid = e.uid)) || decide (e.gath = some c))

/-- The replica that serves a read of `n` bytes, if one does: the part's choice (08 R209, R211). -/
def pickReplica (s : State) (c : Nat) (w : Option Nat) (k n q : Nat) : Option Replica × State :=
  match if q = 3 ∨ isScratch k then none else (replicaOf s (coreDie c) (lineOf k)).filter fun r => r.serves s c w k n with
  | none => (none, s)
  | some r =>
    let (b, s) := drawBit s
    if b then (some r, touchLine s (replicaTile (coreDie c) r.line) r.line) else (none, s)

/-- Bytes read from a stored copy of a line. -/
def fromLine (k n : Nat) (bytes : List Byte) (tags : List Bool) : Got :=
  { bytes := (bytes.drop (k % 128)).take n, tag := (tags.drop (k % 128 / 16)).headD false }

/-- A bypass read below the SGB: a live replica may serve it, or the home (08 R209, R211). -/
def belowRead (s : State) (c : Nat) (w : Option Nat) (k n q : Nat) (rep : Bool) : Got × State :=
  match pickReplica s c w k n q with
  | (some r, s) => (fromLine k n r.data r.tags, s)
  | (none, s) =>
    let (g, s) := homeRead s k n q
    let (rs, s) := grantReplica s c k q rep
    ({ g with grants := rs }, s)

/-- What was read below, with what the core holds in its place (08 R201). -/
def overSgb (s : State) (c k : Nat) (g : Got) : Got :=
  if isScratch k then g
  else { g with bytes := overlaySgb (s.core c) k g.bytes, tag := (sgbTag (s.core c) k).getD g.tag }

/-- A load with q = 1 to 3, or of scratch (08 R194, R201). -/
def bypassRead (s : State) (c : Nat) (w : Option Nat) (k n q : Nat) (rep : Bool := false) : Got × State :=
  let (g, s) := belowRead s c w k n q rep
  (overSgb s c k g, s)

/-- A lane of a multicast read: never from a replica, and it fills none (09 R226). -/
def multiRead (s : State) (c k n q : Nat) : Got × State :=
  let (g, s) := homeRead s k n q
  (overSgb s c k g, s)

/-- Every write of the bytes during the grid is ordered before the wave's last INVL1 (01 R37; log 12): another
agent's happens-before it through the release that published it, the wave's own through a FENCE. -/
def l1Ordered (s : State) (w k n : Nat) : Bool :=
  let x := s.wave w
  let start := ((s.grid? x.grid).map (·.start)).getD 0
  (Tbl.get [] s.wrote (lineOf k)).all fun e =>
    decide (k % 128 + n ≤ e.off ∨ e.off + e.len ≤ k % 128 ∨ e.no ≤ start)
    || (if e.uid = x.uid then e.own else e.pub).any fun p => decide (p ≤ Tbl.get 0 x.l1clk e.uid)

/-- A line of L1 is used; of the 8 ways of its set the one unused for longest goes (08 R197; log 41). -/
def useL1 (c : Core) (line : Nat) (data : List Byte × List Bool) : Core :=
  let use := line :: c.l1use.filter (· ≠ line)
  let l1 := Tbl.set c.l1 line data
  match (use.filter fun l => l % 64 = line % 64)[8]? with
  | some v => { c with l1 := Tbl.erase l1 v, l1use := use.filter (· ≠ v) }
  | none => { c with l1 := l1, l1use := use }
/-- L1 is emptied; fills in flight are not installed (08 R198). -/
def emptyL1 (c : Core) : Core := { c with l1 := [], l1use := [], l1e := c.l1e + 1 }

/-- A read through L1, for `n` bytes at `k`; a miss fills it from a replica or the home, unless L1 has been
emptied since the request (08 R197, R198). -/
def readL1 (s : State) (c : Nat) (w : Option Nat) (k n : Nat) (rep : Bool) (e : Nat) : Got × State :=
  let line := lineOf k
  let fill (s : State) (d : List Byte × List Bool) : State :=
    if e = (s.core c).l1e then s.modCore c (useL1 · line d) else s
  match Tbl.get? (s.core c).l1 line with
  | some l => (fromLine k n l.1 l.2, fill s l)
  | none =>
    match pickReplica s c w k n 1 with
    | (some r, s) => (fromLine k n r.data r.tags, fill s (r.data, r.tags))
    | (none, s) =>
      let (g, s) := homeRead s k n 1
      if g.bad.isSome then (g, s)
      else
        let (rs, s) := grantReplica s c k 0 rep
        ({ g with grants := rs }, fill s (memBytes s (line * 128) 128, lineTags s line))

/-- A load with q = 0 of translated memory (01 R37, 08 R197): what L1 gives, or an undefined value. -/
def l1Read (s : State) (w k n : Nat) (rep : Bool) (e : Nat) : Got × State :=
  let ok := l1Ordered s w k n
  let (g, s) := readL1 s (waveCore w) (some w) k n rep e
  if ok || g.bad.isSome then (g, s) else Got.undefined s g

/-- The read of a load of a request by its policy. -/
def loadRead (s : State) (r : Req) (k n : Nat) : Got × State :=
  if r.q = 0 ∧ !isScratch k then l1Read s r.wave k n r.rep r.l1e
  else bypassRead s (waveCore r.wave) (some r.wave) k n r.q r.rep

/-! ### Requests, replies and acknowledgements -/

/-- The value of an element of `n` bytes, widened to 32 bits (09 R223). -/
def widen (n : Nat) (sx : Bool) (bs : List Byte) : W32 :=
  let x := ofBytes bs
  if sx then wrap 32 (signed (8 * n) x) else BitVec.ofNat 32 x

/-- Registers that an access writes whole, a vector register in all 32 lanes, have their older marks written over
(18 R403). -/
def Wave.freshen (x : Wave) (ds : List Nat) (lanes : Nat) : Wave :=
  ds.foldl (fun x d => if d ≠ 0 ∧ (d < 64 ∨ lanes = 32) then x.cover d else x) x

/-- One half of a word (09 R232). -/
def putHalf (w : W32) (off v : Nat) : W32 := BitVec.ofNat 32 (setFld (BitVec.ofNat 64 w.toNat) off 16 v).toNat

/-- The data of a reply is written to its destination. -/
def Wave.take (x : Wave) (r : Reply) : Wave := match r.data with
  | .reg d v => (x.setReg d v).mark d r.bad
  | .cap d v _ => (x.setReg d v).mark d r.bad
  | .lanes ws => ws.foldl (fun x l => (x.setLane l.1 l.2.1 l.2.2).mark (64 + l.1) r.bad) x
  | .half d off v =>
    let w : Cap := .data (BitVec.ofNat 64 (putHalf ((x.reg d).lo.setWidth 32) off v).toNat)
    if d = 0 then x else Wave.mark { x with c := Tbl.set x.c d w } d r.bad
  | .halves off ws => ws.foldl (fun x l =>
      (x.setLane l.1 l.2.1 (putHalf (x.lane l.1 l.2.1) off l.2.2.toNat)).mark (64 + l.1) r.bad) x

/-- A reply to a request. -/
def Req.reply (r : Req) (d : ReplyData) : Reply := { wave := r.wave, data := d, q := r.q, sid := r.sid, id := r.id }

/-- Replicas of distinct lines. -/
def joinGrants (a b : List Replica) : List Replica := a ++ b.filter fun r => !a.any fun y => y.line = r.line

/-- Undefined values of lanes (00 R5). -/
def freeLanes (s : State) (ws : List (Nat × Nat × W32)) : List (Nat × Nat × W32) × State :=
  ws.foldl (fun (x : List (Nat × Nat × W32) × State) e =>
    let (w, s) := drawWord x.2
    (x.1 ++ [(e.1, e.2.1, BitVec.ofNat 32 w.toNat)], s)) ([], s)

/-- An undefined value in the place of a reply's, of its width (00 R5, 18 R403): all of a register for a load. -/
def ReplyData.spoil (s : State) : ReplyData → ReplyData × State
  | .reg d _ =>
    let (w, s) := drawWord s
    (.reg d (.data w), s)
  | .cap d _ lc =>
    let (h, s) := drawWord s
    let (l, s) := drawWord s
    let (t, s) := drawBit s
    (.cap d ⟨t && lc, h, l⟩ lc, s)
  | .lanes ws =>
    let (ws, s) := freeLanes s ws
    (.lanes ws, s)
  | .half d off _ =>
    let (w, s) := drawWord s
    (.half d off (w.toNat % 2 ^ 16), s)
  | .halves off ws =>
    let (ws, s) := freeLanes s ws
    (.halves off ws, s)

/-- An uncorrectable error in the data: undefined values with a mark (18 R403). -/
def spoilReply (s : State) (r : Reply) : Reply × State :=
  let (d, s) := r.data.spoil s
  ({ r with data := d, bad := some (r.bad.getD (lineOf (r.keys.headD 0) * 128)), grants := [] }, s)
/-- A reply whose data could not be read. -/
def orSpoiled (a : Reply × State) : Reply × State := if a.1.bad.isSome then spoilReply a.2 a.1 else a

/-- Serve the read of a request: its reply. -/
def serveRead (s : State) (r : Req) : Reply × State := orSpoiled <|
  match r.kind with
  | .load d k n =>
    let (g, s) := loadRead s r k n
    ({ r.reply (.reg d (.data (BitVec.ofNat 64 (ofBytes g.bytes)))) with keys := [k], bad := g.bad, grants := g.grants }, s)
  | .loadCap d k lc =>
    let (g, s) := loadRead s r k 16
    let v : Cap := ⟨g.tag && lc, BitVec.ofNat 64 (ofBytes (g.bytes.drop 8)), BitVec.ofNat 64 (ofBytes (g.bytes.take 8))⟩
    ({ r.reply (.cap d v lc) with keys := [k], bad := g.bad, grants := g.grants }, s)
  | .vload vd n sx mc lanes =>
    let (ws, bad, gs, s) := lanes.foldl (fun (a : List (Nat × Nat × W32) × Option Nat × List Replica × State) l =>
      let (g, s) := if mc then multiRead a.2.2.2 (waveCore r.wave) l.2 n r.q else loadRead a.2.2.2 r l.2 n
      (a.1 ++ [(vd, l.1, widen n sx g.bytes)], a.2.1.or g.bad, joinGrants a.2.2.1 g.grants, s)) ([], none, [], s)
    ({ r.reply (.lanes ws) with keys := lanes.map (·.2), bad := bad, grants := gs }, s)
  | _ => (r.reply (.lanes []), s)

/-- The old values of a vector atomic's lanes, as its reply writes them (09 R230, R232). -/
def oldLanes (vd n : Nat) (off : Nat) (olds : List (Nat × Nat)) : ReplyData :=
  if n = 2 then .halves off (olds.map fun o => (vd, o.1, BitVec.ofNat 32 o.2))
  else .lanes (olds.flatMap fun o =>
    (vd, o.1, BitVec.ofNat 32 o.2) :: (if n = 8 then [(vd + 1, o.1, BitVec.ofNat 32 (o.2 / 2 ^ 32))] else []))
/-- The old value of a scalar atomic. -/
def oldReg (d n : Nat) (off old : Nat) : ReplyData := if n = 2 then .half d off old else .reg d (.data (BitVec.ofNat 64 old))
/-- Where a half lies in its word. -/
def halfOff (key : Nat) : Nat := 8 * (key % 4)

/-- Undefined old values of lanes. -/
def freeOlds (s : State) (ls : List AtomLane) : List (Nat × Nat) × State :=
  ls.foldl (fun (a : List (Nat × Nat) × State) l =>
    let (x, s) := drawWord a.2
    (a.1 ++ [(l.lane, x.toNat)], s)) ([], s)

/-- A writing request takes effect at its home: acknowledgement (gwct, err) and perhaps a reply. -/
def serveWrite (s : State) (r : Req) : (Nat × Nat) × Option Reply × State :=
  let by_ : Writer := { uid := r.uid, grid := r.grid, sid := r.sid, engine := false, rels := r.rels }
  let asid := match s.grid? r.grid with
    | some g => g.asid
    | none => 0
  let lost (k : Nat) (d : Word → ReplyData) : (Nat × Nat) × Option Reply × State :=
    let (w, s) := drawWord (sliceMessage s k)
    ((0, 2), some { r.reply (d w) with keys := [k], bad := some (lineOf k * 128) }, s)
  match r.kind with
  | .store ws tag =>
    ws.foldl (fun (a : (Nat × Nat) × Option Reply × State) w =>
      let s := a.2.2
      if homeBad s w.1 then ((a.1.1, 2), none, sliceMessage s w.1)
      else
        let (s, g) := homeWrite s by_ r.q w.1 w.2 (if tag then some true else none)
        ((Nat.max a.1.1 g, a.1.2), none, s)) ((0, 0), none, s)
  | .zero lines =>
    lines.foldl (fun (a : (Nat × Nat) × Option Reply × State) l =>
      let s := a.2.2
      if homeLost s (l * 128) then ((a.1.1, 2), none, s)
      else
        let (s, g) := homeZero s by_ l
        ((Nat.max a.1.1 g, a.1.2), none, s)) ((0, 0), none, s)
  | .atom d n op l =>
    if homeBad s l.key then lost l.key fun w => oldReg d n (halfOff l.key) w.toNat
    else
      let (s, old, g) := atomOne s by_ n op l
      ((g.getD 0, 0), some { r.reply (oldReg d n (halfOff l.key) old) with keys := [l.key] }, s)
  | .vatom vd n op lanes =>
    let live := lanes.filter fun l => !homeBad s l.key
    let dead := lanes.filter fun l => homeBad s l.key
    let (s, olds, g) := atomLanes s by_ n op live
    let (ws, s) := freeOlds (dead.foldl (fun s l => sliceMessage s l.key) s) dead
    ((g.getD 0, if dead.isEmpty then 0 else 2),
      some { r.reply (oldLanes vd n (halfOff ((lanes.head?.map (·.key)).getD 0)) (olds ++ ws)) with
        keys := lanes.map (·.key), bad := dead.head?.map fun l => lineOf l.key * 128 }, s)
  | .deque d key op x =>
    if homeBad s key then lost key fun w => .reg d (.data w)
    else
      let (s, v, g) := dequeOp s by_ asid key op x
      ((g, 0), some { r.reply (.reg d (.data v)) with keys := [key] }, s)
  | _ => ((0, 0), none, s)

/-- The registers that a request will write (04 R98): c n as n, v n as 64 + n. -/
def ReqKind.dests : ReqKind → List Nat
  | .load d _ _ => [d]
  | .loadCap d _ _ => [d]
  | .vload vd _ _ _ _ => [64 + vd]
  | .atom d _ _ _ => [d]
  | .vatom vd n _ _ => if n = 8 then [64 + vd, 65 + vd] else [64 + vd]
  | .deque d _ _ _ => [d]
  | _ => []
/-- A request that reads and nothing more. -/
def ReqKind.isRead : ReqKind → Bool
  | .load _ _ _ => true
  | .loadCap _ _ _ => true
  | .vload _ _ _ _ _ => true
  | _ => false
/-- Whether a request counts in the loads counter until its value is written (04 R123, 09 R228). -/
def ReqKind.counts : ReqKind → Bool
  | .atom d _ _ _ => decide (d ≠ 0)
  | .deque _ _ _ _ => true
  | .vatom _ _ _ _ => true
  | k => k.isRead

/-- The lines that lanes reach, without repeats. -/
def linesOf (ks : List Nat) : List Nat := (ks.map lineOf).foldl (fun a l => if a.contains l then a else a ++ [l]) []

/-- An access by lines. -/
def byLines {α : Type} (key : α → Nat) (xs : List α) (f : List α → ReqKind) : List ReqKind :=
  (linesOf (xs.map key)).map fun l => f (xs.filter fun x => lineOf (key x) = l)
/-- The two halves of a BFADD2's lane, which are separate atomics (09 R232). -/
def AtomLane.halfOf (hi : Bool) (l : AtomLane) : AtomLane :=
  if hi then { l with key := l.key + 2, x := l.x / 2 ^ 16 % 2 ^ 16, ea := l.ea + 2 } else { l with x := l.x % 2 ^ 16 }

/-- What an access sends: one request for each line (09 R225), one for each location of an atomic (R230, R231),
one for each half of a BFADD2 (R232). -/
def ReqKind.parts (k : ReqKind) : List ReqKind := match k with
  | .vload vd n sx mc lanes => byLines (·.2) lanes fun ls => .vload vd n sx mc ls
  | .store ws tag => byLines (·.1) ws fun ls => .store ls tag
  | .zero ls => ls.map fun l => .zero [l]
  | .atom d 4 .bfadd2 l => [false, true].map fun h => .atom d 2 .bfadd2 (l.halfOf h)
  | .vatom vd n op lanes =>
    let sets := (laneKeys lanes).map fun e => lanes.filter fun l => l.ea = e
    if n = 4 ∧ op = .bfadd2 then
      sets.flatMap fun ls => [false, true].map fun h => .vatom vd 2 .bfadd2 (ls.map (·.halfOf h))
    else sets.map fun ls => .vatom vd n op ls
  | k => [k]

/-- How many lanes a request has, for a vector access. -/
def ReqKind.lanes : ReqKind → Nat
  | .vload _ _ _ _ ls => ls.length
  | .vatom _ _ _ ls => ls.length
  | _ => 0

/-- Messages of the wave that are still under way in one of the given streams, and stores in its core's queue:
accesses that are not performed (10 R252, R253). -/
def underWay (s : State) (w : Nat) (p : Nat → Bool) : Bool :=
  s.net.reqs.any (fun r => r.wave = w && decide (r.sid < 16) && p r.sid) || s.net.replies.any (fun r => r.wave = w && p r.sid)
    || s.net.acks.any (fun r => r.wave = w && p r.sid) || s.net.mcasts.any (fun m => m.reqs.any fun r => r.wave = w && p r.sid)
    || (s.core (waveCore w)).squeue.any fun q => q.wave = w && p q.sid

/-- An ordered stream holds the access back until its earlier accesses are performed (10 R253). -/
def streamHeld (s : State) (w sid : Nat) : Bool := decide (sid ≠ 0) && underWay s w (· = sid)

/-- The bytes that a request touches: key and length. -/
def ReqKind.spans : ReqKind → List (Nat × Nat)
  | .load _ k n => [(k, n)]
  | .loadCap _ k _ => [(k, 16)]
  | .vload _ n _ _ ls => ls.map fun l => (l.2, n)
  | .store ws _ => ws.map fun x => (x.1, x.2.length)
  | .drain _ _ => []
  | .zero ls => ls.map fun l => (l * 128, 128)
  | .atom _ n _ l => [(l.key, n)]
  | .vatom _ n _ ls => ls.map fun l => (l.key, n)
  | .deque _ k _ _ => [(k, 32)]

/-- Two lists of spans share a byte. -/
def spansMeet (a b : List (Nat × Nat)) : Bool :=
  a.any fun x => b.any fun y => decide (x.1 < y.1 + y.2) && decide (y.1 < x.1 + x.2)

/-- An access of the wave to one of these bytes is still under way, and it or the one that follows writes:
the later one waits, so that the wave sees its accesses to one location in program order (01 R37, R39). An
arrival of the wave writes its barrier object (09 R237). -/
def ownHeld (s : State) (w : Nat) (reads : Bool) (sp : List (Nat × Nat)) : Bool :=
  let hit (q : Req) : Bool := decide (q.wave = w) && (!q.kind.isRead || !reads) && spansMeet q.kind.spans sp
  s.net.reqs.any hit || s.net.mcasts.any (fun m => m.reqs.any hit)
    || s.net.arrivals.any fun c => decide (c.src = .agent (.wave w)) && spansMeet [(c.key, 32)] sp

/-- The entry holds one of these bytes. -/
def Sgb.touches (sp : List (Nat × Nat)) (e : Sgb) : Bool :=
  spansMeet sp (e.data.map fun b => (e.line * 128 + b.1, 1))
/-- A store in the queue holds one of these bytes. -/
def Queued.touches (sp : List (Nat × Nat)) (q : Queued) : Bool := spansMeet sp [(q.key, q.bytes.length)]

/-- The releases whose values stand in these bytes, for a core, and that happen-before the next access of the agent that
moves: a write of them leaves them standing (10 R257). -/
def knownRels (s : State) (c : Nat) (sp : List (Nat × Nat)) : List Rel :=
  (s.flags ++ (s.core c).sgb.flatMap (·.rels) ++ (s.core c).squeue.flatMap (·.rels)).filter fun r =>
    sp.any (fun x => r.meets x.1 x.2) && r.known s.curClk

/-- Send the requests of an access of the wave that moves, one for each of its parts (log 2); they count once in its
counters. An access without a lane sends nothing. -/
def send (s : State) (r : Req) : State :=
  let x := s.wave r.wave
  let r := { r with
    l1e := (s.core (waveCore r.wave)).l1e, id := s.reqNo, grid := x.grid, uid := x.uid
    rels := if r.kind.isRead then [] else r.rels ++ knownRels s (waveCore r.wave) r.kind.spans }
  let ps := r.kind.parts.map fun k => { r with kind := k }
  if ps.isEmpty then s
  else
    { (s.modWave r.wave fun x => { x.freshen r.kind.dests r.kind.lanes with
      loads := x.loads + b2n r.kind.counts
      stores := x.stores + b2n (!r.kind.isRead && !inQueue s r.wave r.id)
      pend := x.pend ++ (if r.kind.counts then r.kind.dests.filter (· ≠ 0) else []) }).modNet
        fun n => { n with reqs := n.reqs ++ ps } with reqNo := s.reqNo + 1 }

/-- Make an access of the wave that moves, in its stream, and go on to the next instruction. A direct write
of bytes that the core's SGB holds waits until they have drained, so that it is the later write at the home
too (01 R37, 08 R201). -/
def issue (s : State) (r : Req) : State :=
  let c := waveCore r.wave
  if streamHeld s r.wave r.sid || ownHeld s r.wave r.kind.isRead r.kind.spans then stall s
  else if r.kind.isRead then (send s r).advance
  else
    let s := drainWhere s c (Sgb.touches r.kind.spans)
    if (s.core c).sgb.any (Sgb.touches r.kind.spans) || (s.core c).squeue.any (Queued.touches r.kind.spans) then stall s
    else (send s r).advance

/-- Make the gathered stores of the wave that moves, in its stream, and go on with `k`: they enter the store queue
and pass on into the SGB; while some wait in the queue the instruction counts as a store (08 R199). -/
def issueGather (s : State) (w sid : Nat) (ps : List (Nat × List Byte)) (tag : Bool) (k : State → State)
    (rels : List Rel := []) : State :=
  if streamHeld s w sid || ownHeld s w false (ps.map fun p => (p.1, p.2.length)) then stall s
  else
    let c := waveCore w
    let id := s.reqNo
    let was := queueIds (s.core c).squeue
    let rels := rels ++ knownRels s c (ps.map fun p => (p.1, p.2.length))
    let s := s.modCore c fun x => { x with
      squeue := x.squeue ++ ps.map fun p => ⟨w, sid, id, p.1, p.2, tag, (s.wave w).grid, (s.wave w).uid, rels.filter (·.meets p.1 p.2.length)⟩ }
    let s := runQueue s c was
    let s := k (if inQueue s w id then s.modWave w fun x => { x with stores := x.stores + 1 } else s)
    { s with reqNo := Nat.max s.reqNo (id + 1) }

end Sys2Proof.Machine
end

