-- ==== Sys2Proof/Machine/Mem.lean ====
section
/-! DEFINITION. Scalar and capability loads and stores (04 R119, R121), scalar atomics (09 R227 to R229)
and deque operations (09 R234). -/

namespace Sys2Proof.Machine

/-- The effective address of an M-format access of `n` bytes (02 R41). -/
def eaM (s : State) (a : BitVec 6) (o : BitVec 8) (n : Nat) : Int := ((s.reg a.toNat).addr : Int) + o.toInt * n

/-- Continue with the place of an access that passes its checks, or take the fault (01 R17). -/
def withAccess (s : State) (cap : Cap) (ea : Int) (size need align : Nat) (u : Use) (k : Place → State → State) : State :=
  match checkAccess s cap ea size need align u with
  | (.ok p, s) => k p (noteLeaf s p)
  | (.error t, s) => raise s t

/-- The access touches bytes that a request of the wave has still to land (12 R293). -/
def watermarkHeld (s : State) (ea size : Nat) : Bool := match s.cur with
  | .wave w => (s.core (waveCore w)).fifo.any fun r =>
      decide (r.by_.wave = w ∧ r.landed < r.len ∧ r.dst.addr + r.landed < ea + size ∧ ea < r.dst.addr + r.len)
  | _ => false
/-- An access below the watermark of a request of the wave is ordered after what has landed (10 R273; log 12). -/
def belowMark (s : State) (ea size : Nat) : State := match s.cur with
  | .wave w => ((s.core (waveCore w)).fifo.filter fun r =>
      decide (r.by_.wave = w ∧ r.dst.addr < ea + size ∧ ea < r.dst.addr + r.landed)).foldl (fun s r => s.learn [(r.uid, s.seq)]) s
  | _ => s

/-- The same for a load, store or atomic, which a watermark may stall (12 R293). -/
def withData (s : State) (cap : Cap) (ea : Int) (size need align : Nat) (u : Use) (k : Place → State → State) : State :=
  withAccess s cap ea size need align u fun p s =>
    if watermarkHeld s ea.toNat size then park s .timed else k p (belowMark s ea.toNat size)

/-- The page of a place is replicable (08 R209). -/
def Place.rep (p : Place) : Bool := match p.leaf with
  | some l => pteREP l.pte
  | none => false

/-- A scalar load of `n` bytes (04 R119). -/
def scalarLoad (n : Nat) (d a : BitVec 6) (sid : BitVec 4) (q : BitVec 2) (o : BitVec 8) (s : State) : State :=
  withData s (s.reg a.toNat) (eaM s a o n) n permLD n .load fun p s =>
    issue s { wave := s.curW, sid := sid.toNat, q := q.toNat, kind := .load d.toNat p.key n, rep := p.rep }

/-- A store of bytes at a place: gathered when q = 0 in translated memory, else direct (02 R43, 08 R194). -/
def storeAt (s : State) (p : Place) (sid q : Nat) (bs : List Byte) (tag : Bool) : State :=
  if q = 0 ∧ !isScratch p.key then issueGather s s.curW sid [(p.key, bs)] tag State.advance
  else issue s { wave := s.curW, sid := sid, q := q, kind := .store [(p.key, bs)] tag, rep := p.rep }

/-- A scalar store of `n` bytes (04 R119). -/
def scalarStore (n : Nat) (d a : BitVec 6) (sid : BitVec 4) (q : BitVec 2) (o : BitVec 8) (s : State) : State :=
  withData s (s.reg a.toNat) (eaM s a o n) n permST n .store fun p s =>
    storeAt s p sid.toNat q.toNat (bytesOf n (s.lo d.toNat).toNat) false

/-- 04 R119. -/
def execLdB (d a : BitVec 6) (s : BitVec 4) (q : BitVec 2) (o : BitVec 8) (t : State) : Res := checked (.ldB d a s q o) t (scalarLoad 1 d a s q o)
/-- 04 R119. -/
def execLdH (d a : BitVec 6) (s : BitVec 4) (q : BitVec 2) (o : BitVec 8) (t : State) : Res := checked (.ldH d a s q o) t (scalarLoad 2 d a s q o)
/-- 04 R119. -/
def execLdW (d a : BitVec 6) (s : BitVec 4) (q : BitVec 2) (o : BitVec 8) (t : State) : Res := checked (.ldW d a s q o) t (scalarLoad 4 d a s q o)
/-- 04 R119. -/
def execLdD (d a : BitVec 6) (s : BitVec 4) (q : BitVec 2) (o : BitVec 8) (t : State) : Res := checked (.ldD d a s q o) t (scalarLoad 8 d a s q o)
/-- 04 R119. -/
def execStB (d a : BitVec 6) (s : BitVec 4) (q : BitVec 2) (o : BitVec 8) (t : State) : Res := checked (.stB d a s q o) t (scalarStore 1 d a s q o)
/-- 04 R119. -/
def execStH (d a : BitVec 6) (s : BitVec 4) (q : BitVec 2) (o : BitVec 8) (t : State) : Res := checked (.stH d a s q o) t (scalarStore 2 d a s q o)
/-- 04 R119. -/
def execStW (d a : BitVec 6) (s : BitVec 4) (q : BitVec 2) (o : BitVec 8) (t : State) : Res := checked (.stW d a s q o) t (scalarStore 4 d a s q o)
/-- 04 R119. -/
def execStD (d a : BitVec 6) (s : BitVec 4) (q : BitVec 2) (o : BitVec 8) (t : State) : Res := checked (.stD d a s q o) t (scalarStore 8 d a s q o)

/-- 04 R121: without PERM.LC the loaded tag is 0 (01 R16). -/
def execLdc (d a : BitVec 6) (s : BitVec 4) (q : BitVec 2) (o : BitVec 8) (t : State) : Res :=
  checked (.ldc d a s q o) t fun t =>
    withData t (t.reg a.toNat) (eaM t a o 16) 16 permLD 16 .load fun p t =>
      issue t { wave := t.curW, sid := s.toNat, q := q.toNat,
                kind := .loadCap d.toNat p.key (decide ((t.reg a.toNat).perm &&& permLC = permLC)), rep := p.rep }
/-- 04 R121: PERM.SC is needed only for a tagged register (01 R16). -/
def execStc (d a : BitVec 6) (s : BitVec 4) (q : BitVec 2) (o : BitVec 8) (t : State) : Res :=
  checked (.stc d a s q o) t fun t =>
    let v := t.reg d.toNat
    withData t (t.reg a.toNat) (eaM t a o 16) 16 (if v.tag then permST + permSC else permST) 16 .store fun p t =>
      storeAt t p s.toNat q.toNat (bytesOf 8 v.lo.toNat ++ bytesOf 8 v.hi.toNat) v.tag

/-- A scalar atomic of `n` bytes (09 R227, R229). -/
def scalarAtomic (op : AtomOp) (n : Nat) (d a b : BitVec 6) (sid : BitVec 4) (s : State) : State :=
  withData s (s.reg a.toNat) (s.reg a.toNat).addr n (permLD + permST + permAT) n .store fun p s =>
    issue s { wave := s.curW, sid := sid.toNat, q := 1,
              kind := .atom d.toNat n op ⟨0, p.key, (s.lo b.toNat).toNat % 2 ^ (8 * n), (s.lo d.toNat).toNat % 2 ^ (8 * n), 0⟩ }

/-- 09 R227. -/
def execAtomAdd (d a b : BitVec 6) (s : BitVec 4) (t : State) : Res := checked (.atomAdd d a b s) t (scalarAtomic .add 8 d a b s)
/-- 09 R227. -/
def execAtomAddW (d a b : BitVec 6) (s : BitVec 4) (t : State) : Res := checked (.atomAddW d a b s) t (scalarAtomic .add 4 d a b s)
/-- 09 R227. -/
def execAtomMin (d a b : BitVec 6) (s : BitVec 4) (t : State) : Res := checked (.atomMin d a b s) t (scalarAtomic .min 8 d a b s)
/-- 09 R227. -/
def execAtomMinW (d a b : BitVec 6) (s : BitVec 4) (t : State) : Res := checked (.atomMinW d a b s) t (scalarAtomic .min 4 d a b s)
/-- 09 R227. -/
def execAtomMax (d a b : BitVec 6) (s : BitVec 4) (t : State) : Res := checked (.atomMax d a b s) t (scalarAtomic .max 8 d a b s)
/-- 09 R227. -/
def execAtomMaxW (d a b : BitVec 6) (s : BitVec 4) (t : State) : Res := checked (.atomMaxW d a b s) t (scalarAtomic .max 4 d a b s)
/-- 09 R227. -/
def execAtomMinu (d a b : BitVec 6) (s : BitVec 4) (t : State) : Res := checked (.atomMinu d a b s) t (scalarAtomic .minu 8 d a b s)
/-- 09 R227. -/
def execAtomMinuW (d a b : BitVec 6) (s : BitVec 4) (t : State) : Res := checked (.atomMinuW d a b s) t (scalarAtomic .minu 4 d a b s)
/-- 09 R227. -/
def execAtomMaxu (d a b : BitVec 6) (s : BitVec 4) (t : State) : Res := checked (.atomMaxu d a b s) t (scalarAtomic .maxu 8 d a b s)
/-- 09 R227. -/
def execAtomMaxuW (d a b : BitVec 6) (s : BitVec 4) (t : State) : Res := checked (.atomMaxuW d a b s) t (scalarAtomic .maxu 4 d a b s)
/-- 09 R227. -/
def execAtomAnd (d a b : BitVec 6) (s : BitVec 4) (t : State) : Res := checked (.atomAnd d a b s) t (scalarAtomic .and 8 d a b s)
/-- 09 R227. -/
def execAtomAndW (d a b : BitVec 6) (s : BitVec 4) (t : State) : Res := checked (.atomAndW d a b s) t (scalarAtomic .and 4 d a b s)
/-- 09 R227. -/
def execAtomOr (d a b : BitVec 6) (s : BitVec 4) (t : State) : Res := checked (.atomOr d a b s) t (scalarAtomic .or 8 d a b s)
/-- 09 R227. -/
def execAtomOrW (d a b : BitVec 6) (s : BitVec 4) (t : State) : Res := checked (.atomOrW d a b s) t (scalarAtomic .or 4 d a b s)
/-- 09 R227. -/
def execAtomXor (d a b : BitVec 6) (s : BitVec 4) (t : State) : Res := checked (.atomXor d a b s) t (scalarAtomic .xor 8 d a b s)
/-- 09 R227. -/
def execAtomXorW (d a b : BitVec 6) (s : BitVec 4) (t : State) : Res := checked (.atomXorW d a b s) t (scalarAtomic .xor 4 d a b s)
/-- 09 R227. -/
def execAtomSwap (d a b : BitVec 6) (s : BitVec 4) (t : State) : Res := checked (.atomSwap d a b s) t (scalarAtomic .swap 8 d a b s)
/-- 09 R227. -/
def execAtomSwapW (d a b : BitVec 6) (s : BitVec 4) (t : State) : Res := checked (.atomSwapW d a b s) t (scalarAtomic .swap 4 d a b s)
/-- 09 R227. -/
def execAtomFaddW (d a b : BitVec 6) (s : BitVec 4) (t : State) : Res := checked (.atomFaddW d a b s) t (scalarAtomic .fadd 4 d a b s)
/-- 09 R227, R232. -/
def execAtomBfadd2W (d a b : BitVec 6) (s : BitVec 4) (t : State) : Res := checked (.atomBfadd2W d a b s) t (scalarAtomic .bfadd2 4 d a b s)
/-- 09 R229. -/
def execAcas (d a b : BitVec 6) (s : BitVec 4) (t : State) : Res := checked (.acas d a b s) t (scalarAtomic .cas 8 d a b s)
/-- 09 R229. -/
def execAcasW (d a b : BitVec 6) (s : BitVec 4) (t : State) : Res := checked (.acasW d a b s) t (scalarAtomic .cas 4 d a b s)

/-- A deque operation (09 R234): 0 push, 1 pop, 2 steal. -/
def dequeIssue (op : Nat) (d a : BitVec 6) (x : Word) (sid : BitVec 4) (s : State) : State :=
  withData s (s.reg a.toNat) (s.reg a.toNat).addr 32 (permLD + permST + permAT) 32 .store fun p s =>
    issue s { wave := s.curW, sid := sid.toNat, q := 1, kind := .deque d.toNat p.key op x }
/-- 09 R234. -/
def execDqpush (d a b : BitVec 6) (s : BitVec 4) (t : State) : Res := checked (.dqpush d a b s) t (dequeIssue 0 d a (t.lo b.toNat) s)
/-- 09 R234. -/
def execDqpop (d a : BitVec 6) (s : BitVec 4) (t : State) : Res := checked (.dqpop d a s) t (dequeIssue 1 d a 0 s)
/-- 09 R234. -/
def execDqsteal (d a : BitVec 6) (s : BitVec 4) (t : State) : Res := checked (.dqsteal d a s) t (dequeIssue 2 d a 0 s)

end Sys2Proof.Machine
end

