-- ==== Sys2Proof/Machine/Barrier.lean ====
section
/-! DEFINITION. Barrier objects (09 R235 to R242), the arena of a sequencer context (13 R310), and the
PHASE-START of a barrier domain (16 R386). -/

namespace Sys2Proof.Machine

/-! ### The object -/

/-- A barrier object's fields (09 R235); `rsv` is the reserved field of B2. -/
structure Bar where
  arra : Nat
  expa : Nat
  phase : Nat
  landb : Nat
  expb : Nat
  wcnt : Nat
  rsv : Nat := 0
  sa : Bool
  ovf : Bool
  v : Bool
  stray : Nat
deriving DecidableEq, Repr

def Bar.read (s : State) (k : Nat) : Bar :=
  let b0 := memWord s k
  let b1 := memWord s (k + 8)
  let b2 := memWord s (k + 16)
  { arra := fld b0 48 16, expa := fld b0 32 16, phase := fld b0 0 32, landb := fld b1 32 32, expb := fld b1 0 32
    wcnt := fld b2 48 16, rsv := fld b2 35 13, sa := bit b2 34, ovf := bit b2 33, v := bit b2 32, stray := fld b2 0 32 }

def Bar.words (b : Bar) : List Byte :=
  bytesOf 8 (b.arra % 2 ^ 16 * 2 ^ 48 + b.expa % 2 ^ 16 * 2 ^ 32 + b.phase % 2 ^ 32)
    ++ bytesOf 8 (b.landb % 2 ^ 32 * 2 ^ 32 + b.expb % 2 ^ 32)
    ++ bytesOf 8 (b.wcnt % 2 ^ 16 * 2 ^ 48 + b.rsv * 2 ^ 35 + b2n b.sa * 2 ^ 34 + b2n b.ovf * 2 ^ 33 + b2n b.v * 2 ^ 32 + b.stray)

def Bar.write (s : State) (k : Nat) (b : Bar) : State := poke s k b.words

/-- The status word (09 R236). -/
def Bar.status (b : Bar) (st : Nat) : Word :=
  BitVec.ofNat 64 (st * 2 ^ 56 + b2n b.sa * 2 ^ 33 + b2n b.ovf * 2 ^ 32 + b.phase)

/-! ### Waiters -/

/-- What happens-before the completion of a phase (10 R257; log 12). -/
def phaseClk (s : State) (k phase : Nat) : Tbl Nat := Tbl.get [] (Tbl.get [] s.bars k) phase
/-- An arrival or credit of a phase brings what happens-before it. -/
def joinPhase (s : State) (k phase : Nat) (c : Tbl Nat) : State :=
  { s with bars := Tbl.set s.bars k (Tbl.set (Tbl.get [] s.bars k) phase (joinClk (phaseClk s k phase) c)) }

/-- The core of an agent. -/
def agentCore (s : State) (a : Agent) : Nat := match a with
  | .wave w => waveCore w
  | .ctx v n => waveCore (s.ctx v n).wave
  | .none => 0

/-- A registered agent is woken with a status; OK is that of the phase just completed (09 R241). -/
def wakeBar (s : State) (st : Nat) (w : Waiter) : State :=
  let b := Bar.read s w.key
  let s := match w.agent with
    | .wave n => s.modWave n fun x => { x with run := .waiting (.reply w.d) }
    | .ctx vt n => s.modCtx vt n fun x => { x with wait := some (.reply w.d) }
    | .none => s
  s.modNet fun n => { n with wakes := n.wakes ++
    [{ agent := w.agent, d := w.d, value := b.status st, due := s.cyc + wakeTrip (keyCore w.key) (agentCore s w.agent)
       clk := if st = 0 then phaseClk s w.key ((b.phase + 2 ^ 32 - 1) % 2 ^ 32) else [] }] }

/-- Wake every agent registered on barrier objects whose keys `p` selects. -/
def wakeWaiters (s : State) (p : Nat → Bool) (st : Nat) : State :=
  let ws := s.waiters.filter fun w => p w.key
  ws.foldl (wakeBar · st ·) { s with waiters := s.waiters.filter fun w => !p w.key }

/-- Every agent registered on an object that `p` selects is woken with INVALIDATED and counted out
(05 R135, 18 R415, 19 R417). -/
def invalidateWaiters (s : State) (p : Nat → Bool) : State :=
  let ks := ((s.waiters.filter fun w => p w.key).map (·.key)).foldl (fun a k => if a.contains k then a else a ++ [k]) []
  wakeWaiters (ks.foldl (fun s k => Bar.write s k { Bar.read s k with wcnt := 0 }) s) p 2

/-- An agent is deregistered, and WCNT is decremented (18 R404, R412, 13 R310). -/
def deregister (s : State) (a : Agent) : State :=
  match s.waiters.find? fun w => w.agent = a with
  | none => s
  | some w =>
    let b := Bar.read s w.key
    Bar.write { s with waiters := s.waiters.filter fun x => x.agent ≠ a } w.key { b with wcnt := b.wcnt - 1 }

/-! ### PHASE-START -/

/-- PHASE-START reaches a tile (16 R386, R389). -/
def phaseAt (s : State) (m : TileMsg) : State :=
  s.modCore m.core fun c => { c with port :=
    let p := { c.port with seen := Tbl.set c.port.seen m.domain ⟨m.value, m.due, (Tbl.get? c.port.seen m.domain).map (·.phase)⟩ }
    if p.st = .armed ∧ !p.stale ∧ p.domain = m.domain ∧ p.phase = m.value then { p with st := .run, start := m.due, next := 0 } else p }

/-- The domain block sends PHASE-START to every tile of its die, where it arrives 40 cycles later (16 R386). -/
def sendPhase (s : State) (k phase : Nat) : State :=
  if fld (memWord s (k + 56)) 32 32 = 0 then s
  else
    let ms := (dieCores (coreDie (keyCore k))).map fun c => (⟨c, keyOff k / 128, phase, false, s.cyc + 40⟩ : TileMsg)
    s.modNet fun n => { n with phases := n.phases ++ ms }

/-! ### Arrivals and credits -/

/-- The fault message of a harp (14 R351, 18 R405, R408); NF is cleared with the message that reports it. -/
def harpMsg (s : State) (v : Nat) (p : Pusher) (code pos : Nat) (stray : Bool) : State :=
  let m : FaultMsg := {
    m0 := msgWord0 code 3 (waveSlot p.wave) 0 v false false false (s.vat v).nf stray p.wtag.toNat
    m1 := BitVec.ofNat 64 (p.grid * 2 ^ 32 + p.gidx % 2 ^ 32)
    m2 := BitVec.ofNat 64 pos }
  postMessage (if unsent s (coreDie v) m then s else s.modVat v fun x => { x with nf := false }) (coreDie v) m

/-- The error flag of a crediting agent (09 R236); a stray credit of the harp is told to the mailbox. -/
def channelError (s : State) (c : Creditor) : State := match c with
  | .ladle core ch => s.modCore core fun x => { x with cstray := Tbl.set x.cstray ch true }
  | .harp v p pos =>
    harpMsg (s.modVat v fun x => { x with harp := x.harp.map fun r => if r.running then { r with stray := true } else r })
      v p Code.ecc.num pos true
  | .port core => s.modCore core fun x => { x with port := { x.port with stray := true } }
  | _ => s

/-- `Complete()` (09 R236). -/
def completeBar (s : State) (k : Nat) (b : Bar) : State :=
  if b.arra = b.expa ∧ b.expb ≤ b.landb then
    let p := (b.phase + 1) % 2 ^ 32
    let s := Bar.write s k { b with phase := p, arra := 0, landb := b.landb - b.expb, expb := 0, wcnt := 0 }
    let s := wakeWaiters s (· = k) 0
    if domainBlock k then sendPhase s k b.phase else s
  else Bar.write s k b

/-- `Arrive(n)` at a barrier's home (09 R236). -/
def arriveBar (s : State) (c : Credit) : State :=
  if !corePresent s (keyCore c.key) then channelError s c.src
  else
    let b := Bar.read s c.key
    if !b.v then Bar.write s c.key { b with sa := true }
    else if b.expa < b.arra + c.amount then Bar.write s c.key { b with ovf := true }
    else completeBar (joinPhase s c.key b.phase c.clk) c.key { b with arra := b.arra + c.amount }

/-- `Credit(n)` at a barrier's home (09 R236). -/
def creditBar (s : State) (c : Credit) : State :=
  if !corePresent s (keyCore c.key) then channelError s c.src
  else
    let b := Bar.read s c.key
    let s := if b.v then joinPhase s c.key b.phase c.clk else s
    if !b.v then channelError (Bar.write s c.key { b with stray := Nat.min (b.stray + c.amount) (2 ^ 32 - 1) }) c.src
    else if 2 ^ 32 ≤ b.landb + c.amount then completeBar s c.key { b with ovf := true, landb := 2 ^ 32 - 1 }
    else completeBar s c.key { b with landb := b.landb + c.amount }

/-- Send an arrival. -/
def sendArrival (s : State) (c : Credit) : State := s.modNet fun n => { n with arrivals := n.arrivals ++ [c] }
/-- Send a byte credit. -/
def sendCredit (s : State) (c : Credit) : State := s.modNet fun n => { n with credits := n.credits ++ [c] }

/-! ### The arena of a context (13 R310) -/

/-- The memory key of an arena offset, seen from the core of the wave that started the context, or the context
fault: bounds before alignment. -/
def arenaAt (s : State) (arena : Cap) (core off size align : Nat) (u : Use) : Except Trap Nat × State :=
  if arena.extent < off + size then (.error ⟨.capBound, BitVec.ofNat 64 off⟩, s)
  else if off % align ≠ 0 then (.error ⟨.align, BitVec.ofNat 64 off⟩, s)
  else match window s core 0 (arena.base + off) u with
    | (some p, s) => (.ok p.key, s)
    | (none, s) => (.error ⟨.xlate, BitVec.ofNat 64 off⟩, s)

/-! ### The instructions -/

/-- The place of a barrier operand (09 R237), or its fault. -/
def withBarrier (s : State) (a : BitVec 6) (need : Nat) (u : Use) (k : Nat → State → State) : State :=
  match s.cur with
  | .ctx v n =>
    match arenaAt s (s.ctx v n).arena (waveCore (s.ctx v n).wave) (s.lo a.toNat).toNat 32 32 u with
    | (.ok key, s) => k key s
    | (.error t, s) => raise s t
  | _ =>
    let ea := (s.reg a.toNat).addr
    withAccess s (s.reg a.toNat) ea 32 need 32 u fun p s =>
      if isScratch p.key then k p.key s else raise s ⟨.bar, BitVec.ofNat 64 ea⟩

/-- An earlier access of the agent to this barrier object is still under way (09 R237): an arrival, or a load or
store of the wave that names bytes of the object. -/
def objectHeld (s : State) (key : Nat) : Bool := match s.cur with
  | .wave w => ownHeld s w false [(key, 32)]
  | _ => s.net.arrivals.any fun c => decide (c.key = key ∧ c.src = .agent s.cur)

/-- Act on a barrier object at its home, in the agent's program order. -/
def atBarrier (s : State) (a : BitVec 6) (need : Nat) (u : Use) (k : Nat → Bar → State → State) : State :=
  withBarrier s a need u fun key s => if objectHeld s key then stall s else k key (Bar.read s key) s

/-- What `BARV` waits for (09 R239, 13 R310): stores of the wave to scratch and those on their way into the store
gather buffer; posted operations of the context. -/
def arrivalHeld (s : State) : Bool := match s.cur with
  | .wave w =>
    s.net.reqs.any (fun r => decide (r.wave = w ∧ r.sid < 16) && !r.kind.isRead && r.kind.spans.any fun x => isScratch x.1)
    || (s.core (waveCore w)).squeue.any (fun q => q.wave = w)
    || s.net.acks.any (fun r => r.wave = w && r.scr)
  | .ctx v n => (s.vat v).rtab.any fun e => e.ctx = n
  | .none => false

def needBar : Nat := permLD + permST + permAT

/-- The status of a barrier instruction returns with the latency of a load of its window (09 R242). -/
def barReply (s : State) (key d : Nat) (v : Word) : State := reply s d v 0 none (s.cyc + loadTrip s.curCore (keyCore key))

/-- 09 R238. -/
def execBinit (d a b : BitVec 6) (s : State) : Res :=
  checked (.binit d a b) s fun s =>
    atBarrier s a needBar .store fun key o s =>
      let x := s.lo b.toNat
      if o.wcnt ≠ 0 then barReply s key d.toNat (o.status 1)
      else if fld x 0 16 = 0 ∨ fld x 16 16 ≠ 0 then barReply s key d.toNat (o.status 4)
      else
        let n : Bar := { arra := 0, expa := fld x 0 16, phase := 0, landb := 0, expb := fld x 32 32, wcnt := 0,
                         sa := false, ovf := false, v := true, stray := 0 }
        barReply (poke (Bar.write { s with bars := Tbl.erase s.bars key } key n) (key + 24) (bytesOf 8 0)) key d.toNat (n.status 0)

/-- 09 R239. -/
def execBarv (a : BitVec 6) (s : State) : Res :=
  checked (.barv a) s fun s =>
    atBarrier s a needBar .store fun key _ s =>
      if arrivalHeld s then stall s
      else
        let s := s.release
        let s' := sendArrival s { key := key, amount := 1, src := .agent s.cur, clk := s.curClk }
        (match s.cur with
          | .wave _ => s'.modCur fun x => { x with stores := x.stores + 1 }
          | _ => s').advance

/-- 09 R240. -/
def execBexp (a b : BitVec 6) (s : State) : Res :=
  checked (.bexp a b) s fun s =>
    atBarrier s a needBar .store fun key o s =>
      let n := o.expb + fld (s.lo b.toNat) 0 32
      (if !o.v then Bar.write s key { o with sa := true }
      else if 2 ^ 32 ≤ n then completeBar s key { o with expb := 2 ^ 32 - 1, ovf := true }
      else completeBar s key { o with expb := n }).advance

/-- 09 R241, 13 R310. -/
def execBwait (d a b : BitVec 6) (s : State) : Res :=
  checked (.bwait d a b) s fun s =>
    atBarrier s a permLD .load fun key o s =>
      let p := fld (s.lo b.toNat) 0 32
      if !o.v then barReply s key d.toNat (o.status 2)
      else if o.phase ≠ p then barReply (s.learn (phaseClk s key p)) key d.toNat (o.status 0)
      else
        park (Bar.write { s with waiters := s.waiters ++ [⟨key, s.cur, d.toNat⟩] } key { o with wcnt := o.wcnt + 1 })
          (.barrier key d.toNat)

/-- 09 R241. -/
def execBtry (d a b : BitVec 6) (s : State) : Res :=
  checked (.btry d a b) s fun s =>
    atBarrier s a permLD .load fun key o s =>
      let p := fld (s.lo b.toNat) 0 32
      if !o.v then barReply s key d.toNat (o.status 2)
      else if o.phase ≠ p then barReply (s.learn (phaseClk s key p)) key d.toNat (o.status 0)
      else barReply s key d.toNat (o.status 3)

/-- 09 R242. -/
def execBinv (d a : BitVec 6) (s : State) : Res :=
  checked (.binv d a) s fun s =>
    atBarrier s a needBar .store fun key o s =>
      if o.v then
        let s := Bar.write s key { o with v := false, wcnt := 0 }
        barReply (wakeWaiters s (· = key) 2) key d.toNat ({ o with v := false }.status 0)
      else barReply s key d.toNat (o.status 0)

/-! ### Events -/

/-- The wave that posted an arrival has one outstanding store less (09 R237). -/
def arrivalDone (s : State) (c : Credit) : State := match c.src with
  | .agent (.wave w) => s.modOwner w fun x => { x with stores := x.stores - 1 }
  | _ => s

/-- 09 R236. -/
def execBarrierArrival (n : Nat) (s : State) : Res :=
  .next (match s.net.arrivals[n]? with
    | some c => arrivalDone (arriveBar (s.modNet fun m => { m with arrivals := dropAt m.arrivals n }) c) c
    | none => s)
/-- 09 R236. -/
def execBarrierCredit (n : Nat) (s : State) : Res :=
  .next (match s.net.credits[n]? with
    | some c => creditBar (s.modNet fun m => { m with credits := dropAt m.credits n }) c
    | none => s)
/-- 09 R241. -/
def execBarrierWake (n : Nat) (s : State) : Res :=
  .next (match s.net.wakes[n]? with
    | some k =>
      let held := match k.tree with
        | some (d, n) => s.net.bcasts.any fun m => decide (m.domain = n ∧ coreDie m.core = d)
        | none => false
      if k.time = 0 ∧ k.due ≤ s.cyc ∧ !held then wakeAgent (s.modNet fun m => { m with wakes := dropAt m.wakes n }) k else s
    | none => s)
/-- 16 R386. -/
def execPhaseStart (n : Nat) (s : State) : Res :=
  .next (match s.net.phases[n]? with
    | some m => if m.due ≤ s.cyc then phaseAt (s.modNet fun x => { x with phases := dropAt x.phases n }) m else s
    | none => s)

end Sys2Proof.Machine
end

