-- ==== Sys2Proof/Machine/CapOps.lean ====
section
/-! DEFINITION. Capability instructions (04 R107 to R113). -/

namespace Sys2Proof.Machine

/-- CINC and CINCI (04 R107). -/
def capInc (d a : BitVec 6) (i : Int) (s : State) : State := (s.setReg d.toNat ((s.reg a.toNat).inc i)).advance
/-- 04 R107. -/
def execCinc (d a b : BitVec 6) (s : State) : Res := checked (.cinc d a b) s fun s => capInc d a (s.lo b.toNat).toInt s
/-- 04 R107. -/
def execCinci (d a : BitVec 6) (i : BitVec 14) (s : State) : Res := checked (.cinci d a i) s (capInc d a i.toInt)

/-- floor(x / 2^e), and the ceiling. -/
def floorDiv (x e : Nat) : Nat := x / 2 ^ e
def ceilPow (x e : Nat) : Nat := (x + 2 ^ e - 1) / 2 ^ e

/-- The smallest exponent from `e`, trying `n` of them, whose mantissa holds the range (04 R108). -/
def fitExp (lo hi : Nat) : Nat → Nat → Option Nat
  | 0, _ => none
  | n + 1, e => if ceilPow hi e - floorDiv lo e < 2 ^ 25 then some e else fitExp lo hi n (e + 1)

/-- The bounds narrowed to ADDR up to ADDR + len, or the fault (04 R108). -/
def narrowBounds (c : Cap) (len : Nat) : Except Trap Cap :=
  let lo := c.addr
  let hi := lo + len
  let info : Word := BitVec.ofNat 64 lo
  if c.tag = false then .error ⟨.capTag, info⟩
  else if c.z55 || decide (30 < c.exp) then .error ⟨.capBound, info⟩
  else if lo < c.base ∨ c.top < hi then .error ⟨.capBound, info⟩
  else match fitExp lo hi 31 0 with
    | none => .error ⟨.capBound, info⟩
    | some e =>
      let nb := floorDiv lo e * 2 ^ e
      let nt := ceilPow hi e * 2 ^ e
      if nb < c.base ∨ c.top < nt then .error ⟨.capBound, info⟩
      else .ok { c with hi := setFld (setFld (setFld c.hi 50 6 e) 25 25 (lo / 2 ^ e)) 0 25 ((nt - nb) / 2 ^ e) }

def capSetB (d a : BitVec 6) (len : Nat) (s : State) : State :=
  match narrowBounds (s.reg a.toNat) len with
  | .error t => raise s t
  | .ok c => (s.setReg d.toNat c).advance
/-- 04 R108. -/
def execCsetb (d a b : BitVec 6) (s : State) : Res := checked (.csetb d a b) s fun s => capSetB d a (s.lo b.toNat).toNat s
/-- 04 R108. -/
def execCsetbi (d a : BitVec 6) (i : BitVec 14) (s : State) : Res := checked (.csetbi d a i) s (capSetB d a i.toNat)

/-- Write a capability register from another: the shape of CPERM, CFMT and CCLRT. -/
def capMap (d a : BitVec 6) (f : Cap → Cap) (s : State) : State := (s.setReg d.toNat (f (s.reg a.toNat))).advance
/-- 04 R109. -/
def execCperm (d a b : BitVec 6) (s : State) : Res :=
  checked (.cperm d a b) s fun s => capMap d a (fun c => { c with hi := setFld c.hi 56 8 (c.perm &&& fld (s.lo b.toNat) 0 8) }) s
/-- 04 R110. -/
def execCfmt (d a b : BitVec 6) (s : State) : Res :=
  checked (.cfmt d a b) s fun s => capMap d a (fun c =>
    { c with lo := setFld c.lo 56 8 (fld (s.lo b.toNat) 2 6 * 4 + fld (s.lo b.toNat) 0 2) }) s
/-- 04 R113. -/
def execCclrt (d a : BitVec 6) (s : State) : Res := checked (.cclrt d a) s (capMap d a fun c => { c with tag := false })

/-- The field that a selector names (04 R111). -/
def capField (c : Cap) (sel : Nat) : Word :=
  match sel with
  | 0 => BitVec.ofNat 64 c.base
  | 1 => BitVec.ofNat 64 c.top
  | 2 => BitVec.ofNat 64 (c.top - c.base)
  | 3 => wrap 64 ((c.addr : Int) - c.base)
  | 4 => BitVec.ofNat 64 c.perm
  | 5 => BitVec.ofNat 64 (c.fmt * 4 + c.blk)
  | 6 => BitVec.ofNat 64 (b2n c.tag)
  | _ => c.hi
/-- 04 R111. -/
def execCfld (d a s : BitVec 6) (t : State) : Res :=
  checked (.cfld d a s) t fun t => (t.setData d.toNat (capField (t.reg a.toNat) s.toNat)).advance

/-- The test bits of a capability (04 R112). -/
def capTest (c : Cap) : Word :=
  BitVec.ofNat 64 (b2n c.tag + 2 * b2n (!c.z55 && decide (c.exp ≤ 30)) + 4 * b2n (decide (c.base ≤ c.addr ∧ c.addr < c.top))
    + 8 * b2n (!reservedFormat c.fmt))
/-- 04 R112. -/
def execCtest (d a : BitVec 6) (s : State) : Res := checked (.ctest d a) s fun s => (s.setData d.toNat (capTest (s.reg a.toNat))).advance
/-- 04 R113. -/
def execCsubc (d a b : BitVec 6) (s : State) : Res :=
  checked (.csubc d a b) s fun s => (s.setData d.toNat (BitVec.ofNat 64 (s.reg a.toNat).addr - BitVec.ofNat 64 (s.reg b.toNat).addr)).advance

end Sys2Proof.Machine
end

