-- ==== Sys2Proof/Machine/Transcend.lean ====
section
/-! DEFINITION. The exact functions of the transcendental instructions (06 R163). Reciprocals are exact
fractions. The others are irrational but at the points listed as exact, and are given as a fraction within
2^-480 of the value, whose rounding to FP32 is that of the value (log 11). -/

namespace Sys2Proof.Machine

/-- Fraction bits of the fixed-point arithmetic here. -/
def fxBits : Nat := 512
def fxOne : Nat := 2 ^ fxBits
def fxMul (a b : Nat) : Nat := a * b / fxOne

/-- Σ z^(2k+1) / (2k+1) for `n` terms, with alternating signs when `alt`: atanh or atan of z. -/
def fxOddSeries (alt : Bool) (z2 : Nat) : Nat → Nat → Nat → Int
  | 0, _, _ => 0
  | n + 1, k, p =>
    let t : Int := (p / (2 * k + 1) : Nat)
    (if alt && decide (k % 2 = 1) then -t else t) + fxOddSeries alt z2 n (k + 1) (fxMul p z2)

def fxAtanh (z : Nat) : Nat := (fxOddSeries false (fxMul z z) 180 0 z).toNat
def fxAtan (z : Nat) : Nat := (fxOddSeries true (fxMul z z) 180 0 z).toNat
/-- ln 2 = 2 atanh(1/3). -/
def fxLn2 : Nat := 2 * fxAtanh (fxOne / 3)
/-- π = 16 atan(1/5) − 4 atan(1/239). -/
def fxPi : Nat := 16 * fxAtan (fxOne / 5) - 4 * fxAtan (fxOne / 239)

/-- Σ y^k / k! from term `t` at k for `n` terms. -/
def fxExpSeries (y : Nat) : Nat → Nat → Nat → Nat
  | 0, _, _ => 0
  | n + 1, k, t => t + fxExpSeries y n (k + 1) (fxMul t y / (k + 1))

/-- Σ (−1)^k θ^(2k+1) / (2k+1)!. -/
def fxSinSeries (t2 : Nat) : Nat → Nat → Nat → Int
  | 0, _, _ => 0
  | n + 1, k, t => (if k % 2 = 1 then -(t : Int) else t) + fxSinSeries t2 n (k + 1) (fxMul t t2 / ((2 * k + 2) * (2 * k + 3)))

/-- A fixed-point value × 2^e that stands for an irrational one: never representable in FP32. -/
def fxVal (neg : Bool) (x : Nat) (e : Int) : Val := .scaled neg (2 * x + 1) (e - fxBits - 1)

/-- 1 / x. -/
def valRcp : Val → Val × Nat
  | .nan sg => (.nan false, if sg then flNV else 0)
  | .inf neg => (.fin neg 0 1, 0)
  | .fin neg n d => if n = 0 then (.inf neg, flDZ) else (.fin neg d n, 0)

/-- 1 / √x. -/
def valRsq : Val → Val × Nat
  | .nan sg => (.nan false, if sg then flNV else 0)
  | .inf neg => if neg then (.nan false, flNV) else (.fin false 0 1, 0)
  | .fin neg n d => if n = 0 then (.inf neg, flDZ) else if neg then (.nan false, flNV) else Val.sqrt (.fin false d n)

/-- 2^x: beyond ±200 a power that overflows, or vanishes, in the same way stands for it. -/
def valExp2 : Val → Val × Nat
  | .nan sg => (.nan false, if sg then flNV else 0)
  | .inf neg => if neg then (.fin false 0 1, 0) else (.inf false, 0)
  | .fin neg n d =>
    let x : Int := if neg then -(n : Int) else n
    let i := x / (d : Int)
    if 200 ≤ i then (.scaled false 1 200, 0)
    else if i < -200 then (.scaled false 1 (-200), 0)
    else
      let f := (x % (d : Int)).toNat
      if f = 0 then (.scaled false 1 i, 0)
      else (fxVal false (fxExpSeries (fxMul (f * fxOne / d) fxLn2) 130 0 fxOne) i, 0)

/-- log2 x. -/
def valLog2 : Val → Val × Nat
  | .nan sg => (.nan false, if sg then flNV else 0)
  | .inf neg => if neg then (.nan false, flNV) else (.inf false, 0)
  | .fin neg n d =>
    if n = 0 then (.inf true, flDZ)
    else if neg then (.nan false, flNV)
    else
      let e := floorLog2 n d
      let m := if 0 ≤ e then n * fxOne / (d * 2 ^ e.toNat) else n * 2 ^ (-e).toNat * fxOne / d
      if m = fxOne then (.ofInt e, 0)
      else
        let l := 2 * fxAtanh ((m - fxOne) * fxOne / (m + fxOne)) * fxOne / fxLn2
        let t : Int := e * fxOne + l
        (fxVal (decide (t < 0)) t.natAbs 0, 0)

/-- sin(2π × num / den) for a fraction of a turn, num < den. -/
def sinTurn (num den : Nat) : Val :=
  let neg := decide (den ≤ 2 * num)
  let h := if neg then num - den / 2 else num
  -- den is even for every FP32 value that is no integer; h is in [0, den / 2)
  let q := if den < 4 * h then den / 2 - h else h
  if q = 0 then .zero
  else if 4 * q = den then .fin neg 1 1
  else
    let th := 2 * fxMul fxPi (q * fxOne / den)
    fxVal neg (fxSinSeries (fxMul th th) 80 0 th).toNat 0

/-- sin(2πx). -/
def valSin : Val → Val × Nat
  | .nan sg => (.nan false, if sg then flNV else 0)
  | .inf _ => (.nan false, flNV)
  | .fin neg n d =>
    if n = 0 then (.fin neg 0 1, 0)
    else
      let v := sinTurn (2 * n % (2 * d)) (2 * d)
      (if neg && !v.isZero then v.negate else v, 0)

/-- cos(2πx) = sin(2π(x + 1/4)). -/
def valCos : Val → Val × Nat
  | .nan sg => (.nan false, if sg then flNV else 0)
  | .inf _ => (.nan false, flNV)
  | .fin _ n d => (sinTurn ((4 * n + d) % (4 * d)) (4 * d), 0)

/-- The bits and flags of a transcendental: RNE, FTZ as FMODE has it (06 R163). -/
def transcend (f : Val → Val × Nat) (ftz : Bool) (x : Nat) : Nat × Nat :=
  fpOut fmtFP32 0 ftz (fun _ => 0) (f (fmtFP32.read ftz x))

end Sys2Proof.Machine
end

