-- ==== Sys2Proof/Machine/Vector.lean ====
section
/-! DEFINITION. Vector instructions of majors 0x20 to 0x28 and 0x2F: integer, floating point, packed,
cross-lane, reductions (06 R154 to R168, R176, R177). -/

namespace Sys2Proof.Machine

/-! ### Lanes (05 R131, 06 R154) -/

def Wave.active (x : Wave) (l : Nat) : Bool := decide (Tbl.get 0 x.nc l = 0) && !Tbl.get false x.bk l
def lanes32 : List Nat := List.range 32
/-- `Active()`. -/
def Wave.lanes (x : Wave) : List Nat := lanes32.filter x.active
def Wave.laneN (x : Wave) (n l : Nat) : Nat := (x.lane n l).toNat
/-- Write lanes of a vector register; a register written in every lane is written over (18 R403). -/
def Wave.setLanes (x : Wave) (d : Nat) (ls : List Nat) (f : Nat → W32) : Wave :=
  let y := ls.foldl (fun y l => y.setLane d l (f l)) x
  if ls.length = 32 then y.cover (64 + d) else y

/-- Write each active lane of vd from what the wave held before. -/
def vecWrite (d : BitVec 7) (f : Wave → Nat → W32) (s : State) : State := s.modCur fun x => x.setLanes d.toNat x.lanes (f x)

/-! ### Integer (06 R160, R161) -/

inductive VecOp where
  | add | sub | mul | mulh | mad | and | or | xor | andn | shl | shr | sra | min | max | minu | maxu | abs
  | sel | mov | eq | ne | lt | ge | ltu | geu
deriving DecidableEq, Repr

/-- One lane: `x`, `y` and the old destination `z`. -/
def vecOp (op : VecOp) (x y z : W32) : W32 :=
  let sh := y.toNat % 32
  let t (b : Bool) : W32 := BitVec.ofNat 32 (b2n b)
  match op with
  | .add => x + y
  | .sub => x - y
  | .mul => x * y
  | .mulh => BitVec.ofInt 32 (x.toInt * y.toInt / 2 ^ 32)
  | .mad => x * y + z
  | .and => x &&& y
  | .or => x ||| y
  | .xor => x ^^^ y
  | .andn => x &&& ~~~y
  | .shl => x <<< sh
  | .shr => x >>> sh
  | .sra => x.sshiftRight sh
  | .min => if x.toInt ≤ y.toInt then x else y
  | .max => if x.toInt ≤ y.toInt then y else x
  | .minu => if x.toNat ≤ y.toNat then x else y
  | .maxu => if x.toNat ≤ y.toNat then y else x
  | .abs => if x.toInt < 0 then -x else x
  | .sel => if z ≠ 0 then x else y
  | .mov => x
  | .eq => t (decide (x = y))
  | .ne => t (decide (x ≠ y))
  | .lt => t (decide (x.toInt < y.toInt))
  | .ge => t (decide (y.toInt ≤ x.toInt))
  | .ltu => t (decide (x.toNat < y.toNat))
  | .geu => t (decide (y.toNat ≤ x.toNat))

def vecInt (op : VecOp) (d a b : BitVec 7) (s : State) : State :=
  vecWrite d (fun x l => vecOp op (x.lane a.toNat l) (x.lane b.toNat l) (x.lane d.toNat l)) s
def vecImm (op : VecOp) (d a : BitVec 7) (y : W32) (s : State) : State :=
  vecWrite d (fun x l => vecOp op (x.lane a.toNat l) y (x.lane d.toNat l)) s

/-! ### Floating point (06 R158, R162 to R165) -/

/-- A floating-point operation of each active lane: `f` is given the wave, the lane and its random values. -/
def vecFp (d : BitVec 7) (mode : Nat) (f : Wave → Nat → (Nat → Nat) → Nat × Nat) (s : State) : State :=
  let x := s.curWave
  let r (l : Nat) : Nat × Nat := f x l fun i => s.rand (4 * l + i)
  let fl := x.lanes.foldl (fun a l => a ||| (r l).2) 0
  ((s.modCur fun y => y.setLanes d.toNat x.lanes fun l => BitVec.ofNat 32 (r l).1).raiseFlags fl).drew mode 128

/-- A two-operand operation in FMODE.RM with FMODE.FTZ. -/
def vecFp2 (d a b : BitVec 7) (f : Nat → Bool → (Nat → Nat) → Nat → Nat → Nat × Nat) (s : State) : State :=
  vecFp d s.rm (fun x l r => f s.rm s.ftz r (x.laneN a.toNat l) (x.laneN b.toNat l)) s
def vecFp1 (d a : BitVec 7) (f : Nat → Bool → (Nat → Nat) → Nat → Nat × Nat) (s : State) : State :=
  vecFp d s.rm (fun x l r => f s.rm s.ftz r (x.laneN a.toNat l)) s
def vecFcmp (p : Nat) (d a b : BitVec 7) (s : State) : State :=
  vecFp2 d a b (fun _ z _ x y => let c := fpCmp fmtFP32 z p x y; (b2n c.1, c.2)) s

/-- VFCVT by its code 0 to 11 (02 R51, 06 R164). -/
def vfcvtOp (c mode : Nat) (sat ftz : Bool) (r : Nat → Nat) (x : Nat) : Nat × Nat :=
  match c with
  | 0 => fpToInt 32 true mode r (fmtFP32.read ftz x)
  | 1 => fpToInt 32 false mode r (fmtFP32.read ftz x)
  | 2 => roundFmt fmtFP32 mode sat ftz r (.ofInt (signed 32 x))
  | 3 => roundFmt fmtFP32 mode sat ftz r (.ofInt x)
  | 4 => fpConvert fmtFP32 fmtBF16 mode sat ftz r x
  | 5 => fpConvert fmtBF16 fmtFP32 mode sat ftz r (x % 2 ^ 16)
  | 6 => fpConvert fmtFP32 fmtFP16 mode sat ftz r x
  | 7 => fpConvert fmtFP16 fmtFP32 mode sat ftz r (x % 2 ^ 16)
  | 8 => fpConvert fmtFP32 fmtE4M3 mode sat ftz r x
  | 9 => fpConvert fmtFP32 fmtE5M2 mode sat ftz r x
  | 10 => fpConvert fmtE4M3 fmtFP32 mode sat ftz r (x % 2 ^ 8)
  | _ => fpConvert fmtE5M2 fmtFP32 mode sat ftz r (x % 2 ^ 8)

/-- Two BF16 halves, each on its own (06 R165). -/
def halves (f : (Nat → Nat) → Nat → Nat → Nat → Nat × Nat) (r : Nat → Nat) (a b c : Nat) : Nat × Nat :=
  let lo := f r (a % 2 ^ 16) (b % 2 ^ 16) (c % 2 ^ 16)
  let hi := f (fun i => r (i + 2)) (a / 2 ^ 16) (b / 2 ^ 16) (c / 2 ^ 16)
  (lo.1 + hi.1 * 2 ^ 16, lo.2 ||| hi.2)
def vecHalves (d a b : BitVec 7) (f : Nat → Bool → (Nat → Nat) → Nat → Nat → Nat → Nat × Nat) (s : State) : State :=
  vecFp d s.rm (fun x l r => halves (f s.rm s.ftz) r (x.laneN a.toNat l) (x.laneN b.toNat l) (x.laneN d.toNat l)) s

/-- VUNPK: a BF16 half widened exactly (06 R165). -/
def unpack (h : Nat) : Nat × Nat := fpConvert fmtBF16 fmtFP32 0 false false (fun _ => 0) h

/-- The dot product of four bytes with an addend (06 R165). -/
def dot4 (sx : Bool) (x y z : W32) : W32 :=
  let b (v : W32) (i : Nat) : Int := if sx then signed 8 (fld v (8 * i) 8) else fld v (8 * i) 8
  (List.range 4).foldl (fun a i => a + wrap 32 (b x i * b y i)) z

/-- VDOTB: the exact sum of two products and an addend, rounded once (06 R165). -/
def dotb (mode : Nat) (ftz : Bool) (r : Nat → Nat) (a b c : Nat) : Nat × Nat :=
  let rd (h : Nat) := fmtBF16.read ftz h
  let x0 := rd (a % 2 ^ 16)
  let y0 := rd (b % 2 ^ 16)
  let x1 := rd (a / 2 ^ 16)
  let y1 := rd (b / 2 ^ 16)
  let z := fmtFP32.read ftz c
  let p := Val.mul x0 y0
  let q := Val.mul x1 y1
  let sg := [x0, y0, x1, y1, z].any (·.signalling)
  -- an infinity times zero is invalid whatever the other terms (04 R114)
  if p.2 = flNV || q.2 = flNV || sg then (fmtFP32.dnan, flNV)
  else if [x0, y0, x1, y1, z].any (·.isNan) then (fmtFP32.dnan, 0)
  else
    let infs := ([p.1, q.1, z].filter fun v => !v.finite).map (·.neg)
    match infs with
    | [] =>
      let all := [p.1, q.1, z]
      let t := all.foldl (fun a v => (Val.add mode a v).1) (.fin true 0 1)
      -- an exact zero sum: the common sign of zero terms, else +0, or −0 when rounding down
      let t := if t.isZero then
          (if all.all (fun v => v.isZero && v.neg) then .fin true 0 1
           else if all.all (fun v => v.isZero && !v.neg) then .fin false 0 1
           else .fin (decide (mode = 3)) 0 1) else t
      roundFmt fmtFP32 mode false ftz r t
    | n :: rest => if rest.all (· = n) then (fmtFP32.signBits n + fmtFP32.infBits, 0) else (fmtFP32.dnan, flNV)

/-! ### Scans and reductions (06 R166, R168) -/

/-- A step of a scan or reduction: result and flags, given random values. -/
abbrev Comb := (Nat → Nat) → Nat → Nat → Nat × Nat

/-- What a lane's value is to a scan or reduction before it is combined: an integer as it is; an FP32 value with the
default NaN in place of a NaN and, under FTZ, a signed zero for a subnormal (03 R75, R84, 06 R158). -/
abbrev Seed := Nat → Nat × Nat
def seedInt : Seed := fun x => (x, 0)
def seedFp (ftz : Bool) : Seed := fun x =>
  match fmtFP32.read ftz x with
  | .nan sg => (fmtFP32.dnan, if sg then flNV else 0)
  | v => (if v.isZero then fmtFP32.signBits v.neg else x, 0)

def combInt (op : VecOp) : Comb := fun _ x y => ((vecOp op (BitVec.ofNat 32 x) (BitVec.ofNat 32 y) 0).toNat, 0)

/-- An inclusive scan over the active lanes: lane and value of each, the last value, and the flags. -/
def scanLanes (g : Seed) (f : Comb) (s : State) (x : Wave) (a : Nat) : List Nat → Option Nat → List (Nat × Nat) × Nat
  | [], _ => ([], 0)
  | l :: t, acc =>
    let v := match acc with
      | none => g (x.laneN a l)
      | some p => f (fun i => s.rand (4 * l + i)) p (x.laneN a l)
    let r := scanLanes g f s x a t (some v.1)
    ((l, v.1) :: r.1, v.2 ||| r.2)
def vecScan (g : Seed) (f : Comb) (mode : Nat) (d a : BitVec 7) (s : State) : State :=
  let x := s.curWave
  let r := scanLanes g f s x a.toNat x.lanes none
  ((s.modCur fun y => y.setLanes d.toNat x.lanes fun l => BitVec.ofNat 32 (Tbl.get 0 r.1 l)).raiseFlags r.2).drew mode 128

/-- Combine two tree nodes; an absent one is neutral. -/
def combOpt (f : Nat → Nat → Nat × Nat) : Option Nat → Option Nat → Option Nat × Nat
  | none, y => (y, 0)
  | some x, none => (some x, 0)
  | some x, some y => let r := f x y; (some r.1, r.2)
/-- One level of the tree: neighbours are combined (06 R168). -/
def treeLevel (f : Nat → Nat → Nat → Nat × Nat) (k : Nat) : List (Option Nat) → List (Option Nat) × Nat
  | x :: y :: t =>
    let r := combOpt (f k) x y
    let u := treeLevel f (k + 1) t
    (r.1 :: u.1, r.2 ||| u.2)
  | l => (l, 0)
/-- The fixed tree over 32 lanes: its root and the flags; `f` is given the number of the node. -/
def treeReduce (f : Nat → Nat → Nat → Nat × Nat) (xs : List (Option Nat)) : Option Nat × Nat :=
  let r := (List.range 5).foldl (fun (a : List (Option Nat) × Nat) st =>
    let u := treeLevel (fun k => f (st * 16 + k)) 0 a.1
    (u.1, a.2 ||| u.2)) (xs, 0)
  (r.1.headD none, r.2)
/-- A reduction of va into c[c] with an identity (06 R168). -/
def vecRed (g : Seed) (f : Comb) (mode : Nat) (ident : Word) (out : Nat → Word) (a : BitVec 7) (c : BitVec 6) (s : State) : State :=
  let x := s.curWave
  let r := treeReduce (fun k => f fun i => s.rand (2 * k + i))
    (lanes32.map fun l => if x.active l then some (g (x.laneN a.toNat l)).1 else none)
  let fl := x.lanes.foldl (fun fl l => fl ||| (g (x.laneN a.toNat l)).2) r.2
  ((s.raiseFlags fl).drew mode 160).setData c.toNat (match r.1 with
    | some v => out v
    | none => ident)
def sext32 (v : Nat) : Word := (BitVec.ofNat 32 v).signExtend 64
def zext32 (v : Nat) : Word := BitVec.ofNat 64 (v % 2 ^ 32)
/-- VRED.ADD: the exact sum (06 R168). -/
def vecSum (a : BitVec 7) (c : BitVec 6) (s : State) : State :=
  s.setData c.toNat (wrap 64 (s.curWave.lanes.foldl (fun t l => t + (s.curWave.lane a.toNat l).toInt) 0))
/-- The active lanes with a true condition. -/
def trueLanes (x : Wave) (a : Nat) : List Nat := x.lanes.filter fun l => x.lane a l ≠ 0

def fredAdd (s : State) : Comb := fun r x y => fpAdd fmtFP32 s.rm s.ftz r x y
def fredMm (s : State) (mx : Bool) : Comb := fun _ x y => fpMinMax fmtFP32 s.ftz mx x y

/-! ### VREBAL and VPLANE (06 R176, R177) -/

/-- The row that position q falls in, and the offset in it: rows from number r, starting at p. -/
def rebalAt (q : Nat) : List Nat → Nat → Nat → Nat × Nat
  | [], _, p => (32, q - p)
  | n :: t, r, p => if p ≤ q ∧ q < p + n then (r, q - p) else rebalAt q t (r + 1) (p + n)
def vecRebal (d a : BitVec 7) (c : BitVec 6) (s : State) : State :=
  let start := (s.lo c.toNat).toNat
  s.modCur fun x =>
    let rows := lanes32.map fun l => if x.active l then x.laneN a.toNat l else 0
    let y := x.setLanes d.toNat x.lanes fun l => BitVec.ofNat 32 (rebalAt (start + l) rows 0 0).1
    y.setLanes (d.toNat + 1) x.lanes fun l => BitVec.ofNat 32 (rebalAt (start + l) rows 0 0).2
def vecPlane (d a : BitVec 7) (c : BitVec 6) (s : State) : State :=
  let w := Nat.min ((s.lo c.toNat).toNat % 32) 16
  s.modCur fun x =>
    let elem (e : Nat) : Nat := if e < 32 then x.laneN a.toNat e else x.laneN (a.toNat + 1) (e - 32)
    let half (b from_ : Nat) : Nat := lanes32.foldl (fun t i => t + elem (from_ + i) / 2 ^ b % 2 * 2 ^ i) 0
    x.setLanes d.toNat lanes32 fun l => if l < 2 * w then BitVec.ofNat 32 (half (l / 2) (l % 2 * 32)) else 0

/-! ### The effect of each instruction, its advance apart -/

/-- What a vector instruction of majors 0x20 to 0x28 or 0x2F does (06). `REP` executes its body by it. -/
def vecEffect (i : Instr) (s : State) : State :=
  match i with
  | .vadd d a b => vecInt .add d a b s
  | .vsub d a b => vecInt .sub d a b s
  | .vmul d a b => vecInt .mul d a b s
  | .vmulh d a b => vecInt .mulh d a b s
  | .vmad d a b => vecInt .mad d a b s
  | .vand d a b => vecInt .and d a b s
  | .vor d a b => vecInt .or d a b s
  | .vxor d a b => vecInt .xor d a b s
  | .vandn d a b => vecInt .andn d a b s
  | .vshl d a b => vecInt .shl d a b s
  | .vshr d a b => vecInt .shr d a b s
  | .vsra d a b => vecInt .sra d a b s
  | .vmin d a b => vecInt .min d a b s
  | .vmax d a b => vecInt .max d a b s
  | .vminu d a b => vecInt .minu d a b s
  | .vmaxu d a b => vecInt .maxu d a b s
  | .vabs d a => vecImm .abs d a 0 s
  | .vsel d a b => vecInt .sel d a b s
  | .vmov d a => vecImm .mov d a 0 s
  | .vcmpEq d a b => vecInt .eq d a b s
  | .vcmpNe d a b => vecInt .ne d a b s
  | .vcmpLt d a b => vecInt .lt d a b s
  | .vcmpGe d a b => vecInt .ge d a b s
  | .vcmpLtu d a b => vecInt .ltu d a b s
  | .vcmpGeu d a b => vecInt .geu d a b s
  | .vaddi d a i => vecImm .add d a (i.signExtend 32) s
  | .vshli d a n => vecImm .shl d a (n.setWidth 32) s
  | .vshri d a n => vecImm .shr d a (n.setWidth 32) s
  | .vsrai d a n => vecImm .sra d a (n.setWidth 32) s
  | .vandi d a i => vecImm .and d a (i.signExtend 32) s
  | .vori d a i => vecImm .or d a (i.signExtend 32) s
  | .vxori d a i => vecImm .xor d a (i.signExtend 32) s
  | .vmovi d i => vecWrite d (fun _ _ => i.signExtend 32) s
  | .vbcst d c => let v := (s.lo c.toNat).setWidth 32; vecWrite d (fun _ _ => v) s
  | .vshfl d a c => let k := (s.lo c.toNat).toNat % 32; vecWrite d (fun x l => x.lane a.toNat (l ^^^ k)) s
  | .vrot d a c => let k := (s.lo c.toNat).toNat % 32; vecWrite d (fun x l => x.lane a.toNat ((l + k) % 32)) s
  | .vredAdd a c => vecSum a c s
  | .vredMin a c => vecRed seedInt (combInt .min) 0 0x7FFF_FFFF sext32 a c s
  | .vredMax a c => vecRed seedInt (combInt .max) 0 0xFFFF_FFFF_8000_0000 sext32 a c s
  | .vredMinu a c => vecRed seedInt (combInt .minu) 0 0xFFFF_FFFF zext32 a c s
  | .vredMaxu a c => vecRed seedInt (combInt .maxu) 0 0 zext32 a c s
  | .vredAnd a c => vecRed seedInt (combInt .and) 0 0xFFFF_FFFF zext32 a c s
  | .vredOr a c => vecRed seedInt (combInt .or) 0 0 zext32 a c s
  | .vredXor a c => vecRed seedInt (combInt .xor) 0 0 zext32 a c s
  | .vredFadd a c => vecRed (seedFp s.ftz) (fredAdd s) s.rm 0 zext32 a c s
  | .vredFmin a c => vecRed (seedFp s.ftz) (fredMm s false) 0 0x7F80_0000 zext32 a c s
  | .vredFmax a c => vecRed (seedFp s.ftz) (fredMm s true) 0 0xFF80_0000 zext32 a c s
  | .vballot a c => s.setData c.toNat (BitVec.ofNat 64 ((trueLanes s.curWave a.toNat).foldl (fun t l => t + 2 ^ l) 0))
  | .vpopc a c => s.setData c.toNat (BitVec.ofNat 64 (trueLanes s.curWave a.toNat).length)
  | .vfirst a c => s.setData c.toNat (BitVec.ofNat 64 ((trueLanes s.curWave a.toNat).headD 32))
  | .vextr l a c => s.setData c.toNat ((s.curWave.lane a.toNat l.toNat).setWidth 64)
  | .vins d l c => let v := (s.lo c.toNat).setWidth 32; s.modCur fun x => x.setLane d.toNat l.toNat v
  | .vperm d a b => vecWrite d (fun x l => x.lane a.toNat (x.laneN b.toNat l % 32)) s
  | .vscanAdd d a => vecScan seedInt (combInt .add) 0 d a s
  | .vscanFadd d a => vecScan (seedFp s.ftz) (fredAdd s) s.rm d a s
  | .vscanMin d a => vecScan seedInt (combInt .min) 0 d a s
  | .vscanMax d a => vecScan seedInt (combInt .max) 0 d a s
  | .vlane d => vecWrite d (fun _ l => BitVec.ofNat 32 l) s
  | .vfadd d a b => vecFp2 d a b (fpAdd fmtFP32) s
  | .vfsub d a b => vecFp2 d a b (fpSub fmtFP32) s
  | .vfmul d a b => vecFp2 d a b (fpMul fmtFP32) s
  | .vfma d a b => vecFp d s.rm (fun x l r => fpFma fmtFP32 s.rm s.ftz r (x.laneN a.toNat l) (x.laneN b.toNat l) (x.laneN d.toNat l)) s
  | .vfmin d a b => vecFp2 d a b (fun _ z _ => fpMinMax fmtFP32 z false) s
  | .vfmax d a b => vecFp2 d a b (fun _ z _ => fpMinMax fmtFP32 z true) s
  | .vfdiv d a b => vecFp2 d a b (fpDiv fmtFP32) s
  | .vfsqrt d a => vecFp1 d a (fpSqrt fmtFP32) s
  | .vrcp d a => vecFp d 0 (fun x l _ => transcend valRcp s.ftz (x.laneN a.toNat l)) s
  | .vrsq d a => vecFp d 0 (fun x l _ => transcend valRsq s.ftz (x.laneN a.toNat l)) s
  | .vexp2 d a => vecFp d 0 (fun x l _ => transcend valExp2 s.ftz (x.laneN a.toNat l)) s
  | .vlog2 d a => vecFp d 0 (fun x l _ => transcend valLog2 s.ftz (x.laneN a.toNat l)) s
  | .vsin d a => vecFp d 0 (fun x l _ => transcend valSin s.ftz (x.laneN a.toNat l)) s
  | .vcos d a => vecFp d 0 (fun x l _ => transcend valCos s.ftz (x.laneN a.toNat l)) s
  | .vfclass d a => vecWrite d (fun x l => BitVec.ofNat 32 (2 ^ fpClass fmtFP32 (x.laneN a.toNat l))) s
  | .vfcmpEq d a b => vecFcmp 0 d a b s
  | .vfcmpNe d a b => vecFcmp 1 d a b s
  | .vfcmpLt d a b => vecFcmp 2 d a b s
  | .vfcmpLe d a b => vecFcmp 3 d a b s
  | .vfcmpGt d a b => vecFcmp 4 d a b s
  | .vfcmpGe d a b => vecFcmp 5 d a b s
  | .vfcmpUn d a b => vecFcmp 6 d a b s
  | .vfcvt d a t r c => vecFp d (s.mode r.toNat) (fun x l n => vfcvtOp c.toNat (s.mode r.toNat) (decide (t = 1)) s.ftz n (x.laneN a.toNat l)) s
  | .vbadd2 d a b => vecHalves d a b (fun m z r x y _ => fpAdd fmtBF16 m z r x y) s
  | .vbmul2 d a b => vecHalves d a b (fun m z r x y _ => fpMul fmtBF16 m z r x y) s
  | .vbfma2 d a b => vecHalves d a b (fun m z r x y w => fpFma fmtBF16 m z r x y w) s
  | .vpk d a b => vecFp d s.rm (fun x l r =>
      let lo := fpConvert fmtFP32 fmtBF16 s.rm false s.ftz r (x.laneN a.toNat l)
      let hi := fpConvert fmtFP32 fmtBF16 s.rm false s.ftz (fun i => r (i + 2)) (x.laneN b.toNat l)
      (lo.1 + hi.1 * 2 ^ 16, lo.2 ||| hi.2)) s
  | .vunpkLo d a => vecFp d 0 (fun x l _ => unpack (x.laneN a.toNat l % 2 ^ 16)) s
  | .vunpkHi d a => vecFp d 0 (fun x l _ => unpack (x.laneN a.toNat l / 2 ^ 16)) s
  | .vdot4I8 d a b => vecWrite d (fun x l => dot4 true (x.lane a.toNat l) (x.lane b.toNat l) (x.lane d.toNat l)) s
  | .vdot4Ui8 d a b => vecWrite d (fun x l => dot4 false (x.lane a.toNat l) (x.lane b.toNat l) (x.lane d.toNat l)) s
  | .vdotb d a b => vecFp d s.rm (fun x l r => dotb s.rm s.ftz r (x.laneN a.toNat l) (x.laneN b.toNat l) (x.laneN d.toNat l)) s
  | .vrebal d a c => vecRebal d a c s
  | .vplane d a c => vecPlane d a c s
  | _ => s

/-- Execute a vector instruction: its effect, then the next instruction. -/
def vecExec (i : Instr) (s : State) : Res := checked i s fun s => (vecEffect i s).advance

/-- 06 R160. -/
def execVadd (d : BitVec 7) (a : BitVec 7) (b : BitVec 7) (s : State) : Res := vecExec (.vadd d a b) s
/-- 06 R160. -/
def execVsub (d : BitVec 7) (a : BitVec 7) (b : BitVec 7) (s : State) : Res := vecExec (.vsub d a b) s
/-- 06 R160. -/
def execVmul (d : BitVec 7) (a : BitVec 7) (b : BitVec 7) (s : State) : Res := vecExec (.vmul d a b) s
/-- 06 R160. -/
def execVmulh (d : BitVec 7) (a : BitVec 7) (b : BitVec 7) (s : State) : Res := vecExec (.vmulh d a b) s
/-- 06 R160. -/
def execVmad (d : BitVec 7) (a : BitVec 7) (b : BitVec 7) (s : State) : Res := vecExec (.vmad d a b) s
/-- 06 R160. -/
def execVand (d : BitVec 7) (a : BitVec 7) (b : BitVec 7) (s : State) : Res := vecExec (.vand d a b) s
/-- 06 R160. -/
def execVor (d : BitVec 7) (a : BitVec 7) (b : BitVec 7) (s : State) : Res := vecExec (.vor d a b) s
/-- 06 R160. -/
def execVxor (d : BitVec 7) (a : BitVec 7) (b : BitVec 7) (s : State) : Res := vecExec (.vxor d a b) s
/-- 06 R160. -/
def execVandn (d : BitVec 7) (a : BitVec 7) (b : BitVec 7) (s : State) : Res := vecExec (.vandn d a b) s
/-- 06 R160. -/
def execVshl (d : BitVec 7) (a : BitVec 7) (b : BitVec 7) (s : State) : Res := vecExec (.vshl d a b) s
/-- 06 R160. -/
def execVshr (d : BitVec 7) (a : BitVec 7) (b : BitVec 7) (s : State) : Res := vecExec (.vshr d a b) s
/-- 06 R160. -/
def execVsra (d : BitVec 7) (a : BitVec 7) (b : BitVec 7) (s : State) : Res := vecExec (.vsra d a b) s
/-- 06 R160. -/
def execVmin (d : BitVec 7) (a : BitVec 7) (b : BitVec 7) (s : State) : Res := vecExec (.vmin d a b) s
/-- 06 R160. -/
def execVmax (d : BitVec 7) (a : BitVec 7) (b : BitVec 7) (s : State) : Res := vecExec (.vmax d a b) s
/-- 06 R160. -/
def execVminu (d : BitVec 7) (a : BitVec 7) (b : BitVec 7) (s : State) : Res := vecExec (.vminu d a b) s
/-- 06 R160. -/
def execVmaxu (d : BitVec 7) (a : BitVec 7) (b : BitVec 7) (s : State) : Res := vecExec (.vmaxu d a b) s
/-- 06 R160. -/
def execVabs (d : BitVec 7) (a : BitVec 7) (s : State) : Res := vecExec (.vabs d a) s
/-- 06 R160. -/
def execVsel (d : BitVec 7) (a : BitVec 7) (b : BitVec 7) (s : State) : Res := vecExec (.vsel d a b) s
/-- 06 R160. -/
def execVmov (d : BitVec 7) (a : BitVec 7) (s : State) : Res := vecExec (.vmov d a) s
/-- 06 R160. -/
def execVcmpEq (d : BitVec 7) (a : BitVec 7) (b : BitVec 7) (s : State) : Res := vecExec (.vcmpEq d a b) s
/-- 06 R160. -/
def execVcmpNe (d : BitVec 7) (a : BitVec 7) (b : BitVec 7) (s : State) : Res := vecExec (.vcmpNe d a b) s
/-- 06 R160. -/
def execVcmpLt (d : BitVec 7) (a : BitVec 7) (b : BitVec 7) (s : State) : Res := vecExec (.vcmpLt d a b) s
/-- 06 R160. -/
def execVcmpGe (d : BitVec 7) (a : BitVec 7) (b : BitVec 7) (s : State) : Res := vecExec (.vcmpGe d a b) s
/-- 06 R160. -/
def execVcmpLtu (d : BitVec 7) (a : BitVec 7) (b : BitVec 7) (s : State) : Res := vecExec (.vcmpLtu d a b) s
/-- 06 R160. -/
def execVcmpGeu (d : BitVec 7) (a : BitVec 7) (b : BitVec 7) (s : State) : Res := vecExec (.vcmpGeu d a b) s
/-- 06 R161. -/
def execVaddi (d : BitVec 7) (a : BitVec 7) (i : BitVec 12) (s : State) : Res := vecExec (.vaddi d a i) s
/-- 06 R161. -/
def execVshli (d : BitVec 7) (a : BitVec 7) (s : BitVec 5) (t : State) : Res := vecExec (.vshli d a s) t
/-- 06 R161. -/
def execVshri (d : BitVec 7) (a : BitVec 7) (s : BitVec 5) (t : State) : Res := vecExec (.vshri d a s) t
/-- 06 R161. -/
def execVsrai (d : BitVec 7) (a : BitVec 7) (s : BitVec 5) (t : State) : Res := vecExec (.vsrai d a s) t
/-- 06 R161. -/
def execVandi (d : BitVec 7) (a : BitVec 7) (i : BitVec 9) (s : State) : Res := vecExec (.vandi d a i) s
/-- 06 R161. -/
def execVori (d : BitVec 7) (a : BitVec 7) (i : BitVec 9) (s : State) : Res := vecExec (.vori d a i) s
/-- 06 R161. -/
def execVxori (d : BitVec 7) (a : BitVec 7) (i : BitVec 9) (s : State) : Res := vecExec (.vxori d a i) s
/-- 06 R161. -/
def execVmovi (d : BitVec 7) (i : BitVec 12) (s : State) : Res := vecExec (.vmovi d i) s
/-- 06 R167. -/
def execVbcst (d : BitVec 7) (c : BitVec 6) (s : State) : Res := vecExec (.vbcst d c) s
/-- 06 R167. -/
def execVshfl (d : BitVec 7) (a : BitVec 7) (c : BitVec 6) (s : State) : Res := vecExec (.vshfl d a c) s
/-- 06 R167. -/
def execVrot (d : BitVec 7) (a : BitVec 7) (c : BitVec 6) (s : State) : Res := vecExec (.vrot d a c) s
/-- 06 R168. -/
def execVredAdd (a : BitVec 7) (c : BitVec 6) (s : State) : Res := vecExec (.vredAdd a c) s
/-- 06 R168. -/
def execVredMin (a : BitVec 7) (c : BitVec 6) (s : State) : Res := vecExec (.vredMin a c) s
/-- 06 R168. -/
def execVredMax (a : BitVec 7) (c : BitVec 6) (s : State) : Res := vecExec (.vredMax a c) s
/-- 06 R168. -/
def execVredMinu (a : BitVec 7) (c : BitVec 6) (s : State) : Res := vecExec (.vredMinu a c) s
/-- 06 R168. -/
def execVredMaxu (a : BitVec 7) (c : BitVec 6) (s : State) : Res := vecExec (.vredMaxu a c) s
/-- 06 R168. -/
def execVredAnd (a : BitVec 7) (c : BitVec 6) (s : State) : Res := vecExec (.vredAnd a c) s
/-- 06 R168. -/
def execVredOr (a : BitVec 7) (c : BitVec 6) (s : State) : Res := vecExec (.vredOr a c) s
/-- 06 R168. -/
def execVredXor (a : BitVec 7) (c : BitVec 6) (s : State) : Res := vecExec (.vredXor a c) s
/-- 06 R168. -/
def execVredFadd (a : BitVec 7) (c : BitVec 6) (s : State) : Res := vecExec (.vredFadd a c) s
/-- 06 R168. -/
def execVredFmin (a : BitVec 7) (c : BitVec 6) (s : State) : Res := vecExec (.vredFmin a c) s
/-- 06 R168. -/
def execVredFmax (a : BitVec 7) (c : BitVec 6) (s : State) : Res := vecExec (.vredFmax a c) s
/-- 06 R168. -/
def execVballot (a : BitVec 7) (c : BitVec 6) (s : State) : Res := vecExec (.vballot a c) s
/-- 06 R168. -/
def execVpopc (a : BitVec 7) (c : BitVec 6) (s : State) : Res := vecExec (.vpopc a c) s
/-- 06 R168. -/
def execVfirst (a : BitVec 7) (c : BitVec 6) (s : State) : Res := vecExec (.vfirst a c) s
/-- 06 R167. -/
def execVextr (l : BitVec 5) (a : BitVec 7) (c : BitVec 6) (s : State) : Res := vecExec (.vextr l a c) s
/-- 06 R167. -/
def execVins (d : BitVec 7) (l : BitVec 5) (c : BitVec 6) (s : State) : Res := vecExec (.vins d l c) s
/-- 06 R166. -/
def execVperm (d : BitVec 7) (a : BitVec 7) (b : BitVec 7) (s : State) : Res := vecExec (.vperm d a b) s
/-- 06 R166. -/
def execVscanAdd (d : BitVec 7) (a : BitVec 7) (s : State) : Res := vecExec (.vscanAdd d a) s
/-- 06 R166. -/
def execVscanFadd (d : BitVec 7) (a : BitVec 7) (s : State) : Res := vecExec (.vscanFadd d a) s
/-- 06 R166. -/
def execVscanMin (d : BitVec 7) (a : BitVec 7) (s : State) : Res := vecExec (.vscanMin d a) s
/-- 06 R166. -/
def execVscanMax (d : BitVec 7) (a : BitVec 7) (s : State) : Res := vecExec (.vscanMax d a) s
/-- 06 R166. -/
def execVlane (d : BitVec 7) (s : State) : Res := vecExec (.vlane d) s
/-- 06 R162. -/
def execVfadd (d : BitVec 7) (a : BitVec 7) (b : BitVec 7) (s : State) : Res := vecExec (.vfadd d a b) s
/-- 06 R162. -/
def execVfsub (d : BitVec 7) (a : BitVec 7) (b : BitVec 7) (s : State) : Res := vecExec (.vfsub d a b) s
/-- 06 R162. -/
def execVfmul (d : BitVec 7) (a : BitVec 7) (b : BitVec 7) (s : State) : Res := vecExec (.vfmul d a b) s
/-- 06 R162. -/
def execVfma (d : BitVec 7) (a : BitVec 7) (b : BitVec 7) (s : State) : Res := vecExec (.vfma d a b) s
/-- 06 R162. -/
def execVfmin (d : BitVec 7) (a : BitVec 7) (b : BitVec 7) (s : State) : Res := vecExec (.vfmin d a b) s
/-- 06 R162. -/
def execVfmax (d : BitVec 7) (a : BitVec 7) (b : BitVec 7) (s : State) : Res := vecExec (.vfmax d a b) s
/-- 06 R162. -/
def execVfdiv (d : BitVec 7) (a : BitVec 7) (b : BitVec 7) (s : State) : Res := vecExec (.vfdiv d a b) s
/-- 06 R162. -/
def execVfsqrt (d : BitVec 7) (a : BitVec 7) (s : State) : Res := vecExec (.vfsqrt d a) s
/-- 06 R163. -/
def execVrcp (d : BitVec 7) (a : BitVec 7) (s : State) : Res := vecExec (.vrcp d a) s
/-- 06 R163. -/
def execVrsq (d : BitVec 7) (a : BitVec 7) (s : State) : Res := vecExec (.vrsq d a) s
/-- 06 R163. -/
def execVexp2 (d : BitVec 7) (a : BitVec 7) (s : State) : Res := vecExec (.vexp2 d a) s
/-- 06 R163. -/
def execVlog2 (d : BitVec 7) (a : BitVec 7) (s : State) : Res := vecExec (.vlog2 d a) s
/-- 06 R163. -/
def execVsin (d : BitVec 7) (a : BitVec 7) (s : State) : Res := vecExec (.vsin d a) s
/-- 06 R163. -/
def execVcos (d : BitVec 7) (a : BitVec 7) (s : State) : Res := vecExec (.vcos d a) s
/-- 06 R162. -/
def execVfclass (d : BitVec 7) (a : BitVec 7) (s : State) : Res := vecExec (.vfclass d a) s
/-- 06 R162. -/
def execVfcmpEq (d : BitVec 7) (a : BitVec 7) (b : BitVec 7) (s : State) : Res := vecExec (.vfcmpEq d a b) s
/-- 06 R162. -/
def execVfcmpNe (d : BitVec 7) (a : BitVec 7) (b : BitVec 7) (s : State) : Res := vecExec (.vfcmpNe d a b) s
/-- 06 R162. -/
def execVfcmpLt (d : BitVec 7) (a : BitVec 7) (b : BitVec 7) (s : State) : Res := vecExec (.vfcmpLt d a b) s
/-- 06 R162. -/
def execVfcmpLe (d : BitVec 7) (a : BitVec 7) (b : BitVec 7) (s : State) : Res := vecExec (.vfcmpLe d a b) s
/-- 06 R162. -/
def execVfcmpGt (d : BitVec 7) (a : BitVec 7) (b : BitVec 7) (s : State) : Res := vecExec (.vfcmpGt d a b) s
/-- 06 R162. -/
def execVfcmpGe (d : BitVec 7) (a : BitVec 7) (b : BitVec 7) (s : State) : Res := vecExec (.vfcmpGe d a b) s
/-- 06 R162. -/
def execVfcmpUn (d : BitVec 7) (a : BitVec 7) (b : BitVec 7) (s : State) : Res := vecExec (.vfcmpUn d a b) s
/-- 06 R164. -/
def execVfcvt (d : BitVec 7) (a : BitVec 7) (s : BitVec 1) (r : BitVec 3) (c : BitVec 5) (t : State) : Res := vecExec (.vfcvt d a s r c) t
/-- 06 R165. -/
def execVbadd2 (d : BitVec 7) (a : BitVec 7) (b : BitVec 7) (s : State) : Res := vecExec (.vbadd2 d a b) s
/-- 06 R165. -/
def execVbmul2 (d : BitVec 7) (a : BitVec 7) (b : BitVec 7) (s : State) : Res := vecExec (.vbmul2 d a b) s
/-- 06 R165. -/
def execVbfma2 (d : BitVec 7) (a : BitVec 7) (b : BitVec 7) (s : State) : Res := vecExec (.vbfma2 d a b) s
/-- 06 R165. -/
def execVpk (d : BitVec 7) (a : BitVec 7) (b : BitVec 7) (s : State) : Res := vecExec (.vpk d a b) s
/-- 06 R165. -/
def execVunpkLo (d : BitVec 7) (a : BitVec 7) (s : State) : Res := vecExec (.vunpkLo d a) s
/-- 06 R165. -/
def execVunpkHi (d : BitVec 7) (a : BitVec 7) (s : State) : Res := vecExec (.vunpkHi d a) s
/-- 06 R165. -/
def execVdot4I8 (d : BitVec 7) (a : BitVec 7) (b : BitVec 7) (s : State) : Res := vecExec (.vdot4I8 d a b) s
/-- 06 R165. -/
def execVdot4Ui8 (d : BitVec 7) (a : BitVec 7) (b : BitVec 7) (s : State) : Res := vecExec (.vdot4Ui8 d a b) s
/-- 06 R165. -/
def execVdotb (d : BitVec 7) (a : BitVec 7) (b : BitVec 7) (s : State) : Res := vecExec (.vdotb d a b) s
/-- 06 R176. -/
def execVrebal (d : BitVec 7) (a : BitVec 7) (c : BitVec 6) (s : State) : Res := vecExec (.vrebal d a c) s
/-- 06 R177. -/
def execVplane (d : BitVec 7) (a : BitVec 7) (c : BitVec 6) (s : State) : Res := vecExec (.vplane d a c) s

end Sys2Proof.Machine
end

