-- ==== Sys2Proof/Machine/Control.lean ====
section
/-! DEFINITION. Structured control (06 R169 to R172), the repetition buffer (R173 to R175), and the vector
memory instructions (09 R223 to R226, R230). -/

namespace Sys2Proof.Machine

/-! ### Structured control -/

/-- The counter and break bit of a lane. -/
def Wave.nest (x : Wave) (l : Nat) : Nat × Bool := (Tbl.get 0 x.nc l, Tbl.get false x.bk l)
def Wave.setNest (x : Wave) (f : Nat → Nat × Bool) : Wave :=
  { x with
    nc := lanes32.foldl (fun t l => Tbl.put 0 t l (f l).1) x.nc
    bk := lanes32.foldl (fun t l => Tbl.put false t l (f l).2) x.bk }

/-- Change every lane at once; a counter that would pass 127 raises NEST and changes nothing (05 R131). -/
def nestStep (i : Instr) (f : Wave → Nat → Nat × Bool) (s : State) : State :=
  let x := s.curWave
  if lanes32.any fun l => decide (127 < (f x l).1) then raise s (codeTrap .nest i.code)
  else (s.modCur (·.setNest (f x))).advance

/-- A lane's condition. -/
def Wave.cond (x : Wave) (a : BitVec 7) (l : Nat) : Bool := decide (x.lane a.toNat l ≠ 0)

/-- 06 R169. -/
def execVif (a : BitVec 7) (s : State) : Res :=
  checked (.vif a) s (nestStep (.vif a) fun x l =>
    let (n, b) := x.nest l
    if b then (n, b) else if n = 0 then (if x.cond a l then 0 else 1, b) else (n + 1, b))
/-- 06 R169. -/
def execVelse (s : State) : Res :=
  checked .velse s (nestStep .velse fun x l =>
    let (n, b) := x.nest l
    if b then (n, b) else (if n = 0 then 1 else if n = 1 then 0 else n, b))
/-- 06 R169. -/
def execVendif (s : State) : Res :=
  checked .vendif s (nestStep .vendif fun x l =>
    let (n, b) := x.nest l
    if b then (n, b) else (n - 1, b))
/-- 06 R169. -/
def execVloop (s : State) : Res :=
  checked .vloop s (nestStep .vloop fun x l =>
    let (n, b) := x.nest l
    if b then (n + 2, b) else if n = 0 then (0, b) else (n + 1, b))
/-- 06 R169. -/
def execVbrk (a : BitVec 7) (s : State) : Res :=
  checked (.vbrk a) s (nestStep (.vbrk a) fun x l => if x.active l && x.cond a l then (0, true) else x.nest l)
/-- 06 R169. -/
def execVcont (a : BitVec 7) (s : State) : Res :=
  checked (.vcont a) s (nestStep (.vcont a) fun x l => if x.active l && x.cond a l then (1, true) else x.nest l)

/-- A branch by a signed 12-bit word offset (02 R41). -/
def branch12 (c : Bool) (i : BitVec 12) (s : State) : State := if c then s.branch (4 * i.toInt) else s.advance

/-- 06 R170. -/
def execVendl (i : BitVec 12) (s : State) : Res :=
  checked (.vendl i) s fun s =>
    let x := s.curWave
    let y := x.setNest fun l => if x.nest l = (1, true) then (0, false) else x.nest l
    if !y.lanes.isEmpty then branch12 true i (s.modCur fun _ => y)
    else
      let z := y.setNest fun l =>
        let (n, b) := y.nest l
        if b && decide (n = 0) then (0, false) else if b then (n - 2, b) else (n - 1, b)
      (s.modCur fun _ => z).advance
/-- 06 R171. -/
def execVany (a : BitVec 7) (i : BitVec 12) (s : State) : Res :=
  checked (.vany a i) s fun s => branch12 (s.curWave.lanes.any (s.curWave.cond a)) i s
/-- 06 R171. -/
def execVnone (a : BitVec 7) (i : BitVec 12) (s : State) : Res :=
  checked (.vnone a i) s fun s => branch12 (!s.curWave.lanes.any (s.curWave.cond a)) i s

/-! ### Fetching words (01 R32, R38) -/

/-- A line of the instruction cache is used; it holds 256, of which the one unused for longest goes (00 R1; log 41). -/
def useIcache (c : Core) (line : Nat) (data : Nat × List Byte) : Core :=
  let use := line :: c.icuse.filter (· ≠ line)
  let ic := Tbl.set c.icache line data
  match use[256]? with
  | some v => { c with icache := Tbl.erase ic v, icuse := use.filter (· ≠ v) }
  | none => { c with icache := ic, icuse := use }

/-- The little-endian word at a key in a copy of its line. -/
def lineWord (k : Nat) (bs : List Byte) : W32 := BitVec.ofNat 32 (ofBytes ((bs.drop (k % 128)).take 4))

/-- The wave whose own stores a fetch must see: none for a context. -/
def State.fetcher (s : State) : Option Nat := match s.cur with
  | .wave w => some w
  | _ => none

/-- The place of the launch slot's write that the grid of the agent that moves came from (22 R454). -/
def State.curHost (s : State) : Nat := match s.cur with
  | .ctx v n => ((s.grid? (s.ctx v n).grid).map (·.host)).getD 0
  | _ => hostSeen s s.fetcher
/-- A copy of a line as old as `no` lacks no write of the host that the agent that moves must see (22 R454). -/
def freshFor (s : State) (line no : Nat) : Bool := hostFresh s s.curHost line no

/-- The words that a core may still fetch in place of the one that memory holds, until an INVI on it: the cached
word, and those of the line before writes (01 R38; log 14). -/
def oldWords (s : State) (core key : Nat) : List W32 :=
  let c := s.core core
  let line := lineOf key
  (match Tbl.get? c.icache line with
    | some bs => if freshFor s line bs.1 then [lineWord key bs.2] else []
    | none => [])
  ++ ((Tbl.get [] s.olds line).filter fun o => decide (c.inviAt ≤ o.invis) && freshFor s line o.no).map fun o => lineWord key o.data

/-- The line of a word enters the instruction cache as it is below the store gather buffer and what that holds. -/
def fillIcache (s : State) (core key : Nat) : State :=
  let k := lineOf key * 128
  s.modCore core fun c => useIcache c (lineOf key) (s.seq, overlaySgb c k (memBytes s k 128))

/-- The word at a place: what a bypass load gives, or a word from before a write (01 R38, 04 R129). Scratch is
never cached (01 R23). -/
def fetchWord (s : State) (core key : Nat) : W32 × State :=
  let read (s : State) : W32 × State :=
    let (g, s) := bypassRead s core s.fetcher key 4 1
    (BitVec.ofNat 32 (ofBytes g.bytes), if isScratch key then s else fillIcache s core key)
  if isScratch key then read s
  else
    let now := BitVec.ofNat 32 (ofBytes (overlaySgb (s.core core) key (memBytes s key 4)))
    match (oldWords s core key).find? (· ≠ now) with
    | none => match Tbl.get? (s.core core).icache (lineOf key) with
      | some bs => (now, s.modCore core (useIcache · (lineOf key) bs))
      | none => read s
    | some old =>
      let (b, s) := drawBit s
      if b then (old, s) else read s

/-- Fetch through a capability at an address (01 R32). A word whose line cannot be read raises ECC (18 R403). -/
def fetchAt (s : State) (cap : Cap) (ea : Nat) : Except Trap W32 × State :=
  match checkAccess s cap ea 4 permEX 4 .fetch with
  | (.error t, s) => (.error t, s)
  | (.ok p, s) =>
    let s := noteLeaf s p
    if homeBad s p.key then (.error ⟨.ecc, BitVec.ofNat 64 (lineOf p.key * 128)⟩, s)
    else
      let (w, s) := fetchWord s s.curCore p.key
      (.ok w, s)

/-! ### REP -/

/-- Fetch `n` words from an address on, or the fault of the first that fails. -/
def fetchBody (s : State) (cap : Cap) (ea : Nat) : Nat → Except Trap (List W32) × State
  | 0 => (.ok [], s)
  | n + 1 =>
    match fetchAt s cap ea with
    | (.error t, s) => (.error t, s)
    | (.ok w, s) =>
      match fetchBody s cap (ea + 4) n with
      | (.error t, s) => (.error t, s)
      | (.ok ws, s) => (.ok (w :: ws), s)

/-- Which of the vd, va and vb places of a body word name a vector register that may stagger (06 R173). -/
def staggers (w : W32) : Bool × Bool × Bool :=
  let major := fld w 26 6
  if major = 0x21 ∨ major = 0x22 then (true, true, false)
  else if major = 0x23 then (true, false, false)
  else if major = 0x24 then
    let f := fld w 0 6
    if f = 0 then (true, false, false)
    else if f = 1 ∨ f = 2 then (true, true, false)
    else if f = 0x14 then (true, false, false)
    else (false, true, false)
  else if major = 0x25 then (if fld w 0 5 = 0 then (true, true, true) else if fld w 0 5 = 5 then (true, false, false) else (true, true, false))
  else if major = 0x27 then (true, true, false)
  else if major = 0x20 then (true, true, !(fld w 0 5 = 0x10 ∨ fld w 0 5 = 0x12))
  else if major = 0x26 then (true, true, !(7 ≤ fld w 0 5 ∧ fld w 0 5 ≤ 0x0E))
  else (true, true, !(fld w 0 5 = 4 ∨ fld w 0 5 = 5))

/-- A body word on a pass: its staggered fields moved, unless one passes 127 (06 R173, R174). -/
def staggerWord (sd sa sb : Bool) (step : Nat) (w : W32) : Option W32 :=
  let (d, a, b) := staggers w
  let move (on : Bool) (lo : Nat) (w : Option W32) : Option W32 :=
    w.bind fun w => if on then (if fld w lo 7 + step < 128 then some (setFld w lo 7 (fld w lo 7 + step)) else none) else some w
  move (sb && b) 5 (move (sa && a) 12 (move (sd && d) 19 (some w)))

/-- A word of majors 0x20 to 0x28, decoded. -/
def decodeVec (w : W32) : Option Instr :=
  (match fld w 26 6 with
    | 0x20 => decode20 w
    | 0x21 => accept w [] (.vaddi (opnd w 19 7) (opnd w 12 7) (opnd w 0 12))
    | 0x22 => decode22 w
    | 0x23 => accept w [(12, 7)] (.vmovi (opnd w 19 7) (opnd w 0 12))
    | 0x24 => decode24 w
    | 0x25 => decode25 w
    | 0x26 => decode26 w
    | 0x27 => accept w [(9, 3)] (.vfcvt (opnd w 19 7) (opnd w 12 7) (opnd w 8 1) (opnd w 5 3) (opnd w 0 5))
    | 0x28 => decode28 w
    | _ => .error .unassigned).toOption

/-- The instructions of every pass in order; none if R174 refuses one. -/
def repPlan (sd sa sb : Bool) (stride : Nat) (x : Wave) (body : List W32) : Nat → Option (List Instr)
  | 0 => some []
  | n + 1 =>
    (repPlan sd sa sb stride x body n).bind fun before =>
      (body.mapM fun w => (decodeVec w).bind fun _ => (staggerWord sd sa sb (n * stride) w).bind decodeVec).bind fun is =>
        if is.any fun i => vregBad x (regs i) then none else some (before ++ is)

/-- 06 R173 to R175. DESIGN CHOICE (log 46): a body that reads a register with a deferred ECC mark faults, and one that
needs a pending load waits, before any pass, though an earlier body word would write that register. -/
def execRep (l : BitVec 4) (c : BitVec 7) (x y z : BitVec 1) (s : BitVec 6) (t : State) : Res :=
  checked (.rep l c x y z s) t fun t =>
    match fetchBody t t.pc (t.pc.addr + 4) (l.toNat + 1) with
    | (.error e, t) => raise t e
    | (.ok body, t) =>
      match repPlan (x = 1) (y = 1) (z = 1) s.toNat t.curWave body (c.toNat + 1) with
      | none => raise t (codeTrap .illegal (Instr.rep l c x y z s).code)
      | some is =>
        let go (t : State) : State :=
          let t := is.foldl (fun t i => vecEffect i t) t
          t.setPc (t.pc.setAddr (t.pc.addr + 4 * (l.toNat + 2)))
        match is.find? fun i => waveVerdict i t.curWave ≠ .go with
        | none => go t
        | some i => match waveVerdict i t.curWave with
          | .trap e dfr => waveFault (if dfr then t.modCur (·.told (regs i)) else t) t.curW e dfr
          | .hold => stall t
          | .go => go t

/-! ### Vector memory -/

/-- Element bytes and sign extension by FMT (09 R223). -/
def vecElem (fmt : Nat) : Nat × Bool :=
  if fmt ≤ 1 then (4, false) else if fmt ≤ 3 then (2, false) else (1, decide (fmt = 6))

/-- Each active lane's place, or the fault of the lowest lane that fails (09 R224). -/
def lanePlaces (cap : Cap) (off : Nat → Int) (n need : Nat) (u : Use) (s : State) :
    List Nat → Except Trap (List (Nat × Place)) × State
  | [] => (.ok [], s)
  | l :: t =>
    match checkAccess s cap ((cap.addr : Int) + off l) n need n u with
    | (.error e, s) => (.error e, s)
    | (.ok p, s) =>
      match lanePlaces cap off n need u (noteLeaf s p) t with
      | (.error e, s) => (.error e, s)
      | (.ok ps, s) => (.ok ((l, p) :: ps), s)

/-- Continue with the places of the active lanes; with no active lane no access is made (09 R224). -/
def withLanes (s : State) (cap : Cap) (va n need : Nat) (u : Use) (k : List (Nat × Place) → State → State) : State :=
  match lanePlaces cap (fun l => (s.curWave.lane va l).toInt) n need u s s.curWave.lanes with
  | (.error e, s) => raise s e
  | (.ok [], s) => s.advance
  | (.ok ps, s) =>
    if ps.any fun p => watermarkHeld s (cap.addr + (s.curWave.lane va p.1).toInt : Int).toNat n then park s .timed else k ps s

/-- VLD and VLDMC (09 R224, R226). -/
def vecLoad (mc : Bool) (d a : BitVec 7) (c : BitVec 6) (sid : BitVec 4) (q : BitVec 2) (s : State) : State :=
  let cap := s.reg c.toNat
  let e := vecElem cap.fmt
  withLanes s cap a.toNat e.1 permLD .load fun ps s =>
    issue s { wave := s.curW, sid := sid.toNat, q := q.toNat,
              kind := .vload d.toNat e.1 e.2 mc (ps.map fun p => (p.1, p.2.key)), rep := ps.all fun p => p.2.leaf.any fun l => pteREP l.pte }
/-- 09 R224. -/
def execVld (d a : BitVec 7) (c : BitVec 6) (s : BitVec 4) (q : BitVec 2) (t : State) : Res :=
  checked (.vld d a c s q) t (vecLoad false d a c s q)
/-- 09 R226. -/
def execVldmc (d a : BitVec 7) (c : BitVec 6) (s : BitVec 4) (q : BitVec 2) (t : State) : Res :=
  checked (.vldmc d a c s q) t (vecLoad true d a c s q)

/-- Of lanes that write the same bytes only the highest is written (09 R225). -/
def lastLanes : List (Nat × Place) → List (Nat × Place)
  | [] => []
  | p :: t => if t.any fun y => y.2.key = p.2.key then lastLanes t else p :: lastLanes t

/-- 09 R224, R225: each lane goes by its own policy level, gathered or direct. -/
def execVst (d a : BitVec 7) (c : BitVec 6) (s : BitVec 4) (q : BitVec 2) (t : State) : Res :=
  checked (.vst d a c s q) t fun t =>
    let cap := t.reg c.toNat
    let n := (vecElem cap.fmt).1
    let x := t.curWave
    let w := t.curW
    withLanes t cap a.toNat n permST .store fun ps t =>
      let ps := lastLanes ps
      let out (p : Nat × Place) : Nat × List Byte := (p.2.key, bytesOf n (x.laneN d.toNat p.1))
      let gathered := if q = 0 then ps.filter fun p => !isScratch p.2.key else []
      let direct := if q = 0 then ps.filter fun p => isScratch p.2.key else ps
      let r : Req := { wave := w, sid := s.toNat, q := q.toNat, kind := .store (direct.map out) false }
      if gathered.isEmpty then issue t r
      else if ownHeld t w false (direct.map fun p => (p.2.key, n)) then stall t
      else issueGather t w s.toNat (gathered.map out) false fun t => (send t r).advance

/-- VATOM and VACAS of `n` bytes (09 R230). -/
def vecAtomic (op : AtomOp) (n : Nat) (d : BitVec 7) (o : BitVec 4) (a : BitVec 6) (sid : BitVec 4) (s : State) : State :=
  let x := s.curWave
  let val (r l : Nat) : Nat := x.laneN r l + (if n = 8 then x.laneN (r + 1) l * 2 ^ 32 else 0)
  let opd := if op = .cas then d.toNat + n / 4 else d.toNat
  withLanes s (s.reg a.toNat) (8 * o.toNat) n (permLD + permST + permAT) .store fun ps s =>
    issue s { wave := s.curW, sid := sid.toNat, q := 1,
              kind := .vatom d.toNat n op (ps.map fun p => ⟨p.1, p.2.key, val opd p.1, val d.toNat p.1, ((s.reg a.toNat).addr + (x.lane (8 * o.toNat) p.1).toInt : Int).toNat⟩) }

/-- 09 R230, R231. -/
def execVatomAdd (d : BitVec 7) (o : BitVec 4) (w : BitVec 1) (a : BitVec 6) (s : BitVec 4) (t : State) : Res :=
  checked (.vatomAdd d o w a s) t (vecAtomic .add (if w = 1 then 8 else 4) d o a s)
/-- 09 R230, R231. -/
def execVatomMin (d : BitVec 7) (o : BitVec 4) (w : BitVec 1) (a : BitVec 6) (s : BitVec 4) (t : State) : Res :=
  checked (.vatomMin d o w a s) t (vecAtomic .min (if w = 1 then 8 else 4) d o a s)
/-- 09 R230, R231. -/
def execVatomMax (d : BitVec 7) (o : BitVec 4) (w : BitVec 1) (a : BitVec 6) (s : BitVec 4) (t : State) : Res :=
  checked (.vatomMax d o w a s) t (vecAtomic .max (if w = 1 then 8 else 4) d o a s)
/-- 09 R230, R231. -/
def execVatomMinu (d : BitVec 7) (o : BitVec 4) (w : BitVec 1) (a : BitVec 6) (s : BitVec 4) (t : State) : Res :=
  checked (.vatomMinu d o w a s) t (vecAtomic .minu (if w = 1 then 8 else 4) d o a s)
/-- 09 R230, R231. -/
def execVatomMaxu (d : BitVec 7) (o : BitVec 4) (w : BitVec 1) (a : BitVec 6) (s : BitVec 4) (t : State) : Res :=
  checked (.vatomMaxu d o w a s) t (vecAtomic .maxu (if w = 1 then 8 else 4) d o a s)
/-- 09 R230, R231. -/
def execVatomAnd (d : BitVec 7) (o : BitVec 4) (w : BitVec 1) (a : BitVec 6) (s : BitVec 4) (t : State) : Res :=
  checked (.vatomAnd d o w a s) t (vecAtomic .and (if w = 1 then 8 else 4) d o a s)
/-- 09 R230, R231. -/
def execVatomOr (d : BitVec 7) (o : BitVec 4) (w : BitVec 1) (a : BitVec 6) (s : BitVec 4) (t : State) : Res :=
  checked (.vatomOr d o w a s) t (vecAtomic .or (if w = 1 then 8 else 4) d o a s)
/-- 09 R230, R231. -/
def execVatomXor (d : BitVec 7) (o : BitVec 4) (w : BitVec 1) (a : BitVec 6) (s : BitVec 4) (t : State) : Res :=
  checked (.vatomXor d o w a s) t (vecAtomic .xor (if w = 1 then 8 else 4) d o a s)
/-- 09 R230, R231. -/
def execVatomSwap (d : BitVec 7) (o : BitVec 4) (w : BitVec 1) (a : BitVec 6) (s : BitVec 4) (t : State) : Res :=
  checked (.vatomSwap d o w a s) t (vecAtomic .swap (if w = 1 then 8 else 4) d o a s)
/-- 09 R230 to R232. -/
def execVatomFadd (d : BitVec 7) (o : BitVec 4) (a : BitVec 6) (s : BitVec 4) (t : State) : Res :=
  checked (.vatomFadd d o a s) t (vecAtomic .fadd 4 d o a s)
/-- 09 R230 to R232. -/
def execVatomBfadd2 (d : BitVec 7) (o : BitVec 4) (a : BitVec 6) (s : BitVec 4) (t : State) : Res :=
  checked (.vatomBfadd2 d o a s) t (vecAtomic .bfadd2 4 d o a s)
/-- 09 R230, R231. -/
def execVacas (d : BitVec 7) (o : BitVec 4) (w : BitVec 1) (a : BitVec 6) (s : BitVec 4) (t : State) : Res :=
  checked (.vacas d o w a s) t (vecAtomic .cas (if w = 1 then 8 else 4) d o a s)

end Sys2Proof.Machine
end

