-- ==== Sys2Proof/Machine/Order.lean ====
section
/-! DEFINITION. Ordering instructions (09 R243 to R249), promotion (10 R263 to R270), and the events of
memory requests in flight (08 R194, R200, R204, R209, R214, R219 to R221, 10 R251). -/

namespace Sys2Proof.Machine

/-! ### Scopes (09 R243) -/

inductive Kind where
  | narrow | vat | wide
deriving DecidableEq, Repr

def scopeKind (s : BitVec 3) : Kind := if s.toNat ≤ 2 then .narrow else if s.toNat = 3 then .vat else .wide
/-- The guard of a wide scope. -/
def scopeGuard (s : BitVec 3) : Nat := if s.toNat = 6 then 32 else 4

/-! ### Waits -/

/-- The writes of the agent that moves, in the streams `p`, which it has waited for, are published, by a FENCE of its own
or another release (01 R37; log 12). -/
def publish (s : State) (own : Bool) (p : Nat → Bool) : State :=
  let s := s.release
  let u := s.curWave.uid
  { s with wrote := s.wrote.map fun l => (l.1, l.2.map fun e =>
      if e.uid = u && p e.sid then { e with pub := e.pub.or (some s.seq), own := if own then e.own.or (some s.seq) else e.own } else e) }

/-- The wait of a wide scope on the lease clock: the wave executes afresh once it is over. -/
def afterLease (s : State) (t : Nat) (k : State → State) : State :=
  if leaseNow s s.curDie < t then park s (.lease t) else k s

/-- What `FENCE` does before its status, for the streams `p`; then `k` (09 R244). -/
def fenceThen (s : State) (scope : BitVec 3) (p : Nat → Bool) (k : State → State) (own : Bool := false) : State :=
  let w := s.curW
  if underWay s w p then stall s else
  if scopeKind scope = .narrow then k s else
  let s := drainWhere s (waveCore w) (holdsWave w)
  if (s.core (waveCore w)).sgb.any (holdsWave w) then stall s else
  let pub (s : State) : State := k (publish s own p)
  if scopeKind scope = .vat then pub s
  else
    let x := s.wave w
    let t := ((List.range 16).filter p).foldl (fun m i => Nat.max m (Tbl.get 0 x.mg i)) x.mgg
    afterLease s (t + scopeGuard scope) pub

/-- The streams a `FENCE` names. -/
def fenceMask (m i : Nat) : Bool := decide (m % 2 ^ 16 = 0) || m.testBit i

/-- The status word of `FENCE` (09 R245). -/
def fenceStatus (x : Wave) (scope : BitVec 3) (m : Nat) : Word :=
  let mask := BitVec.ofNat 16 (if m % 2 ^ 16 = 0 then 2 ^ 16 - 1 else m)
  let all := decide (scopeKind scope ≠ .narrow)
  let body := b2n (x.gl && all) * 2 ^ 49 + b2n (x.gr && all) * 2 ^ 48 + (x.lk &&& mask).toNat * 2 ^ 32 + (x.rf &&& mask).toNat * 2 ^ 16
  BitVec.ofNat 64 ((if body = 0 then 0 else 2 ^ 56) + body)

/-- 09 R244, R245. -/
def execFence (d a : BitVec 6) (c : BitVec 3) (s : State) : Res :=
  checked (.fence d a c) s fun s =>
    let m := fld (s.lo a.toNat) 0 16
    fenceThen (own := true) s c (fenceMask m) fun s =>
      let st := fenceStatus s.curWave c m
      let mask := BitVec.ofNat 16 (if m = 0 then 2 ^ 16 - 1 else m)
      let all := decide (scopeKind c ≠ .narrow)
      let s := s.modCur fun x => { x with
        lk := x.lk &&& ~~~mask
        rf := x.rf &&& ~~~mask
        gl := x.gl && !all
        gr := x.gr && !all }
      (s.setData d.toNat st).advance

/-! ### Release -/

/-- The release of a scope by the wave that moves, whose value will stand at a key (10 R257). -/
def relOf (s : State) (scope : BitVec 3) (key : Nat) : Rel :=
  ⟨key, scope.toNat, s.curCore, s.curWave.group, s.curWave.uid, s.seq, s.curClk⟩

/-- The core's log has no free entry. -/
def logFull (s : State) (c : Nat) : Bool := decide (16 ≤ (s.core c).log.length)

/-- A victim stall: what the oldest log entry covers is drained, unless the ACTIVE promotion covers it (10 R265). -/
def victimDrain (s : State) (c : Nat) : State :=
  let o := (s.core c).log.headD 0
  match (s.core c).active with
  | some (some ca, _) => if seqLe o ca then s else drainWhere s c (·.coveredBy o)
  | _ => drainWhere s c (·.coveredBy o)

/-- Another wave's narrow release came first and still waits for room in the log (10 R265). -/
def relBehind (s : State) (c w : Nat) : Bool := (s.core c).relq.head?.any (· ≠ w)

/-- Append a coverage point; it retires at once if nothing is left to cover (10 R264). -/
def appendLog (s : State) (c p : Nat) : State := s.modCore c fun x => retireLog { x with log := x.log ++ [p] }

/-- A narrow release of a flag at a place (09 R246, 10 R264, R265): the entry is appended as the flag goes out, with
the sequence value that a gathered flag will take. -/
def narrowRel (s : State) (scope : BitVec 3) (p : Place) (v : List Byte) : State :=
  let w := s.curW
  let c := waveCore w
  if underWay s w (fun _ => true) || ownHeld s w false [(p.key, 8)] then stall s
  else if logFull s c || relBehind s c w then
    let s := s.modCore c fun x => { x with relq := if x.relq.contains w then x.relq else x.relq ++ [w] }
    stall (if logFull s c then victimDrain s c else s)
  else
    let s := (s.modCore c fun x => { x with relq := x.relq.filter (· ≠ w) }).release
    let r := relOf s scope p.key
    if isScratch p.key then
      issue (appendLog s c (s.core c).gs) { wave := w, sid := 0, q := 1, kind := .store [(p.key, v)] false, rels := [r] }
    else
      let s := s.modCore c fun x => { x with log := x.log ++ [(x.gs + x.squeue.length + 1) % 2 ^ 32] }
      issueGather s w 0 [(p.key, v)] false State.advance [r]

/-- 09 R246. -/
def execRel (a b : BitVec 6) (c : BitVec 3) (s : State) : Res :=
  checked (.rel a b c) s fun s =>
    let v := bytesOf 8 (s.lo b.toNat).toNat
    withData s (s.reg a.toNat) (s.reg a.toNat).addr 8 permST 8 .store fun p s =>
      if scopeKind c = .narrow then narrowRel s c p v
      else fenceThen s c (fun _ => true) fun s =>
        issue s { wave := s.curW, sid := 0, q := 1, kind := .store [(p.key, v)] false, rels := [relOf s c p.key] }

/-! ### Acquire -/

/-- The flag of an acquire, and TF (09 R247). -/
def readFlag (s : State) (key : Nat) : Got × Nat × State :=
  let c := s.curCore
  let here := !isScratch key && (List.range 8).all fun i => (sgbByte (s.core c) (key + i)).isSome
  let (g, s) := bypassRead s c (some s.curW) key 8 3
  (g, if here then leaseNow s s.curDie else leaseNow s (homeDie key), s)

/-- The releases whose values a read of a flag finds (10 R257): those in the core's buffer, if all of the flag is there;
those at its home, if none of it is (log 12). -/
def flagRels (s : State) (c key : Nat) : List Rel :=
  let held := (List.range 8).map fun i => !isScratch key && (sgbByte (s.core c) (key + i)).isSome
  let fs := if held.all id then
      (s.core c).squeue.foldl (fun f q => putRels f q.key q.bytes.length q.rels)
        ((s.core c).held.foldl (fun f e => if e.line = lineOf key then (e.data.foldl (fun f b => f.filter fun (r : Rel) => !r.meets (e.line * 128 + b.1) 1) f) ++ e.rels else f) [])
    else if held.any id then [] else s.flags
  fs.filter fun r => r.key = key

/-- Two agents share a scope (10 R250): by core, group and number. -/
def sharesScope (scope c g u c' g' u' : Nat) : Bool :=
  if scope = 0 then decide (u = u') else if scope = 1 then decide (g = g')
  else if scope = 2 then decide (c = c') else if scope = 3 then decide (coreVat c = coreVat c')
  else if scope = 4 then decide (coreDie c = coreDie c') else if scope = 5 then decide (corePkg c = corePkg c') else true
/-- The release synchronises with an acquire of a scope by the wave that moves (10 R257). -/
def Rel.reaches (s : State) (scope : Nat) (r : Rel) : Bool :=
  let x := s.curWave
  sharesScope r.scope r.core r.group r.uid s.curCore x.group x.uid && sharesScope scope s.curCore x.group x.uid r.core r.group r.uid
/-- The wave that moves has acquired releases. -/
def acquire (s : State) (rs : List Rel) : State := rs.foldl (fun s r => s.learn r.clk) s

/-- Write the result of an acquire once the lease clock has passed `t`, and order what follows after it. -/
def finishAcq (s : State) (scope : BitVec 3) (d t : Nat) (v : Word) (bad : Option Nat) : State :=
  if scopeKind scope ≠ .wide then reply s d v 0 bad else reply s d v (t + scopeGuard scope) bad

/-- 09 R247; the wave's own access to the flag comes first (01 R37), and so do its loads (18 R403, log 46). -/
def execAcq (d a : BitVec 6) (c : BitVec 3) (s : State) : Res :=
  checked (.acq d a c) s fun s =>
    withData s (s.reg a.toNat) (s.reg a.toNat).addr 8 permLD 8 .load fun p s =>
      if s.curWave.loads ≠ 0 || ownHeld s s.curW true [(p.key, 8)] then stall s else
      let rs := (flagRels s s.curCore p.key).filter (·.reaches s c.toNat)
      let (g, tf, s) := readFlag s p.key
      finishAcq (acquire s rs) c d.toNat tf (BitVec.ofNat 64 (ofBytes g.bytes)) g.bad

/-! ### Promotion -/

/-- Coverage of a promotion that begins now (10 R266). -/
def coverage (c : Core) : Option Nat := c.log.getLast?

/-- Drain the entries that a promotion covers. -/
def drainCovered (s : State) (c : Nat) (ca : Option Nat) : State := match ca with
  | some p => drainWhere s c (·.coveredBy p)
  | none => s

/-- Whether the target lies outside the scope (09 R248). -/
def outOfScope (scope : BitVec 3) (c t : Nat) : Bool :=
  if scope.toNat = 3 then decide (coreVat c ≠ coreVat t)
  else if scope.toNat = 4 then decide (coreDie c ≠ coreDie t)
  else if scope.toNat = 5 then decide (corePkg c ≠ corePkg t)
  else false

/-- A narrow release on the target core synchronises with an `ACQP` of the wave that moves (10 R269). -/
def Rel.promoted (s : State) (t : Nat) (r : Rel) : Bool := decide (r.scope ≤ 2 ∧ r.core = t ∧ r.no ≤ s.curWave.promoAt)

/-- What `ACQP` does once it has PCT (09 R248). -/
def acqpRead (s : State) (scope : BitVec 3) (d key t pct : Nat) : State :=
  let go (s : State) : State :=
    let s := s.modCur fun x => { x with promo := none }
    let rs := (flagRels s s.curCore key).filter (·.promoted s t)
    let (g, tf, s) := readFlag s key
    finishAcq (acquire s rs) scope d tf (BitVec.ofNat 64 (ofBytes g.bytes % 2 ^ 56)) g.bad
  if scopeKind scope = .wide then afterLease s (pct + scopeGuard scope) go else go s

/-- 09 R248; the wave's own access to the flag comes first (01 R37), and so do its loads (18 R403, log 46). -/
def execAcqp (d a b : BitVec 6) (c : BitVec 3) (s : State) : Res :=
  checked (.acqp d a b c) s fun s =>
    withData s (s.reg a.toNat) (s.reg a.toNat).addr 8 permLD 8 .load fun p s =>
      if s.curWave.loads ≠ 0 || ownHeld s s.curW true [(p.key, 8)] then stall s else
      let t := fld (s.lo b.toNat) 0 20
      let st (n : Nat) : Word := BitVec.ofNat 64 (n * 2 ^ 56)
      match s.curWave.promo with
      | some (_, true) => ((s.modCur fun x => { x with promo := none }).setData d.toNat (st 1)).advance
      | some (pct, false) => acqpRead s c d.toNat p.key t pct
      | none =>
        if !corePresent s t then reply s d.toNat (st 2)
        else if outOfScope c s.curCore t then reply s d.toNat (st 3)
        else (park s (.reply d.toNat)).modNet fun n => { n with promotes := n.promotes ++ [(t, s.curW)] }

/-- A promotion begins at a core with the requesters it has (10 R266). -/
def beginPromotion (s : State) (c : Nat) (ws : List Nat) : State :=
  let ca := coverage (s.core c)
  drainCovered (s.modCore c fun x => { x with active := some (ca, ws) }) c ca

/-- 10 R266, R267, R270. -/
def execPromote (n : Nat) (s : State) : Res :=
  .next (match s.net.promotes[n]? with
    | none => s
    | some (t, w) =>
      let s := s.modNet fun m => { m with promotes := dropAt m.promotes n }
      let (cut, s) := routeCut s (waveCore w) t
      if cut || !dieLive s (coreDie t) then s.modNet fun m => { m with promoReps := m.promoReps ++ [⟨w, 0, t, true⟩] }
      else
        let s := s.modOwner w fun x => { x with promoAt := s.seq }
        let c := s.core t
        match c.active with
        | none => beginPromotion s t [w]
        | some (ca, ws) =>
          let newer := match c.log.getLast?, ca with
            | some p, some q => !seqLe p q
            | some _, none => true
            | none, _ => false
          if newer then s.modCore t fun x => { x with promoWait := some ((x.promoWait.getD []) ++ [w]) }
          else s.modCore t fun x => { x with active := some (ca, ws ++ [w]) })

/-- 10 R266, R267: the replies leave once every covered write is acknowledged. -/
def execPromotionDone (core : Nat) (s : State) : Res :=
  .next (match (s.core core).active with
    | none => s
    | some (ca, ws) =>
      if (s.core core).sgb.any fun e => ca.any e.coveredBy then s
      else
        let pct := (s.core core).cgw
        let next := (s.core core).promoWait
        let s := s.modCore core fun x => { x with active := none, promoWait := none }
        let s := s.modNet fun m => { m with promoReps := m.promoReps ++ ws.map fun w => ⟨w, pct, core, false⟩ }
        match next with
        | some l => beginPromotion s core l
        | none => s)

/-- 09 R248: the wave goes on with its `ACQP`. -/
def execPromoteReply (n : Nat) (s : State) : Res :=
  .next (match s.net.promoReps[n]? with
    | none => s
    | some r =>
      let s := s.modNet fun m => { m with promoReps := dropAt m.promoReps n }
      match (s.wave r.wave).run with
      | .waiting (.reply _ _) =>
        s.modWave r.wave fun x => { x with promo := some (r.pct, r.err), run := .ready, since := s.cyc, entered := s.cyc }
      | _ => s)

/-! ### ZFILL -/

/-- The keys of the lines from `ea` on, or the fault of the first whose page is not mapped. -/
def lineKeys (s : State) (ea : Nat) : Nat → Except Trap (List Nat) × State
  | 0 => (.ok [], s)
  | n + 1 =>
    match window s s.curCore s.curAsid ea .store with
    | (none, s) => (.error ⟨.xlate, BitVec.ofNat 64 ea⟩, s)
    | (some p, s) =>
      match lineKeys (noteLeaf s p) (ea + 128) n with
      | (.error t, s) => (.error t, s)
      | (.ok ks, s) => (.ok (p.key :: ks), s)

/-- 09 R249. -/
def execZfill (a b : BitVec 6) (s : State) : Res :=
  checked (.zfill a b) s fun s =>
    let cap := s.reg a.toNat
    let n := (s.lo b.toNat).toNat
    if cap.addr % 128 ≠ 0 ∨ n % 128 ≠ 0 then raise s ⟨.align, BitVec.ofNat 64 cap.addr⟩
    else if n = 0 then s.advance
    else
      withData s cap cap.addr n permST 1 .store fun _ s =>
        match lineKeys s cap.addr (n / 128) with
        | (.error _, s) => raise s ⟨.xlate, BitVec.ofNat 64 cap.addr⟩
        | (.ok ks, s) =>
          let c := waveCore s.curW
          let mine (e : Sgb) : Bool := ks.contains (e.line * 128)
          let s := drainWhere s c mine
          if (s.core c).sgb.any mine || (s.core c).squeue.any (fun q => ks.contains (lineOf q.key * 128)) then stall s
          else issue s { wave := s.curW, sid := 0, q := 1, kind := .zero (ks.map lineOf) }

/-! ### Events of the store gather buffer -/

/-- 08 R200. -/
def execSgbIdleDrain (core n : Nat) (s : State) : Res :=
  .next (match (s.core core).sgb[n]? with
    | some e => if !e.closed && decide (e.last + 4096 ≤ s.cyc) then drainEntry s core e.fgs else s
    | none => s)

/-- After an acknowledgement, the next closed entry of the line is sent (08 R200). -/
def sendNext (s : State) (core line : Nat) : State :=
  match (s.core core).sgb.find? fun e => e.line = line ∧ e.closed ∧ !e.sent with
  | some e => drainEntry s core e.fgs
  | none => s

/-- What an acknowledged drain leaves: the next entry of its line is sent, and the store queue goes on (08 R199,
R200); `s` is the state before. -/
def freed (s : State) (core : Nat) (t : State) (line : Nat) : State :=
  runQueue (sendNext t core line) core (queueIds (s.core core).squeue)

/-- 08 R200. A route cut before the home (`err`) leaves the line unchanged. -/
def execSgbDrainAck (core n err : Nat) (s : State) : Res :=
  .next (match (s.core core).sgb[n]? with
    | none => s
    | some e =>
      if !e.sent then s
      else match e.served with
        | some (g, r) => freed s core (ackDrain s core e g r) e.line
        | none =>
          if err = 0 then s
          else
            let mine (r : Req) : Bool := match r.kind with
              | .drain c f => decide (c = core ∧ f = e.fgs)
              | _ => false
            let s := s.modNet fun m => { m with reqs := m.reqs.filter fun r => !mine r }
            freed s core (ackDrain s core e 0 (if err = 1 then 1 else 2)) e.line)

/-! ### Requests at their homes -/

/-- The keys a request touches. -/
def ReqKind.keys : ReqKind → List Nat
  | .load _ k _ => [k]
  | .loadCap _ k _ => [k]
  | .vload _ _ _ _ ls => ls.map (·.2)
  | .store ws _ => ws.map (·.1)
  | .drain _ _ => []
  | .zero ls => ls.map (· * 128)
  | .atom _ _ _ l => [l.key]
  | .vatom _ _ _ ls => ls.map (·.key)
  | .deque _ k _ _ => [k]

/-- A request to scratch (08 R194). -/
def Req.scratch (r : Req) : Bool := !r.kind.keys.isEmpty && r.kind.keys.all isScratch
/-- A direct write or drain, not an atomic. -/
def ReqKind.isWrite : ReqKind → Bool
  | .store _ _ => true
  | .drain _ _ => true
  | .zero _ => true
  | _ => false

/-- The response to a multicast read joins or opens (08 R220); one held longer than MCW waits for its data. A hit, or a miss whose data has arrived by now, which
only the part knows, lets no later request allocate the line; at its arrival the data does (log 48). -/
def joinMulti (s : State) (r : Req) (line : Nat) : State :=
  let alloc (s : State) (rs : List Req) : State := accessLine s line (rs.any fun r => decide (r.q ≠ 2)) false
  match place (fun (m : Mcast) => decide (m.line = line ∧ m.reqs.length < 16)) s.net.mcasts with
  | some i => match s.net.mcasts[i]? with
    | some m =>
      let late := decide (m.since + fld (s.die (homeDie (line * 128))).mcfg 24 8 ≤ s.cyc)
      let (b, s) := if m.arrived || late then (false, s) else drawBit s
      let s := if b then alloc s m.reqs else s
      s.modNet fun x => { x with mcasts := modifyAt x.mcasts i fun y => { y with reqs := y.reqs ++ [r], arrived := y.arrived || b } }
    | none => s
  | none =>
    let hit := resident s line || (zpageOf s (line * 128)).isSome
    let s := if hit then alloc s [] else s
    s.modNet fun x => { x with mcasts := x.mcasts ++ [⟨line, [r], s.cyc, hit⟩] }

/-- A read request is served: its reply leaves; a multicast read of HBM joins or opens a response (08 R220). -/
def arriveRead (s : State) (r : Req) : State :=
  let now (s : State) : State :=
    let (a, s) := serveRead s r
    s.modNet fun m => { m with replies := m.replies ++ [a] }
  match r.kind with
  | .vload _ _ _ true ((_, k) :: _) =>
    if isScratch k then now s
    else joinMulti (if isHbm k then s.modSlice (paHome k) fun c => { c with mcreq := c.mcreq + 1 } else s) r (lineOf k)
  | _ => now s

/-- What a request would be answered with, in its shape. -/
def ReqKind.blank : ReqKind → ReplyData
  | .load d _ _ => .reg d {}
  | .loadCap d _ lc => .cap d {} lc
  | .vload vd _ _ _ ls => .lanes (ls.map fun l => (vd, l.1, 0))
  | .atom d n _ l => oldReg d n (halfOff l.key) 0
  | .vatom vd n _ ls => oldLanes vd n (halfOff ((ls.head?.map (·.key)).getD 0)) (ls.map fun l => (l.lane, 0))
  | .deque d _ _ _ => .reg d {}
  | _ => .lanes []

/-- The core that sends a request, and its home. -/
def Req.route (s : State) (r : Req) : Nat × Nat := match r.kind with
  | .drain c f => (c, keyHome ((((s.core c).sgb.find? fun e => e.fgs = f).map (·.line)).getD 0 * 128))
  | k => (waveCore r.wave, keyHome (k.keys.headD 0))

/-- A request that a dead link cuts off (`err` 1), or that its home refuses (2): nothing is changed; one that returns
a value returns an undefined one with a deferred error (08 R219, 18 R403). -/
def failReq (s : State) (r : Req) (err : Nat) : State :=
  let (a, s) := spoilReply s { r.reply r.kind.blank with keys := r.kind.keys }
  s.modNet fun m => { m with
    acks := m.acks ++ (if r.kind.isRead then [] else [⟨r.wave, r.sid, 0, err, r.scratch, r.id, r.grid, (r.route s).2⟩])
    replies := m.replies ++ (if r.kind.counts then [a] else []) }

/-- A writing request takes effect at its home, and its acknowledgement leaves. -/
def arriveWrite (s : State) (r : Req) (err : Nat) : State :=
  match r.kind with
  | .drain c f =>
    match (s.core c).sgb.find? fun e => e.fgs = f with
    | none => s
    | some e =>
      let set (s : State) (g r : Nat) : State :=
        s.modCore c fun x => { x with sgb := x.sgb.map fun y => if y.fgs = f then { y with served := some (g, r) } else y }
      if err ≠ 0 then set s 0 err
      else if e.refused s then set (sliceMessage s (e.line * 128)) 0 2
      else
        let (s, g) := homeDrain s e c
        set s g 0
  | _ =>
    if err ≠ 0 then failReq s r err
    else
      let (k, a, s) := serveWrite s r
      s.modNet fun m => { m with
        acks := m.acks ++ [⟨r.wave, r.sid, k.1, k.2, r.scratch, r.id, r.grid, (r.route s).2⟩]
        replies := m.replies ++ match a with
          | some a => if r.kind.counts then [a] else []
          | none => [] }

/-- Where half of a BFADD2 is made: its word, and which half (09 R232). -/
def Req.halfAt (r : Req) : Option (Nat × Nat) := match r.kind with
  | .atom _ 2 .bfadd2 l => some (l.key / 4, l.key % 4 / 2)
  | .vatom _ 2 .bfadd2 (l :: _) => some (l.key / 4, l.key % 4 / 2)
  | _ => none
/-- The other half of the same BFADD2. -/
def Req.twinOf (r x : Req) : Bool :=
  decide (r.wave = x.wave ∧ r.id = x.id) && match r.halfAt, x.halfAt with
    | some a, some b => decide (a.1 = b.1 ∧ a.2 ≠ b.2)
    | _, _ => false
/-- The half of a BFADD2 whose other half has been made goes before every other of its place, those in their order: the
home takes the BFADD2s of one word in one order in both halves (11 R276; log 9). -/
def halfHeld (rs : List Req) (n : Nat) (r : Req) : Bool :=
  let made (x : Req) : Bool := !rs.any x.twinOf
  r.halfAt.isSome && (rs.zipIdx).any fun x => decide (x.2 ≠ n ∧ x.1.halfAt = r.halfAt) && made x.1 && (!made r || decide (x.2 < n))
/-- The other half of a request goes to the end of the requests under way. -/
def twinLast (rs : List Req) (r : Req) : List Req := rs.filter (!r.twinOf ·) ++ rs.filter (r.twinOf ·)

/-- Take the n-th request if it is of the sort that `p` names; a dead link or die may have cut its route, and then it is
answered with an error (08 R219, 21 R443). -/
def takeReq (s : State) (n : Nat) (p : Req → Bool) (k : Req → State → State) : Res :=
  .next (match s.net.reqs[n]? with
    | some r =>
      if !p r || halfHeld s.net.reqs n r then s
      else
        let s := s.modNet fun m => { m with reqs := twinLast (dropAt m.reqs n) r }
        let (cut, s) := routeCut s (r.route s).1 (r.route s).2
        if cut then arriveWrite s r 1 else k r s
    | none => s)

/-- 08 R204. -/
def execMreqRead (n : Nat) (s : State) : Res := takeReq s n (fun r => r.kind.isRead && !r.scratch) fun r s => arriveRead s r
/-- 08 R204. -/
def execMreqWrite (n err : Nat) (s : State) : Res :=
  takeReq s n (fun r => r.kind.isWrite && !r.scratch) fun r s => arriveWrite s r (Nat.min err 2)
/-- 08 R204. -/
def execMreqAtomic (n err : Nat) (s : State) : Res :=
  takeReq s n (fun r => !r.kind.isWrite && !r.kind.isRead && !r.scratch) fun r s => arriveWrite s r (Nat.min err 2)
/-- 08 R194, R195. -/
def execScratchRequest (n : Nat) (s : State) : Res :=
  takeReq s n Req.scratch fun r s => if r.kind.isRead then arriveRead s r else arriveWrite s r 0

/-- 08 R220, R221: the response is held MCW cycles, and carries the line as it then stands (09 R226). -/
def execMulticastSend (n : Nat) (s : State) : Res :=
  .next (match s.net.mcasts[n]? with
    | none => s
    | some m =>
      let k := m.line * 128
      if s.cyc < m.since + fld (s.die (homeDie k)).mcfg 24 8 then s
      else
        let s := s.modNet fun x => { x with mcasts := dropAt x.mcasts n }
        let s := if isHbm k then s.modSlice (paHome k) fun c => { c with mcsent := c.mcsent + 1 } else s
        let s := if m.arrived then s else accessLine s m.line (m.reqs.any fun r => decide (r.q ≠ 2)) false
        m.reqs.foldl (fun s r =>
          let (a, s) := serveRead s { r with q := 2 }
          s.modNet fun x => { x with replies := x.replies ++ [a] }) s)

/-! ### Replies and acknowledgements -/

/-- Another part of what the instruction reads is still under way. -/
def morePending (s : State) (w id : Nat) : Bool :=
  s.net.reqs.any (fun r => decide (r.wave = w ∧ r.id = id) && r.kind.counts)
  || s.net.replies.any (fun r => decide (r.wave = w ∧ r.id = id))
  || s.net.mcasts.any (fun m => m.reqs.any fun r => decide (r.wave = w ∧ r.id = id))

/-- The registers that a reply writes. -/
def Reply.dests (r : Reply) : List Nat :=
  let each (ws : List (Nat × Nat × W32)) : List Nat := ws.foldl (fun a w => if a.contains (64 + w.1) then a else a ++ [64 + w.1]) []
  match r.data with
  | .reg d _ => [d]
  | .cap d _ _ => [d]
  | .lanes ws => each ws
  | .half d _ _ => [d]
  | .halves _ ws => each ws

/-- 10 R251. A replica that came with the reply is placed while its lease runs (08 R209). -/
def execLoadReply (n : Nat) (fill ecc : Bool) (s : State) : Res :=
  .next (match s.net.replies[n]? with
    | none => s
    | some r =>
      let s := s.modNet fun m => { m with replies := dropAt m.replies n }
      let (r, s) := if ecc then spoilReply s r else (r, s)
      let s := if fill then placeReplicas s (waveCore r.wave) r.grants else s
      let more := morePending s r.wave r.id
      s.modWave r.wave fun x =>
        let x := if x.run = .ended then x else x.take r
        if more then x else { x with loads := x.loads - 1, pend := x.pend.filter fun d => !r.dests.contains d })

/-- 08 R219: the last acknowledgement of an instruction takes it out of the wave's stores counter. -/
def execStoreAck (n : Nat) (s : State) : Res :=
  .next (match s.net.acks[n]? with
    | none => s
    | some a =>
      let s := ackStore (s.modNet fun m => { m with acks := dropAt m.acks n }) a.wave a.grid a.sid a.gwct a.err
      if moreStores s a.wave a.id then s else s.modOwner a.wave fun x => { x with stores := x.stores - 1 })

/-! ### Translation and the lease clock -/

/-- 08 R214, R215: a walk that gives a translation fills the TLBs; one that fails leaves XLATE to the access. -/
def execPageWalkDone (die asid ea : Nat) (s : State) : Res :=
  .next (match walk s asid ea with
    | some l => noteLeaf (tlbAdd (walkReads s asid ea) die asid ea l) ⟨l.pa, some l⟩
    | none => walkReads s asid ea)

/-- 09 R244, R246 to R248: a wait on the lease clock ends. -/
def execLeaseWaitDone (wave : Nat) (s : State) : Res :=
  .next (match (s.wave wave).run with
    | .waiting (.lease t) =>
      if leaseNow s (coreDie (waveCore wave)) < t then s
      else s.modWave wave fun x => { x with run := .ready, since := s.cyc, entered := s.cyc }
    | _ =>
      match place (fun (k : Wake) => decide (k.agent = .wave wave ∧ k.time ≠ 0 ∧ k.time ≤ leaseNow s (coreDie (waveCore wave)))) s.net.wakes with
      | some i =>
        match s.net.wakes[i]? with
        | some k => wakeAgent (s.modNet fun m => { m with wakes := dropAt m.wakes i }) k
        | none => s
      | none => s)

end Sys2Proof.Machine
end

