-- ==== Sys2Proof/Machine/Life.lean ====
section
/-! DEFINITION. The life of waves, groups and grids: launch records (05 R136 to R138), capacity, placement
and energy (07 R183 to R187), starting and ending waves (01 R31, 04 R127), releasing groups (05 R135),
kills (18 R412, R413) and retirement with its record (05 R139, R140, 22 R457 to R459). -/

namespace Sys2Proof.Machine

/-! ### Launch records (05 R136) -/

def recW (r : List Word) (i : Nat) : Word := r.getD i 0
def recKind (r : List Word) : Nat := fld (recW r 0) 60 4
def recCode (r : List Word) : Nat := fld (recW r 0) 0 55
def recEntry (r : List Word) : Nat := fld (recW r 1) 32 24
def recCodeLen (r : List Word) : Nat := fld (recW r 1) 0 25
def recArg (r : List Word) : Nat := fld (recW r 2) 0 55
def recStack (r : List Word) : Nat := fld (recW r 3) 0 55
def recGmax (r : List Word) : Nat := fld (recW r 4) 32 32
def recGroups (r : List Word) : Nat := fld (recW r 4) 0 32
def recArgLen (r : List Word) : Nat := fld (recW r 5) 48 16
def recScratch (r : List Word) : Nat := fld (recW r 5) 26 22
def recStackLg (r : List Word) : Nat := fld (recW r 5) 21 5
def recCrec (r : List Word) : Bool := bit (recW r 6) 29
def recNoReplay (r : List Word) : Bool := bit (recW r 6) 28
def recFmode (r : List Word) : Nat := fld (recW r 6) 24 4
def recClass (r : List Word) : Nat := fld (recW r 6) 22 2
def recPrio (r : List Word) : Nat := fld (recW r 6) 18 4
def recVregs (r : List Word) : Nat := fld (recW r 6) 10 8
def recNarrow (r : List Word) : Nat := fld (recW r 6) 5 5
def recFull (r : List Word) : Nat := fld (recW r 6) 0 5
def recCbar (r : List Word) : Nat := fld (recW r 7) 0 55
/-- Scratch rounded up to 4 KiB (07 R184). -/
def recScratchLen (r : List Word) : Nat := (recScratch r + 4095) / 4096 * 4096

/-- A region of `n` bytes crosses a 2^25-byte boundary. -/
def crosses25 (a n : Nat) : Bool := decide (0 < n ∧ a / 2 ^ 25 ≠ (a + n - 1) / 2 ^ 25)

/-- The record is refused (05 R137), but for what R145 and R382 say of KIND. DESIGN CHOICE (log 42): for KIND 1, whose
field is QDESC, ARGLEN takes no part in the test for crossings. -/
def recordBad (s : State) (r : List Word) : Bool :=
  let k := recKind r
  decide (fld (recW r 0) 55 5 ≠ 0 ∨ fld (recW r 1) 56 8 ≠ 0 ∨ fld (recW r 1) 25 7 ≠ 0 ∨ fld (recW r 2) 55 9 ≠ 0
    ∨ fld (recW r 3) 55 9 ≠ 0 ∨ fld (recW r 5) 0 21 ≠ 0 ∨ fld (recW r 6) 30 34 ≠ 0 ∨ fld (recW r 7) 55 9 ≠ 0)
  || decide (2 < k ∨ recEntry r % 4 ≠ 0 ∨ recCodeLen r ≤ recEntry r ∨ recCodeLen r < 4 ∨ 2 ^ 24 < recCodeLen r
    ∨ recStack r % 2 ^ recStackLg r ≠ 0 ∨ recGmax r < recGroups r ∨ (k ≠ 0 ∧ recGroups r ≠ 0)
    ∨ 2 ^ 21 < recScratch r ∨ (recStackLg r ≠ 0 ∧ (recStackLg r < 8 ∨ 24 < recStackLg r)) ∨ 5 < recFmode r % 8
    ∨ 16 < recNarrow r ∨ 16 < recFull r ∨ recFull r + recNarrow r < 1 ∨ 16 < recFull r + recNarrow r)
  || (if recFull r = 0 then decide (recVregs r ≠ 0)
      else decide (recVregs r % 8 ≠ 0 ∨ recVregs r < 8 ∨ 128 < recVregs r))
  || crosses25 (recCode r) (recCodeLen r) || (decide (k ≠ 1) && crosses25 (recArg r) (recArgLen r))
  || (decide (recCbar r ≠ 0) && (decide (recCbar r / 2 ^ 48 ≠ 0x7D) || (scratchWindow s 0 (recCbar r)).isNone))
  || (decide (k = 2) && decide (recFull r ≠ 1 ∨ recNarrow r ≠ 0 ∨ recVregs r < 16))

/-! ### Capacity and placement (07 R183, R184) -/

def capSlots (s : State) (c : Nat) : Nat := fld (capWord s c) 37 6
def capBlocks (s : State) (c : Nat) : Nat := fld (capWord s c) 27 10
def laneGroups (s : State) (c : Nat) : List Nat := (List.range 4).filter fun i => bit (capWord s c) (43 + i)
/-- S0: where a core's group allocations start. -/
def scratchStart (c : Nat) : Nat := if tileOf c = 0 then 4096 else 0
/-- The usable extent U. -/
def usable (s : State) (c : Nat) : Nat :=
  Nat.min (scratchStart c + fld (capWord s c) 16 11 * 4096) (treeletStart s c) - scratchStart c

/-- A group of the record's shape fits the core's reported capacity. -/
def fitsEver (s : State) (r : List Word) (c : Nat) : Bool :=
  corePresent s c && (decide (recFull r = 0) || !(laneGroups s c).isEmpty)
    && decide (recFull r + recNarrow r ≤ capSlots s c ∧ recFull r * recVregs r / 8 ≤ capBlocks s c ∧ recScratchLen r ≤ usable s c)
/-- Some present core can ever hold one group of the record's shape (05 R145). -/
def someCoreFits (s : State) (r : List Word) : Bool := (liveDies s).any fun d => (dieCores d).any (fitsEver s r)

/-- Slots held for groups saved from them (19 R418). -/
def heldSlot (s : State) (w : Nat) : Bool :=
  s.groups.any (fun g => g.2.held.contains w) || s.saved.any fun v => v.slots.contains w
/-- No wave is in a slot, none has loads outstanding there (04 R127), and it is held for none. -/
def slotIdle (s : State) (w : Nat) : Bool :=
  let x := s.wave w
  (!x.live || decide (x.run = .ended ∧ x.loads = 0)) && !heldSlot s w
/-- A wave slot is free (04 R127, 07 R185). -/
def slotFree (s : State) (w : Nat) : Bool :=
  let c := s.core (waveCore w)
  slotIdle s w && !c.shadow.any (fun h => h.2.slots.contains (waveSlot w))
    && !c.hprog.any fun h => h.slot = waveSlot w
def freeSlots (s : State) (c : Nat) : List Nat := (List.range (capSlots s c)).filter fun n => slotFree s (c * 32 + n)

/-- Register blocks in use on a core; the shading group's reservation counts while the program is bound (15 R373). -/
def blocksUsed (s : State) (c : Nat) : Nat :=
  let user := (s.core c).hprog.bind (·.user)
  ((s.waves.filter fun w => decide (waveCore w.1 = c ∧ w.2.run ≠ .ended ∧ user ≠ some w.2.group) && w.2.live && w.2.full).map fun w => w.2.vregs / 8).sum
    + ((s.core c).shadow.map fun h => match s.grid? h.2.grid with
        | some g => recFull g.record * recVregs g.record / 8
        | none => 0).sum
    + match (s.core c).hprog with
      | some h => h.blocks
      | none => 0

/-- Scratch ranges in use on a core. -/
def allocs (s : State) (c : Nat) : List (Nat × Nat) :=
  ((s.groups.filter fun g => g.2.core = c).map fun g => (g.2.soff, g.2.slen))
    ++ ((s.core c).shadow.map fun h => (h.2.soff, h.2.slen))
    ++ match (s.core c).hprog with
      | some h => if h.user.isNone then [(h.soff, h.slen)] else []
      | none => []
def rangeFree (s : State) (c off len : Nat) : Bool :=
  decide (scratchStart c ≤ off ∧ off + len ≤ scratchStart c + usable s c)
    && (allocs s c).all fun a => decide (a.1 + a.2 ≤ off ∨ off + len ≤ a.1 ∨ a.2 = 0 ∨ len = 0)
/-- The lowest free offset that fits. -/
def firstFit (s : State) (c len : Nat) : Option Nat :=
  match (scratchStart c :: (allocs s c).map fun a => a.1 + a.2).filter fun o => rangeFree s c o len with
  | [] => none
  | x :: t => some (minOr x (x :: t))

/-- A group of the record's shape fits what is free on the core now. -/
def fitsNow (s : State) (r : List Word) (c : Nat) : Bool :=
  fitsEver s r c && decide (recFull r + recNarrow r ≤ (freeSlots s c).length)
    && decide (blocksUsed s c + recFull r * recVregs r / 8 ≤ capBlocks s c) && (firstFit s c (recScratchLen r)).isSome

/-! ### Energy (07 R187, 22 R461) -/

/-- A budget register brought up to a cycle. -/
def refill (w : Word) (was now : Nat) : Word :=
  let cap := fld w 16 24
  let cnt := fld w 40 24
  let rate := fld w 0 16
  setFld w 40 24 (if cap ≤ cnt then cnt else Nat.min cap (cnt + (now * rate / 256 - was * rate / 256)))
/-- Bring the budgets over a core up to now. -/
def refillOf (s : State) (c : Nat) : State :=
  (s.modVat (coreVat c) fun v => { v with vbud := refill v.vbud v.bcyc s.cyc, bcyc := s.cyc }).modDie (coreDie c)
    fun d => { d with dbud := refill d.dbud d.bcyc s.cyc, bcyc := s.cyc }
def classCost (s : State) (c k : Nat) : Nat := fld (s.die (coreDie c)).ecost (16 * k) 16
/-- What a grant subtracts from a budget, if it covers it. -/
def chargeOf (w : Word) (cost : Nat) : Option Nat :=
  let x := Nat.min cost (fld w 16 24)
  if x ≤ fld w 40 24 then some x else none
/-- A class is admitted on a core. -/
def admitted (s : State) (c k : Nat) : Bool :=
  let s := refillOf s c
  (chargeOf (s.vat (coreVat c)).vbud (classCost s c k)).isSome && (chargeOf (s.die (coreDie c)).dbud (classCost s c k)).isSome
/-- Charge a class on a core. -/
def charge (s : State) (c k : Nat) : State :=
  let s := refillOf s c
  let sub (w : Word) : Word := setFld w 40 24 (fld w 40 24 - (chargeOf w (classCost s c k)).getD 0)
  (s.modVat (coreVat c) fun v => { v with vbud := sub v.vbud }).modDie (coreDie c) fun d => { d with dbud := sub d.dbud }

/-! ### The journal (21 R446) -/

def note (s : State) (j : Journal) : State := s.modNet fun n => { n with journal := n.journal ++ [j] }

/-! ### What a grid's agents pass on (05 R140, R144; log 12) -/

/-- An agent of a grid has ended: the grid's retirement passes its writes on, and what happens-before its end. -/
def passOn (s : State) (h uid : Nat) (k : Tbl Nat) : State :=
  let s := s.stamp
  s.modGrid h fun g => { g with passed := Tbl.set (joinClk g.passed k) uid s.seq }
/-- What happens-before the first instruction of a group's waves: the launch, the GROWs that gave its index, the EMITs
of its batch (05 R144). -/
def startClk (s : State) (h gidx : Nat) : Tbl Nat := match s.grid? h with
  | some g =>
    let k := g.grown.foldl (fun k e => if e.1 ≤ gidx then joinClk k e.2 else k) g.clk
    if recKind g.record = 1 then g.batches.foldl (fun k b => if b.no = gidx then joinClk k b.clk else k) k else k
  | none => []

/-! ### Starting waves -/

/-- Stack ordinal of a core (05 R138). -/
def stackOrdinal (s : State) (c : Nat) : Nat :=
  let rank (a : Nat) : Nat := coreY a * (32 * s.nx) + coreX a
  rank c - (s.unnumbered.filter fun a => rank a < rank c).length

/-- The base lane group of a group that starts on a core: the place, among the working ones, of the one with the
fewest resident full waves (07 R186). -/
def baseGroup (s : State) (c : Nat) : Nat :=
  let gs := laneGroups s c
  let load (g : Nat) : Nat := (s.waves.filter fun w => decide (waveCore w.1 = c ∧ w.2.home = g ∧ w.2.run ≠ .ended) && w.2.live && w.2.full).length
  ((gs.zipIdx).foldl (fun (b : Nat × Nat) g => if load g.1 < b.2 then (g.2, load g.1) else b) (0, load (gs.headD 0))).1
/-- The home lane group of full wave `i` of a group with that base (07 R186). -/
def homeGroup (s : State) (c base i : Nat) : Nat :=
  let gs := laneGroups s c
  gs.getD ((base + i) % Nat.max gs.length 1) 0

/-- A TLREQ or TLEVICT is answered to nobody: its wave no longer waits (18 R404). -/
def disown (s : State) (w : Nat) : State :=
  let gone := 2 ^ 40 + w
  let req (r : TlReq) : TlReq := if r.wave = w then { r with wave := gone } else r
  let pair (p : Nat × Nat) : Nat × Nat := if p.1 = w then (gone, p.2) else p
  let s := { s with dirs := s.dirs.map fun (d : Nat × DirTid) => (d.1, { d.2 with
    waiting := d.2.waiting.map req
    redo := d.2.redo.map req
    starter := d.2.starter.map req
    copyFor := d.2.copyFor.map req
    evicting := d.2.evicting.map pair }) }
  s.modNet fun n => { n with
    tlreqs := n.tlreqs.map req
    evicts := n.evicts.map fun (e : TlEvict) => { e with waiter := e.waiter.map pair }
    tlreps := n.tlreps.filter fun (k : Wake) => k.agent ≠ Agent.wave w }

/-- Nothing on its way will wake the wave: the answers that an ended one waited for are dropped (04 R127). -/
def unwake (s : State) (w : Nat) : State :=
  let s := disown s w
  let other (ws : List Nat) : List Nat := ws.filter (· ≠ w)
  let s := { s with cores := s.cores.map fun (c : Nat × Core) => (c.1, { c.2 with
    active := c.2.active.map fun (a : Option Nat × List Nat) => (a.1, other a.2)
    promoWait := c.2.promoWait.map other
    relq := other c.2.relq }) }
  s.modNet fun n => { n with
    wakes := n.wakes.filter fun (k : Wake) => k.agent ≠ Agent.wave w
    replies2 := n.replies2.filter fun (k : Wake) => k.agent ≠ Agent.wave w
    promotes := n.promotes.filter fun p => p.2 ≠ w
    promoReps := n.promoReps.filter fun p => p.wave ≠ w }

/-- A slot is taken again: what its ended wave has on its way is now that of a wave that is gone. -/
def detach (s : State) (w : Nat) : State :=
  let gone := 2 ^ 40 + w
  let by_ (p : Pusher) : Pusher := if p.wave = w then { p with wave := gone } else p
  let src (c : Credit) : Credit := if c.src = .agent (.wave w) then { c with src := .agent (.wave gone) } else c
  let s := s.modCore (waveCore w) fun c => { c with
    sgb := c.sgb.map fun e => { e with writers := e.writers.filter (· ≠ waveSlot w) }
    squeue := c.squeue.map fun q => if q.wave = w then { q with wave := gone } else q
    fifo := c.fifo.map fun r => { r with by_ := by_ r.by_ } }
  let s := s.modVat (coreVat (waveCore w)) fun v => { v with harp := v.harp.map fun r => { r with by_ := by_ r.by_ } }
  s.modNet fun n => { n with
    reqs := n.reqs.map fun (r : Req) => if r.wave = w ∧ r.sid < 16 then { r with wave := gone } else r
    acks := n.acks.map fun (a : Ack) => if a.wave = w then { a with wave := gone } else a
    arrivals := n.arrivals.map src }

/-- Change the wave that handed an engine its request, while it is there. -/
def State.modPusher (s : State) (p : Pusher) (f : Wave → Wave) : State := s.modOwner p.wave f

/-- A halt does not stop the wave: it is not halted, or inside a wait, which it ends first (19 R426). -/
def Wave.unhalted (x : Wave) : Bool := !x.halt || x.again
/-- The number of waves of a core in the window states. -/
def windowCount (s : State) (c : Nat) : Nat :=
  (s.waves.filter fun w => decide (waveCore w.1 = c ∧ w.2.run = .window) && w.2.live && w.2.unhalted).length

/-- Where the stack of a slot lies (05 R138). -/
def stackBase (s : State) (w : Nat) (r : List Word) : Nat :=
  recStack r + (stackOrdinal s (waveCore w) * 32 + waveSlot w) * 2 ^ recStackLg r

/-- A wave takes a slot (01 R31, 05 R138, 07 R186). `c3`, `c5` and the group's base lane group are given; the group's
index comes with them. -/
def startWave (s : State) (w grp h gidx widx soff base : Nat) (r : List Word) (sup : Bool) (c3 : Cap) (c5 : Nat) : State :=
  let (u, s) := (detach s w).newAgent
  let c := waveCore w
  let full := decide (widx < recFull r)
  let lg := recStackLg r
  let c2 : Cap := if lg = 0 then {} else
    let at_ := stackBase s w r
    Cap.make (permLD + permST + permLC + permSC + permAT) at_ (2 ^ lg - 16) (at_ + 2 ^ lg - 16)
  let base4 := 0x7F * 2 ^ 48 + soff
  let c4 := Cap.make (permLD + permST + permLC + permSC + permAT + permES + permED) base4 (recScratch r) base4
  let x : Wave := {
    live := true, full := full, vregs := if full then recVregs r else 0, sup := sup, grid := h, group := grp, gidx := gidx, widx := widx
    home := if full then homeGroup s c base widx else 0
    c := (if lg = 0 then [] else [(2, c2)]) ++ [(3, c3), (4, c4), (5, .data (BitVec.ofNat 64 c5)), (6, .data (BitVec.ofNat 64 widx)), (7, .data (BitVec.ofNat 64 h))]
    pc := Cap.make (permEX + permLD) (recCode r) (recCodeLen r) (recCode r + recEntry r)
    fmode := BitVec.ofNat 32 (recFmode r)
    run := if windowCount s c < 16 then .window else .ready
    since := s.cyc, entered := s.cyc, waitAt := s.cyc, uid := u, clk := startClk s h gidx }
  (s.setWave w x).modCore c fun k => { k with wtag := Tbl.set k.wtag (waveSlot w) (Tbl.get 0 k.wtag (waveSlot w) + 1) }

/-- The argument-block capability (01 R31). -/
def argCap (r : List Word) : Cap := Cap.make (permLD + permLC + permES) (recArg r) (recArgLen r) (recArg r)

/-- Empty the L1 when a group of another grid starts (08 R198). -/
def switchGrid (s : State) (c h : Nat) : State :=
  s.modCore c fun k => { (if k.lastGrid = h then k else emptyL1 k) with lastGrid := h }

/-! ### Ending waves -/

/-- An exchange port is set IDLE with its counters cleared (16 R389, R390, R396). -/
def Port.idle (p : Port) : Port :=
  { p with st := .idle, sends := [], lands := [], drop := 0, unsent := 0, unbound := 0, stray := false, coll := false, orphan := false, stale := false }
/-- The port's owner ends (16 R390). -/
def closePort (s : State) (w : Nat) : State :=
  s.modCore (waveCore w) fun c =>
    if c.port.st = .idle ∨ c.port.owner ≠ w then c
    else if c.port.st = .run then { c with port := { c.port with orphan := true } }
    else { c with port := c.port.idle }

/-- Windows without a holder are freed (13 R326). -/
def dropHolder (ws : Tbl Window) (n : Nat) : Tbl Window :=
  (ws.map fun w => (w.1, { w.2 with holders := w.2.holders.filter (· ≠ n) })).filter fun w => !w.2.holders.isEmpty

/-- The result word of `MSTOP` (13 R324). -/
def mstopWord (x : Ctx) (code : Nat) : Word :=
  let p := Tbl.get 0 x.regs 0
  BitVec.ofNat 64 (code * 2 ^ 56 + fld p 56 8 * 2 ^ 48 + b2n (bit p 39) * 2 ^ 47 + fld p 0 32)

/-- A STOPPING context whose operations are done releases its windows and is FREE (13 R309, R324). -/
def freeCtx (s : State) (v n : Nat) : State :=
  let x := s.ctx v n
  if x.st ≠ .stopping ∨ (s.vat v).rtab.any (fun e => e.ctx = n) then s
  else
    let s := passOn s x.grid x.uid x.clk
    let s := s.modVat v fun y => { y with wins := dropHolder y.wins n, ctxs := Tbl.erase y.ctxs n }
    match x.stopper with
    | some (w, d, code) =>
      (wakeAgent s { agent := .wave w, d := d, value := mstopWord x code }).modWave w fun y => { y with passes := y.passes - 1 }
    | none => s

/-- A context enters STOPPING: its ungranted operations are removed, and the answer to its BWAIT that is on its way is
dropped (13 R309, R310). -/
def stopCtx (s : State) (v n : Nat) (stopper : Option (Nat × Nat × Nat)) : State :=
  let s := (deregister s (.ctx v n)).modNet fun m => { m with wakes := m.wakes.filter fun (k : Wake) => k.agent ≠ Agent.ctx v n }
  let s := s.modVat v fun y => { y with rtab := y.rtab.filter fun e => e.ctx ≠ n || e.granted }
  let s := s.modCtx v n fun x => { x with st := .stopping, wait := none, stopper := stopper.or x.stopper }
  freeCtx s v n

/-- The context that a group holds. -/
def groupCtx (s : State) (c g : Nat) : Option Nat :=
  ((s.vat (coreVat c)).ctxs.find? fun x => decide (x.2.group = g ∧ x.2.st ≠ .free)).map (·.1)

/-- The waves of a group that have not ended. -/
def groupWaves (s : State) (g : Nat) : List Nat :=
  match Tbl.get? s.groups g with
  | some x => x.waves.filter fun w => (s.wave w).live && decide ((s.wave w).group = g ∧ (s.wave w).run ≠ .ended)
  | none => []

/-- A wave ends (04 R127, 18 R412, 13 R313, 12 R299, 16 R390); with the last of its group, slots held for it elsewhere
are free (19 R418). -/
def endWave (s : State) (w : Nat) : State :=
  let x := s.wave w
  let c := waveCore w
  let s := deregister s (.wave w)
  let s := unwake s w
  let s := drainWhere s c (holdsWave w)
  let s := closePort s w
  let s := s.modVat (coreVat c) fun v => { v with ctxs := v.ctxs.map fun k => (k.1, { k.2 with stopper := k.2.stopper.filter fun p => p.1 ≠ w }) }
  let s := s.modCore c fun k => { k with streams := k.streams.filter fun t => t.2.owner ≠ some w, rrecv := k.rrecv.filter (· ≠ w) }
  let s := s.modWave w fun y => { y with run := .ended, halt := false, fault := none, c := [], v := [], pend := [], promo := none, since := s.cyc }
  let s := passOn s x.grid x.uid x.clk
  if (groupWaves s x.group).isEmpty then
    let s := { s with groups := s.groups.map fun g => (g.1, if g.1 = x.group then { g.2 with held := [] } else g.2) }
    match groupCtx s c x.group with
    | some n => stopCtx s (coreVat c) n none
    | none => s
  else s

/-! ### Releasing groups and settling grids -/

/-- Whether a destination capability reaches a scratch range, seen from a core. -/
def reaches (s : State) (c : Nat) (cap : Cap) (len key n : Nat) : Bool :=
  match (if 0x7D ≤ cap.addr / 2 ^ 48 then scratchWindow s c cap.addr else none) with
  | some k => decide (k < key + n ∧ key < k + len)
  | none => false
/-- The offset of the port descriptor of a press operation (14 R339). -/
def REntry.portOff (e : REntry) : Nat := match e.op with
  | .drain _ => fld (Tbl.get 0 e.regs 11) 0 32
  | _ => fld (Tbl.get 0 e.regs 10) 0 32
/-- The operation has a port: HEAD is stored into its descriptor (14 R340). -/
def REntry.ported (e : REntry) : Bool := match e.op with
  | .drain _ => true
  | .join => bit (Tbl.get 0 e.regs 10) 63
  | _ => false
/-- Where it stores HEAD, for a context's arena. -/
def REntry.headAt (e : REntry) (arena : Cap) : Nat := arena.base + e.portOff + 16

/-- An engine still writes into a scratch range (05 R135): a press operation its records, and HEAD. -/
def engineWrites (s : State) (key n : Nat) : Bool :=
  s.cores.any (fun c => c.2.fifo.any fun r => reaches s c.1 r.dst r.len key n)
    || s.vats.any fun v => v.2.harp.any (fun r => reaches s r.core r.dst (r.dst.top - r.dst.addr) key n)
      || v.2.rtab.any fun e =>
        let x := Tbl.get {} v.2.ctxs e.ctx
        e.ported && (reaches s (waveCore x.wave) e.cap (e.cap.top - e.cap.addr) key n
          || reaches s (waveCore x.wave) (x.arena.setAddr (e.headAt x.arena)) 4 key n)

/-- A grid with nothing pending and every group released is DRAINING (05 R139, R149). -/
def settleGrid (s : State) (h : Nat) : State :=
  s.modGrid h fun g =>
    let k := recKind g.record
    let busy := s.tasks.any (fun t => t.grid = h) || s.groups.any (fun x => x.2.grid = h) || s.saved.any (fun v => v.grid = h)
      || s.cores.any fun c => c.2.shadow.any (fun x => x.2.grid = h) || c.2.hprog.any fun p => p.grid = h
    let node := decide (k = 1) && !g.killed && (!g.closed || !g.batches.isEmpty || decide (fld (homeWord s (g.qkey + 24)) 0 32 ≠ fld (homeWord s (g.qkey + 24)) 32 32))
    if !busy && !node && decide (g.st = .running ∨ (g.st = .pending ∧ (g.killed ∨ k ≠ 0))) then { g with st := .draining } else g

/-- The node's CONS moves past released batches, in order (05 R150). -/
def advanceNode (s : State) (h fuel : Nat) : State :=
  match fuel, s.grid? h with
  | fuel + 1, some g =>
    match g.batches with
    | b :: t =>
      if b.released then
        let q := homeWord s (g.qkey + 8)
        let s := (homeWrite s {} 1 (g.qkey + 28) (bytesOf 4 (fld q 40 8 * (b.no + 1))) none).1
        advanceNode (s.setGrid h { g with batches := t }) h fuel
      else s
    | [] => s
  | _, _ => s

/-- The group's scratch may be released (05 R135, 13 R313). -/
def releasable (s : State) (g : Nat) : Bool := match Tbl.get? s.groups g with
  | some x => (groupWaves s g).isEmpty && !engineWrites s (scratchKey x.core x.soff) x.slen && (groupCtx s x.core g).isNone && x.saving.isNone
  | none => false

/-- A grid's hit program that is unbound gives its reservation back once no shading group of it is left, resident or saved,
and no hit of it waits (15 R382). -/
def freeProgram (s : State) (h : Nat) : State :=
  let held := s.groups.any (fun y => y.2.grid = h) || s.saved.any fun v => v.grid = h
  { s with cores := s.cores.map fun c => (c.1, { c.2 with hprog := c.2.hprog.filter fun p =>
      !(decide (p.grid = h) && p.unbound && !held && (c.2.hits.isEmpty || (s.grid? h).any fun g => g.killed)) }) }

/-- A group of a grid is over: its hit program may be freed, its batch is released, and the grid settles (05 R139, R150, 15
R382). -/
def endGroup (s : State) (h i : Nat) : State :=
  let s := (freeProgram s h).modGrid h fun y => { y with batches := y.batches.map fun b => if b.no = i then { b with released := true } else b }
  settleGrid (advanceNode s h (((s.grid? h).map (·.batches.length)).getD 0 + 1)) h

/-- A group's scratch is released (05 R135, R150, 15 R373, R382). -/
def releaseGroup (s : State) (g : Nat) : State :=
  match Tbl.get? s.groups g with
  | none => s
  | some x =>
    let key := scratchKey x.core x.soff
    let s := invalidateWaiters s fun k => decide (key ≤ k ∧ k < key + x.slen)
    let s := note { s with groups := Tbl.erase s.groups g } ⟨coreDie x.core, x.grid, 3, x.gidx, x.gidx + 1⟩
    let s := s.modCore x.core fun c => { c with hprog := c.hprog.map fun h => if h.user = some g then { h with user := none } else h }
    endGroup s x.grid x.gidx

/-! ### Barrier domains of a grid (16 R392) -/

/-- A claim's or free's broadcast reaches a tile: what it has seen of the domain's phases is forgotten, and a port
armed for it gets no PHASE-START any more (16 R386, R394). -/
def broadcastAt (s : State) (m : TileMsg) : State :=
  s.modCore m.core fun c => { c with port := { c.port with
    owners := Tbl.set c.port.owners m.domain m.value
    member := Tbl.set c.port.member m.domain m.member
    seen := Tbl.erase c.port.seen m.domain
    stale := c.port.stale || (decide (c.port.st = .armed ∧ c.port.domain = m.domain)) } }
/-- Broadcast OWNER and the mask of a domain to every tile of a die, which it reaches at most 40 cycles later. -/
def broadcast (s : State) (d n owner mask : Nat) : State :=
  let ms := (dieCores d).map fun c => (⟨c, n, owner, mask.testBit (tileOf c), s.cyc + 40⟩ : TileMsg)
  s.modNet fun x => { x with bcasts := x.bcasts ++ ms }

def domainKey (d n : Nat) : Nat := scratchKey (dieCore d 0 0) (128 * n)
def domainOwner (s : State) (d n : Nat) : Nat := fld (memWord s (domainKey d n + 56)) 32 32

/-- Free a domain; its waiters are woken with INVALIDATED (16 R392). -/
def freeDomain (s : State) (d n : Nat) : State :=
  let k := domainKey d n
  let s := Bar.write s k { Bar.read s k with v := false }
  let s := poke s (k + 60) (bytesOf 4 0)
  broadcast (invalidateWaiters s (· = k)) d n 0 0
def freeDomains (s : State) (h : Nat) : State :=
  (liveDies s).foldl (fun s d => (List.range 8).foldl (fun s n => if domainOwner s d n = h then freeDomain s d n else s) s) s

/-! ### Kills (18 R412, R413, 07 R188) -/

/-- The grid or one of its ancestors is `h` (05 R141). -/
def below (s : State) (h : Nat) : Nat → Nat → Bool
  | 0, x => decide (x = h)
  | n + 1, x => decide (x = h) || match s.grid? x with
    | some g => decide (g.parent ≠ 0) && below s h n g.parent
    | none => false

/-- Remove a grid's pending indices, not-runnable shadow slots and saved groups (07 R188). -/
def cancelGrid (s : State) (h : Nat) : State :=
  { s with
    tasks := s.tasks.filter fun t => t.grid ≠ h
    saved := s.saved.filter fun v => v.grid ≠ h
    cores := s.cores.map fun c => (c.1, { c.2 with shadow := c.2.shadow.filter fun x => x.2.grid ≠ h }) }

/-- Kill a grid and all below it that have not retired; the number of waves ended. -/
def killGrid (s : State) (h : Nat) : Nat × State :=
  let hs := (s.grids.filter fun g => below s h 10 g.1 && decide (g.2.st ≠ .retired)).map (·.1)
  let ws := ((s.waves.filter fun w => w.2.live && decide (w.2.run ≠ .ended) && hs.contains w.2.grid).map (·.1))
  let s := hs.foldl (fun s x => (cancelGrid s x).modGrid x fun g => { g with
    killed := true, closed := true, batches := g.batches.filter fun b => s.groups.any fun y => decide (y.2.grid = x ∧ y.2.gidx = b.no) }) s
  let s := ws.foldl endWave s
  let s := { s with cores := s.cores.map fun c => (c.1, match c.2.hprog with
    | some p => if hs.contains p.grid then { c.2 with hprog := if s.groups.any fun y => y.2.grid = p.grid then some { p with unbound := true } else none } else c.2
    | none => c.2) }
  let s := hs.foldl freeDomains s
  (ws.length, hs.foldl settleGrid s)

/-! ### Completion records and vectors (22 R457 to R459) -/

/-- A vector's count trigger (22 R455). -/
def countTrigger (w : Word) : Nat := if fld w 32 16 = 0 then 1 else fld w 32 16

/-- Add one record to a vector, and fire it when its count is reached (22 R459). -/
def countVector (s : State) (v : Nat) : State :=
  let n := Tbl.get 0 s.bar0.pending v + 1
  let s := { s with bar0 := { s.bar0 with
    pending := Tbl.set s.bar0.pending v n
    oldest := if n = 1 then Tbl.set s.bar0.oldest v (leaseNow s 0) else s.bar0.oldest } }
  if bit (icoal s v) 63 && decide (countTrigger (icoal s v) ≤ n) then fireVector s v else s

def ringLg (s : State) : Nat := Nat.max 4 (Nat.min 20 (fld s.bar0.ercfg 0 5))
/-- The event ring takes a record (22 R458). -/
def ringRoom (s : State) : Bool :=
  bit s.bar0.ercfg 5 && decide ((s.bar0.erhead + 2 ^ 32 - s.bar0.ertail) % 2 ^ 32 ≠ 2 ^ ringLg s)

/-- Status of a completion record (22 R457). -/
def gridStatus (g : Grid) : Nat := if g.killed then 1 else if g.nofit then 4 else if g.lost then 2 else if g.replayed then 3 else 0

/-- Write a grid's completion record (22 R457 to R459), after which an acquire sees the grid's stores (05 R140). -/
def writeRecord (s : State) (h : Nat) (g : Grid) : State :=
  let k := s.bar0.erhead
  let pa := fld s.bar0.erbase 0 48 + 32 * (k % 2 ^ ringLg s)
  let ph := 1 - k / 2 ^ ringLg s % 2
  let bs := bytesOf 8 (leaseNow s s.master) ++ bytesOf 8 (h * 2 ^ 32 + gridStatus g * 2 ^ 24 + g.fcode * 2 ^ 16 + ph)
    ++ bytesOf 8 (g.nfault * 2 ^ 32 + g.ngrp) ++ bytesOf 8 g.parent
  let s := notePage s pa
  let rels := (List.range 4).map fun i => (⟨pa + 8 * i, 6, dieCore s.master 0 0, 0, 0, s.seq, g.passed⟩ : Rel)
  let s := (homeWrite s { rels := rels } 1 pa bs none).1
  let s := { s with bar0 := { s.bar0 with erhead := (k + 1) % 2 ^ 32 } }
  countVector (s.setGrid h { g with recorded := true }) g.vec

/-! ### Retirement (05 R139, R140) -/

/-- Every store of the grid has been acknowledged and its children have retired. -/
def gridQuiet (s : State) (h : Nat) : Bool :=
  !s.grids.any (fun g => g.2.parent = h)
    && !s.cores.any (fun c => c.2.sgb.any (·.grids.contains h) || c.2.squeue.any fun q => q.grid = h)
    && !s.net.reqs.any (fun r => decide (r.grid = h ∧ r.sid < 16)) && !s.net.acks.any (fun a => a.grid = h)

/-- The rest of retirement: the domain is freed, CBAR is credited, the handle is free (05 R140, 16 R392). -/
def finishGrid (s : State) (h : Nat) (g : Grid) : State :=
  let s := freeDomains s h
  let s := { s with grids := Tbl.erase s.grids h }
  let cb := recCbar g.record
  let s := if cb = 0 then s else sendArrival s ⟨scratchKey (coreOf (cb / 2 ^ 31 % 1024) (cb / 2 ^ 21 % 1024)) (cb % 2 ^ 21), 1, .grid, g.passed⟩
  if g.parent = 0 then s else settleGrid s g.parent

/-- Steps 2 and 3 of 05 R140: a RETIRED grid waits until its record has room in the ring (22 R458). -/
def completeGrid (s : State) (h : Nat) (g : Grid) : State :=
  if recCrec g.record && !g.recorded then
    if ringRoom s then finishGrid (writeRecord s h g) h g else s
  else finishGrid s h g

/-- The writes of a grid are published by its retirement, as a release of `.sys` does (05 R140 step 1). -/
def publishGrid (s : State) (h : Nat) (g : Grid) : State :=
  { s with wrote := s.wrote.map fun l => (l.1, l.2.map fun e => if e.grid = h then { e with pub := e.pub.or (Tbl.get? g.passed e.uid) } else e) }

/-- Retire a grid as far as it goes: one that is DRAINING enters RETIRED once its stores' completion time has passed
(05 R139, R140). -/
def retireGrid (s : State) (h : Nat) : State :=
  match s.grid? h with
  | none => s
  | some g =>
    if g.st = .retired then completeGrid s h g
    else if g.st ≠ .draining ∨ !gridQuiet s h then s
    else if leaseNow s s.master < g.gw + 32 then s
    else
      let g := { g with st := .retired }
      completeGrid ((publishGrid s h g).setGrid h g) h g

/-! ### Events -/

/-- 05 R135. -/
def execScratchRelease (group : Nat) (s : State) : Res := .next (if releasable s group then releaseGroup s group else s)
/-- 05 R139, R140. -/
def execGridRetire (grid : Nat) (s : State) : Res := .next (retireGrid (settleGrid s grid) grid)
/-- 22 R458: the record of a grid that waits for room in the ring. -/
def execCompletionRecordWrite (grid : Nat) (s : State) : Res :=
  .next (match s.grid? grid with
    | some g =>
      if g.st = .retired ∧ recCrec g.record ∧ !g.recorded ∧ ringRoom s then
        writeRecord s grid g
      else s
    | none => s)
/-- 22 R459. -/
def execVectorTimeFire (v : Nat) (s : State) : Res :=
  .next (match Tbl.get? s.bar0.oldest v with
    | some t =>
      let i := fld (icoal s v) 0 32
      if bit (icoal s v) 63 ∧ i ≠ 0 ∧ t + i ≤ leaseNow s 0 then fireVector s v else s
    | none => s)
/-- 16 R386: messages of one domain reach a tile in the order in which they were sent. -/
def execDomainBroadcast (n : Nat) (s : State) : Res :=
  .next (match s.net.bcasts[n]? with
    | some m =>
      let first := !(s.net.bcasts.take n).any fun y => decide (y.core = m.core ∧ y.domain = m.domain)
      let alone := !s.net.phases.any fun y => decide (y.core = m.core ∧ y.domain = m.domain ∧ y.due ≤ m.due)
      if first && alone then broadcastAt (s.modNet fun x => { x with bcasts := dropAt x.bcasts n }) m else s
    | none => s)
/-- 21 R446. -/
def execJournalEntry (n : Nat) (s : State) : Res :=
  .next (match s.net.journal[n]? with
    | some j => { s.modNet fun x => { x with journal := dropAt x.journal n } with journal := s.journal ++ [j] }
    | none => s)

end Sys2Proof.Machine
end

