-- ==== Sys2Proof/Machine/Grid.lean ====
section
/-! DEFINITION. Accepting grids and `LAUNCH`, `GROW`, `EMIT` (05 R143 to R150), the distributors (07 R178
to R182), shadow slots (R185, R186) and the issue window (R190). -/

namespace Sys2Proof.Machine

/-! ### Accepting a grid -/

/-- Cut a range into one part per live die, in proportion to its present cores; the remainder goes to the
first (07 R181, R182). -/
def cutRange (s : State) (lo hi : Nat) : List (Nat × Nat × Nat) :=
  let ds := (liveDies s).map fun d => (d, (presentCores s d).length)
  let total := (ds.map (·.2)).sum
  let parts := ds.map fun d => (d.1, (hi - lo) * d.2 / Nat.max total 1)
  let rest := (hi - lo) - (parts.map (·.2)).sum
  let parts := match parts with
    | [] => []
    | p :: t => (p.1, p.2 + rest) :: t
  ((parts.foldl (fun (a : List (Nat × Nat × Nat) × Nat) p => (a.1 ++ [(p.1, a.2, a.2 + p.2)], a.2 + p.2)) ([], lo)).1).filter
    fun p => p.2.1 < p.2.2

/-- Put a range into the pools of the live dies. -/
def poolRange (s : State) (h lo hi : Nat) : State :=
  (cutRange s lo hi).foldl (fun s p =>
    note { s with tasks := s.tasks ++ [⟨h, p.2.1, p.2.2, .pool p.1, s.cyc⟩] } ⟨p.1, h, 0, p.2.1, p.2.2⟩) s

/-- A free handle (05 R142). -/
def newHandle (s : State) : Nat :=
  let c := (List.range 4098).map fun i => (s.handle + i) % 2 ^ 32
  (c.find? fun h => h ≠ 0 ∧ (s.grid? h).isNone).getD 1

/-- Accept a record as a grid (05 R139, 07 R182): its handle. Its waves know what the agent that launches it knows
(05 R144), and what the host wrote before the launch that it comes from (22 R454). -/
def newGrid (s : State) (r : List Word) (depth parent asid vec : Nat) (sup : Bool) : Nat × State :=
  let h := newHandle s
  let order := s.grids.foldl (fun m g => Nat.max m g.2.accepted) 0 + 1
  let g : Grid := { record := r, depth := depth, parent := parent, asid := asid, vec := vec, groups := recGroups r, sup := sup,
                    accepted := order, start := s.seq, clk := s.curClk, host := ((s.grid? parent).map (·.host)).getD 0 }
  (h, { s.setGrid h g with handle := (h + 1) % 2 ^ 32 })

/-- Accept a grid of KIND 0 or 1, with its index space in the pools. -/
def acceptGrid (s : State) (r : List Word) (depth parent asid vec : Nat) (qkey : Nat) : Nat × State :=
  let (h, s) := newGrid s r depth parent asid vec false
  if recKind r = 1 then
    (h, (homeWrite s {} 1 (qkey + 24) (bytesOf 8 0) none).1.modGrid h fun g => { g with qkey := qkey })
  else (h, poolRange s h 0 (recGroups r))

/-! ### Queue descriptors (05 R148) -/

/-- Fields of a node's queue: RING, NEED, RSZ, SLOTS, QT, CONS, PROD. -/
structure Queue where
  ring : Nat
  need : Nat
  rsz : Nat
  slots : Nat
  qt : Nat
  cons : Nat
  prod : Nat
deriving DecidableEq, Repr

def Queue.read (s : State) (k : Nat) : Queue :=
  let q1 := homeWord s (k + 8)
  let q3 := homeWord s (k + 24)
  ⟨fld (homeWord s k) 0 55, fld q1 40 8, fld q1 32 8, fld q1 0 32, fld (homeWord s (k + 16)) 0 32, fld q3 32 32, fld q3 0 32⟩

/-- A descriptor that breaks its limits. -/
def queueBad (s : State) (k : Nat) : Bool :=
  let q := Queue.read s k
  decide (fld (homeWord s k) 55 9 ≠ 0 ∨ fld (homeWord s (k + 8)) 48 16 ≠ 0 ∨ fld (homeWord s (k + 16)) 32 32 ≠ 0
    ∨ q.need = 0 ∨ q.rsz = 0 ∨ 16 < q.rsz ∨ q.ring % (16 * q.rsz) ≠ 0 ∨ q.slots = 0 ∨ q.slots % q.need ≠ 0)

/-- The address of a slot. -/
def Queue.slot (q : Queue) (k : Nat) : Nat := q.ring + k % q.slots * (16 * q.rsz)

/-- The place of a record's queue descriptor; none if it breaks R148. -/
def queuePlace (s : State) (r : List Word) (core asid : Nat) : Option Nat × State :=
  if recArg r % 32 ≠ 0 then (none, s)
  else match engineWindow s core asid (recArg r) .store with
    | (some p, s) =>
      let s := accessLine (noteLeaf s p) (lineOf p.key) true false
      (if queueBad s p.key then none else some p.key, s)
    | (none, s) => (none, s)

/-! ### Replies of the distributor -/

/-- The reply of a distributor or of a queue's home (05 R144). -/
def distReply (s : State) (d : Nat) (st v : Nat) (made : Option (Nat × Option Nat) := none) : State :=
  (park s (.reply d)).modNet fun n => { n with
    replies2 := n.replies2 ++ [{ agent := s.cur, d := d, value := BitVec.ofNat 64 (st * 2 ^ 56 + v), made := made }] }

/-- What a `REL.sys` of the wave does, then `k` (05 R144). -/
def releaseThen (s : State) (k : State → State) : State := fenceThen s 6 (fun _ => true) k

/-- The keys of the `n` granules from `ea` on, as the agent that moves translates them, if they are all mapped. -/
def mapAcross (s : State) (ea : Nat) : Nat → Option (List Nat) × State
  | 0 => (some [], s)
  | n + 1 => match window s s.curCore s.curAsid ea .load with
    | (none, s) => (none, s)
    | (some p, s) =>
      let (l, s) := mapAcross (noteLeaf s p) (ea + 16) n
      (l.map (p.key :: ·), s)
/-- Granules read as bypass loads of the agent that moves, with their tags, and the pa of a line that could not be read. -/
def readKeys (s : State) : List Nat → List Cap × Option Nat × State
  | [] => ([], none, s)
  | k :: ks =>
    let (g, s) := bypassRead s s.curCore s.fetcher k 16 1
    let (t, bad, s) := readKeys s ks
    (⟨g.tag, BitVec.ofNat 64 (ofBytes (g.bytes.drop 8)), BitVec.ofNat 64 (ofBytes (g.bytes.take 8))⟩ :: t, g.bad.or bad, s)

/-- Continue with the keys of the `n` granules from `ea` on if they are all mapped; else XLATE, with the access's
address (01 R17, R29). -/
def withMapped (s : State) (ea n : Nat) (k : List Nat → State → State) : State :=
  match mapAcross s ea n with
  | (some ks, s) => k ks s
  | (none, s) => raise s ⟨.xlate, BitVec.ofNat 64 ea⟩

/-- Continue with granules that the instruction itself reads; an uncorrectable error of one is met at once, since no
register takes it (18 R403; log 46). -/
def withGranules (s : State) (ks : List Nat) (k : List Cap → State → State) : State :=
  match readKeys s ks with
  | (l, none, s) => k l s
  | (_, some pa, s) => raise s ⟨.ecc, BitVec.ofNat 64 pa⟩

/-- The 64-bit words of granules, and their bytes. -/
def wordsOf (l : List Cap) : List Word := l.flatMap fun c => [c.lo, c.hi]
def capOctets (c : Cap) : List Byte := bytesOf 8 c.lo.toNat ++ bytesOf 8 c.hi.toNat

/-- The keys of `n` granules from a key on. -/
def granulesAt (k n : Nat) : List Nat := (List.range n).map fun i => k + 16 * i

def gridsFull (s : State) : Bool := decide (4096 ≤ s.grids.length)

/-- 05 R145. -/
def execLaunch (d a : BitVec 6) (s : State) : Res :=
  checkedLaunch d a s fun s =>
    let cap := s.reg a.toNat
    withAccess s cap cap.addr 64 permLD 64 .load fun p s =>
      releaseThen s fun s => withGranules s (granulesAt p.key 4) fun gs s =>
        let r := wordsOf gs
        let x := s.curWave
        let g := (s.grid? x.grid).getD { record := [] }
        let done (s : State) (st v : Nat) : State := distReply s d.toNat st v
        if x.widx ≠ 0 then done s 4 0
        else if recordBad s r || decide (recKind r = 2) then done s 1 0
        else
          let (q, s) := if recKind r = 1 then queuePlace s r s.curCore g.asid else (some 0, s)
          match q with
          | none => done s 1 0
          | some q =>
            if g.depth = 10 then done s 2 0
            else if !someCoreFits s r then done s 5 0
            else if gridsFull s then done s 3 0
            else
              let (h, s) := acceptGrid s r (g.depth + 1) x.grid g.asid g.vec q
              distReply s d.toNat 0 h (some (h, none))

/-- 05 R146, R147; a killed grid is gone (07 R188). -/
def execGrow (d a b : BitVec 6) (s : State) : Res :=
  checkedGrow d a b s fun s =>
    releaseThen s fun s =>
      let h := fld (s.lo a.toNat) 0 32
      let n := fld (s.lo b.toNat) 0 32
      match s.grid? h with
      | none => distReply s d.toNat 7 0
      | some g =>
        if g.killed ∨ g.st = .retired then distReply s d.toNat 7 0
        else if recKind g.record ≠ 0 then distReply s d.toNat 8 0
        else if recGmax g.record < g.groups + n then distReply s d.toNat 6 g.groups
        else if n = 0 then distReply s d.toNat 0 g.groups
        else
          let s := s.setGrid h { g with
            groups := g.groups + n, st := if g.st = .draining then .running else g.st, grown := g.grown ++ [(g.groups, s.curClk)] }
          let s := { s with tasks := s.tasks ++ [⟨h, g.groups, g.groups + n, .deferred, s.cyc⟩] }
          distReply s d.toNat 0 g.groups (some (h, some n))

/-! ### Graph nodes -/

/-- Write bytes at an address under a grid's ASID, a granule at a time; what is not mapped is lost. -/
def writeAcross (s : State) (by_ : Writer) (core asid ea : Nat) : List (List Byte) → State
  | [] => s
  | b :: t =>
    match engineWindow s core asid ea .store with
    | (none, s) => writeAcross s by_ core asid (ea + 16) t
    | (some p, s) => writeAcross (homeWrite (noteLeaf s p) by_ 1 p.key b none).1 by_ core asid (ea + 16) t

/-- Bytes in runs of 16. -/
def granules : Nat → List Byte → List (List Byte)
  | 0, _ => []
  | n + 1, bs => bs.take 16 :: granules n (bs.drop 16)

/-- The open batch becomes ready with the slots written so far (05 R150). DESIGN CHOICE (log 42): once the 32-bit PROD has
passed 2^32 the batch numbers start again from 0. -/
def readyBatch (s : State) (h : Nat) (written : Nat) : State :=
  match s.grid? h with
  | none => s
  | some g =>
    let q := Queue.read s g.qkey
    let b := (q.prod + 2 ^ 32 - 1) % 2 ^ 32 / q.need
    let s := (homeWrite s {} 1 (g.qkey + 24) (bytesOf 4 (q.need * (b + 1))) none).1
    let s := s.setGrid h { g with batches := g.batches ++ [{ no := b, written := written, clk := g.emits }], emits := [], first := 0 }
    note { s with tasks := s.tasks ++ [⟨h, b, b + 1, .pool s.master, s.cyc⟩] } ⟨s.master, h, 0, b, b + 1⟩

/-- Slots written in the open batch. -/
def openSlots (q : Queue) : Nat := q.prod % q.need

/-- What the agent that moves knows, its EMIT included, goes with the open batch (05 R144). -/
def emitClk (s : State) (h : Nat) : State :=
  let s := s.release
  s.modGrid h fun g => { g with emits := joinClk g.emits s.curClk }

/-- Close a node (05 R149, R150). -/
def closeNode (s : State) (h : Nat) : State :=
  match s.grid? h with
  | none => s
  | some g =>
    let q := Queue.read s g.qkey
    let s := s.setGrid h { g with closed := true }
    settleGrid (if !g.closed ∧ openSlots q ≠ 0 then readyBatch s h (openSlots q) else s) h

/-- 05 R149, R150. -/
def execEmit (d a b : BitVec 6) (s : State) : Res :=
  checkedEmit d a b s fun s =>
    let cap := s.reg a.toNat
    let h := fld (s.lo b.toNat) 0 32
    match s.grid? h with
    | none => releaseThen s fun s => distReply s d.toNat 7 0
    | some g =>
      if g.st = .retired then releaseThen s fun s => distReply s d.toNat 7 0
      else if recKind g.record ≠ 1 then releaseThen s fun s => distReply s d.toNat 8 0
      else if cap.isZero then releaseThen s fun s => distReply (closeNode (emitClk s h) h) d.toNat 0 0
      else
        let q := Queue.read s g.qkey
        withAccess s cap cap.addr (16 * q.rsz) permLD 16 .load fun _ s => withMapped s cap.addr q.rsz fun ks s =>
          releaseThen s fun s =>
            if g.closed then distReply s d.toNat 10 0
            else if (q.prod + 2 ^ 32 - q.cons) % 2 ^ 32 = q.slots then distReply s d.toNat 9 0
            else withGranules s ks fun gs s =>
              let by_ : Writer := { uid := s.curWave.uid, grid := s.curWave.grid }
              let s := emitClk (writeAcross s by_ (keyHome g.qkey) g.asid (q.slot q.prod) (gs.map capOctets)) h
              let s := (homeWrite s {} 1 (g.qkey + 24) (bytesOf 4 ((q.prod + 1) % 2 ^ 32)) none).1
              let s := if openSlots q = 0 then s.modGrid h fun g => { g with first := s.cyc } else s
              let s := if openSlots q + 1 = q.need then readyBatch s h q.need else s
              distReply s d.toNat 0 q.prod

/-- 05 R150. -/
def execBatchTimeout (grid : Nat) (s : State) : Res :=
  .next (match s.grid? grid with
    | some g =>
      let q := Queue.read s g.qkey
      if recKind g.record = 1 ∧ !g.closed ∧ openSlots q ≠ 0 ∧ q.qt ≠ 0 ∧ g.first + q.qt ≤ s.cyc then readyBatch s grid (openSlots q) else s
    | none => s)

/-- A launch slot's result is written, and then its bit clears (22 R454). -/
def Bar0.answer (b : Bar0) (n : Nat) (v : Word) : Bar0 :=
  { b with lres := Tbl.set b.lres n v, slotst := b.slotst &&& ~~~(BitVec.ofNat 64 (2 ^ n)) }

/-- 05 R144; a reply for no agent is a launch slot's (22 R454). -/
def execDistributorReply (n : Nat) (s : State) : Res :=
  .next (match s.net.replies2[n]? with
    | some k =>
      let s := s.modNet fun m => { m with replies2 := dropAt m.replies2 n }
      if k.agent = .none then { s with bar0 := s.bar0.answer k.d k.value } else wakeAgent s k
    | none => s)

/-! ### Distributors (07 R179 to R182) -/

/-- The empty shadow slot of lowest number. -/
def emptyShadow (s : State) (c : Nat) : Option Nat := (List.range 2).find? fun i => (Tbl.get? (s.core c).shadow i).isNone

/-- The core that SUPLOC names (18 R407). -/
def supCore (s : State) (d : Nat) : Nat := dieCore d 0 0 + (s.die d).suploc

/-- A core may receive a group of the grid now (07 R184, R187). -/
def mayReceive (s : State) (c h : Nat) : Bool := match s.grid? h with
  | some g => !g.killed && fitsNow s g.record c && admitted s c (recClass g.record)
  | none => false

/-- A task ranks before another (07 R180). DESIGN CHOICE (log 43): W of a task that has had no index granted counts from
its creation, and restarts when a part of it is moved to another die. -/
def ranksBefore (s : State) (x y : Task) : Bool :=
  let key (t : Task) : Nat × Nat × Nat × Nat :=
    let g := (s.grid? t.grid).getD { record := [] }
    (g.depth, Nat.min 15 (recPrio g.record + (s.cyc - t.since) / 65536), g.accepted, t.lo)
  let a := key x
  let b := key y
  decide (b.1 < a.1 ∨ (a.1 = b.1 ∧ (b.2.1 < a.2.1 ∨ (a.2.1 = b.2.1 ∧ (a.2.2.1 < b.2.2.1 ∨ (a.2.2.1 = b.2.2.1 ∧ a.2.2.2 < b.2.2.2))))))

/-- The best of the tasks. -/
def bestTask (s : State) (ts : List Task) : Option Task := match ts with
  | [] => none
  | x :: t => some (t.foldl (fun b y => if ranksBefore s y b then y else b) x)

/-- Remove the first task equal to one, and put others in its place. -/
def replaceTask (ts : List Task) (t : Task) (new : List Task) : List Task := match ts with
  | [] => []
  | x :: r => if x = t then new ++ r else x :: replaceTask r t new

/-- A grant: an index fills a shadow slot, which reserves its resources (07 R185, R187). -/
def grantIndex (s : State) (c h i : Nat) : State :=
  match emptyShadow s c, s.grid? h with
  | some n, some g =>
    let s := note s ⟨coreDie c, h, 1, i, i + 1⟩
    let len := recScratchLen g.record
    let sh : Shadow := { grid := h, gidx := i, soff := (firstFit s c len).getD (scratchStart c), slen := len,
                         slots := (freeSlots s c).take (recFull g.record + recNarrow g.record), filled := s.cyc,
                         same := decide ((s.core c).lastGrid = h) }
    let s := (charge s c (recClass g.record)).modCore c fun k => { k with shadow := Tbl.set k.shadow n sh }
    s.setGrid h { g with st := if g.st = .pending then .running else g.st }
  | _, _ => s

/-- The core dispatches the lowest index of a range that is its local range. -/
def dispatchLocal (s : State) (c : Nat) (t : Task) : State :=
  let rest := if t.lo + 1 < t.hi then [⟨t.grid, t.lo + 1, t.hi, Hold.core c, s.cyc⟩] else []
  grantIndex { s with tasks := replaceTask s.tasks t rest } c t.grid t.lo

/-- The depth of a grid. -/
def depthOf (s : State) (h : Nat) : Nat := ((s.grid? h).map (·.depth)).getD 0
/-- The local ranges of a core that it may use. One of a grid is passed over while its die's pool holds a task of a deeper
grid that the core may receive (05 R152 item 5; log 43). -/
def usableLocal (s : State) (c : Nat) : List Task :=
  let deep := (s.tasks.filter fun t => decide (t.hold = .pool (coreDie c)) && mayReceive s c t.grid).foldl (fun m t => Nat.max m (depthOf s t.grid)) 0
  s.tasks.filter fun t => decide (t.hold = .core c) && mayReceive s c t.grid && decide (deep ≤ depthOf s t.grid)

/-- The largest local range of a grid that may be received, on the cores that `on` selects: of two or more indices
(07 R179), or of one that its own core cannot dispatch now (05 R152 item 4; log 30). DESIGN CHOICE (log 43): of equal
ranges of one core the one that stands first in the list. -/
def stealFrom (s : State) (on may : Nat → Bool) : Option Task :=
  let ts := s.tasks.filter fun t => (match t.hold with
    | .core v => on v && (decide (t.lo + 2 ≤ t.hi) || !mayReceive s v t.grid)
    | _ => false) && may t.grid
  let place (t : Task) : Nat := match t.hold with
    | .core v => coreY v * 1024 + coreX v
    | _ => 0
  match ts with
  | [] => none
  | x :: r => some (r.foldl (fun b y =>
      if b.hi - b.lo < y.hi - y.lo ∨ (b.hi - b.lo = y.hi - y.lo ∧ place y < place b) then y else b) x)

/-- A stolen range is cut: the victim keeps the lower part, and nothing of one index. -/
def cutLocal (t : Task) : Nat := if t.hi ≤ t.lo + 1 then t.lo else t.lo + (t.hi - t.lo + 1) / 2
/-- What is left of a task below `mid`. -/
def Task.below (t : Task) (mid : Nat) : List Task := if t.lo < mid then [{ t with hi := mid }] else []

/-- What the distributor of a core's die would grant it: a pool task, or a range to steal from (07 R179). -/
def grantable (s : State) (c : Nat) : Option Task × Option Task :=
  let on (v : Nat) : Bool := decide (v ≠ c ∧ coreDie v = coreDie c)
  (bestTask s (s.tasks.filter fun t => decide (t.hold = .pool (coreDie c)) && mayReceive s c t.grid), stealFrom s on (mayReceive s c))
/-- A core asks its distributor: it has an empty slot and no local range that it may use (07 R179). -/
def asks (s : State) (c : Nat) : Bool := (emptyShadow s c).isSome && corePresent s c && (usableLocal s c).isEmpty

/-- A core asks for work (07 R179). -/
def workRequest (s : State) (c : Nat) : State :=
  if !asks s c then s
  else match grantable s c with
    | (some t, _) =>
      let n := t.hi - t.lo
      let mid := if n = 1 then t.hi else t.lo + n / 2
      let own : Task := ⟨t.grid, t.lo, mid, .core c, s.cyc⟩
      let s := note s ⟨coreDie c, t.grid, 0, t.lo, mid⟩
      dispatchLocal { s with tasks := replaceTask s.tasks t (own :: if mid < t.hi then [{ t with lo := mid, since := s.cyc }] else []) } c own
    | (none, some t) =>
      let mid := cutLocal t
      let own : Task := ⟨t.grid, mid, t.hi, .core c, s.cyc⟩
      dispatchLocal { s with tasks := replaceTask s.tasks t (t.below mid ++ [own]) } c own
    | (none, none) => s

/-- 07 R179. -/
def execWorkRequest (core : Nat) (s : State) : Res := .next (workRequest s core)
/-- 07 R179, R180. -/
def execLocalSlotFill (core : Nat) (s : State) : Res :=
  .next (if (emptyShadow s core).isNone then s else match bestTask s (usableLocal s core) with
    | some t => dispatchLocal s core t
    | none => s)

/-- The cores of a die that ask and that its distributor can grant nothing. -/
def needyCores (s : State) (die : Nat) : List Nat := (presentCores s die).filter fun c => asks s c && decide (grantable s c = (none, none))

/-- 07 R182: a distributor that can grant a core nothing asks the master, which moves to its pool the upper part of the
best task of another die that such a core may receive, or of a local range where no pool has one (log 43). -/
def execMasterTaskRequest (die : Nat) (s : State) : Res :=
  .next (
    let cs := if dieLive s die then needyCores s die else []
    let could (h : Nat) : Bool := cs.any fun c => mayReceive s c h
    let move (t : Task) (mid : Nat) : State :=
      note { s with tasks := replaceTask s.tasks t (t.below mid ++ [⟨t.grid, mid, t.hi, .pool die, s.cyc⟩]) }
        ⟨die, t.grid, 0, mid, t.hi⟩
    match bestTask s (s.tasks.filter fun t => (match t.hold with
        | .pool d => decide (d ≠ die)
        | _ => false) && could t.grid) with
    | some t => move t (if t.hi = t.lo + 1 then t.lo else t.lo + (t.hi - t.lo) / 2)
    | none => match stealFrom s (fun v => decide (coreDie v ≠ die)) could with
      | some t => move t (cutLocal t)
      | none => s)

/-- 07 R181. -/
def execDeferredRangeJoin (grid : Nat) (s : State) : Res :=
  .next (if s.tasks.any fun t => decide (t.grid = grid ∧ t.hold ≠ .deferred) then s
    else match s.tasks.find? fun t => t.grid = grid with
      | some t => poolRange { s with tasks := replaceTask s.tasks t [] } grid t.lo t.hi
      | none => s)

/-! ### Shadow slots (07 R185, R186) -/

/-- Bring a line of code into a core's instruction cache, unless it is there; one that is not mapped is left out. -/
def prefetchCode (s : State) (c asid ea : Nat) : State :=
  match engineWindow s c asid ea .fetch with
  | (some p, s) =>
    if isScratch p.key || homeBad s p.key || (Tbl.get? (s.core c).icache (lineOf p.key)).isSome then s
    else fillIcache (belowRead (noteLeaf s p) c none p.key 4 1 false).2 c p.key
  | (none, s) => s

/-- Read a line of the argument block into the L1, under the L1-allowed policy. -/
def prefetchLine (s : State) (c asid ea : Nat) : State :=
  match engineWindow s c asid ea .load with
  | (some p, s) =>
    if isScratch p.key then s
    else
      let (g, s) := readL1 (noteLeaf s p) c none p.key 1 p.rep (s.core c).l1e
      placeReplicas s c g.grants
  | (none, s) => s

/-- The addresses of the lines that `n` bytes from `a` touch. -/
def linesFrom (a n : Nat) : List Nat :=
  if n = 0 then [] else (List.range ((a + n - 1) / 128 - a / 128 + 1)).map fun i => (a / 128 + i) * 128

/-- The prefetches of a shadow slot (07 R185). -/
def prefetch (s : State) (c : Nat) (sh : Shadow) (g : Grid) : State :=
  let r := g.record
  let pc := recCode r + recEntry r
  let s := (linesFrom pc (Nat.min 512 (recCode r + recCodeLen r - pc))).foldl (fun s a => prefetchCode s c g.asid a) s
  if sh.same ∧ recKind r ≠ 1 then (linesFrom (recArg r) (Nat.min (recArgLen r) 1024)).foldl (fun s a => prefetchLine s c g.asid a) s
  else s

/-- The capability c3 of a group (05 R138, R150). -/
def groupArg (s : State) (g : Grid) (i : Nat) : Cap :=
  if recKind g.record = 1 then
    let q := Queue.read s g.qkey
    let n := ((g.batches.find? fun b => b.no = i).map (·.written)).getD 0
    Cap.make (permLD + permLC + permES) (q.slot (q.need * i)) (n * 16 * q.rsz) (q.slot (q.need * i))
  else argCap g.record

/-- Where an address leads that may be written, without an access to it. -/
def placeOf (s : State) (c asid ea : Nat) : Option Nat :=
  if 0x7D ≤ ea / 2 ^ 48 % 128 then scratchWindow s c (ea % 2 ^ 55) else ((walk s asid ea).filter (·.allows .store)).map (·.pa)

/-- The stack of a slot holds undefined values, where it is mapped, page by page (05 R135). -/
def freshStack (s : State) (w asid : Nat) (r : List Word) : State :=
  let n := 2 ^ recStackLg r
  if recStackLg r = 0 then s
  else (List.range ((n + 65535) / 65536)).foldl (fun s i =>
    match placeOf s (waveCore w) asid (stackBase s w r + 65536 * i) with
    | some k => scribble s k ((Nat.min (n - 65536 * i) 65536 - (if n ≤ 65536 * (i + 1) then 16 else 0)) / 16)
    | none => s) s

/-- What a group finds in its scratch and in its waves' stacks (05 R135). -/
def freshMemory (s : State) (c : Nat) (slots : List Nat) (soff slen asid : Nat) (r : List Word) : State :=
  slots.foldl (fun s n => freshStack s (c * 32 + n) asid r) (scribble s (scratchKey c soff) (slen / 16))

/-- A group becomes runnable: its waves take their slots (07 R186). -/
def startGroup (s : State) (c : Nat) (sh : Shadow) (g : Grid) : State :=
  let id := s.groupNo
  let s := note s ⟨coreDie c, sh.grid, 2, sh.gidx, sh.gidx + 1⟩
  let s := switchGrid s c sh.grid
  let c3 := groupArg s g sh.gidx
  let s := { s with
    groupNo := id + 1
    groups := Tbl.set s.groups id { grid := sh.grid, gidx := sh.gidx, core := c, waves := sh.slots.map (c * 32 + ·), soff := sh.soff, slen := sh.slen } }
  let s := s.modGrid sh.grid fun y => { y with ngrp := y.ngrp + 1 }
  let base := baseGroup s c
  let s := freshMemory s c sh.slots sh.soff sh.slen g.asid g.record
  (sh.slots.zipIdx).foldl (fun s n => startWave s (c * 32 + n.1) id sh.grid sh.gidx n.2 sh.soff base g.record g.sup c3 sh.gidx) s

/-- Empty a shadow slot and start its group, with its prefetch or without. -/
def runShadow (s : State) (c slot : Nat) (fetch : Bool) : State :=
  match Tbl.get? (s.core c).shadow slot with
  | none => s
  | some sh =>
    match s.grid? sh.grid with
    | none => s.modCore c fun k => { k with shadow := Tbl.erase k.shadow slot }
    | some g =>
      let s := if fetch then prefetch s c sh g else s
      startGroup (s.modCore c fun k => { k with shadow := Tbl.erase k.shadow slot }) c sh g

/-- The prefetch of a shadow slot may last no longer (07 R185). -/
def shadowDue (s : State) (c slot : Nat) : Bool := (Tbl.get? (s.core c).shadow slot).any fun h => decide (h.filled + 2000 ≤ s.cyc)
/-- Of two slots runnable in one cycle the lower starts first (07 R185): slot 1 waits for a slot 0 that is due, and
slot 0 for the next cycle once slot 1 has started in this one. -/
def startOrder (s : State) (c slot : Nat) : Bool :=
  if slot = 0 then decide ((s.core c).ran1 ≠ some s.cyc) else !shadowDue s c 0
/-- A slot's group starts in its turn. -/
def takeShadow (s : State) (c slot : Nat) (fetch : Bool) : State :=
  if !startOrder s c slot then s
  else
    let s := if slot = 1 ∧ (Tbl.get? (s.core c).shadow 1).isSome then s.modCore c fun k => { k with ran1 := some s.cyc } else s
    runShadow s c slot fetch

/-- 07 R185, R186. -/
def execGroupRunnable (core slot : Nat) (s : State) : Res := .next (takeShadow s core slot true)
/-- 07 R185. DESIGN CHOICE (log 44): of a prefetch that is not complete then, nothing stands. -/
def execPrefetchTimeout (core slot : Nat) (s : State) : Res :=
  .next (if shadowDue s core slot then takeShadow s core slot false else s)

/-! ### The issue window (07 R190, R191) -/

/-- A wave's launch priority. -/
def wavePrio (s : State) (x : Wave) : Nat := match s.grid? x.grid with
  | some g => recPrio g.record
  | none => 0
/-- Effective priority (07 R191); `since` moves on with each cycle in which the wave was not able to issue. -/
def effPrio (s : State) (x : Wave) : Nat := Nat.min 15 (wavePrio s x + (s.cyc - x.since) / 1024)
def coreWaves (s : State) (c : Nat) (run : Run) : List (Nat × Wave) :=
  s.waves.filter fun w => decide (waveCore w.1 = c ∧ w.2.run = run) && w.2.live && w.2.unhalted
/-- The wave of a list that comes first: by the greatest `p`, then the least `q`. -/
def firstWave (p q : Wave → Nat) (l : List (Nat × Wave)) : Option Nat := match l with
  | [] => none
  | x :: t => some (t.foldl (fun b y => if p b.2 < p y.2 ∨ (p b.2 = p y.2 ∧ q y.2 < q b.2) then y else b) x).1

/-- The READY waves of a core that a free position may go to: not one that yielded in this cycle, unless it is the
only one that could run (04 R125, 07 R190). -/
def readyWaves (s : State) (c : Nat) : List (Nat × Wave) :=
  let all := coreWaves s c .ready
  match all.filter fun w => !(s.core c).issued.any fun i => i.wave = w.1 with
  | [] => if (coreWaves s c .window).isEmpty && decide (all.length = 1) then all else []
  | l => l

/-- Free window positions go to READY waves (07 R190). -/
def fillWindow (s : State) (c : Nat) : State :=
  (List.range (16 - windowCount s c)).foldl (fun s _ =>
    match firstWave (effPrio s) (·.entered) (readyWaves s c) with
    | some w => s.modWave w fun x => { x with run := .window, entered := s.cyc }
    | none => s) s

/-- 07 R190: a wave that has waited 512 cycles takes the place of the least of the window. DESIGN CHOICE (log 44): of
several such waves the one of greatest effective priority. -/
def execWindowRotate (core : Nat) (s : State) : Res :=
  .next (
    let old := (coreWaves s core .ready).filter fun w => w.2.entered + 512 ≤ s.cyc
    if 16 ≤ windowCount s core ∧ ((s.core core).rotated = 0 ∨ (s.core core).rotated + 64 ≤ s.cyc) then
      match firstWave (effPrio s) (·.entered) old, firstWave (fun x => 15 - effPrio s x) (·.entered) (coreWaves s core .window) with
      | some w, some v =>
        ((s.modWave v fun x => { x with run := .ready, entered := s.cyc }).modWave w fun x => { x with run := .window, entered := s.cyc }).modCore core
          fun c => { c with rotated := s.cyc }
      | _, _ => s
    else fillWindow s core)

end Sys2Proof.Machine
end

