-- ==== Sys2Proof/Machine/System.lean ====
section
/-! DEFINITION. State registers (01 R25 to R30, 05 R132, 15 R359, R361, 18 R407, 21 R450) and the system
instructions of 04 R122 to R129. -/

namespace Sys2Proof.Machine

/-! ### Reading state registers -/

/-- EXM (05 R132). -/
def exm (x : Wave) : Nat := if x.full then (lanes32.map fun l => b2n (x.active l) * 2 ^ l).sum else 0
/-- WID (01 R30). -/
def wid (s : State) (w : Nat) : Nat :=
  let x := s.wave w
  b2n x.sup * 2 ^ 41 + b2n (!x.full) * 2 ^ 40 + waveSlot w * 2 ^ 35 + coreX (waveCore w) * 2 ^ 25 + coreY (waveCore w) * 2 ^ 15
/-- RAYSTAT (15 R361). -/
def raystat (c : Core) : Nat := c.ovfN * 2 ^ 39 + c.inbox.length * 2 ^ 30 + c.hits.length * 2 ^ 21 + b2n c.hdrop * 2 ^ 20
/-- TOPO as a core's package reads it (21 R450). -/
def topo (s : State) (p : Nat) : Nat :=
  let mask (f : FenceSt → Bool) : Nat := ((List.range 4).map fun i => b2n (f (s.die (4 * p + i)).fence) * 2 ^ i).sum
  let nbr := b2n (decide (p % 16 ≠ 0) && pkgPresent s (p - 1)) + b2n (decide (p % 16 ≠ 15) && pkgPresent s (p + 1)) * 2
    + b2n (decide (16 ≤ p) && pkgPresent s (p - 16)) * 4 + b2n (pkgPresent s (p + 16)) * 8
  p * 2 ^ 48 + s.master / 4 * 2 ^ 40 + s.master % 4 * 2 ^ 38 + (match s.standby with
    | some d => d / 4 * 2 ^ 30 + d % 4 * 2 ^ 28
    | none => 0xFF * 2 ^ 30)
    + nbr * 2 ^ 24 + mask (· ≠ .live) * 2 ^ 20 + mask (· = .cut) * 2 ^ 16 + (s.package p).epoch % 256

/-- The value of a state register, or none if the number is unassigned. -/
def stateReg (s : State) (n : Nat) : Option Nat :=
  let w := s.curW
  let x := s.wave w
  let c := waveCore w
  let d := s.die (coreDie c)
  match n with
  | 0x000 => some x.pc.lo.toNat
  | 0x001 => some (exm x)
  | 0x002 => some x.fmode.toNat
  | 0x003 => some x.fflags.toNat
  | 0x004 => some (coreCyc s c)
  | 0x005 => some (leaseNow s (coreDie c))
  | 0x006 => some x.fstat.toNat
  | 0x007 => some x.finfo.toNat
  | 0x008 => some (wid s w)
  | 0x800 => some (d.mailbox.length * 2 ^ 40 + d.naks.toNat)
  | 0x801 => some x.svst.toNat
  | 0x802 => some (supCore s (coreDie c))
  | 0x803 => some d.wdog.toNat
  | 0x810 => some (topo s (corePkg c))
  | 0x8A0 => some (s.core c).raycfg.toNat
  | 0x8A1 => some (s.core c).rayovf.toNat
  | 0x8A2 => some (raystat (s.core c))
  | _ => none

/-- GETS, with the word for ILLEGAL; a read of RAYSTAT clears HDROP (04 R122, 15 R361). -/
def getReg (d : BitVec 6) (n : Nat) (code : W32) (s : State) : State :=
  match stateReg s n with
  | none => raise s (codeTrap .illegal code)
  | some v =>
    let s := if n = 0x8A2 then s.modCore s.curCore fun c => { c with hdrop := false } else s
    (s.setData d.toNat (BitVec.ofNat 64 v)).advance

/-- 04 R122. -/
def execGets (d : BitVec 6) (n : BitVec 12) (s : State) : Res := checkedGets d n s (getReg d n.toNat (wordGets d n))
/-- 15 R361: the `GETS` of RAYSTAT. -/
def execRaystatRead (d : BitVec 6) (s : State) : Res := checkedGets d 0x8A2 s (getReg d 0x8A2 (wordGets d 0x8A2))

/-! ### Writing state registers -/

/-- A `SETS` of EXM (05 R132). -/
def setExm (x : Wave) (v : Nat) : Wave :=
  if !x.full then x
  else x.setNest fun l =>
    let (n, b) := x.nest l
    if v.testBit l then (0, false) else if n = 0 then (1, b) else (n, b)

/-- What a `SETS` does, or none where it raises ILLEGAL (04 R122, 01 R25 to R27, 15 R359, R361, 18 R407). -/
def setReg (s : State) (n : Nat) (v : Word) : Option State :=
  let w := s.curW
  let c := waveCore w
  let d := coreDie c
  match n with
  | 0x001 => some (s.modWave w (setExm · (fld v 0 32)))
  | 0x002 => if fld v 4 28 ≠ 0 ∨ 5 < fld v 0 3 then none else some (s.modWave w fun x => { x with fmode := v.setWidth 32 })
  | 0x003 => if fld v 5 27 ≠ 0 then none else some (s.modWave w fun x => { x with fflags := v.setWidth 32 })
  | 0x802 =>
    let t := fld v 0 20
    if fld v 20 44 ≠ 0 ∨ coreDie t ≠ d ∨ !corePresent s t ∨ (s.die d).mailbox ≠ [] then none
    else some (s.modDie d fun x => { x with suploc := t - dieCore d 0 0 })
  | 0x803 => if fld v 16 48 ≠ 0 then none else some (s.modDie d fun x => { x with wdog := v })
  | 0x8A0 =>
    let tlru := fld v 32 5
    let new := 2 ^ 21 - 2 ^ 16 * tlru
    if fld v 48 16 ≠ 0 ∨ fld v 9 23 ≠ 0 ∨ fld v 0 9 = 0 ∨ 256 < fld v 0 9 ∨ fld v 40 8 = 0 ∨ 24 < tlru then none
    else if tlru ≠ fld (s.core c).raycfg 32 5 ∧ ((s.core c).tslots ≠ [] ∨ (allocs s c).any fun a => decide (a.2 ≠ 0 ∧ new < a.1 + a.2)) then none
    else some (s.modCore c fun x => { x with raycfg := v })
  | 0x8A1 =>
    let olg := fld v 51 5
    if fld v 56 8 ≠ 0 ∨ fld v 48 3 ≠ 0 ∨ 24 < olg ∨ fld v 0 48 % (64 * 2 ^ olg) ≠ 0 ∨ (s.core c).ovfN ≠ 0 then none
    else some (s.modCore c fun x => { x with rayovf := v })
  | _ => none

/-- 04 R122. -/
def execSets (a : BitVec 6) (n : BitVec 12) (s : State) : Res :=
  checkedSets a n s fun s => match setReg s n.toNat (s.lo a.toNat) with
    | some t => t.advance
    | none => raise s (codeTrap .illegal (wordSets a n))

/-! ### Waiting and yielding -/

/-- 04 R125. -/
def execNop (s : State) : Res := checked .nop s State.advance
/-- 04 R125. -/
def execYield (s : State) : Res := checked .yield s fun s => (s.modCur fun x => { x with run := .ready, entered := s.cyc }).advance

/-- The wave's counters have come down to the four fields of a `CWAIT` (04 R124). -/
def Wave.countsAtMost (x : Wave) (l s c p : BitVec 5) : Bool :=
  let ok (f : BitVec 5) (n : Nat) : Bool := decide (f = 31 ∨ n ≤ f.toNat)
  ok l x.loads && ok s x.stores && ok c x.copies && ok p x.passes
/-- 04 R124. -/
def execCwait (l s c p : BitVec 5) (t : State) : Res :=
  checkedCwait l s c p t fun t => if t.curWave.countsAtMost l s c p then t.advance else stall t

/-! ### Traps -/

/-- 04 R126. -/
def execTrap (c : BitVec 20) (s : State) : Res := checkedTrap c s fun s => raise s ⟨.trap, c.setWidth 64⟩
/-- 04 R126. -/
def execBkpt (c : BitVec 20) (s : State) : Res := checkedBkpt c s fun s => raise s ⟨.bkpt, c.setWidth 64⟩

/-- An assigned word that is privileged (02 R62, R63 items 3 and 5). -/
def privilegedWord (w : W32) : Bool :=
  let fn := fld w 20 6
  if fld w 26 6 = 0x3E then
    if fn = 0 then decide (fld w 0 14 = 0 ∧ 1 ≤ fld w 14 6 ∧ fld w 14 6 ≤ 60)
    else if fn = 4 then decide (fld w 0 8 = 0 ∧ 1 ≤ fld w 8 6 ∧ fld w 8 6 ≤ 62)
    else decide (fn ≤ 6 ∧ fld w 0 14 = 0)
  else decide (fld w 26 6 = 0x3D ∧ (fn = 1 ∨ fn = 2) ∧ fld w 12 2 = 0 ∧ 0x800 ≤ fld w 0 12)

/-- 02 R63: a fetched word that may not be executed. -/
def execIllegalInstruction (word : W32) (s : State) : Res :=
  if s.cur = .none then .fault .noAgent
  else .next (raise s (codeTrap (if privilegedWord word && !s.curSup then (match s.cur with
    | .wave _ => .priv
    | _ => .illegal) else .illegal) word))

/-! ### Ends and invalidations -/

/-- 04 R127; its loads come first, so that an error of one is raised here (18 R403, log 46). -/
def execExit (s : State) : Res := checked .exit s fun s => if s.curWave.loads ≠ 0 then stall s else endWave s s.curW

/-- 04 R128. -/
def execInvl1 (s : State) : Res :=
  checked .invl1 s fun s =>
    let w := s.curW
    if s.net.reqs.any (fun r => decide (r.wave = w ∧ r.q = 0) && r.kind.isRead) || s.net.replies.any (fun r => decide (r.wave = w ∧ r.q = 0)) then stall s
    else ((s.modCore s.curCore emptyL1).modCur fun x => { x with l1clk := x.clk }).advance

/-- 04 R129; its loads come first, so that an error of one is raised here (18 R403, log 46). -/
def execInvi (s : State) : Res :=
  checked .invi s fun s =>
    if s.curWave.loads ≠ 0 then stall s else
    let w := s.curW
    let s := drainWhere s (waveCore w) (holdsWave w)
    let c := s.core (waveCore w)
    if c.sgb.any (holdsWave w) || c.squeue.any (fun q => q.wave = w) || s.net.acks.any (fun a => a.wave = w)
      || s.net.reqs.any (fun r => decide (r.wave = w ∧ r.sid < 16) && !r.kind.isRead) then stall s
    else ({ s.modCore s.curCore fun c => { c with icache := [], icuse := [], inviAt := s.invis + 1 } with invis := s.invis + 1 }).advance

end Sys2Proof.Machine
end

