-- ==== Sys2Proof/Machine/Ladle.lean ====
section
/-! DEFINITION. The event matrix (12 R302 to R304), memory as an engine reaches it (10 R271 to R273), the
ladle (12 R282 to R298) and stream registers (R299 to R301). -/

namespace Sys2Proof.Machine

/-! ### The event matrix (12 R302, R303) -/

/-- A fired source adds 1 to every sink of its row. -/
def fireAt (s : State) (v src : Nat) : State :=
  s.modVat v fun x =>
    let row := Tbl.get 0 x.rows src
    (List.range 64).foldl (fun x k =>
      if !bit row k then x
      else if Tbl.get 0 x.cnt k = 255 then { x with ovf := Tbl.set x.ovf k true }
      else { x with cnt := Tbl.set x.cnt k (Tbl.get 0 x.cnt k + 1) }) x
/-- Fire a source of a vat: it reaches the sinks 2 cycles later (12 R304). -/
def fire (s : State) (v src : Nat) : State := s.modNet fun n => { n with events := n.events ++ [⟨v, src, s.cyc + 2⟩] }
/-- A gate may be passed: it is open, or its sink has a count. -/
def gateOpen (s : State) (v : Nat) (gated : Bool) (sink : Nat) : Bool := !gated || decide (Tbl.get 0 (s.vat v).cnt sink ≠ 0)
/-- Pass a gate: one count is consumed. -/
def passGate (s : State) (v : Nat) (gated : Bool) (sink : Nat) : State :=
  if gated then s.modVat v fun x => { x with cnt := Tbl.set x.cnt sink (Tbl.get 0 x.cnt sink - 1) } else s

/-- 12 R302. -/
def execEventArrive (n : Nat) (s : State) : Res :=
  .next (match s.net.events[n]? with
    | some e =>
      if e.due ≤ s.cyc then
        (fireAt (s.modNet fun m => { m with events := dropAt m.events n }) e.vat e.src).modVat e.vat fun x => { x with fired := some s.cyc }
      else s
    | none => s)

/-- Change a row: in a cycle that has brought a firing already it waits for the next (12 R303). -/
def changeRow (s : State) (r : Nat) (f : Word → Word) : State :=
  let v := coreVat s.curCore
  if (s.vat v).fired = some s.cyc then stall s
  else (s.modVat v fun x => { x with rows := Tbl.set x.rows r (f (Tbl.get 0 x.rows r)) }).advance

/-- 12 R304. -/
def execEvset (a b : BitVec 6) (s : State) : Res :=
  checkedEvset a b s fun s => changeRow s (fld (s.lo a.toNat) 0 6) (· ||| s.lo b.toNat)
/-- 12 R304. -/
def execEvclr (a b : BitVec 6) (s : State) : Res :=
  checkedEvclr a b s fun s => changeRow s (fld (s.lo a.toNat) 0 6) (· &&& ~~~(s.lo b.toNat))
/-- 12 R304. -/
def execEvsig (a : BitVec 6) (s : State) : Res :=
  checkedEvsig a s fun s => (fire s (coreVat s.curCore) (fld (s.lo a.toNat) 0 6)).advance
/-- 12 R304. -/
def execEvrd (d a : BitVec 6) (s : State) : Res :=
  checkedEvrd d a s fun s =>
    let x := s.lo a.toNat
    let n := fld x 0 6
    let v := coreVat s.curCore
    if !bit x 6 then (s.setData d.toNat (Tbl.get 0 (s.vat v).rows n)).advance
    else
      let c := Tbl.get 0 (s.vat v).cnt n
      let o := Tbl.get false (s.vat v).ovf n
      let s := s.modVat v fun y => { y with
        ovf := Tbl.set y.ovf n false
        cnt := if bit x 7 ∧ 0 < c then Tbl.set y.cnt n (c - 1) else y.cnt }
      (s.setData d.toNat (BitVec.ofNat 64 (b2n o * 2 ^ 8 + c))).advance

/-! ### Memory as an engine reaches it (10 R271 to R273) -/

/-- Bytes with those of writes on their way in their place. -/
def overlayWrites (k : Nat) (bs : List Byte) (ws : List (Nat × List Byte)) : List Byte :=
  (bs.zipIdx).map fun b => ws.foldl (fun o w => if w.1 ≤ k + b.2 then (w.2[k + b.2 - w.1]?).getD o else o) b.1

/-- Scratch stores that are on their way to a word (10 R272). -/
def wayStores (s : State) (k n : Nat) : List (Nat × List Byte) :=
  s.net.reqs.flatMap fun r => match r.kind with
    | .store ws _ => ws.filter fun x => isScratch x.1 && decide (x.1 < k + n ∧ k < x.1 + x.2.length)
    | .zero ls => (ls.filter fun l => isScratch (l * 128) && decide (l * 128 < k + n ∧ k < l * 128 + 128)).map fun l =>
        (l * 128, List.replicate 128 0)
    | _ => []

/-- Part of one aligned 8-byte word, read at its home. -/
def engineWord (s : State) (c asid ea n : Nat) : Except Trap (List Byte) × State :=
  match engineWindow s c asid ea .load with
  | (none, s) => (.error ⟨.xlate, BitVec.ofNat 64 ea⟩, s)
  | (some p, s) =>
    if homeBad s p.key then (.error ⟨.ecc, BitVec.ofNat 64 (lineOf p.key * 128)⟩, s)
    else
      let s := accessLine (noteLeaf s p) (lineOf p.key) true false
      let bs := memBytes s p.key n
      match wayStores s p.key n with
      | [] => (.ok bs, s)
      | ws =>
        let (b, s) := drawBit s
        (.ok (if b then overlayWrites p.key bs ws else bs), s)

/-- `n` bytes, word by word, for an engine that reads from core `c`. -/
def engineReadFrom (s : State) (c asid : Nat) : Nat → Nat → Nat → Except Trap (List Byte) × State
  | 0, _, _ => (.ok [], s)
  | fuel + 1, ea, n =>
    if n = 0 then (.ok [], s)
    else
      let m := Nat.min n (8 - ea % 8)
      match engineWord s c asid ea m with
      | (.error t, s) => (.error t, s)
      | (.ok bs, s) =>
        match engineReadFrom s c asid fuel (ea + m) (n - m) with
        | (.error t, s) => (.error t, s)
        | (.ok r, s) => (.ok (bs ++ r), s)
def engineRead (s : State) (c asid ea n : Nat) : Except Trap (List Byte) × State := engineReadFrom s c asid n ea n

/-- The part of an aligned 8-byte word that lies in an extent. `held` is the word that was read last: one that several
elements share is read once (10 R272). -/
def wordRead (s : State) (c asid lo hi : Nat) (held : Option (Nat × List Byte)) (w : Nat) :
    Except Trap (List Byte) × Option (Nat × List Byte) × State :=
  match held.filter fun x => x.1 = w with
  | some x => (.ok x.2, held, s)
  | none =>
    let a := Nat.max (8 * w) lo
    match engineWord s c asid a (Nat.min (8 * w + 8) hi - a) with
    | (.error t, s) => (.error t, held, s)
    | (.ok bs, s) => (.ok bs, some (w, bs), s)

/-- `n` bytes at `ea` of an extent, word by word. -/
def spanRead (s : State) (c asid lo hi : Nat) (held : Option (Nat × List Byte)) : Nat → Nat → Nat →
    Except Trap (List Byte) × Option (Nat × List Byte) × State
  | 0, _, _ => (.ok [], held, s)
  | fuel + 1, ea, n =>
    if n = 0 then (.ok [], held, s)
    else
      let m := Nat.min n (8 - ea % 8)
      match wordRead s c asid lo hi held (ea / 8) with
      | (.error t, h, s) => (.error t, h, s)
      | (.ok bs, h, s) =>
        match spanRead s c asid lo hi h fuel (ea + m) (n - m) with
        | (.error t, h, s) => (.error t, h, s)
        | (.ok r, h, s) => (.ok ((bs.drop (ea - Nat.max (ea / 8 * 8) lo)).take m ++ r), h, s)

/-- Write bytes, line by line: how many took effect, and the error that stopped it. `spoil` names the memory
keys whose bytes become undefined (12 R289), `mixed` the addresses whose bytes keep their old value or take the new one
(14 R349; log 9). -/
def engineWriteFrom (s : State) (by_ : Writer) (c asid : Nat) (spoil mixed : Nat → Bool) : Nat → Nat → List Byte → Nat × Option Trap × State
  | 0, _, _ => (0, none, s)
  | fuel + 1, ea, bs =>
    if bs = [] then (0, none, s)
    else
      let m := Nat.min bs.length (128 - ea % 128)
      match engineWindow s c asid ea .store with
      | (none, s) => (0, some ⟨.xlate, BitVec.ofNat 64 ea⟩, s)
      | (some p, s) =>
        if homeBad s p.key then (0, some ⟨.ecc, BitVec.ofNat 64 (lineOf p.key * 128)⟩, sliceMessage s p.key)
        else
          let (out, s) := ((bs.take m).zipIdx).foldl (fun (a : List Byte × State) b =>
            if spoil (p.key + b.2) then
              let (w, s) := drawWord a.2
              (a.1 ++ [BitVec.ofNat 8 w.toNat], s)
            else if mixed (ea + b.2) then
              let (old, s) := drawBit a.2
              (a.1 ++ [if old then readByte s.mem (p.key + b.2) else b.1], s)
            else (a.1 ++ [b.1], a.2)) ([], noteLeaf s p)
          let s := (homeWrite s by_ 1 p.key out none).1
          let (n, t, s) := engineWriteFrom s by_ c asid spoil mixed fuel (ea + m) (bs.drop m)
          (m + n, t, s)
def engineWrite (s : State) (by_ : Writer) (c asid ea : Nat) (bs : List Byte) (spoil mixed : Nat → Bool := fun _ => false) : Nat × Option Trap × State :=
  engineWriteFrom s by_ c asid spoil mixed bs.length ea bs

/-- A memory key lies in an extent of effective addresses, seen from a core under an ASID. -/
def extentHolds (s : State) (c asid a n key : Nat) : Bool :=
  if 0x7D ≤ a / 2 ^ 48 then match scratchWindow s c a with
    | some k => decide (k ≤ key ∧ key < k + n)
    | none => false
  else (List.range (n / 2 ^ 16 + 2)).any fun i =>
    let page := (a / 2 ^ 16 + i) * 2 ^ 16
    match walk s asid page with
    | some l => decide (l.pa / 2 ^ 16 = key / 2 ^ 16 ∧ a ≤ page + key % 2 ^ 16 ∧ page + key % 2 ^ 16 < a + n)
    | none => false

/-! ### The command word (12 R284, R285) -/

def ccXF (w : Word) : Nat := fld w 23 4
def ccW (w : Word) : Nat := fld w 31 5
def ccRM (w : Word) : Nat := fld w 27 3
def ccKB (w : Word) : Nat := fld w 16 7
def ccKLEN (w : Word) : Nat := fld w 0 16
def ceilDiv (a b : Nat) : Nat := (a + b - 1) / b

/-- 12 R285. -/
def commandBad (w : Word) : Bool :=
  let x := ccXF w
  decide (6 < x ∨ 5 < ccRM w ∨ (ccRM w ≠ 0 ∧ (x = 0 ∨ x = 3 ∨ x = 4)))
  || (bit w 30 && decide (x = 0 ∨ x = 3 ∨ x = 4 ∨ x = 5))
  || (if x = 5 ∨ x = 6 then decide (ccW w = 0 ∨ 24 < ccW w) else decide (ccW w ≠ 0))
  || decide (x ≠ 5 ∧ (ccKLEN w ≠ 0 ∨ ccKB w ≠ 0))
  || decide (ccKLEN w ≠ 0 ∧ 0 < ccKB w ∧ ccKB w < ceilDiv (ccKLEN w) 64)
  || (bit w 36 && !bit w 55)

/-- The barrier of a command word: BCIV and BIDX (12 R284, R285). -/
def barrierKey (v civ idx : Nat) : Nat := scratchKey (vatCore v civ) (32 * idx)

/-! ### Transforms (12 R286 to R288) -/

def LReq.inLen (r : LReq) : Nat := r.src.top - r.src.addr
/-- Elements of a plane transform, and K, rows and blocks a row (12 R287). -/
def planeCount (fmt len : Nat) : Nat := 8 * len / elemBits fmt
def planeK (w : Word) (n : Nat) : Nat := if ccKLEN w = 0 then n else ccKLEN w
def planeRows (w : Word) (n : Nat) : Nat := if n = 0 then 0 else ceilDiv n (planeK w n)
def planeKb (w : Word) (n : Nat) : Nat := Nat.max (ceilDiv (planeK w n) 64) (ccKB w)
/-- Bytes of a plane block. -/
def blockLen (planes : Nat) : Nat := 8 + 8 * planes

/-- The request breaks R286. -/
def requestBad (w : Word) (src : Cap) (len : Nat) (dst : Cap) : Bool :=
  let f := src.fmt
  let a := src.addr
  match ccXF w with
  | 0 => false
  | 1 => decide (¬(f = 0 ∨ f = 2) ∨ a % 2 ≠ 0 ∨ len % 2 ≠ 0)
  | 2 => decide (¬(f = 0 ∨ f = 2) ∨ a % 2 ≠ 0 ∨ len % 2 ≠ 0)
  | 3 => decide (¬(f = 0 ∨ f = 4) ∨ dst.addr % 2 ≠ 0)
  | 4 => decide (¬(f = 0 ∨ f = 5) ∨ dst.addr % 2 ≠ 0)
  | 5 => decide (f = 0 ∨ 0x23 < f ∨ 8 * a % elemBits f ≠ 0 ∨ 8 * len % elemBits f ≠ 0 ∨ dst.addr % 8 ≠ 0 ∨ ¬(dst.blk = 0 ∨ dst.blk = 2))
  | _ => decide (a % 8 ≠ 0 ∨ len % blockLen (ccW w) ≠ 0 ∨ dst.addr % 2 ≠ 0)

/-- Output bytes. -/
def outLen (w : Word) (fmt len : Nat) : Nat := match ccXF w with
  | 0 => len
  | 1 => len / 2
  | 2 => len / 2
  | 3 => 2 * len
  | 4 => 2 * len
  | 5 => let n := planeCount fmt len
    planeRows w n * planeKb w n * blockLen (ccW w)
  | _ => 128 * len / blockLen (ccW w)

/-- Size of an element of the output (12 R299). -/
def outElem (w : Word) : Nat := match ccXF w with
  | 0 => 8
  | 5 => 8
  | 1 => 1
  | 2 => 1
  | _ => 2

/-- `n` bytes of the source at `ea`. -/
def sourceRead (s : State) (c : Nat) (r : LReq) (ea n : Nat) : Except Trap (List Byte × LReq) × State :=
  match spanRead s c r.by_.asid r.src.addr r.src.top r.word n ea n with
  | (.error t, _, s) => (.error t, s)
  | (.ok bs, h, s) => (.ok (bs, { r with word := h }), s)

/-- Read and convert with a function of the bytes. -/
def withBytes (s : State) (c : Nat) (r : LReq) (off n : Nat) (k : List Byte → State → List Byte × State) :
    Except Trap (List Byte × LReq) × State :=
  match sourceRead s c r (r.src.addr + off) n with
  | (.error t, s) => (.error t, s)
  | (.ok (bs, r), s) =>
    let (o, s) := k bs s
    (.ok (o, r), s)

/-- One element converted (12 R286): saturation and rounding latched, FTZ off. -/
def ladleConvert (src dst : Fmt) (w : Word) (n : Nat) (bs : List Byte) (s : State) : List Byte × State :=
  (bytesOf n (fpConvert src dst (ccRM w) (bit w 30) false s.rand (ofBytes bs)).1, s.drew (ccRM w) 2)

/-- An element of format `f` and index `g` of a source, or zero where `g` is none. -/
def elementAt (s : State) (c : Nat) (r : LReq) (f : Nat) (g : Option Nat) : Except Trap (Val × LReq) × State := match g with
  | none => (.ok (.zero, r), s)
  | some g =>
    let n := Nat.max 1 (elemBits f / 8)
    match sourceRead s c r (r.src.addr + elemBits f * g / 8) n with
    | (.error t, s) => (.error t, s)
    | (.ok (bs, r), s) =>
      let x := ofBytes bs
      (.ok (decodeFmt f (if f = 7 then x / 16 ^ (g % 2) % 16 else x), r), s)

def elementsAt (s : State) (c : Nat) (r : LReq) (f : Nat) : List (Option Nat) → Except Trap (List Val × LReq) × State
  | [] => (.ok ([], r), s)
  | g :: t =>
    match elementAt s c r f g with
    | (.error e, s) => (.error e, s)
    | (.ok (v, r), s) =>
      match elementsAt s c r f t with
      | (.error e, s) => (.error e, s)
      | (.ok (l, r), s) => (.ok (v :: l, r), s)

/-- The block at output block number `b` of a plane transform (12 R287). -/
def makePlane (s : State) (c : Nat) (r : LReq) (b : Nat) : Except Trap (List Byte × LReq) × State :=
  let f := r.src.fmt
  let n := planeCount f r.inLen
  let k := planeK r.ccmd n
  let kb := planeKb r.ccmd n
  let idx := (List.range 64).map fun e =>
    let col := 64 * (b % kb) + e
    let g := b / kb * k + col
    if col < k ∧ g < n then some g else none
  match elementsAt s c r f idx with
  | (.error t, s) => (.error t, s)
  | (.ok (vs, r), s) => (.ok (planeBlock (ccW r.ccmd) (ccRM r.ccmd) s.rand vs, r), s.drew (ccRM r.ccmd) 64)

/-- The 128 output bytes of one block of an unplane transform (12 R288). -/
def unplane (w : Word) (bs : List Byte) (s : State) : List Byte × State :=
  let vs := planeValues (ccW w) bs
  ((vs.zipIdx).flatMap fun v => bytesOf 2 (roundFmt fmtBF16 (ccRM w) (bit w 30) false (fun i => s.rand (2 * v.2 + i)) v.1).1, s.drew (ccRM w) 128)

/-- The next output bytes of a request, from what it reads now. -/
def makeOutput (s : State) (c : Nat) (r : LReq) : Except Trap (List Byte × LReq) × State :=
  let p := r.landed + r.out.length
  let w := r.ccmd
  match ccXF w with
  | 0 => withBytes s c r p (Nat.min (r.len - p) (8 - (r.src.addr + p) % 8)) fun bs s => (bs, s)
  | 1 => withBytes s c r (2 * p) 2 (ladleConvert fmtBF16 fmtE4M3 w 1)
  | 2 => withBytes s c r (2 * p) 2 (ladleConvert fmtBF16 fmtE5M2 w 1)
  | 3 => withBytes s c r (p / 2) 1 (ladleConvert fmtE4M3 fmtBF16 w 2)
  | 4 => withBytes s c r (p / 2) 1 (ladleConvert fmtE5M2 fmtBF16 w 2)
  | 5 => makePlane s c r (p / blockLen (ccW w))
  | _ => withBytes s c r (p / 128 * blockLen (ccW w)) (blockLen (ccW w)) (unplane w)

/-- Make output until `want` bytes of it wait to be written. -/
def fillOutput (s : State) (c want : Nat) : Nat → LReq → Except Trap LReq × State
  | 0, r => (.ok r, s)
  | fuel + 1, r =>
    if want ≤ r.out.length then (.ok r, s)
    else match makeOutput s c r with
      | (.error t, s) => (.error t, s)
      | (.ok (bs, r), s) => fillOutput s c want fuel { r with out := r.out ++ bs }

/-! ### Requests (12 R290 to R293) -/

/-- The oldest incomplete request of a channel. -/
def headReq (c : Core) (ch : Nat) : Option LReq := c.fifo.find? fun r => r.ch = ch
/-- Put a changed head request of its channel back. -/
def replaceReq (l : List LReq) (r : LReq) : List LReq := match l with
  | [] => []
  | x :: t => if x.ch = r.ch then r :: t else x :: replaceReq t r
def dropReq (l : List LReq) (ch : Nat) : List LReq := match l with
  | [] => []
  | x :: t => if x.ch = ch then t else x :: dropReq t ch
def setReq (s : State) (c : Nat) (r : LReq) : State := s.modCore c fun x => { x with fifo := replaceReq x.fifo r }

/-- What a credit of a request passes on: its writes so far (10 R273; log 12). -/
def LReq.clk (s : State) (r : LReq) : Tbl Nat := [(r.uid, s.seq)]
def reqBarrier (c : Nat) (w : Word) : Nat := barrierKey (coreVat c) (fld w 53 2) (fld w 37 16)
/-- Credit the landed bytes that are not yet credited (12 R291). -/
def creditReq (s : State) (c : Nat) (r : LReq) : State :=
  let s := setReq s c { r with credited := r.landed }
  if bit r.ccmd 55 && decide (r.credited < r.landed) then
    sendCredit s ⟨reqBarrier c r.ccmd, r.landed - r.credited, .ladle c r.ch, r.clk s⟩
  else s

/-- Steps 2 and 6 of completion (12 R291); a request cut short is noted in the streams that read it. -/
def endReq (s : State) (c : Nat) (r : LReq) (cut : Bool) : State :=
  let s := s.modCore c fun x => { x with
    fifo := dropReq x.fifo r.ch
    cwmk := Tbl.set x.cwmk r.ch (BitVec.ofNat 64 ((r.dst.addr + r.len) % 2 ^ 55))
    cdone := Tbl.set x.cdone r.ch ((Tbl.get 0 x.cdone r.ch + 1) % 2 ^ 32)
    streams := if cut then x.streams.map fun t => (t.1, { t.2 with
        spans := t.2.spans.map fun p => if t.2.ch = r.ch ∧ p.seq = r.seq then { p with cut := some r.landed } else p })
      else x.streams }
  (passOn s r.by_.grid r.uid []).modPusher r.by_ fun x => { x with copies := x.copies - 1, clk := joinClk x.clk (r.clk s) }

/-- The fault message of a ladle channel (18 R405, R408). -/
def ladleMsg (s : State) (c : Nat) (r : LReq) (t : Trap) : FaultMsg :=
  { m0 := msgWord0 t.code.num 1 (waveSlot r.by_.wave) r.ch c false false false false (Tbl.get false (s.core c).cstray r.ch) r.by_.wtag.toNat
    m1 := BitVec.ofNat 64 (r.by_.grid * 2 ^ 32 + r.by_.gidx % 2 ^ 32)
    m2 := t.info }

/-- The running request of a channel aborts (12 R292). -/
def abortReq (s : State) (c : Nat) (r : LReq) (t : Trap) : State :=
  let s := creditReq s c r
  let s := s.modCore c fun x => { x with cerr := Tbl.set x.cerr r.ch t.code.num, cabort := Tbl.set x.cabort r.ch true }
  endReq (postMessage s (coreDie c) (ladleMsg s c r t)) c r true

/-- Write the next `want` output bytes of a running request. -/
def landReq (s : State) (c want : Nat) (r : LReq) : State :=
  match fillOutput s c want want r with
  | (.error t, s) => abortReq s c r t
  | (.ok r, s) =>
    let (n, t, s) := engineWrite s { uid := r.uid, grid := r.by_.grid } c r.by_.asid (r.dst.addr + r.landed) (r.out.take want)
      (extentHolds s c r.by_.asid r.src.addr r.inLen)
    let r := { r with out := r.out.drop n, landed := r.landed + n }
    match t with
    | some t => abortReq s c r t
    | none => if r.credited + 4096 ≤ r.landed then creditReq s c r else setReq s c r

/-- 12 R290. -/
def execLadleRequestStart (core ch : Nat) (s : State) : Res :=
  .next (match headReq (s.core core) ch with
    | some r =>
      let v := coreVat core
      let sink := 8 * coreInVat core + ch
      if r.running || beingSaved s r.by_.group || !gateOpen s v (bit r.ccmd 56) sink then s
      else setReq (passGate s v (bit r.ccmd 56) sink) core { r with running := true }
    | none => s)

/-- 12 R291. -/
def execLadleWriteAck (core ch bytes : Nat) (s : State) : Res :=
  .next (match headReq (s.core core) ch with
    | some r =>
      let want := Nat.min bytes (Nat.min (r.len - r.landed) (r.credited + 4096 - r.landed))
      if r.running && decide (want ≠ 0) then landReq s core want r else s
    | none => s)

/-- 12 R291. -/
def execLadleComplete (core ch : Nat) (s : State) : Res :=
  .next (match headReq (s.core core) ch with
    | some r =>
      if !r.running || decide (r.landed < r.len) then s
      else
        let s := creditReq s core r
        let s := if bit r.ccmd 36 then sendArrival s ⟨reqBarrier core r.ccmd, 1, .ladle core ch, r.clk s⟩ else s
        let s := if bit r.ccmd 63 then fire s (coreVat core) (fld r.ccmd 57 6) else s
        endReq s core r false
    | none => s)

/-- 12 R292: an uncorrectable error of a source read or a refused write, or a translation that fails. -/
def execLadleAbort (core ch code info : Nat) (s : State) : Res :=
  .next (match headReq (s.core core) ch with
    | some r =>
      if !r.running || decide (r.len ≤ r.landed) then s
      else if code = Code.ecc.num then abortReq s core r ⟨.ecc, BitVec.ofNat 64 info⟩
      else if r.len ≤ r.landed + r.out.length then s
      else match makeOutput s core r with
        | (.error t, s) => abortReq s core r t
        | (.ok _, _) => s
    | none => s)

/-! ### Instructions (12 R295 to R298) -/

/-- CSTAT.n (12 R294). -/
def cstat (c : Core) (ch : Nat) : Nat :=
  let q := (c.fifo.filter fun r => r.ch = ch).length
  let st := match headReq c ch with
    | none => 0
    | some r => if !r.running then (if bit r.ccmd 56 then 1 else 2) else if r.landed < r.len then 2 else 3
  Tbl.get 0 c.cerr ch * 2 ^ 56 + b2n (Tbl.get false c.cstray ch) * 2 ^ 55 + b2n (Tbl.get false c.cabort ch) * 2 ^ 54
    + q * 2 ^ 40 + st * 2 ^ 37 + Tbl.get 0 c.cdone ch

/-- CWMK.n (12 R293). -/
def cwmk (c : Core) (ch : Nat) : Word := match headReq c ch with
  | some r => BitVec.ofNat 64 (r.dst.addr + r.landed)
  | none => Tbl.get 0 c.cwmk ch

/-- The wave that moves, as the one that hands an engine a request. -/
def State.pusher (s : State) : Pusher :=
  let x := s.curWave
  ⟨s.curW, Tbl.get 0 (s.core s.curCore).wtag (waveSlot s.curW), x.group, x.grid, x.gidx, s.curAsid, x.widx⟩

/-- Put a request into the FIFO, and into the streams bound to its channel: its sequence number. -/
def enqueueReq (s : State) (ch : Nat) (src dst : Cap) (out : Nat) : Nat × State :=
  let c := s.curCore
  let w := Tbl.get 0 (s.core c).ccmd ch
  let seq := (Tbl.get 0 (s.core c).pushes ch + 1) % 2 ^ 32
  let (u, s) := s.newAgent
  let s := s.modCore c fun x => { x with
    pushes := Tbl.set x.pushes ch seq
    fifo := x.fifo ++ [{ ch := ch, src := src, dst := dst, ccmd := w, by_ := s.pusher, seq := seq, uid := u, len := out }]
    streams := x.streams.map fun t =>
      if t.2.owner = some s.curW ∧ t.2.ch = ch ∧ out ≠ 0 then (t.1, { t.2 with spans := t.2.spans ++ [⟨seq, dst.addr, out, outElem w, none⟩] }) else t }
  (seq, s.modCur fun x => { x with copies := x.copies + 1 })

/-- CQPUSH and CQTRY (12 R283, R296). -/
def pushReq (try_ : Bool) (ch : Nat) (d a b : BitVec 6) (s : State) : State :=
  let src := s.reg a.toNat
  let dst := s.reg b.toNat
  let len := src.top - src.addr
  let st (c v : Nat) (s : State) : State := (s.setData d.toNat (BitVec.ofNat 64 (c * 2 ^ 56 + v))).advance
  withAccess s src src.addr len permES 1 .load fun _ s =>
    let w := Tbl.get 0 (s.core s.curCore).ccmd ch
    if requestBad w src len dst then st 2 0 s
    else
      let out := outLen w src.fmt len
      withAccess s dst dst.addr out permED 1 .store fun _ s =>
        if 32 ≤ (s.core s.curCore).fifo.length ∨ 30 ≤ s.curWave.copies then
          if try_ then st 1 0 s else stall s
        else
          let (seq, s) := enqueueReq s ch src dst out
          st 0 seq s

/-- 12 R296. -/
def execCqpush (n : BitVec 3) (d a b : BitVec 6) (s : State) : Res := checked (.cqpush n d a b) s (pushReq false n.toNat d a b)
/-- 12 R296. -/
def execCqtry (n : BitVec 3) (d a b : BitVec 6) (s : State) : Res := checked (.cqtry n d a b) s (pushReq true n.toNat d a b)

/-- 12 R297. -/
def execCset (n : BitVec 3) (d a : BitVec 6) (s : State) : Res :=
  checked (.cset n d a) s fun s =>
    let w := s.lo a.toNat
    if commandBad w then (s.setData d.toNat (BitVec.ofNat 64 (3 * 2 ^ 56))).advance
    else ((s.modCore s.curCore fun c => { c with ccmd := Tbl.set c.ccmd n.toNat w }).setData d.toNat 0).advance

/-- 12 R297. -/
def execCgete (n : BitVec 3) (d b : BitVec 6) (s : State) : Res :=
  checked (.cgete n d b) s fun s =>
    let c := s.core s.curCore
    let ch := n.toNat
    let put (v : Word) (s : State) : State := (s.setData d.toNat v).advance
    match b.toNat with
    | 0 => put (BitVec.ofNat 64 (cstat c ch)) (s.modCore s.curCore fun x => { x with
        cerr := Tbl.set x.cerr ch 0, cstray := Tbl.set x.cstray ch false, cabort := Tbl.set x.cabort ch false })
    | 1 => put (cwmk c ch) s
    | 2 => put (Tbl.get 0 c.ccmd ch) s
    | 3 => put (BitVec.ofNat 64 (cstat c ch)) s
    | _ => raise s (codeTrap .illegal (Instr.cgete n d b).code)

/-- Land the next `want` bytes of a running request, 4,096 at most between two credits (12 R291). -/
def landCredited (s : State) (c want : Nat) (r : LReq) : State :=
  let one := Nat.min want (r.credited + 4096 - r.landed)
  let s := if one = 0 then s else landReq s c one r
  match headReq (s.core c) r.ch with
  | some x => if x.seq = r.seq ∧ one < want then landReq s c (want - one) x else s
  | none => s

/-- Cancel the requests of a channel, oldest first: a running one goes on to its next line boundary. -/
def cancelReqs (s : State) (c ch : Nat) : Nat → State
  | 0 => s
  | fuel + 1 =>
    match headReq (s.core c) ch with
    | none => s
    | some r =>
      let past := (r.dst.addr + r.landed) % 128
      let want := if r.running ∧ past ≠ 0 then Nat.min (r.len - r.landed) (128 - past) else 0
      let s := if want = 0 then s else landCredited s c want r
      cancelReqs (match headReq (s.core c) ch with
        | some x => if x.seq = r.seq then endReq (creditReq s c x) c x true else s
        | none => s) c ch fuel

/-- 12 R298. -/
def execCcancel (n : BitVec 3) (d : BitVec 6) (s : State) : Res :=
  checked (.ccancel n d) s fun s =>
    let k := ((s.core s.curCore).fifo.filter fun r => r.ch = n.toNat).length
    ((cancelReqs s s.curCore n.toNat k).setData d.toNat (BitVec.ofNat 64 k)).advance

/-! ### Stream registers (12 R299 to R301) -/

/-- 12 R300. -/
def execCbind (n : BitVec 3) (a : BitVec 6) (s : State) : Res :=
  checked (.cbind n a) s fun s =>
    match (Tbl.get {} (s.core s.curCore).streams a.toNat).owner with
    | some w =>
      if w = s.curW then (s.modCore s.curCore fun c => { c with streams := Tbl.set c.streams a.toNat { owner := some s.curW, ch := n.toNat } }).advance
      else raise s (codeTrap .illegal (Instr.cbind n a).code)
    | none => (s.modCore s.curCore fun c => { c with streams := Tbl.set c.streams a.toNat { owner := some s.curW, ch := n.toNat } }).advance

/-- The stream register, if the wave that moves owns it. -/
def ownStream (s : State) (k : Nat) : Option Stream :=
  let t := Tbl.get {} (s.core s.curCore).streams k
  if t.owner = some s.curW then some t else none

/-- 12 R300. -/
def execCunbind (a : BitVec 6) (s : State) : Res :=
  checked (.cunbind a) s fun s => match ownStream s a.toNat with
    | some _ => (s.modCore s.curCore fun c => { c with streams := Tbl.erase c.streams a.toNat }).advance
    | none => raise s (codeTrap .illegal (Instr.cunbind a).code)

/-- Bytes of a span that have landed. -/
def spanLanded (c : Core) (ch : Nat) (p : Span) : Nat :=
  match c.fifo.find? fun r => r.ch = ch ∧ r.seq = p.seq with
  | some r => r.landed
  | none => p.cut.getD p.len

/-- What one pop gives: the element's size, its place and bytes (none: it will never land), the stream after
it; none while it has not landed. -/
def popOne (c : Core) (t : Stream) : Option ((Nat × Option (Nat × Nat)) × Stream) :=
  match t.spans with
  | [] => none
  | p :: rest =>
    let n := Nat.min p.size (p.len - t.pos)
    let after : Stream := if t.pos + p.size < p.len then { t with pos := t.pos + p.size } else { t with spans := rest, pos := 0 }
    if t.pos + n ≤ spanLanded c t.ch p then some ((p.size, some (p.base + t.pos, n)), after)
    else if p.cut.isSome then some ((p.size, none), after)
    else none

/-- `n` pops in order. -/
def popMany (c : Core) : Nat → Stream → Option (List (Nat × Option (Nat × Nat)) × Stream)
  | 0, t => some ([], t)
  | n + 1, t =>
    match popOne c t with
    | none => none
    | some (e, t) => match popMany c n t with
      | none => none
      | some (l, t) => some (e :: l, t)

/-- The places of some bytes that the wave that moves loads, line by line: key and length. -/
def popPlaces (s : State) : Nat → Nat → Nat → Except Trap (List (Nat × Nat)) × State
  | 0, _, _ => (.ok [], s)
  | fuel + 1, ea, n =>
    if n = 0 then (.ok [], s)
    else
      let m := Nat.min n (128 - ea % 128)
      match window s s.curCore s.curAsid ea .load with
      | (none, s) => (.error ⟨.xlate, BitVec.ofNat 64 ea⟩, s)
      | (some p, s) =>
        match popPlaces (noteLeaf s p) fuel (ea + m) (n - m) with
        | (.error t, s) => (.error t, s)
        | (.ok l, s) => (.ok ((p.key, m) :: l), s)

/-- The places of popped elements; an element that will never land has none. -/
def allPlaces (s : State) : List (Nat × Option (Nat × Nat)) → Except Trap (List (List (Nat × Nat))) × State
  | [] => (.ok [], s)
  | e :: t =>
    match (match e.2 with
      | some (ea, n) => popPlaces s n ea n
      | none => (.ok [], s)) with
    | (.error x, s) => (.error x, s)
    | (.ok l, s) =>
      match allPlaces s t with
      | (.error x, s) => (.error x, s)
      | (.ok ls, s) => (.ok (l :: ls), s)

/-- Bypass loads of the places of one element: its value, and the pa of a line that could not be read. -/
def popRead (s : State) (l : List (Nat × Nat)) : Nat × Option Nat × State :=
  let (bs, bad, s) := l.foldl (fun (a : List Byte × Option Nat × State) p =>
    let (g, s) := bypassRead a.2.2 s.curCore s.fetcher p.1 p.2 1
    (a.1 ++ g.bytes, a.2.1.or g.bad, s)) ([], none, s)
  (ofBytes bs, bad, s)

/-- Pop `n` elements of a stream of the wave, read them, and go on with their sizes, values and error. Like a load
they wait for watermarks (12 R293) and for the wave's own stores of the bytes (01 R39). -/
def withPops (s : State) (k n : Nat) (t : Stream) (f : List (Nat × Option (Nat × Nat)) → List Nat → Option Nat → State → State) : State :=
  match popMany (s.core s.curCore) n t with
  | none => park s .timed
  | some (es, t) =>
    match allPlaces s es with
    | (.error e, s) => raise s e
    | (.ok ls, s) =>
      if es.any fun e => e.2.any fun p => watermarkHeld s p.1 p.2 then park s .timed
      else if ownHeld s s.curW true ls.flatten then stall s
      else
        let (vs, bad, s) := ls.foldl (fun (a : List Nat × Option Nat × State) l =>
          let (v, b, s) := popRead a.2.2 l
          (a.1 ++ [v], a.2.1.or b, s)) ([], none, s)
        f es vs bad (s.modCore s.curCore fun c => { c with streams := Tbl.set c.streams k t })

/-- 12 R301. -/
def execSpop (d a : BitVec 6) (s : State) : Res :=
  checked (.spop d a) s fun s => match ownStream s a.toNat with
    | none => raise s (codeTrap .illegal (Instr.spop d a).code)
    | some t => withPops s a.toNat 1 t fun _ vs bad s =>
        ((s.setData d.toNat (BitVec.ofNat 64 (vs.headD 0))).markReg d.toNat bad).advance

/-- The next element of a stream has 8 bytes. -/
def wideStream (t : Stream) : Bool := match t.spans with
  | p :: _ => decide (p.size = 8)
  | [] => false

/-- Write one popped element to its lane. -/
def putPop (x : Wave) (d l size v : Nat) : Wave :=
  let x := x.setLane d l (BitVec.ofNat 32 v)
  if size = 8 then x.setLane (d + 1) l (BitVec.ofNat 32 (v / 2 ^ 32)) else x

/-- 12 R301. -/
def execVspop (d a : BitVec 6) (s : State) : Res :=
  checkedVspop d a s fun s => match ownStream s a.toNat with
    | none => raise s (codeTrap .illegal (wordVspop d a))
    | some t =>
      let ls := s.curWave.lanes
      let wide := wideStream t || match popMany (s.core s.curCore) ls.length t with
        | some (es, _) => es.any fun e => decide (e.1 = 8)
        | none => false
      if wide && decide (s.curWave.vregs ≤ d.toNat + 1) then raise s (codeTrap .illegal (wordVspop d a))
      else if wide && s.curWave.pend.contains (65 + d.toNat) then stall s
      else withPops s a.toNat ls.length t fun es vs bad s =>
        (s.modCur fun x =>
          let x := x.freshen (if wide then [64 + d.toNat, 65 + d.toNat] else [64 + d.toNat]) ls.length
          let x := ((ls.zip (es.zip vs))).foldl (fun x e => putPop x d.toNat e.1 e.2.1.1 e.2.2) x
          let x := x.mark (64 + d.toNat) bad
          if wide then x.mark (65 + d.toNat) bad else x).advance

end Sys2Proof.Machine
end

