-- ==== Sys2Proof/Machine/Press.lean ====
section
/-! DEFINITION. The press: sequencer contexts and their registers (13 R309 to R314, R323 to R326), posting and
the reservation table (R315 to R318), clears (R328) and dense passes (R319 to R322). -/

namespace Sys2Proof.Machine

/-! ### Registers of a context (13 R314, 14 R331) -/

def Ctx.pr (x : Ctx) (n : Nat) : Word := Tbl.get 0 x.regs n
def Ctx.setPr (x : Ctx) (n : Nat) (w : Word) : Ctx := { x with regs := Tbl.set x.regs n w }
/-- The context that moves: its vat, its number, itself. -/
def State.curCtx (s : State) : Nat × Nat × Ctx := match s.cur with
  | .ctx v n => (v, n, s.ctx v n)
  | _ => (0, 0, {})

def gVR (w : Word) : Nat := fld w 40 8
def gVC (w : Word) : Nat := fld w 32 8
def gKB (w : Word) : Nat := fld w 16 13
def gWA (w : Word) : Nat := fld w 8 5
def gWB (w : Word) : Nat := fld w 0 5

/-- The bits of a register that are not reserved; none for a register that `PSET` does not write whole. -/
def pressMask (n : Nat) : Option Word := match n with
  | 1 => some 0x0000_FFFF_1FFF_1F1F
  | 2 => some 0xFFFF_FFFF_FFFF_FFFF
  | 3 => some 0x0000_FFFF_FFFF_FFFF
  | 4 => some 0x0000_FFFF_FFFF_FFFF
  | 5 => some 0x0000_0000_0007_FFFF
  | 6 => some 0x0000_0000_0000_80BF
  | 8 => some 0xFFFF_FFFF_FFFF_FFFF
  | 9 => some 0x3F3F_001F_0000_0000
  | 10 => some 0x8000_0000_FFFF_FFFF
  | 11 => some 0x0000_0000_FFFF_FFFF
  | 12 => some 0x0000_0000_0000_0003
  | _ => none

/-- What a `PSET` does to a context, or none where it raises ILLEGAL. -/
def psetCtx (x : Ctx) (n : Nat) (v : Word) : Option Ctx :=
  if n = 0 then
    if fld v 0 62 ≠ 0 then none
    else
      let x := if bit v 62 then x.setPr 0 (setFld (x.pr 0) 39 1 0) else x
      some (if bit v 63 then { x with st := .halted } else x)
  else if n = 13 then (if v = 0 then some (x.setPr 13 0) else none)
  else match pressMask n with
    | some m => if v &&& ~~~m = 0 then some (x.setPr n v) else none
    | none => none

/-- 13 R325, R314. -/
def execPset (a b : BitVec 6) (s : State) : Res :=
  checkedPset a b s fun s =>
    let (v, n, x) := s.curCtx
    match psetCtx x a.toNat (s.lo b.toNat) with
    | some y => (s.setCtx v n y).advance
    | none => raise s (codeTrap .illegal (wordPset a b))

/-- 13 R325. -/
def execPget (d a : BitVec 6) (s : State) : Res :=
  checkedPget d a s fun s =>
    if 15 ≤ a.toNat then raise s (codeTrap .illegal (wordPget d a))
    else (s.setData d.toNat (s.curCtx.2.2.pr a.toNat)).advance

/-! ### Windows (13 R307, R326) -/

/-- A window by number. -/
def winAt (s : State) (v n : Nat) : Option Window := Tbl.get? (s.vat v).wins n
/-- The context holds a window of its vat. -/
def holdsWin (s : State) (v n wn : Nat) : Bool := (winAt s v wn).any fun w => w.holders.contains n

/-- The status of `PRES`, the holder count afterwards, and the windows. -/
def reserveWin (wins : Tbl Window) (n : Nat) (w : Word) : Nat × Nat × Tbl Window :=
  let wn := fld w 48 3
  let hash := bit w 51
  let base := fld w 16 9
  let size := fld w 0 10
  let old := Tbl.get? wins wn
  let count := match old with
    | some o => o.holders.length
    | none => 0
  if fld w 52 12 ≠ 0 ∨ fld w 25 23 ≠ 0 ∨ fld w 10 6 ≠ 0 ∨ size = 0 ∨ 512 < base + size then (3, count, wins)
  else match old with
    | some o =>
      if o.holders.contains n then (4, count, wins)
      else if o.hash = hash ∧ o.baseu = base ∧ o.sizeu = size then
        (1, count + 1, Tbl.set wins wn { o with holders := o.holders ++ [n] })
      else (2, count, wins)
    | none =>
      if wins.any fun o => decide (o.2.baseu < base + size ∧ base < o.2.baseu + o.2.sizeu) then (2, 0, wins)
      else (0, 1, Tbl.set wins wn ⟨hash, base, size, [n]⟩)

/-- 13 R326. -/
def execPres (d a : BitVec 6) (s : State) : Res :=
  checkedPres d a s fun s =>
    let (v, n, _) := s.curCtx
    let (st, k, ws) := reserveWin (s.vat v).wins n (s.lo a.toNat)
    ((s.modVat v fun y => { y with wins := ws }).setData d.toNat (BitVec.ofNat 64 (st * 2 ^ 56 + k))).advance

/-- 13 R326. -/
def execPrel (a : BitVec 6) (s : State) : Res :=
  checkedPrel a s fun s =>
    let (v, n, _) := s.curCtx
    let wn := fld (s.lo a.toNat) 48 3
    if (s.vat v).rtab.any fun e => e.ctx = n then stall s
    else if !holdsWin s v n wn then raise s (codeTrap .illegal (wordPrel a))
    else (s.modVat v fun y => { y with wins := (y.wins.map fun w =>
        if w.1 = wn then (w.1, { w.2 with holders := w.2.holders.filter (· ≠ n) }) else w).filter fun w => !w.2.holders.isEmpty }).advance

/-! ### Posting (13 R315) -/

/-- Post an operation whose checks have passed, or stall while there is no room. -/
def post (s : State) (op : PressOp) (word : W32) (ma mb : Word) (cap : Cap) (lg : Nat) : State :=
  let (v, n, x) := s.curCtx
  let tab := (s.vat v).rtab
  if 16 ≤ tab.length ∨ 8 ≤ (tab.filter fun e => e.ctx = n).length then stall s
  else
    (s.modVat v fun y => { y with rtab := y.rtab ++ [{ ctx := n, op := op, fpc := x.pc.addr, word := word, ma := ma, mb := mb,
                                                       regs := x.regs, cap := cap, lg := lg, posted := s.cyc }] }).advance

/-- Bytes of an arena. -/
def Ctx.arenaLen (x : Ctx) : Nat := x.arena.extent

/-- The checks of a dense pass, in their order (13 R319): none where it may be posted. DESIGN CHOICE (log 23): the
information word of ALIGN is the operand's offset, or the stride; that of a patch outside the window is the slot offset
(R308) of its first output where that lies above or left of the window, else of its last. -/
def passTrap (s : State) (v n : Nat) (x : Ctx) (word : W32) (ma mb : Nat) : Option Trap :=
  let g := x.pr 1
  let wn := fld (x.pr 5) 16 3
  let nw := fld (x.pr 5) 0 16
  let astr := fld (x.pr 2) 32 32
  let bstr := fld (x.pr 2) 0 32
  let endA := ma + (gVR g - 1) * astr + gKB g * blockLen (gWA g)
  let endB := mb + (gVC g - 1) * bstr + gKB g * blockLen (gWB g)
  let i0 := fld (x.pr 3) 24 24
  let j0 := fld (x.pr 3) 0 24
  let r0 := fld (x.pr 4) 24 24
  let c0 := fld (x.pr 4) 0 24
  let off := (i0 + gVR g - 1 - r0) * nw + (j0 + gVC g - 1 - c0)
  if !holdsWin s v n wn || (winAt s v wn).any (·.hash) then some (codeTrap .illegal word)
  else if gVR g = 0 ∨ 128 < gVR g ∨ gVC g = 0 ∨ 128 < gVC g ∨ gKB g = 0 ∨ 4096 < gKB g ∨ gWA g = 0 ∨ 24 < gWA g
      ∨ gWB g = 0 ∨ 24 < gWB g ∨ nw = 0 ∨ 32768 < nw then some (codeTrap .illegal word)
  else if ma % 8 ≠ 0 then some ⟨.align, BitVec.ofNat 64 ma⟩
  else if mb % 8 ≠ 0 then some ⟨.align, BitVec.ofNat 64 mb⟩
  else if astr % 8 ≠ 0 then some ⟨.align, BitVec.ofNat 64 astr⟩
  else if bstr % 8 ≠ 0 then some ⟨.align, BitVec.ofNat 64 bstr⟩
  else if x.arenaLen < endA then some ⟨.capBound, BitVec.ofNat 64 (endA - 1)⟩
  else if x.arenaLen < endB then some ⟨.capBound, BitVec.ofNat 64 (endB - 1)⟩
  else if i0 < r0 ∨ j0 < c0 then some ⟨.capBound, wrap 64 (((i0 : Int) - r0) * nw + ((j0 : Int) - c0))⟩
  else if nw ≤ j0 + gVC g - 1 - c0 ∨ 64 * ((winAt s v wn).map (·.sizeu)).getD 0 ≤ off then
    some ⟨.capBound, BitVec.ofNat 64 off⟩
  else none

/-- 13 R319, R327. -/
def execPpass (a b : BitVec 6) (s : State) : Res :=
  checkedPpass a b s fun s =>
    let (v, n, x) := s.curCtx
    let ma := s.lo a.toNat
    let mb := s.lo b.toNat
    match passTrap s v n x (wordPpass a b) ma.toNat mb.toNat with
    | some t => raise s t
    | none => post s .pass (wordPpass a b) ma mb {} 0

/-- 13 R328. -/
def execPclr (a : BitVec 6) (s : State) : Res :=
  checkedPclr a s fun s =>
    let (v, n, _) := s.curCtx
    let ma := s.lo a.toNat
    if !holdsWin s v n (fld ma 48 3) then raise s (codeTrap .illegal (wordPclr a))
    else post s .clear (wordPclr a) ma 0 {} 0

/-! ### Starting and stopping a context (13 R311, R323, R324) -/

/-- A fault of a capability that `MSTART` checks. -/
def startTrap (stream arena : Cap) : Option Trap :=
  let ea (c : Cap) : Word := BitVec.ofNat 64 c.addr
  if !stream.tag then some ⟨.capTag, ea stream⟩
  else if stream.perm &&& permEX ≠ permEX then some ⟨.capPerm, ea stream⟩
  else if reservedFormat stream.fmt then some ⟨.format, ea stream⟩
  else if !arena.tag then some ⟨.capTag, ea arena⟩
  else if arena.perm &&& (permLD + permST + permAT + permES) ≠ permLD + permST + permAT + permES then some ⟨.capPerm, ea arena⟩
  else none

/-- The arena lies in one window 0x7E or 0x7F. -/
def arenaBad (arena : Cap) : Bool :=
  let w := arena.base / 2 ^ 48
  decide (¬(w = 0x7E ∨ w = 0x7F) ∨ arena.top = 0 ∨ (arena.top - 1) / 2 ^ 48 ≠ w)

/-- An arena capability as a context holds it: in window 0x7E, with the core-in-vat of its core (13 R310; log 23). -/
def recastArena (c : Cap) (civ : Nat) : Cap :=
  let put (a : Nat) : Nat := 0x7E * 2 ^ 48 + a % 2 ^ 48 / 2 ^ 23 * 2 ^ 23 + civ * 2 ^ 21 + a % 2 ^ 21
  let a := c.setAddr (put c.addr)
  { a with hi := setFld a.hi 25 25 (put c.base / 2 ^ c.exp) }
/-- The arena that `MSTART` gives a context: window 0x7F is the starting wave's core. -/
def startArena (c : Cap) (civ : Nat) : Cap := if c.base / 2 ^ 48 = 0x7F then recastArena c civ else c

/-- The lowest FREE context. -/
def freeCtxOf (s : State) (v : Nat) : Option Nat := (List.range 4).find? fun n => (s.ctx v n).st = .free

/-- 13 R311, R323. DESIGN CHOICE (log 23): m1 is the group index also for a context that a shading wave starts, whose c5
counts its lanes (05 R151). -/
def execMstart (d a b : BitVec 6) (s : State) : Res :=
  checkedMstart d a b s fun s =>
    let stream := s.reg a.toNat
    let arena := s.reg b.toNat
    match startTrap stream arena with
    | some t => raise s t
    | none =>
      let x := s.curWave
      let v := coreVat s.curCore
      let done (st n : Nat) (s : State) : State := (s.setData d.toNat (BitVec.ofNat 64 (st * 2 ^ 56 + n))).advance
      if arenaBad arena then done 3 0 s
      else if (groupCtx s s.curCore x.group).isSome then done 2 0 s
      else match freeCtxOf s v with
        | none => done 1 0 s
        | some n =>
          let (u, s) := s.release.newAgent
          done 0 n (s.setCtx v n { st := .run, group := x.group, grid := x.grid, wave := s.curW, uid := u, clk := s.curClk,
                                   wtag := Tbl.get 0 (s.core s.curCore).wtag (waveSlot s.curW),
                                   m := [(1, BitVec.ofNat 64 x.gidx)], pc := stream, arena := startArena arena (coreInVat s.curCore) })

/-- 13 R324. DESIGN CHOICE (log 23): one that meets a context that another MSTOP is stopping waits until it is FREE, and
then finds none. -/
def execMstop (d a : BitVec 6) (s : State) : Res :=
  checkedMstop d a s fun s =>
    let v := coreVat s.curCore
    match groupCtx s s.curCore s.curWave.group with
    | none => (s.setData d.toNat (BitVec.ofNat 64 (3 * 2 ^ 56))).advance
    | some n =>
      let abort := bit (s.lo a.toNat) 0
      let go (code : Nat) : State :=
        stopCtx (park (s.modCur fun x => { x with passes := x.passes + 1 }) (.reply d.toNat (!abort))) v n (some (s.curW, d.toNat, code))
      match (s.ctx v n).st with
      | .halted => go 0
      | .faulted => go 2
      | .run => if abort then go 1 else park s .timed
      | _ => if abort then stall s else park s .timed

/-! ### The accumulator file (13 R306) -/

def acfAt (s : State) (v g : Nat) : Slot := Tbl.get {} (s.vat v).acf g
def setAcf (s : State) (v g : Nat) (x : Slot) : State := s.modVat v fun y => { y with acf := Tbl.put {} y.acf g x }
/-- Every slot of a window is made empty. -/
def clearWin (s : State) (v : Nat) (w : Window) : State :=
  s.modVat v fun y => { y with acf := y.acf.filter fun e => decide (e.1 < 64 * w.baseu ∨ 64 * (w.baseu + w.sizeu) ≤ e.1) }
/-- An FP32 pattern is Inf or NaN. -/
def nonfinite (x : Nat) : Bool := decide (x / 2 ^ 23 % 256 = 255)

/-! ### Dense passes (03 R92, 13 R320 to R322) -/

/-- A plane block read: scale byte, mantissas, and which planes are not zero. -/
structure PlaneBlock where
  sc : Nat
  ms : List Int
  planes : List Bool
deriving DecidableEq, Repr

/-- Bytes of a context's arena. -/
def arenaRead (s : State) (x : Ctx) (off n : Nat) : Except Trap (List Byte) × State :=
  engineRead s (waveCore x.wave) 0 (x.arena.base + off) n

def readBlock (s : State) (x : Ctx) (off w : Nat) : Except Trap PlaneBlock × State :=
  match arenaRead s x off (blockLen w) with
  | (.error t, s) => (.error t, s)
  | (.ok bs, s) =>
    (.ok ⟨(bs.headD 0).toNat, planeMantissas w bs, (List.range w).map fun b => decide (ofBytes ((bs.drop (8 + 8 * b)).take 8) ≠ 0)⟩, s)

/-- The blocks at a list of offsets. -/
def readBlocks (s : State) (x : Ctx) (w : Nat) : List Nat → Except Trap (List PlaneBlock) × State
  | [] => (.ok [], s)
  | o :: t =>
    match readBlock s x o w with
    | (.error e, s) => (.error e, s)
    | (.ok b, s) =>
      match readBlocks s x w t with
      | (.error e, s) => (.error e, s)
      | (.ok l, s) => (.ok (b :: l), s)

/-- The lines of an operand: `n` rows of `kb` blocks each. -/
def readRows (s : State) (x : Ctx) (off str w kb : Nat) : Nat → Except Trap (List (List PlaneBlock)) × State
  | 0 => (.ok [], s)
  | n + 1 =>
    match readBlocks s x w ((List.range kb).map fun k => off + k * blockLen w) with
    | (.error e, s) => (.error e, s)
    | (.ok r, s) =>
      match readRows s x (off + str) str w kb n with
      | (.error e, s) => (.error e, s)
      | (.ok l, s) => (.ok (r :: l), s)

/-- The exact sum of products of mantissas. -/
def dot (a b : List Int) : Int := ((a.zip b).map fun p => p.1 * p.2).sum

/-- One block pair added into a slot (03 R92): the slot and NONFINITE. -/
def passStep (wa wb : Nat) (slot : Nat × Bool) (p : PlaneBlock × PlaneBlock) : Nat × Bool :=
  let (a, b) := p
  let v :=
    if a.sc = 0xFF ∨ b.sc = 0xFF then 0x7FC0_0000
    else if a.sc = 0 ∨ b.sc = 0 then slot.1
    else
      let d := dot a.ms b.ms
      let e : Int := (a.sc : Int) + b.sc - 250 - wa - wb
      addFP32 slot.1 (roundFP32 (.scaled (decide (d < 0)) d.natAbs e))
  (v, slot.2 || nonfinite v)

/-- Cycles a dense pass holds the press (13 R322). -/
def passHold (psl wa wb : Nat) (rows cols : List (List PlaneBlock)) (kb : Nat) : Nat :=
  let used (w k : Nat) (ls : List (List PlaneBlock)) : Nat :=
    ((List.range w).filter fun b => ls.any fun l => (l[k]?).any fun x => x.planes.getD b false).length
  let steps := ((List.range kb).map fun k => Nat.max 1 (used wa k rows * used wb k cols)).sum
  let p := if psl = 0 ∨ 16 < psl then 16 else psl
  24 + Nat.max (16 * ((steps - 1) / p) + (steps - 1) % p + 1) (ceilDiv (rows.length * cols.length) 64)

/-- The pass-rate limit in force: VPOL.PSL, at most 8 under the current limit (22 R461, R462). -/
def passLimit (s : State) (v : Nat) : Nat :=
  let p := fld (s.vat v).vpol 0 5
  if (s.package (corePkg v)).capped then Nat.min p 8 else p

/-- A granted dense pass (13 R320): it finishes, or fails at a source read. -/
def runPass (s : State) (v : Nat) (e : REntry) : Except Trap REntry × State :=
  let r (n : Nat) : Word := Tbl.get 0 e.regs n
  let g := r 1
  let x := s.ctx v e.ctx
  match readRows s x e.ma.toNat (fld (r 2) 32 32) (gWA g) (gKB g) (gVR g) with
  | (.error t, s) => (.error t, s)
  | (.ok rows, s) =>
    match readRows s x e.mb.toNat (fld (r 2) 0 32) (gWB g) (gKB g) (gVC g) with
    | (.error t, s) => (.error t, s)
    | (.ok cols, s) =>
      let base := 64 * ((winAt s v (fld (r 5) 16 3)).map (·.baseu)).getD 0
      let nw := fld (r 5) 0 16
      let (nf, s) := (rows.zipIdx).foldl (fun (a : Bool × State) row =>
        (cols.zipIdx).foldl (fun (a : Bool × State) col =>
          let gi := fld (r 3) 24 24 + row.2
          let gj := fld (r 3) 0 24 + col.2
          let k := base + (gi - fld (r 4) 24 24) * nw + (gj - fld (r 4) 0 24)
          let old := acfAt a.2 v k
          let (val, nf) := (row.1.zip col.1).foldl (passStep (gWA g) (gWB g)) (if old.st = 0 then 0 else old.val.toNat, false)
          (a.1 || nf || nonfinite val, setAcf a.2 v k ⟨1, (gi * 2 ^ 24 + gj) % 2 ^ 48, BitVec.ofNat 32 val⟩)) a) (false, s)
      (.ok { e with finished := true, nonfin := nf, hold := passHold (passLimit s v) (gWA g) (gWB g) rows cols (gKB g) }, s)

/-- A granted clear (13 R328). -/
def runClear (s : State) (v : Nat) (e : REntry) : REntry × State :=
  match winAt s v (fld e.ma 48 3) with
  | some w => ({ e with finished := true, hold := w.sizeu + 8 }, clearWin s v w)
  | none => ({ e with finished := true }, s)

end Sys2Proof.Machine
end

