-- ==== Sys2Proof/Machine/Join.lean ====
section
/-! DEFINITION. Join passes (14 R329 to R338), ports (R339 to R341), drains (R342, R343), and the grant and
completion of press operations (13 R316 to R318). -/

namespace Sys2Proof.Machine

/-! ### Ports (14 R339) -/

/-- The checks of a port descriptor at an arena offset: its capability and CAPLG. -/
def portCheck (s : State) (x : Ctx) (word : W32) (off : Nat) (spill : Bool) : Except Trap (Cap × Nat) × State :=
  let bad (c : Code) : Except Trap (Cap × Nat) := .error ⟨c, BitVec.ofNat 64 off⟩
  if off % 64 ≠ 0 then (bad .align, s)
  else match arenaAt s x.arena (waveCore x.wave) off 64 1 .load with
    | (.error t, s) => (.error t, s)
    | (.ok k, s) =>
      match arenaRead s x off 64 with
      | (.error t, s) => (.error t, s)
      | (.ok bs, s) =>
      let p (n : Nat) : Word := BitVec.ofNat 64 (ofBytes ((bs.drop (8 * n)).take 8))
      let cap : Cap := ⟨readTag s k, p 1, p 0⟩
      let p2 := p 4
      let lg := fld p2 0 5
      if !cap.tag then (bad .capTag, s)
      else if cap.perm &&& (permST + permED) ≠ permST + permED then (bad .capPerm, s)
      else if fld (p 2) 32 32 ≠ 0 ∨ fld (p 3) 32 32 ≠ 0 ∨ fld p2 5 59 ≠ 0 ∨ p 5 ≠ 0 ∨ p 6 ≠ 0 ∨ p 7 ≠ 0 ∨ 24 < lg ∨ (spill ∧ lg = 0) then (.error (codeTrap .illegal word), s)
      else if lg ≠ 0 ∧ !cap.grants cap.addr (16 * 2 ^ lg) then (bad .capBound, s)
      else (.ok (cap, lg), s)

/-! ### Posting a join or a drain (14 R335, R342) -/

/-- The checks of a join before its port (14 R335). -/
def joinTrap (s : State) (v n : Nat) (x : Ctx) (word : W32) (ma mb : Nat) : Option Trap :=
  let wn := fld (x.pr 5) 16 3
  let fa := fld (x.pr 9) 56 6
  let fb := fld (x.pr 9) 48 6
  let pl := fld (x.pr 9) 32 5
  if !holdsWin s v n wn || !(winAt s v wn).any (·.hash) then some (codeTrap .illegal word)
  else if fa = 0 ∨ 5 < fa ∨ fb = 0 ∨ 5 < fb ∨ pl = 0 ∨ 16 < pl then some (codeTrap .illegal word)
  else if ma % 16 ≠ 0 then some ⟨.align, BitVec.ofNat 64 ma⟩
  else if mb % 16 ≠ 0 then some ⟨.align, BitVec.ofNat 64 mb⟩
  else if x.arenaLen < ma + 16 * fld (x.pr 8) 32 32 then some ⟨.capBound, BitVec.ofNat 64 ma⟩
  else if x.arenaLen < mb + 16 * fld (x.pr 8) 0 32 then some ⟨.capBound, BitVec.ofNat 64 mb⟩
  else none

/-- 14 R335, R345. -/
def execPjoin (a b : BitVec 6) (s : State) : Res :=
  checkedPjoin a b s fun s =>
    let (v, n, x) := s.curCtx
    let ma := s.lo a.toNat
    let mb := s.lo b.toNat
    match joinTrap s v n x (wordPjoin a b) ma.toNat mb.toNat with
    | some t => raise s t
    | none =>
      if bit (x.pr 10) 63 then
        match portCheck s x (wordPjoin a b) (fld (x.pr 10) 0 32) true with
        | (.error t, s) => raise s t
        | (.ok (cap, lg), s) => post s .join (wordPjoin a b) ma mb cap lg
      else post s .join (wordPjoin a b) ma mb {} 0

/-- Post a drain (14 R342). -/
def postDrain (ordered : Bool) (word : W32) (a : BitVec 6) (s : State) : State :=
  let (v, n, x) := s.curCtx
  let ma := s.lo a.toNat
  if !holdsWin s v n (fld ma 48 3) then raise s (codeTrap .illegal word)
  else match portCheck s x word (fld (x.pr 11) 0 32) false with
    | (.error t, s) => raise s t
    | (.ok (cap, lg), s) => post s (.drain ordered) word ma 0 cap lg

/-- 14 R342, R345. -/
def execPdrainO (a : BitVec 6) (s : State) : Res := checkedPdrainO a s (postDrain true (wordPdrainO a) a)
/-- 14 R342, R345. -/
def execPdrainU (a : BitVec 6) (s : State) : Res := checkedPdrainU a s (postDrain false (wordPdrainU a) a)

/-! ### Reading and merging streams (14 R329, R330, R336, R337) -/

/-- A tuple of a stream, or why there is none: it is the terminator, its JK is below that of the tuple before it,
or it could not be read. -/
structure Tup where
  jk : Nat
  ok : Nat
  val : Nat
  unsorted : Bool := false
  err : Option Trap := none
  last : Bool := false
deriving DecidableEq, Repr

/-- The tuples up to the count or the terminator; the last one may carry an error that ends them. -/
def readTuples (s : State) (x : Ctx) (off prev : Nat) : Nat → List Tup × State
  | 0 => ([], s)
  | n + 1 =>
    match arenaRead s x off 16 with
    | (.error t, s) => ([⟨prev, 0, 0, false, some t, false⟩], s)
    | (.ok bs, s) =>
      let jk := ofBytes ((bs.drop 4).take 4)
      if jk = 2 ^ 32 - 1 then ([⟨jk, 0, 0, false, none, true⟩], s)
      else
        let (l, s) := readTuples s x (off + 16) jk n
        (⟨jk, ofBytes (bs.take 3), ofBytes ((bs.drop 8).take 4), decide (jk < prev), none, false⟩ :: l, s)

/-- What a merge gives: pairs to multiply, each with the tuples read when it is emitted, whether a stream was out of order, an error, tuples of A and of B read. -/
structure Merge where
  pairs : List ((Tup × Tup) × Nat) := []
  unsorted : Bool := false
  err : Option Trap := none
  readA : Nat := 0
  readB : Nat := 0
deriving DecidableEq, Repr

/-- The first `n` tuples of A, or of B, have been read. -/
def Merge.sawA (m : Merge) (n : Nat) : Merge := { m with readA := Nat.max m.readA n }
def Merge.sawB (m : Merge) (n : Nat) : Merge := { m with readB := Nat.max m.readB n }

/-- The run of equal keys at the front, and the rest. -/
def runOf (k : Nat) (l : List Tup) : List Tup × List Tup :=
  (l.takeWhile fun t => decide (t.jk = k ∧ t.err = none ∧ t.last = false), l.dropWhile fun t => decide (t.jk = k ∧ t.err = none ∧ t.last = false))
/-- What stops a merge at a tuple, and at the front of a stream. -/
def Tup.bad (t : Tup) : Option (Option Trap) := if t.err.isSome then some t.err else if t.unsorted then some none else none
def headBad (l : List Tup) : Option (Option Trap) := l.head?.bind Tup.bad
def Merge.stop (m : Merge) (b : Option Trap) : Merge := { m with unsorted := b.isNone, err := b }

/-- The merge of two streams (14 R336, R337). `na`, `nb` count the tuples dropped so far. A tuple is read only
where both streams have one. -/
def mergeStreams (na nb : Nat) (m : Merge) : Nat → List Tup → List Tup → Merge
  | 0, _, _ => m
  | _, [], _ => m
  | _, _, [] => m
  | fuel + 1, x :: at_, y :: bt =>
    let m := m.sawA (na + 1)
    match x.bad with
    | some e => m.stop e
    | none =>
      if x.last then m
      else
        let m := m.sawB (nb + 1)
        match y.bad with
        | some e => m.stop e
        | none =>
          if y.last then m
          else if x.jk < y.jk then mergeStreams (na + 1) nb m fuel at_ (y :: bt)
          else if y.jk < x.jk then mergeStreams na (nb + 1) m fuel (x :: at_) bt
          else
            let (ra, ta) := runOf x.jk (x :: at_)
            let (rb, tb) := runOf x.jk (y :: bt)
            let m := m.sawA (na + ra.length + Nat.min 1 ta.length)
            match headBad ta with
            | some e => m.stop e
            | none =>
              let m := m.sawB (nb + rb.length + Nat.min 1 tb.length)
              match headBad tb with
              | some e => m.stop e
              | none =>
                mergeStreams (na + ra.length) (nb + rb.length)
                  { m with pairs := m.pairs ++ ra.flatMap fun p => rb.map fun q => ((p, q), m.readA + m.readB) } fuel ta tb

/-- A product (03 R93): key, bits, whether an input or the product is non-finite, and `n`. -/
def productOf (fa fb : Nat) (p : Tup × Tup) (n : Nat) : Nat × W32 × Bool × Nat :=
  let a := decodeFmt fa (p.1.val % 2 ^ elemBits fa)
  let b := decodeFmt fb (p.2.val % 2 ^ elemBits fb)
  let v := roundFP32 (Val.mul a b).1
  (p.1.ok * 2 ^ 24 + p.2.ok, BitVec.ofNat 32 v, !a.finite || !b.finite || nonfinite v, n)

/-! ### Hash windows (14 R332 to R334) -/

/-- The bank of a key and the slots of its probe sequence. -/
def probeSlots (w : Window) (pl key : Nat) : Nat × List Nat :=
  let h := key * 0x9C4A_37E1_5B2D_8F05 % 2 ^ 64
  let h := h ^^^ (h / 2 ^ 29)
  let b := h % 64
  let i0 := h / 64 % 512 % w.sizeu
  (b, (List.range (Nat.min pl w.sizeu)).map fun p => 64 * (w.baseu + (i0 + p) % w.sizeu) + b)

/-- Apply a product: whether the slot became non-finite, or none for SPILL; and the probe steps made. -/
def applyProduct (s : State) (v : Nat) (slots : List Nat) (key : Nat) (p : W32) : Option Bool × Nat × State :=
  match place (fun g => decide ((acfAt s v g).st = 0 ∨ (acfAt s v g).key = key)) slots with
  | none => (none, slots.length, s)
  | some i =>
    let g := slots.getD i 0
    let old := acfAt s v g
    let val := if old.st = 0 then p.toNat else addFP32 old.val.toNat p.toNat
    (some (nonfinite val), i + 1, setAcf s v g ⟨1, key, BitVec.ofNat 32 val⟩)

/-! ### Writing records (14 R340) -/

/-- Whether a record was written, must wait for the ring, or stops the operation. -/
inductive Put where
  | done (e : REntry)
  | full
  | stop (t : Trap)
deriving DecidableEq, Repr

/-- The press writes for a context (log 12). -/
def Ctx.writer (x : Ctx) : Writer := { uid := x.uid, grid := x.grid }
/-- Store HEAD (14 R340). -/
def storeHead (s : State) (v : Nat) (e : REntry) : Option Trap × State :=
  let x := s.ctx v e.ctx
  (engineWrite s x.writer (waveCore x.wave) 0 (e.headAt x.arena) (bytesOf 4 e.head)).2

/-- The places of the parts of a record at `ea` (address and length), or why it cannot be written: the translation of a
line fails, or a home refuses it (14 R340). -/
def recordPlaces (s : State) (c asid ea : Nat) : List (Nat × Nat) → Except Trap (List (Nat × Nat)) × State
  | [] => (.ok [], s)
  | (a, n) :: t => match engineWindow s c asid a .store with
    | (none, s) => (.error ⟨.xlate, BitVec.ofNat 64 ea⟩, s)
    | (some p, s) =>
      if homeBad s p.key then (.error ⟨.ecc, BitVec.ofNat 64 (lineOf p.key * 128)⟩, sliceMessage s p.key)
      else match recordPlaces (noteLeaf s p) c asid ea t with
        | (.ok l, s) => (.ok ((p.key, n) :: l), s)
        | (.error e, s) => (.error e, s)
/-- Bytes are written to places, each taking as many as it has room for. -/
def writePlaces (s : State) (by_ : Writer) (bs : List Byte) : List (Nat × Nat) → State
  | [] => s
  | (k, n) :: t => writePlaces (homeWrite s by_ 1 k (bs.take n) none).1 by_ (bs.drop n) t

/-- Write one record through the port, all of it or nothing, and HEAD after it. -/
def putRecord (s : State) (v : Nat) (e : REntry) (wn key : Nat) (val : W32) : Put × State :=
  let x := s.ctx v e.ctx
  let c := waveCore x.wave
  let asid := match s.grid? x.grid with
    | some g => g.asid
    | none => 0
  if e.lg ≠ 0 ∧ (e.head + 2 ^ 32 - e.tail) % 2 ^ 32 = 2 ^ e.lg then (.full, s)
  else
    let ea := e.cap.addr + 16 * (if e.lg = 0 then e.head else e.head % 2 ^ e.lg)
    if e.lg = 0 ∧ !e.cap.grants ea 16 then (.stop ⟨.capBound, BitVec.ofNat 64 ea⟩, s)
    else
      match recordPlaces s c asid ea (if ea % 128 ≤ 112 then [(ea, 16)] else [(ea, 128 - ea % 128), (ea / 128 * 128 + 128, ea % 128 - 112)]) with
      | (.error t, s) => (.stop t, s)
      | (.ok ps, s) =>
        let s := writePlaces s x.writer (bytesOf 8 (wn * 2 ^ 48 + key % 2 ^ 48) ++ bytesOf 8 val.toNat) ps
        let e := { e with head := (e.head + 1) % 2 ^ 32 }
        match storeHead s v e with
        | (some t, s) => (.stop t, s)
        | (none, s) => (.done e, s)

/-- Read TAIL again. -/
def readTail (s : State) (v : Nat) (e : REntry) : REntry × State :=
  match arenaRead s (s.ctx v e.ctx) (e.portOff + 24) 4 with
  | (.ok bs, s) => ({ e with tail := ofBytes bs }, s)
  | (.error _, s) => (e, s)

/-- HEAD and TAIL as they are at the grant. -/
def openPort (s : State) (v : Nat) (e : REntry) : REntry × State :=
  match arenaRead s (s.ctx v e.ctx) (e.portOff + 16) 4 with
  | (.ok bs, s) => readTail s v { e with head := ofBytes bs }
  | (.error _, s) => (e, s)

/-- Cycles for which a join or a drain has held the press, when it ends (14 R338, R343). -/
def REntry.cycles (e : REntry) (sizeu : Nat) : Nat := match e.op with
  | .join => 24 + Nat.max e.hold (Nat.max (ceilDiv e.prods 64) (e.banks.foldl (fun m b => Nat.max m b.2) 0)) + e.waited
  | .drain o => 24 + (if o then 8 else 1) * sizeu + ceilDiv (e.emitted.length - e.slots.length) 8 + e.waited
  | _ => e.hold
/-- The window of a join or a drain. -/
def REntry.win (e : REntry) : Nat := match e.op with
  | .drain _ => fld e.ma 48 3
  | _ => fld (Tbl.get 0 e.regs 5) 16 3
/-- The operation is finished; HEAD is stored at its completion (14 R340). -/
def finishOp (s : State) (v : Nat) (e : REntry) : Option Trap × REntry × State :=
  let (t, s) := if e.ported then storeHead s v e else (none, s)
  (t, { e with finished := true, hold := e.cycles (((winAt s v e.win).map (·.sizeu)).getD 0), todo := [], slots := [] }, s)

/-- The operation stops with a context fault and is finished (13 R312). -/
def stopOp (s : State) (v : Nat) (e : REntry) (t : Trap) : REntry × State :=
  let (_, e, s) := finishOp s v e
  ({ e with emitted := [] }, ctxFault s v e.ctx t e.fpc)

/-- A full ring: TAIL is read again, and if it is still full the operation waits (14 R340). -/
def ringWait (s : State) (v : Nat) (e : REntry) : Bool × REntry × State :=
  let (f, s) := readTail s v e
  if (f.head + 2 ^ 32 - f.tail) % 2 ^ 32 = 2 ^ f.lg then (true, { f with since := s.cyc }, s) else (false, f, s)

/-! ### Joins -/

def addNprod (s : State) (v n : Nat) : State := s.modCtx v n fun x => x.setPr 14 (x.pr 14 + 1)
def addNspill (s : State) (v n : Nat) : State :=
  s.modCtx v n fun x => x.setPr 13 (setFld (x.pr 13) 32 32 (fld (x.pr 13) 32 32 + 1))
/-- A join has applied all its products. -/
def endJoin (s : State) (v : Nat) (e : REntry) : REntry × State :=
  match e.err with
  | some x => stopOp s v e ⟨if x.1 then .ecc else .xlate, x.2⟩
  | none => match finishOp s v e with
    | (some t, e, s) => (e, ctxFault s v e.ctx t e.fpc)
    | (none, e, s) => (e, if e.unsorted then s.modCtx v e.ctx fun x => x.setPr 13 (setFld (x.pr 13) 0 1 1) else s)

/-- Apply the products that remain, until the ring is full (14 R334, R341). DESIGN CHOICE (log 45): a product at
which the join stops, for want of a spill port or because its record cannot be written, sets no NONFINITE, whatever
its a, b and p are; 03 R93 and 14 R341 speak of products that are applied or spilled. It counts as emitted, and
the tuples read are those of the merge up to it (R338). -/
def runJoin (s : State) (v : Nat) (w : Window) : Nat → REntry → REntry × State
  | 0, e => endJoin s v e
  | fuel + 1, e =>
    match e.todo with
    | [] => endJoin s v e
    | (key, p, nf, read) :: rest =>
      let (bank, slots) := probeSlots w (fld (Tbl.get 0 e.regs 9) 32 5) key
      let (r, steps, s') := applyProduct s v slots key p
      let after (e : REntry) : REntry := { e with
        todo := rest
        prods := e.prods + 1
        banks := Tbl.set e.banks bank (Tbl.get 0 e.banks bank + steps) }
      let stop (e : REntry) (s : State) (t : Trap) : REntry × State :=
        stopOp (addNprod s v e.ctx) v { after e with hold := ceilDiv read 16 } t
      match r with
      | some bad => runJoin (addNprod s' v e.ctx) v w fuel { after e with nonfin := e.nonfin || nf || bad }
      | none =>
        if !bit (Tbl.get 0 e.regs 10) 63 then stop e s ⟨.pressSpill, BitVec.ofNat 64 key⟩
        else
          let go (e : REntry) (s : State) : REntry × State :=
            runJoin (addNspill (addNprod s v e.ctx) v e.ctx) v w fuel { after e with nonfin := e.nonfin || nf }
          let wn := fld (Tbl.get 0 e.regs 5) 16 3
          match putRecord s v e wn key p with
          | (.done f, s) => go f s
          | (.stop t, s) => stop e s t
          | (.full, s) =>
            match ringWait s v e with
            | (true, f, s) => (f, s)
            | (false, f, s) =>
              match putRecord s v f wn key p with
              | (.done f, s) => go f s
              | (.stop t, s) => stop f s t
              | (.full, s) => (f, s)

/-- A granted join: its streams are read and merged, then its products are applied. -/
def startJoin (s : State) (v : Nat) (e : REntry) : REntry × State :=
  match winAt s v (fld (Tbl.get 0 e.regs 5) 16 3) with
  | none => ({ e with finished := true }, s)
  | some w =>
    let x := s.ctx v e.ctx
    let cnt := Tbl.get 0 e.regs 8
    let cfg := Tbl.get 0 e.regs 9
    let (a, s) := readTuples s x e.ma.toNat 0 (fld cnt 32 32)
    let (b, s) := readTuples s x e.mb.toNat 0 (fld cnt 0 32)
    let m := mergeStreams 0 0 {} (a.length + b.length + 1) a b
    let e := { e with todo := m.pairs.map fun p => productOf (fld cfg 56 6) (fld cfg 48 6) p.1 p.2, unsorted := m.unsorted, hold := ceilDiv (m.readA + m.readB) 16,
                      err := m.err.map fun t => (decide (t.code = .ecc), t.info) }
    let (e, s) := if bit (Tbl.get 0 e.regs 10) 63 then openPort s v e else (e, s)
    runJoin s v w e.todo.length e

/-! ### Drains (14 R342) -/

/-- Put a slot into a list by ascending KEY; a tie keeps the order of slots. -/
def insertKey (k : Nat → Nat) (g : Nat) : List Nat → List Nat
  | [] => [g]
  | x :: t => if k g < k x then g :: x :: t else x :: insertKey k g t

/-- The slots that a drain emits, in its order. -/
def drainSlots (s : State) (v : Nat) (w : Window) (ordered delta : Bool) : List Nat :=
  let es := ((s.vat v).acf.filter fun e => decide (64 * w.baseu ≤ e.1 ∧ e.1 < 64 * (w.baseu + w.sizeu)
    ∧ (e.2.st = 1 ∨ (e.2.st = 2 ∧ delta = false)))).map (·.1)
  if ordered then es.foldl (fun l g => insertKey (fun g => (acfAt s v g).key) g l) [] else es

/-- A drain has written every record: the window is cleared, or its entries are marked. -/
def endDrain (s : State) (v : Nat) (w : Window) (e : REntry) : REntry × State := match finishOp s v e with
  | (some t, e, s) => (e, ctxFault s v e.ctx t e.fpc)
  | (none, e, s) =>
    (e, if bit (Tbl.get 0 e.regs 12) 0 then e.emitted.foldl (fun s g => setAcf s v g { acfAt s v g with st := 2 }) s else clearWin s v w)

/-- Write the records that remain, until the ring is full. -/
def runDrain (s : State) (v : Nat) (w : Window) : Nat → REntry → REntry × State
  | 0, e => endDrain s v w e
  | fuel + 1, e =>
    match e.slots with
    | [] => endDrain s v w e
    | g :: rest =>
      let r := acfAt s v g
      let wn := fld e.ma 48 3
      let go (e : REntry) (s : State) : REntry × State := runDrain s v w fuel { e with slots := rest }
      match putRecord s v e wn r.key r.val with
      | (.done f, s) => go f s
      | (.stop t, s) => stopOp s v e t
      | (.full, s) =>
        match ringWait s v e with
        | (true, f, s) => (f, s)
        | (false, f, s) =>
          match putRecord s v f wn r.key r.val with
          | (.done f, s) => go f s
          | (.stop t, s) => stopOp s v f t
          | (.full, s) => (f, s)

def startDrain (s : State) (v : Nat) (ordered : Bool) (e : REntry) : REntry × State :=
  match winAt s v (fld e.ma 48 3) with
  | none => ({ e with finished := true }, s)
  | some w =>
    let l := drainSlots s v w ordered (bit (Tbl.get 0 e.regs 12) 1)
    let (e, s) := openPort s v { e with slots := l, emitted := l }
    runDrain s v w l.length e

/-! ### Grant and completion (13 R316 to R318) -/

/-- The gate of an entry: its sink. -/
def REntry.sink (e : REntry) : Nat := match e.op with
  | .drain _ => 36 + e.ctx
  | _ => 32 + e.ctx
def REntry.gated (e : REntry) : Bool := bit (Tbl.get 0 e.regs 6) 15

/-- The oldest entry of each context, where its gate is open: place and entry. -/
def eligible (s : State) (v : Nat) : List (Nat × REntry) :=
  let tab := (s.vat v).rtab
  ((List.range 4).filterMap fun n => (place (fun (e : REntry) => decide (e.ctx = n)) tab).bind fun i => (tab[i]?).map fun e => (i, e)).filter
    fun e => gateOpen s v e.2.gated e.2.sink && !beingSaved s (s.ctx v e.2.ctx).group
def entryPrio (s : State) (v : Nat) (e : REntry) : Nat :=
  let p := match s.grid? (s.ctx v e.ctx).grid with
    | some g => recPrio g.record
    | none => 0
  Nat.min 15 (p + (s.cyc - e.posted) / 1024)
/-- The entry the arbiter grants. -/
def bestEntry (s : State) (v : Nat) : Option (Nat × REntry) := match eligible s v with
  | [] => none
  | x :: t => some (t.foldl (fun b y =>
      if entryPrio s v b.2 < entryPrio s v y.2 ∨ (entryPrio s v b.2 = entryPrio s v y.2 ∧ y.2.posted < b.2.posted) then y else b) x)

/-- Put the granted entry of a vat back. -/
def setGranted (s : State) (v : Nat) (e : REntry) : State :=
  s.modVat v fun y => { y with rtab := y.rtab.map fun x => if x.granted then e else x }

/-- 13 R316, R317. -/
def execPressGrant (vat : Nat) (s : State) : Res :=
  .next (if (s.vat vat).rtab.any (·.granted) then s
    else match bestEntry s vat with
      | none => s
      | some (i, e) =>
        let s := passGate s vat e.gated e.sink
        let e := { e with granted := true }
        let s := s.modVat vat fun y => { y with rtab := modifyAt y.rtab i fun _ => e }
        let (e, s) := match e.op with
          | .pass => (match runPass s vat e with
            | (.ok e, s) => (e, s)
            | (.error t, s) => stopOp s vat e t)
          | .clear => runClear s vat e
          | .join => startJoin s vat e
          | .drain o => startDrain s vat o e
        setGranted s vat e)

/-- 14 R340: the operation that waits for its ring reads TAIL again. -/
def execSpillTailReread (vat : Nat) (s : State) : Res :=
  .next (match (s.vat vat).rtab.find? fun e => e.granted ∧ !e.finished with
    | none => s
    | some e =>
      if s.cyc < e.since + 64 then s
      else
        let e := { e with waited := e.waited + (s.cyc - e.since) }
        match winAt s vat e.win with
        | none => s
        | some w =>
          let (e, s) := match e.op with
            | .drain _ => runDrain s vat w e.slots.length e
            | _ => runJoin s vat w e.todo.length e
          setGranted s vat e)

/-- 13 R318. -/
def execPressOpComplete (vat : Nat) (s : State) : Res :=
  .next (match (s.vat vat).rtab.find? fun e => e.granted ∧ e.finished with
    | none => s
    | some e =>
      let s := s.modVat vat fun y => { y with rtab := y.rtab.filter fun x => !x.granted }
      let s := s.modCtx vat e.ctx fun x =>
        let p := setFld (x.pr 0) 0 32 (fld (x.pr 0) 0 32 + 1)
        (x.setPr 0 (if e.nonfin then setFld p 39 1 1 else p)).setPr 7 (x.pr 7 + BitVec.ofNat 64 e.hold)
      let s := if bit (Tbl.get 0 e.regs 6) 7 then fire s vat (fld (Tbl.get 0 e.regs 6) 0 6) else s
      freeCtx s vat e.ctx)

/-- 13 R309. -/
def execContextFree (vat ctx : Nat) (s : State) : Res := .next (freeCtx s vat ctx)

end Sys2Proof.Machine
end

