-- ==== Sys2Proof/Machine/Harp.lean ====
section
/-! DEFINITION. The harp (14 R346 to R353). -/

namespace Sys2Proof.Machine

/-! ### The request block (14 R347, R348) -/

def HReq.rl (r : HReq) : Nat := fld r.h0 48 16
def HReq.rs (r : HReq) : Nat := fld r.h0 16 32
def HReq.pack (r : HReq) : Bool := bit r.h0 15
def HReq.planes (r : HReq) : Nat := fld r.h0 10 5
def HReq.rm (r : HReq) : Nat := fld r.h0 7 3
/-- Bytes of a row. -/
def HReq.rb (r : HReq) : Nat := r.rl * elemBits r.tbl.fmt / 8
/-- Entries of the index list or row pointers. -/
def HReq.count (r : HReq) : Nat := (r.idx.top - r.idx.addr) / 4
/-- Output bytes of a position of a gather. -/
def HReq.outRow (r : HReq) : Nat := if r.pack then ceilDiv r.rl 64 * blockLen r.planes else r.rb

/-- `BadRequest()` (14 R353). -/
def harpBad (r : HReq) : Bool :=
  let ext := r.idx.top - r.idx.addr
  let w := r.dst.addr / 2 ^ 48
  decide (fld r.h0 0 5 ≠ 0 ∨ bit r.h1 32 ∨ r.rl = 0 ∨ ext % 4 ≠ 0 ∨ r.idx.addr % 4 ≠ 0 ∨ (r.op = 1 ∧ ext < 8)
    ∨ (r.pack ∧ (r.planes = 0 ∨ 24 < r.planes ∨ 5 < r.rm ∨ r.tbl.fmt = 0 ∨ r.op ≠ 0))
    ∨ (!r.pack ∧ (r.planes ≠ 0 ∨ r.rm ≠ 0))
    ∨ (r.op ≠ 1 ∧ (bit r.h0 6 ∨ fld r.h1 0 32 ≠ 0))
    ∨ (r.op = 1 ∧ (r.tbl.fmt = 0 ∨ 5 < r.tbl.fmt))
    ∨ (r.tbl.fmt = 7 ∧ r.rl % 2 = 1)
    ∨ (r.op ≠ 2 ∧ ¬(w = 0x7E ∨ w = 0x7F))
    ∨ (bit r.h1 33 ∧ !bit r.h1 52))

/-- Tag, permission and format of a capability of the block. -/
def blockTrap (c : Cap) (need : Nat) : Option Trap :=
  if !c.tag then some ⟨.capTag, BitVec.ofNat 64 c.addr⟩
  else if c.perm &&& need ≠ need then some ⟨.capPerm, BitVec.ofNat 64 c.addr⟩
  else if reservedFormat c.fmt then some ⟨.format, BitVec.ofNat 64 c.addr⟩
  else none

/-- The same of all the capabilities of a request's block, in their order (14 R353). -/
def blockTraps (r : HReq) : Option Trap :=
  ((blockTrap r.tbl permES).or (blockTrap r.idx permES)).or
    ((blockTrap r.dst permED).or (if r.op = 1 then blockTrap r.aux permES else none))

/-- Continue when `CheckAccess` passes, where it is asked for. -/
def alsoAccess (s : State) (ask : Bool) (c : Cap) (n need : Nat) (u : Use) (k : State → State) : State :=
  if ask then withAccess s c c.addr n need 1 u fun _ s => k s else k s

/-- HGATH, HCSR and HSCAT (14 R353). -/
def pushHarp (op : Nat) (d a : BitVec 6) (s : State) : State :=
  let cap := s.reg a.toNat
  let st (c : Nat) (s : State) : State := (s.setData d.toNat (BitVec.ofNat 64 (c * 2 ^ 56))).advance
  withAccess s cap cap.addr 128 (permLD + permLC) 64 .load fun _ s => withMapped s cap.addr 8 fun ks s =>
    if ownHeld s s.curW true (ks.map fun k => (k, 16)) then stall s
    else withGranules s (ks.take 5) fun gs s =>
    let at_ (n : Nat) : Cap := gs.getD n {}
    let (u, s) := s.newAgent
    let r : HReq := { op := op, block := cap, tbl := at_ 0, idx := at_ 1, aux := at_ 2, dst := at_ 3, h0 := (at_ 4).lo, h1 := (at_ 4).hi,
                      core := s.curCore, by_ := s.pusher, uid := u }
    match blockTraps r with
    | some t => raise s t
    | none =>
      withAccess s r.idx r.idx.addr (r.idx.top - r.idx.addr) permES 1 .load fun _ s =>
        alsoAccess s (op = 1) r.aux (r.aux.top - r.aux.addr) permES .load fun s =>
          if harpBad r then st 1 s
          else
            alsoAccess s (op = 0) r.dst (r.count * r.outRow) permED .store fun s =>
              alsoAccess s (op = 2) r.tbl (r.count * r.rb) permES .load fun s =>
                let v := coreVat s.curCore
                if 16 ≤ (s.vat v).harp.length then stall s
                else st 0 ((s.modVat v fun x => { x with harp := x.harp ++ [r] }).modCur fun x => { x with passes := x.passes + 1 })

/-- 14 R353. -/
def execHgath (d a : BitVec 6) (s : State) : Res := checkedHgath d a s (pushHarp 0 d a)
/-- 14 R353. -/
def execHcsr (d a : BitVec 6) (s : State) : Res := checkedHcsr d a s (pushHarp 1 d a)
/-- 14 R353. -/
def execHscat (d a : BitVec 6) (s : State) : Res := checkedHscat d a s (pushHarp 2 d a)

/-! ### Landing and credits (14 R350) -/

/-- Change the request that the harp runs: the first of its queue. -/
def modHarp (s : State) (v : Nat) (f : HReq → HReq) : State :=
  s.modVat v fun x => { x with harp := match x.harp with
    | [] => []
    | r :: t => f r :: t }

/-- A request's writes, and what a credit of it passes on (10 R273; log 12). -/
def HReq.writer (r : HReq) : Writer := { uid := r.uid, grid := r.by_.grid }
def HReq.clk (s : State) (r : HReq) : Tbl Nat := [(r.uid, s.seq)]
def harpBarrier (v : Nat) (w : Word) : Nat := barrierKey v (fld w 50 2) (fld w 34 16)

/-- Credit the landed bytes that are not yet credited: all of them, or once they are 4,096. -/
def creditHarp (s : State) (v pos : Nat) (all : Bool) : State :=
  match (s.vat v).harp with
  | [] => s
  | r :: _ =>
    let n := r.landed - r.credited
    if n = 0 ∨ (!all ∧ n < 4096) then s
    else
      let s := modHarp s v fun x => { x with credited := x.landed }
      if bit r.h1 52 then sendCredit s ⟨harpBarrier v r.h1, n, .harp v r.by_ pos, r.clk s⟩ else s

/-- Land output bytes of a position, in pieces of at most 4,096; an error names the position. -/
def harpLand (s : State) (v : Nat) (r : HReq) (pos : Nat) (mixed : Nat → Bool) : Nat → Nat → List Byte → Option Trap × State
  | 0, _, _ => (none, s)
  | fuel + 1, ea, bs =>
    if bs = [] then (none, s)
    else
      let m := Nat.max 1 (Nat.min bs.length (4096 - (((s.vat v).harp.map fun x => x.landed - x.credited).headD 0)))
      let (n, t, s) := engineWrite s r.writer r.core r.by_.asid ea (bs.take m) (mixed := mixed)
      let s := creditHarp (modHarp s v fun x => { x with landed := x.landed + n }) v pos false
      match t with
      | some t => (some ⟨t.code, BitVec.ofNat 64 pos⟩, s)
      | none => harpLand s v r pos mixed fuel (ea + m) (bs.drop m)

/-! ### Moving data (14 R349) -/

def harpRead (s : State) (r : HReq) (pos ea n : Nat) : Except Trap (List Byte) × State :=
  match engineRead s r.core r.by_.asid ea n with
  | (.error t, s) => (.error ⟨t.code, BitVec.ofNat 64 pos⟩, s)
  | x => x

/-- The values of `n` elements held in bytes. -/
def rowValues (f n : Nat) (bs : List Byte) : List Val :=
  (List.range n).map fun e =>
    let x := ofBytes ((bs.drop (elemBits f * e / 8)).take (Nat.max 1 (elemBits f / 8)))
    decodeFmt f (if f = 7 then x / 16 ^ (e % 2) % 16 else x)

/-- Note a non-finite value (14 R351). -/
def noteNf (s : State) (v : Nat) (f n : Nat) (bs : List Byte) : State :=
  if f ≠ 0 ∧ (rowValues f n bs).any (!·.finite) then s.modVat v fun x => { x with nf := true } else s

/-- The blocks of a packed row. -/
def packRow (s : State) (r : HReq) (bs : List Byte) : List Byte × State :=
  let vs := rowValues r.tbl.fmt r.rl bs
  let nb := ceilDiv r.rl 64
  ((List.range nb).flatMap fun k =>
      planeBlock r.planes r.rm (fun i => s.rand (64 * k + i)) ((List.range 64).map fun e => vs.getD (64 * k + e) .zero),
    s.drew r.rm (64 * nb))

/-- The 4-byte entries of a list from position `q` on, `n` of them, each aligned word read once (10 R272); one that its
capability does not grant meets CAP_BOUND (01 R15). -/
def readEntries (s : State) (r : HReq) (held : Option (Nat × List Byte)) : Nat → Nat → List (Nat × Option Nat) × State
  | 0, _ => ([], s)
  | n + 1, q =>
    if !r.idx.grants (r.idx.addr + 4 * q) 4 then
      let (l, s) := readEntries s r held n (q + 1)
      ((0, some Code.capBound.num) :: l, s)
    else match spanRead s r.core r.by_.asid r.idx.addr r.idx.top held 4 (r.idx.addr + 4 * q) 4 with
    | (.error t, h, s) =>
      let (l, s) := readEntries s r h n (q + 1)
      ((0, some t.code.num) :: l, s)
    | (.ok bs, h, s) =>
      let (l, s) := readEntries s r h n (q + 1)
      ((ofBytes bs, none) :: l, s)
/-- The request with its index list or row pointers read. -/
def HReq.indexed (r : HReq) (s : State) : HReq × State := match r.ix with
  | some _ => (r, s)
  | none =>
    let (l, s) := readEntries s r none r.count 0
    ({ r with ix := some l }, s)

/-- The index at position `q`. -/
def indexAt (r : HReq) (q : Nat) : Except Trap Nat := match (r.ix.getD []).getD q (0, none) with
  | (i, none) => .ok i
  | (_, some e) => .error ⟨if e = Code.ecc.num then .ecc else if e = Code.capBound.num then .capBound else .xlate, BitVec.ofNat 64 q⟩
/-- The address that an earlier position of a scatter has written (14 R349). -/
def scatteredAt (r : HReq) (q ea : Nat) : Bool := (List.range q).any fun p => match indexAt r p with
  | .ok i => decide (r.dst.addr + i * r.rs ≤ ea ∧ ea < r.dst.addr + i * r.rs + r.rb)
  | .error _ => false

/-- One position of a gather or a scatter. -/
def moveRow (s : State) (v : Nat) (r : HReq) (q : Nat) : Option Trap × State :=
  match indexAt r q with
  | .error t => (some t, s)
  | .ok i =>
    let bound : Option Trap := some ⟨.capBound, BitVec.ofNat 64 q⟩
    let src := if r.op = 0 then r.tbl.addr + i * r.rs else r.tbl.addr + q * r.rb
    let dst := if r.op = 0 then r.dst.addr + q * r.outRow else r.dst.addr + i * r.rs
    if !r.tbl.grants src r.rb || !r.dst.grants dst (if r.op = 0 then r.outRow else r.rb) then (bound, s)
    else match harpRead s r q src r.rb with
      | (.error t, s) => (some t, s)
      | (.ok bs, s) =>
        let s := noteNf s v r.tbl.fmt r.rl bs
        let (out, s) := if r.pack then packRow s r bs else (bs, s)
        harpLand s v r q (if r.op = 2 then scatteredAt r q else fun _ => false) out.length dst out

/-- Positions in order, until one fails. -/
def moveRows (s : State) (v : Nat) (r : HReq) : List Nat → Option Trap × State
  | [] => (none, s)
  | q :: t =>
    match moveRow s v r q with
    | (some e, s) => (some e, s)
    | (none, s) => moveRows s v r t

/-- Where an `HCSR` stands: tuples written, entries omitted, the words of the column indices and of the values that
were read last, and whether it has reached the entry it stops at. -/
structure CsrAt where
  out : Nat := 0
  skipped : Nat := 0
  col : Option (Nat × List Byte) := none
  val : Option (Nat × List Byte) := none
  hit : Bool := false
deriving DecidableEq, Repr

/-- Write one tuple. -/
def putTuple (s : State) (v : Nat) (r : HReq) (e k : Nat) (t0 t1 : Nat) : Option Trap × State :=
  let ea := r.dst.addr + 16 * k
  if !r.dst.grants ea 16 then (some ⟨.capBound, BitVec.ofNat 64 e⟩, s)
  else harpLand s v r e (fun _ => false) 16 ea (bytesOf 8 t0 ++ bytesOf 8 t1)

/-- Entry `e` of row `row`. -/
def csrEntry (s : State) (v : Nat) (r : HReq) (row e : Nat) (a : CsrAt) : Except Trap CsrAt × State :=
  let f := r.tbl.fmt
  let n := elemBits f / 8
  let at_ (c : Code) : Except Trap CsrAt := .error ⟨c, BitVec.ofNat 64 e⟩
  if !r.aux.grants (r.aux.addr + 4 * e) 4 || !r.tbl.grants (r.tbl.addr + n * e) n then (at_ .capBound, s)
  else match spanRead s r.core r.by_.asid r.aux.addr r.aux.top a.col 4 (r.aux.addr + 4 * e) 4 with
    | (.error t, _, s) => (at_ t.code, s)
    | (.ok c, col, s) =>
      if 2 ^ 24 ≤ ofBytes c then (at_ .capBound, s)
      else match spanRead s r.core r.by_.asid r.tbl.addr r.tbl.top a.val n (r.tbl.addr + n * e) n with
        | (.error t, _, s) => (at_ t.code, s)
        | (.ok bs, val, s) =>
          let s := noteNf s v f 1 bs
          let a := { a with col := col, val := val }
          if bit r.h0 6 && (decodeFmt f (ofBytes bs)).isZero then (.ok { a with skipped := a.skipped + 1 }, s)
          else match putTuple s v r e a.out ((fld r.h1 0 32 + row) % 2 ^ 32 * 2 ^ 32 + ofBytes c) (ofBytes bs) with
            | (some t, s) => (.error t, s)
            | (none, s) => (.ok { a with out := a.out + 1 }, s)

/-- The entries from `e` on, `n` of them, up to the entry it stops at. -/
def csrEntries (s : State) (v : Nat) (r : HReq) (row : Nat) (limit : Option Nat) : Nat → Nat → CsrAt → Except Trap CsrAt × State
  | 0, _, a => (.ok a, s)
  | n + 1, e, a =>
    if limit = some e then (.ok { a with hit := true }, s)
    else match csrEntry s v r row e a with
      | (.error t, s) => (.error t, s)
      | (.ok a, s) => csrEntries s v r row limit n (e + 1) a

/-- Rows from `row` on, `n` of them. -/
def csrRows (s : State) (v : Nat) (r : HReq) (limit : Option Nat) : Nat → Nat → CsrAt → Except Trap CsrAt × State
  | 0, _, a => (.ok a, s)
  | n + 1, row, a =>
    match indexAt r row, indexAt r (row + 1) with
    | .error t, _ => (.error t, s)
    | _, .error t => (.error t, s)
    | .ok p, .ok q =>
      if q < p then (.error ⟨.capBound, BitVec.ofNat 64 (row + 1)⟩, s)
      else match csrEntries s v r row limit (q - p) p a with
        | (.error t, s) => (.error t, s)
        | (.ok a, s) => if a.hit then (.ok a, s) else csrRows s v r limit n (row + 1) a

/-- The terminators for omitted entries. -/
def csrEnds (s : State) (v : Nat) (r : HReq) (pos : Nat) : Nat → Nat → Option Trap × State
  | 0, _ => (none, s)
  | n + 1, k =>
    match putTuple s v r pos k 0xFFFF_FFFF_0000_0000 0 with
    | (some t, s) => (some t, s)
    | (none, s) => csrEnds s v r pos n (k + 1)

/-- The die on which a row of a gather is wholly homed (14 R352). -/
def rowDie (s : State) (r : HReq) (q : Nat) : Option Nat :=
  match indexAt r q with
  | .error _ => none
  | .ok i =>
    let src := r.tbl.addr + i * r.rs
    let homes := (List.range (r.rb / 128 + 2)).filterMap fun n =>
      let ea := if n = 0 then src else (src / 128 + n) * 128
      if ea < src + r.rb then some ((engineWindow s r.core r.by_.asid ea .load).1.map fun p => homeDie p.key) else none
    match homes with
    | [] => none
    | h :: t => if t.all (· = h) then h else none
/-- The other die to which a position's row is shipped. -/
def shipTo (s : State) (v : Nat) (r : HReq) (q : Nat) : Option Nat :=
  if r.op = 0 && bit r.h0 5 then (rowDie s r q).filter (· ≠ coreDie v) else none
/-- The positions whose rows have not been gathered and written by another die. -/
def HReq.unshipped (r : HReq) : List Nat := (List.range r.count).filter fun q => !r.shipped.contains q
/-- The first position, and its die, of those still to be shipped. -/
def nextShip (s : State) (v : Nat) (r : HReq) : Option (Nat × Nat) :=
  r.unshipped.findSome? fun q => (shipTo s v r q).map fun d => (q, d)

/-- Make the output that is left, but for rows to be shipped (all that is left where `rest`), up to a position or entry;
whether that entry was reached. -/
def harpRun (s : State) (v : Nat) (r : HReq) (limit : Option Nat) (rest : Bool) : Bool × Option Trap × State :=
  if r.op = 1 then
    match csrRows s v r limit (r.count - 1) 0 {} with
    | (.error t, s) => (false, some t, s)
    | (.ok a, s) => (a.hit, if bit r.h0 6 ∧ !a.hit then csrEnds s v r r.count a.skipped a.out else (none, s))
  else
    (limit.any (· < r.count), moveRows s v r (r.unshipped.filter fun q => decide (q < limit.getD r.count) && (rest || (shipTo s v r q).isNone)))

/-- The request leaves the queue and its wave's counter (14 R350 step 5). -/
def endHarp (s : State) (v : Nat) (r : HReq) : State :=
  ((passOn s r.by_.grid r.uid []).modVat v fun x => { x with harp := x.harp.drop 1 }).modPusher r.by_ fun x => { x with passes := x.passes - 1 }

/-- 14 R351. -/
def abortHarp (s : State) (v : Nat) (r : HReq) (t : Trap) : State :=
  let s := creditHarp s v t.info.toNat true
  endHarp (harpMsg s v r.by_ t.code.num t.info.toNat ((s.vat v).harp.any fun x => x.running && x.stray)) v r

/-! ### Events -/

/-- The request that the harp runs. -/
def harpRunning (s : State) (v : Nat) : Option HReq := match (s.vat v).harp with
  | r :: _ => if r.running then some r else none
  | [] => none

/-- 14 R346. -/
def execHarpStart (vat : Nat) (s : State) : Res :=
  .next (match (s.vat vat).harp with
    | r :: _ =>
      let sink := 40 + fld r.h1 53 3
      if r.running || beingSaved s r.by_.group || !gateOpen s vat (bit r.h1 56) sink then s
      else modHarp (passGate s vat (bit r.h1 56) sink) vat fun x => { x with running := true }
    | [] => s)

/-- The request that the harp runs, with its index list read and held. -/
def harpIndexed (s : State) (v : Nat) (r : HReq) : HReq × State :=
  let (r, s) := r.indexed s
  (r, modHarp s v fun x => { x with ix := r.ix })

/-- 14 R350: what output is left is made, and the request completes, once every shipped row has landed (R352). -/
def execHarpComplete (vat : Nat) (s : State) : Res :=
  .next (match harpRunning s vat with
    | none => s
    | some r =>
      let (r, s) := harpIndexed s vat r
      if (nextShip s vat r).isSome then s
      else match (harpRun s vat r none true).2 with
        | (some t, s) => abortHarp s vat r t
        | (none, s) =>
          let s := creditHarp s vat r.count true
          let s := if bit r.h1 33 then sendArrival s ⟨harpBarrier vat r.h1, 1, .harp vat r.by_ r.count, r.clk s⟩ else s
          endHarp (if bit r.h1 63 then fire s vat (fld r.h1 57 6) else s) vat r)

/-- 14 R351: an uncorrectable source read at a position or entry; a bound or a translation stops the harp by itself. -/
def execHarpAbort (vat code info : Nat) (s : State) : Res :=
  .next (match harpRunning s vat with
    | none => s
    | some r =>
      if code ≠ Code.ecc.num then s
      else
        let (r, s) := harpIndexed s vat r
        match harpRun s vat r (some info) false with
        | (_, some t, s) => abortHarp s vat r t
        | (true, none, s) => abortHarp s vat r ⟨.ecc, BitVec.ofNat 64 info⟩
        | (false, none, _) => s)

/-- 14 R352: the rows of one other die are gathered there and written, or cannot be delivered. -/
def execHarpShip (vat : Nat) (ok : Bool) (s : State) : Res :=
  .next (match harpRunning s vat with
    | none => s
    | some r =>
      let (r, s) := harpIndexed s vat r
      match nextShip s vat r with
      | none => s
      | some (q, d) =>
        if !ok || !dieLive s d then abortHarp s vat r ⟨.xlate, BitVec.ofNat 64 q⟩
        else
          let ps := r.unshipped.filter fun p => shipTo s vat r p = some d
          match moveRows s vat r ps with
          | (some t, s) => abortHarp s vat r t
          | (none, s) => modHarp s vat fun x => { x with shipped := x.shipped ++ ps })

end Sys2Proof.Machine
end

