-- ==== Sys2Proof/Machine/Ray.lean ====
section
/-! DEFINITION. Treelet images and rays (15 R354 to R358), routing and inboxes (R367 to R370), hit queues and
shading waves (R372, R373, 05 R151), and the instructions of R374 to R380 and R382. -/

namespace Sys2Proof.Machine

/-! ### The ray message (15 R358) -/

def Ray.w (r : Ray) (i : Nat) : Nat := fld r (32 * i) 32
def Ray.setW (r : Ray) (i v : Nat) : Ray := setFld r (32 * i) 32 v
def Ray.tid (r : Ray) : Nat := fld r 288 24
def Ray.hops (r : Ray) : Nat := fld r 340 8
def Ray.org (r : Ray) : Nat := fld r 320 20
def Ray.bytes (r : Ray) : List Byte := bytesOf 64 r.toNat
def Ray.ofBytes (bs : List Byte) : Ray := BitVec.ofNat 512 (Sys2Proof.ofBytes bs)

/-! ### Treelet slots and images (15 R354, R356, R360) -/

/-- The memory key of the first byte of a slot. -/
def slotKey (c n : Nat) : Nat := scratchKey c (2 ^ 21 - 2 ^ 16 * (n + 1))
/-- The slot in which a core holds a treelet, whole. -/
def slotOf (s : State) (c tid : Nat) : Option Nat :=
  ((s.core c).tslots.find? fun t => decide (t.2.tid = tid) && t.2.landed).map (·.1)
/-- A header, read from the place of an image. -/
structure Header where
  tid : Nat
  vers : Nat
  nnode : Nat
  ntri : Nat
  nport : Nat
  rsv : Nat
  total : Nat
  trioff : Nat
  nodeoff : Nat
  portoff : Nat
deriving DecidableEq, Repr

def Header.read (s : State) (k : Nat) : Header :=
  let h0 := memWord s k
  let h1 := memWord s (k + 8)
  let h2 := memWord s (k + 16)
  let h3 := memWord s (k + 24)
  { tid := fld h0 40 24, vers := fld h0 32 8, nnode := fld h0 16 16, ntri := fld h0 0 16, nport := fld h1 48 16
    rsv := fld h1 32 16 + fld h3 32 32, total := fld h1 0 32, trioff := fld h2 32 32, nodeoff := fld h2 0 32, portoff := fld h3 0 32 }

/-! ### Routing (15 R367, R368) -/

/-- Hop distance between two cores (15 R364). -/
def hops (a b : Nat) : Nat := ((coreX a : Int) - coreX b).natAbs + ((coreY a : Int) - coreY b).natAbs
/-- The nearest of a list, the first on a tie. -/
def nearest (c : Nat) : List Nat → Option Nat
  | [] => none
  | x :: t => some (t.foldl (fun b y => if hops c y < hops c b then y else b) x)

/-- A live route-cache entry. -/
def routeOf (s : State) (c tid : Nat) : Option Route :=
  (s.core c).routes.find? fun r => decide (r.tid = tid ∧ leaseNow s (coreDie c) < r.expiry)
/-- Where R367 sends a ray: the core itself, another holder, or the directory. -/
inductive Where where
  | here
  | holder (c : Nat)
  | dir
deriving DecidableEq, Repr
def routeTo (s : State) (c tid : Nat) : Where :=
  if (slotOf s c tid).isSome then .here
  else match routeOf s c tid with
    | some r => if r.viaDir then .dir else match nearest c r.holders with
      | some h => .holder h
      | none => .dir
    | none => .dir

/-- Send a route query unless one is outstanding. -/
def queryRoute (s : State) (c tid : Nat) : State :=
  if (s.core c).queries.contains tid then s
  else (s.modCore c fun x => { x with queries := tid :: x.queries }).modNet fun n => { n with queries := n.queries ++ [(tid, c)] }

/-- Send a ray from a core. -/
def routeRay (s : State) (c : Nat) (r : Ray) : State :=
  let touch (s : State) : State := s.modCore c fun x => { x with
    routes := (x.routes.filter fun e => e.tid = r.tid) ++ x.routes.filter fun e => e.tid ≠ r.tid }
  match routeTo s c r.tid with
  | .here => s.modNet fun n => { n with rays := n.rays ++ [(c, r)] }
  | .holder h => (touch s).modNet fun n => { n with rays := n.rays ++ [(h, r)] }
  | .dir => queryRoute ((touch s).modNet fun n => { n with dirRays := n.dirRays ++ [r] }) c r.tid

/-! ### The overflow ring (15 R361) -/

def ovfLg (c : Core) : Nat := fld c.rayovf 51 5
def ringHasRoom (c : Core) : Bool := decide (ovfLg c ≠ 0 ∧ c.ovfN < 2 ^ ovfLg c)
def ringPa (c : Core) (i : Nat) : Nat := fld c.rayovf 0 48 + 64 * (i % 2 ^ ovfLg c)
/-- Append a ray to a core's ring. -/
def spillRay (s : State) (c : Nat) (r : Ray) : State :=
  let x := s.core c
  ((homeWrite s {} 1 (ringPa x (x.ovfHead + x.ovfN)) r.bytes none).1).modCore c fun x => { x with ovfN := x.ovfN + 1 }

/-- 15 R368: a ring ray is injected again. -/
def execRayReinject (core : Nat) (s : State) : Res :=
  .next (
    let x := s.core core
    if x.ovfN = 0 then s
    else
      let r := Ray.ofBytes (memBytes s (ringPa x x.ovfHead) 64)
      routeRay (s.modCore core fun x => { x with ovfHead := (x.ovfHead + 1) % 2 ^ ovfLg x, ovfN := x.ovfN - 1 }) core r)

/-! ### The inbox (15 R368) -/

/-- A RAY message can be taken by its core. -/
def rayReady (s : State) (c : Nat) (r : Ray) : Bool :=
  (slotOf s c r.tid).isNone || decide ((s.core c).inbox.length < fld (s.core c).raycfg 0 9)

/-- A ray reaches a core that can take it. -/
def takeRay (s : State) (c : Nat) (r : Ray) : State :=
  match slotOf s c r.tid with
  | none => s.modNet fun n => { n with dirRays := n.dirRays ++ [r] }
  | some k =>
    let t := Tbl.get { tid := 0, total := 0 } (s.core c).tslots k
    let n := 2 ^ fld (s.core c).raycfg 37 3
    let full := decide (n ≤ t.accepted + 1)
    let s := s.modCore c fun x => { x with
      inbox := x.inbox ++ [r]
      tslots := Tbl.set x.tslots k { t with accepted := if full then 0 else t.accepted + 1 } }
    if full then s.modNet fun m => { m with heats := m.heats ++ [(r.tid, n, r.org)] } else s

/-- 15 R368. A ray for a core that is gone is lost. -/
def execRayArrive (n : Nat) (s : State) : Res :=
  .next (match s.net.rays[n]? with
    | some (c, r) =>
      if !corePresent s c then s.modNet fun m => { m with rays := dropAt m.rays n }
      else if rayReady s c r then takeRay (s.modNet fun m => { m with rays := dropAt m.rays n }) c r else s
    | none => s)

/-! ### Ray buffers (15 R374) -/

/-- The result word: a status and its fields. -/
def rayWord (st v : Nat) : Word := BitVec.ofNat 64 (st * 2 ^ 56 + v)
def rayDone (s : State) (d : BitVec 6) (st v : Nat) : State := (s.setData d.toNat (rayWord st v)).advance

/-- Continue with the memory key of the ray buffer in c[a], once the wave's accesses to it that come before are
performed (01 R37, R39). -/
def withBuffer (s : State) (a : BitVec 6) (need : Nat) (k : Nat → State → State) : State :=
  let cap := s.reg a.toNat
  withAccess s cap cap.addr 64 need 1 (if need &&& permST = 0 then .load else .store) fun p s =>
    if cap.addr % 64 ≠ 0 then raise s ⟨.align, BitVec.ofNat 64 cap.addr⟩
    else if cap.addr / 2 ^ 48 ≠ 0x7F then raise s ⟨.xlate, BitVec.ofNat 64 cap.addr⟩
    else if ownHeld s s.curW (decide (need &&& permST = 0)) [(p.key, 64)] then stall s
    else k p.key s
/-- Continue with the ray in the buffer. -/
def withRay (s : State) (a : BitVec 6) (need : Nat) (k : Nat → Ray → State → State) : State :=
  withBuffer s a need fun key s => k key (Ray.ofBytes (memBytes s key 64)) s

/-- Store a ray into the buffer as a direct store of the wave in stream 0, and go on. -/
def storeRay (s : State) (key : Nat) (r : Ray) : State :=
  issue s { wave := s.curW, sid := 0, q := 1, kind := .store [(key, r.bytes)] false }

/-! ### RRECV, RSEND, RHIT (15 R375 to R377) -/

/-- The place in the inbox of the ray that a wave may take: those that began to wait before it come first. -/
def inboxPlace (c : Core) (w : Nat) : Nat := (place (fun x => decide (x = w)) c.rrecv).getD c.rrecv.length

/-- 15 R375. -/
def execRrecv (d a b : BitVec 6) (s : State) : Res :=
  checkedRrecv d a b s fun s =>
    withBuffer s a permST fun key s =>
      let c := s.core s.curCore
      let i := inboxPlace c s.curW
      match c.inbox[i]? with
      | some r =>
        let s := s.modCore s.curCore fun x => { x with inbox := dropAt x.inbox i, rrecv := x.rrecv.filter (· ≠ s.curW) }
        storeRay (s.setData d.toNat (rayWord 0 r.tid)) key r
      | none =>
        if bit (s.lo b.toNat) 0 then rayDone s d 1 0
        else park (s.modCore s.curCore fun x => { x with rrecv := if x.rrecv.contains s.curW then x.rrecv else x.rrecv ++ [s.curW] }) .timed

/-- 15 R376. Whether the injection queue has room is free. -/
def execRsend (d a b : BitVec 6) (s : State) : Res :=
  checkedRsend d a b s fun s =>
    withRay s a permLD fun _ r s =>
      let r := setFld (setFld r 288 24 (fld (s.lo b.toNat) 0 24)) 340 8 (Nat.min (r.hops + 1) 255)
      let (room, s) := drawBit s
      if room then rayDone (routeRay s s.curCore r) d 0 0
      else if ringHasRoom (s.core s.curCore) then rayDone (spillRay s s.curCore r) d 2 0
      else stall s

/-- A hit record leaves for its ORG; one that names no present core vanishes, and the supervisor is told
(15 R377, 18 R408). -/
def sendHit (s : State) (c : Nat) (r : Ray) : State :=
  if corePresent s r.org then s.modNet fun n => { n with hits := n.hits ++ [(r.org, r)] }
  else postMessage s (coreDie c)
    { m0 := msgWord0 Code.xlate.num 4 0 0 c false false false false false 0, m2 := BitVec.ofNat 64 (r.w 10) }

/-- 15 R377. Whether HIT injection has room is free. -/
def execRhit (d a : BitVec 6) (s : State) : Res :=
  checkedRhit d a s fun s => withRay s a permLD fun _ r s =>
    let (room, s) := drawBit s
    if room then rayDone (sendHit s s.curCore r) d 0 0 else stall s

/-! ### Traversal on exact reals (15 R378, R379) -/

/-- A finite FP32 field as a real; none for NaN and Inf. -/
def realOf (x : Nat) : Option ℚ := match fmtFP32.decode x with
  | .fin neg n d => some ((if neg then -(n : ℚ) else (n : ℚ)) / (d : ℚ))
  | _ => none
/-- All of a list, or none. -/
def allReal : List Nat → Option (List ℚ)
  | [] => some []
  | x :: t => match realOf x, allReal t with
    | some a, some l => some (a :: l)
    | _, _ => none
/-- `RoundFP32(x, RNE)` of a real. -/
def roundReal (x : ℚ) : Nat := roundFP32 (.fin (decide (x < 0)) x.num.natAbs x.den)

/-- One axis of the box test: the interval left, or none for a miss. -/
def slab (o d lo hi : ℚ) (i : ℚ × ℚ) : Option (ℚ × ℚ) :=
  if d = 0 then (if o < lo ∨ hi < o then none else some i)
  else
    let t1 := (lo - o) / d
    let t2 := (hi - o) / d
    some (max i.1 (min t1 t2), min i.2 (max t1 t2))

/-- The entry of a ray (O, D, TMIN, TMAX) into a box (LO, HI), or none. -/
def boxEntry (ray box : List ℚ) : Option ℚ :=
  match ray, box with
  | [ox, oy, oz, dx, dy, dz, t0, t1], [lx, ly, lz, hx, hy, hz] =>
    if lx ≤ hx ∧ ly ≤ hy ∧ lz ≤ hz then
      match ((slab ox dx lx hx (t0, t1)).bind (slab oy dy ly hy)).bind (slab oz dz lz hz) with
      | some i => if i.1 ≤ i.2 then some i.1 else none
      | none => none
    else none
  | _, _ => none

/-- The fields W0 to W7 of a ray as reals. -/
def rayReals (r : Ray) : Option (List ℚ) := allReal ((List.range 8).map r.w)

/-- Put a hit child into the order: ascending entry, a tie keeps the lower child first. -/
def insertHit (h : Nat × ℚ) : List (Nat × ℚ) → List (Nat × ℚ)
  | [] => [h]
  | x :: t => if h.2 < x.2 then h :: x :: t else x :: insertHit h t

/-- The children of a node that the ray hits, in order. -/
def hitChildren (s : State) (node : Nat) (r : Ray) : List (Nat × ℚ) :=
  let word (o : Nat) : Nat := readNat s.mem (node + o) 4
  (List.range 4).foldl (fun l i =>
    if word (96 + 4 * i) / 2 ^ 30 = 0 then l
    else match rayReals r, allReal ((List.range 6).map fun j => word (24 * i + 4 * j)) with
      | some ray, some box => match boxEntry ray box with
        | some e => insertHit (i, e) l
        | none => l
      | _, _ => l) []

/-- 15 R378. -/
def execRbox4 (d a b : BitVec 6) (s : State) : Res :=
  checkedRbox4 d a b s fun s =>
    withRay s a permLD fun _ r s =>
      match slotOf s s.curCore r.tid with
      | none => rayDone s d 3 0
      | some n =>
        let img := slotKey s.curCore n
        let h := Header.read s img
        let i := fld (s.lo b.toNat) 0 9
        if h.nnode ≤ i then rayDone s d 4 0
        else
          let node := img + h.nodeoff + 128 * i
          let hs := (hitChildren s node r).map (·.1)
          let cref := match hs with
            | [] => 0
            | x :: _ => readNat s.mem (node + 96 + 4 * x) 4
          let order := ((hs.zipIdx).map fun x => x.1 * 4 ^ x.2).sum
          let mask := (hs.map fun x => 2 ^ x).sum
          rayDone s d 0 (cref * 2 ^ 16 + order * 2 ^ 8 + hs.length * 2 ^ 4 + mask)

def cross (a b : ℚ × ℚ × ℚ) : ℚ × ℚ × ℚ :=
  (a.2.1 * b.2.2 - a.2.2 * b.2.1, a.2.2 * b.1 - a.1 * b.2.2, a.1 * b.2.1 - a.2.1 * b.1)
def dot3 (a b : ℚ × ℚ × ℚ) : ℚ := a.1 * b.1 + a.2.1 * b.2.1 + a.2.2 * b.2.2
def sub3 (a b : ℚ × ℚ × ℚ) : ℚ × ℚ × ℚ := (a.1 - b.1, a.2.1 - b.2.1, a.2.2 - b.2.2)

/-- The exact test of a triangle: t, u, v where it is accepted. -/
def triHit (ray tri : List ℚ) (cullb ds : Bool) : Option (ℚ × ℚ × ℚ) :=
  match ray, tri with
  | [ox, oy, oz, dx, dy, dz, tmin, tmax], [ax, ay, az, bx, by_, bz, cx, cy, cz] =>
    let o := (ox, oy, oz)
    let dd := (dx, dy, dz)
    let v0 := (ax, ay, az)
    let e1 := sub3 (bx, by_, bz) v0
    let e2 := sub3 (cx, cy, cz) v0
    let p := cross dd e2
    let det := dot3 e1 p
    if det = 0 ∨ (cullb ∧ !ds ∧ det < 0) then none
    else
      let sv := sub3 o v0
      let q := cross sv e1
      let u := dot3 sv p / det
      let v := dot3 dd q / det
      let t := dot3 e2 q / det
      if 0 ≤ u ∧ 0 ≤ v ∧ u + v ≤ 1 ∧ tmin ≤ t ∧ t < tmax then some (t, u, v) else none
  | _, _ => none

/-- Test triangles from `i` on: the ray afterwards and whether one was accepted. -/
def testTris (s : State) (img : Nat) (h : Header) : Nat → Nat → Ray → Bool → Ray × Bool
  | 0, _, r, acc => (r, acc)
  | n + 1, i, r, acc =>
    let k := img + h.trioff + 48 * i
    let word (o : Nat) : Nat := readNat s.mem (k + o) 4
    let hit := match rayReals r, allReal ((List.range 9).map fun j => word (4 * j)) with
      | some ray, some tri => triHit ray tri (bit r 317) (decide (word 40 % 2 = 1))
      | _, _ => none
    match hit with
    | none => testTris s img h n (i + 1) r acc
    | some (t, u, v) =>
      let r := ((((r.setW 7 (roundReal t)).setW 12 (roundReal u)).setW 13 (roundReal v)).setW 11 (word 36))
      let r := setFld (setFld r 448 24 r.tid) 319 1 1
      if bit r 318 then (r, true) else testTris s img h n (i + 1) r true

/-- 15 R379. -/
def execRtri (d a b : BitVec 6) (s : State) : Res :=
  checkedRtri d a b s fun s =>
    withRay s a (permLD + permST) fun key r s =>
      match slotOf s s.curCore r.tid with
      | none => rayDone s d 3 0
      | some n =>
        let img := slotKey s.curCore n
        let h := Header.read s img
        let ref := fld (s.lo b.toNat) 0 32
        let first := ref / 2 ^ 6 % 2 ^ 12
        let count := ref % 2 ^ 6 + 1
        if ref / 2 ^ 30 ≠ 2 ∨ ref / 2 ^ 18 % 2 ^ 12 ≠ 0 ∨ h.ntri < first + count then rayDone s d 4 0
        else
          let (r', acc) := testTris s img h count first r false
          let v := rayWord 0 (b2n acc * 2 ^ 32 + r'.w 7)
          if acc then storeRay (s.setData d.toNat v) key r' else (s.setData d.toNat v).advance

/-- 15 R380. -/
def execRroute (d a b : BitVec 6) (s : State) : Res :=
  checkedRroute d a b s fun s =>
    withRay s a permLD fun _ r s =>
      let c := s.curCore
      match slotOf s c r.tid with
      | none => rayDone s d 3 0
      | some n =>
        let img := slotKey c n
        let h := Header.read s img
        let i := fld (s.lo b.toNat) 0 12
        if h.nport ≤ i then rayDone s d 4 0
        else
          let tid := readNat s.mem (img + h.portoff + 4 * i) 4 % 2 ^ 24
          match routeTo s c tid with
          | .here => rayDone s d 0 (1 * 2 ^ 44 + c * 2 ^ 24 + tid)
          | .holder x => rayDone s d 0 (2 * 2 ^ 44 + x * 2 ^ 24 + tid)
          | .dir => rayDone (if (routeOf s c tid).isSome then s else queryRoute s c tid) d 0 tid

/-! ### Hit queues and shading waves (15 R372, R373) -/

/-- The core has a program bound, and it is not being unbound. -/
def programBound (c : Core) : Bool := c.hprog.any fun h => !h.unbound

/-- 15 R372. -/
def execHitRecordArrive (n : Nat) (s : State) : Res :=
  .next (match s.net.hits[n]? with
    | none => s
    | some (c, r) =>
      let x := s.core c
      let s' := s.modNet fun m => { m with hits := dropAt m.hits n }
      if !programBound x then s'.modCore c fun x => { x with hdrop := true }
      else if 256 ≤ x.hits.length then s
      else s'.modCore c fun x => { x with hits := x.hits ++ [(r, s.cyc)] })

/-- Where the next shading wave would run: its slot and scratch offset, and whether on the reservation. -/
def shadingPlace (s : State) (c : Nat) (h : HitProg) (r : List Word) : Option (Nat × Nat × Bool) :=
  if !admitted s c (recClass r) then none
  else if h.user.isNone && slotIdle s (c * 32 + h.slot) then some (h.slot, h.soff, true)
  else if fitsNow s r c then match freeSlots s c, firstFit s c h.slen with
    | n :: _, some o => some (n, o, false)
    | _, _ => none
  else none

/-- Give records to the lanes of a shading wave (15 R372, 05 R151). -/
def loadRecords (x : Wave) (rs : List Ray) : Wave :=
  let x := (rs.zipIdx).foldl (fun x r => (List.range 16).foldl (fun x w => x.setLane w r.2 (BitVec.ofNat 32 (r.1.w w))) x) x
  setExm x (2 ^ rs.length - 1)

/-- Launch a shading wave of the oldest records, if one can start. -/
def launchShading (s : State) (c : Nat) : State :=
  let x := s.core c
  match x.hprog with
  | none => s
  | some h =>
    match s.grid? h.grid with
    | none => s
    | some g =>
      match shadingPlace s c h g.record with
      | none => s
      | some (n, off, own) =>
        let rs := (x.hits.take 32).map (·.1)
        if rs.isEmpty || g.killed then s
        else
          let id := s.groupNo
          let w := c * 32 + n
          let s := switchGrid (charge s c (recClass g.record)) c h.grid
          let s := s.modCore c fun y => { y with
            hits := y.hits.drop rs.length
            hprog := some { h with user := if own then some id else h.user } }
          let s := { s with
            groupNo := id + 1
            groups := Tbl.set s.groups id { grid := h.grid, gidx := 0, core := c, waves := [w], soff := off, slen := h.slen, shading := true } }
          let s := s.modGrid h.grid fun y => { y with ngrp := y.ngrp + 1, st := if y.st = .pending then .running else y.st }
          let base := baseGroup s c
          let s := freshMemory s c [n] off h.slen g.asid g.record
          (startWave s w id h.grid 0 0 off base g.record g.sup (argCap g.record) rs.length).modWave w (loadRecords · rs)

/-- 15 R372: 32 records, or any when the program is being unbound. -/
def execShadingWaveLaunch (core : Nat) (s : State) : Res :=
  .next (
    let c := s.core core
    if 32 ≤ c.hits.length || (c.hprog.any fun h => h.unbound) then launchShading s core else s)
/-- 15 R372: fewer records, HQT cycles after the oldest arrived. -/
def execHqtTimeout (core : Nat) (s : State) : Res :=
  .next (match (s.core core).hprog, (s.core core).hits with
    | some h, (_, t) :: _ => if h.hqt ≠ 0 ∧ t + h.hqt ≤ s.cyc then launchShading s core else s
    | _, _ => s)

/-- Unbind the program of a core (15 R382). -/
def unbindProgram (s : State) (c : Nat) : State :=
  match (s.core c).hprog with
  | none => s
  | some h => settleGrid (freeProgram (s.modCore c fun x => { x with hprog := some { h with unbound := true } }) h.grid) h.grid

/-- Bind a record to the core of the wave that moves: the status and the handle. -/
def bindProgram (s : State) (r : List Word) (hqt : Nat) : Nat × Nat × State :=
  let c := s.curCore
  let x := s.curWave
  let g := (s.grid? x.grid).getD { record := [] }
  if recordBad s r || decide (recKind r ≠ 2) then (9, 0, s)
  else if g.depth = 10 then (0x0A, 0, s)
  else if !fitsNow s r c then (0x0C, 0, s)
  else if gridsFull s then (0x0B, 0, s)
  else if (s.core c).hprog.isSome then (0x0D, 0, s)
  else
    let off := (firstFit s c (recScratchLen r)).getD (scratchStart c)
    let slot := (freeSlots s c).headD 0
    let (h, s) := newGrid s r (g.depth + 1) x.grid g.asid g.vec false
    (0, h, s.modCore c fun y => { y with
      hprog := some { grid := h, hqt := hqt, slot := slot, blocks := recVregs r / 8, soff := off, slen := recScratchLen r } })

/-- 15 R382. -/
def execHqbind (d a b : BitVec 6) (s : State) : Res :=
  checkedHqbind d a b s fun s =>
    let cap := s.reg a.toNat
    if cap.isZero then
      releaseThen s fun s =>
        if programBound (s.core s.curCore) then distReply (unbindProgram s s.curCore) d.toNat 0 0 else distReply s d.toNat 0x0E 0
    else
      withAccess s cap cap.addr 64 permLD 64 .load fun p s =>
        releaseThen s fun s => withGranules s (granulesAt p.key 4) fun gs s =>
          let (st, h, s) := bindProgram s (wordsOf gs) (fld (s.lo b.toNat) 0 32)
          distReply s d.toNat st h

end Sys2Proof.Machine
end

