-- ==== Sys2Proof/Machine/Directory.lean ====
section
/-! DEFINITION. The ownership directory (15 R362 to R366), its messages, evictions (R369) and the instructions
`TLREQ` and `TLEVICT` (R381). -/

namespace Sys2Proof.Machine

/-! ### Entries (15 R362, R363) -/

/-- The home package of a treelet, and its place in that package's table. -/
def dirPkg (s : State) (t : Nat) : Nat := (pkgs s).getD (t % Nat.max (pkgs s).length 1) 0
def dirIndex (s : State) (t : Nat) : Nat := t / Nat.max (pkgs s).length 1
def dirCfg (s : State) (t : Nat) : Word := (s.package (dirPkg s t)).dircfg
/-- The physical address of the table. -/
def dirBase (s : State) (t : Nat) : Nat := dirPkg s t * 2 ^ 40 + fld (dirCfg s t) 40 24 * 2 ^ 16
/-- The physical address of the entry, and the tile of its controller. -/
def dirKey (s : State) (t : Nat) : Nat := dirBase s t + 16 * dirIndex s t
def dirTile (s : State) (t : Nat) : Nat := paHome (dirKey s t)
/-- The treelet id has an entry (15 R363). -/
def dirValid (s : State) (t : Nat) : Bool :=
  decide (fld (dirCfg s t) 35 5 ≠ 0 ∧ dirIndex s t < 2 ^ fld (dirCfg s t) 35 5) && !homeLost s (dirKey s t)

/-- The entry's line is at its slice. -/
def touchEntry (s : State) (t : Nat) : State := accessLine s (lineOf (dirKey s t)) true false
def de0 (s : State) (t : Nat) : Word := memWord s (dirKey s t)
def de1 (s : State) (t : Nat) : Word := memWord s (dirKey s t + 8)
/-- STATE: 0 INVALID, 1 COLD, 2 LOADING, 3 RESIDENT, 4 EVICTING. -/
def dirState (s : State) (t : Nat) : Nat :=
  if dirValid s t ∧ fld (de1 s t) 61 3 ≤ 4 then fld (de1 s t) 61 3 else 0
def dirOwner (s : State) (t : Nat) : Nat := fld (de1 s t) 41 20
def dirHeat (s : State) (t : Nat) : Nat := fld (de1 s t) 25 16
def dirPin (s : State) (t : Nat) : Bool := bit (de1 s t) 24
def dirRepl (s : State) (t k : Nat) : Nat := fld (de0 s t) (7 * k + 8) 7
/-- The pa of the image. -/
def dirImage (s : State) (t : Nat) : Nat := dirPkg s t * 2 ^ 40 + fld (de1 s t) 0 24 * 2 ^ 16

def setDe1 (s : State) (t lo len v : Nat) : State :=
  (homeWrite s {} 1 (dirKey s t + 8) (bytesOf 8 (setFld (de1 s t) lo len v).toNat) none).1
def setRepl (s : State) (t k v : Nat) : State :=
  (homeWrite s {} 1 (dirKey s t) (bytesOf 8 (setFld (de0 s t) (7 * k + 8) 7 v).toNat) none).1
def setDirState (s : State) (t v : Nat) : State := setDe1 s t 61 3 v

/-- What the controller keeps beside an entry. -/
def State.modDir (s : State) (t : Nat) (f : DirTid → DirTid) : State := { s with dirs := Tbl.put {} s.dirs t (f (s.dir t)) }

/-! ### Hosts (15 R363, R364) -/

/-- The host in an entry of the replica host table, if it is one. -/
def rhtAt (s : State) (t h : Nat) : Option Nat :=
  let w := readNat s.mem (dirBase s t - 512 + 4 * h) 4
  let c := w % 2 ^ 20
  if h < 127 ∧ w.testBit 31 ∧ corePresent s c then some c else none
/-- The hosts, by their place in the table. -/
def rhtHosts (s : State) (t : Nat) : List Nat := (List.range 127).filterMap (rhtAt s t)
/-- The lowest place of a host. -/
def rhtIndex (s : State) (t c : Nat) : Nat := (place (fun h => decide (rhtAt s t h = some c)) (List.range 127)).getD 127
/-- The replicas: their slot in the entry and their host. -/
def replicas (s : State) (t : Nat) : List (Nat × Nat) :=
  (List.range 8).filterMap fun k => (rhtAt s t (dirRepl s t k)).map (k, ·)

/-- The directory never evicts this copy of a core: the owner's, where it is PINned or the source of a copy. -/
def heldCopy (s : State) (c t : Nat) : Bool :=
  decide (dirState s t = 3 ∧ dirOwner s t = c) && (dirPin s t || (s.dir t).copyTo.isSome)
/-- The copy that a core would give up for treelet `t`: the least HEAT, then the lowest TID. -/
def victim (s : State) (c t : Nat) : Option Nat :=
  let ts := ((s.core c).tslots.filter fun x => x.2.landed && decide (x.2.tid ≠ t) && !heldCopy s c x.2.tid).map (·.2.tid)
  match ts with
  | [] => none
  | x :: l => some (l.foldl (fun a y => if dirHeat s y < dirHeat s a ∨ (dirHeat s y = dirHeat s a ∧ y < a) then y else a) x)

def treeletSlots (s : State) (c : Nat) : Nat := fld (s.core c).raycfg 32 5
def freeTslot (s : State) (c : Nat) : Option Nat :=
  (List.range (treeletSlots s c)).find? fun n => (Tbl.get? (s.core c).tslots n).isNone
/-- An RHT host may receive a copy of `t` (15 R364). -/
def hostFits (s : State) (t c : Nat) : Bool :=
  !((s.core c).tslots.any fun x => decide (x.2.tid = t)) && ((freeTslot s c).isSome || (victim s c t).isSome)
/-- The host that is chosen for a reference core. -/
def chooseHost (s : State) (t ref : Nat) : Option Nat := nearest ref ((rhtHosts s t).filter (hostFits s t))

/-! ### Answers -/

/-- A status on its way to the wave that waits for it. -/
def answerTl (s : State) (w d st : Nat) : State :=
  s.modNet fun n => { n with tlreps := n.tlreps ++ [{ agent := .wave w, d := d, value := rayWord st 0 }] }
/-- OK to a requester that holds a copy; as the owner it may set PIN (15 R381). -/
def grantTl (s : State) (q : TlReq) : State :=
  answerTl (if q.pin ∧ dirState s q.tid = 3 ∧ dirOwner s q.tid = q.core then setDe1 s q.tid 24 1 1 else s) q.wave q.d 0
/-- The requests that wait in an entry are to be handled afresh. -/
def requeue (s : State) (t : Nat) : State := s.modDir t fun y => { y with waiting := [], redo := y.redo ++ y.waiting }

/-! ### Evictions (15 R365, R369) -/

/-- A copy on its way is given up: its request waits again. -/
def abandonCopy (s : State) (t : Nat) : State :=
  match (s.dir t).copyTo with
  | none => s
  | some h =>
    let s := s.modCore h fun x => { x with tslots := x.tslots.filter fun e => e.2.tid ≠ t || e.2.landed }
    let s := s.modNet fun n => { n with pages := n.pages.filter fun p => p.tid ≠ t }
    s.modDir t fun y => { y with copyTo := none, copyFor := none, waiting := y.copyFor.toList ++ y.waiting }

/-- A core gives up its copy, whole, and the entry follows; the wave that waits is answered. -/
def evictCopy (s : State) (c t : Nat) (waiter : Option (Nat × Nat)) : State :=
  let answer (s : State) (st : Nat) : State := match waiter with
    | some (w, d) => answerTl s w d st
    | none => s
  match slotOf s c t with
  | none => answer s 3
  | some n =>
    let rays := (s.core c).inbox.filter fun r => r.tid = t
    let s := s.modCore c fun x => { x with inbox := x.inbox.filter fun r => r.tid ≠ t, tslots := Tbl.erase x.tslots n }
    let s := touchEntry (s.modNet fun m => { m with dirRays := m.dirRays ++ rays }) t
    if dirState s t ≠ 3 then answer s 0
    else if dirOwner s t = c then
      let s := abandonCopy s t
      match replicas s t with
      | (k, h) :: _ =>
        let s := setRepl (setDe1 (setDe1 s t 41 20 h) t 24 1 0) t k 0x7F
        answer (requeue s t) 0
      | [] => (setDirState s t 4).modDir t fun y => { y with evicting := waiter, confirm := true }
    else match (replicas s t).find? fun r => r.2 = c with
      | some r => answer (setRepl s t r.1 0x7F) 0
      | none => answer s 0

/-! ### Page-ins and copies (15 R355, R364 to R366) -/

/-- The parts of an image: offset and length. -/
def Header.parts (h : Header) : List (Nat × Nat) :=
  [(0, 256), (h.nodeoff, 128 * h.nnode), (h.trioff, 48 * h.ntri), (h.portoff, 4 * h.nport)].filter fun p => p.2 ≠ 0
/-- No two of a list of ranges overlap. -/
def apart : List (Nat × Nat) → Bool
  | [] => true
  | p :: t => (t.all fun q => decide (p.1 + p.2 ≤ q.1 ∨ q.1 + q.2 ≤ p.1)) && apart t
/-- The header check fails (15 R355). -/
def Header.bad (h : Header) (t : Nat) : Bool :=
  decide (h.tid ≠ t ∨ h.vers ≠ 1 ∨ h.rsv ≠ 0 ∨ h.nnode = 0 ∨ 510 < h.nnode ∨ 4095 < h.ntri ∨ 4095 < h.nport
    ∨ h.total < 256 ∨ 65536 < h.total)
  || (h.parts.any fun p => decide (h.total < p.1 + p.2)) || !apart h.parts

/-- A slot of a host receives `total` bytes of a treelet from a memory key, 1 KiB to a message; a host without
a free slot first evicts a copy. -/
def beginTransfer (s : State) (t host src total : Nat) : State :=
  let s := if (freeTslot s host).isSome then s else match victim s host t with
    | some v => evictCopy s host v none
    | none => s
  let s := s.modCore host fun x => { x with tslots := Tbl.set x.tslots ((freeTslot s host).getD 0) { tid := t, total := total } }
  s.modNet fun n => { n with pages := n.pages ++ (List.range ((total + 1023) / 1024)).map fun i => ⟨t, host, src, 1024 * i, total⟩ }

/-- A page-in to a new owner starts; a header that fails its check sends nothing. -/
def beginPageIn (s : State) (t host : Nat) (starter : Option TlReq) : State :=
  let img := dirImage s t
  let s := accessLine s (lineOf img) true false
  let h := Header.read s img
  let s := (setDirState (setDe1 s t 41 20 host) t 2).modDir t fun y => { y with starter := starter }
  beginTransfer s t host img (if h.bad t then 0 else h.total)

/-- Rays that pend in a COLD entry ask for a host. -/
def coldRays (s : State) (t : Nat) : State :=
  match (s.dir t).pend with
  | r :: _ => if dirState s t = 1 then match chooseHost s t r.org with
      | some h => beginPageIn s t h none
      | none => s
    else s
  | [] => s

/-- A copy from the owner's slot starts. -/
def beginCopy (s : State) (t host : Nat) (q : Option TlReq) : State :=
  let o := dirOwner s t
  match slotOf s o t with
  | none => s
  | some n =>
    let x := Tbl.get { tid := 0, total := 0 } (s.core o).tslots n
    beginTransfer (s.modDir t fun y => { y with copyTo := some host, copyFor := q }) t host (slotKey o n) x.total

/-- A `TLREQ` at its controller. -/
def dirTakeTl (s : State) (q : TlReq) : State :=
  let t := q.tid
  let s := touchEntry s t
  let mayHost := (rhtHosts s t).contains q.core && hostFits s t q.core
  let wait (s : State) : State := s.modDir t fun y => { y with waiting := y.waiting ++ [q] }
  match dirState s t with
  | 0 => answerTl s q.wave q.d 5
  | 1 => if mayHost then beginPageIn s t q.core (some q) else answerTl s q.wave q.d 6
  | 3 =>
    if (slotOf s q.core t).isSome then grantTl s q
    else if !q.replica then answerTl s q.wave q.d 8
    else if (s.dir t).copyTo.isSome then wait s
    else if !((List.range 8).any fun k => decide (dirRepl s t k = 0x7F)) then answerTl s q.wave q.d 7
    else if mayHost then beginCopy s t q.core (some q)
    else answerTl s q.wave q.d 6
  | _ => wait s

/-- The first entry with a request to handle afresh. -/
def nextRedo (s : State) : Option (Nat × TlReq) := s.dirs.findSome? fun d => d.2.redo.head?.map fun q => (d.1, q)
/-- Requests that waited are handled afresh: the controller completes a row before it takes the next message. -/
def settleDirs (s : State) : Nat → State
  | 0 => s
  | n + 1 => match nextRedo s with
    | some (t, q) => settleDirs (dirTakeTl (s.modDir t fun y => { y with redo := y.redo.drop 1 }) q) n
    | none => s
/-- A row of 15 R365, whole. -/
def dirRow (s : State) : State := settleDirs s ((s.dirs.map fun d => d.2.redo.length + d.2.waiting.length).sum + 1)

/-- Bytes of `n` lines at their home. -/
def readLines (s : State) (k : Nat) : Nat → List Byte × State
  | 0 => ([], s)
  | n + 1 =>
    let (g, s) := homeRead s k 128 1
    let (t, s) := readLines s (k + 128) n
    (g.bytes ++ t, s)

/-- 15 R366. -/
def execPageTransfer (n : Nat) (s : State) : Res :=
  .next (match s.net.pages[n]? with
    | none => s
    | some p =>
      let s := s.modNet fun m => { m with pages := dropAt m.pages n }
      match (s.core p.host).tslots.find? fun x => decide (x.2.tid = p.tid) && !x.2.landed with
      | some x =>
        let (bs, s) := readLines s (p.src + p.off) 8
        poke s (slotKey p.host x.1 + p.off) (bs.take (Nat.min 1024 (p.total - p.off)))
      | none => s)

/-- The last PAGE message of a copy has landed at its host. -/
def transferDone (s : State) (t host : Nat) : Bool :=
  !(s.net.pages.any fun p => p.tid = t) && (s.core host).tslots.any fun x => decide (x.2.tid = t ∧ x.2.total ≠ 0) && !x.2.landed
/-- The copy is visible. -/
def landCopy (s : State) (t host : Nat) : State :=
  s.modCore host fun x => { x with tslots := x.tslots.map fun e => if e.2.tid = t then (e.1, { e.2 with landed := true }) else e }

/-- 15 R365, R366. -/
def execPageInDone (tid : Nat) (s : State) : Res :=
  .next (dirRow <|
    let o := dirOwner s tid
    if dirState s tid ≠ 2 || !transferDone s tid o then s
    else
      let x := s.dir tid
      let s := setDirState (setDe1 (landCopy s tid o) tid 25 16 0) tid 3
      let s := s.modNet fun n => { n with rays := n.rays ++ x.pend.map (o, ·) }
      let s := match x.starter with
        | some q => grantTl s q
        | none => s
      requeue (s.modDir tid fun y => { y with pend := [], starter := none }) tid)

/-- A ray whose treelet does not exist goes back to its origin (15 R371). -/
def sendLost (s : State) (c : Nat) (r : Ray) : State := sendHit s c (setFld r 316 1 1)

/-- 15 R355, R365, 18 R408. -/
def execPageInFail (tid : Nat) (s : State) : Res :=
  .next (dirRow <|
    let o := dirOwner s tid
    if dirState s tid ≠ 2 || !((s.core o).tslots.any fun x => decide (x.2.tid = tid ∧ x.2.total = 0) && !x.2.landed) then s
    else
      let x := s.dir tid
      let c := dirTile s tid
      let s := s.modCore o fun y => { y with tslots := y.tslots.filter fun e => e.2.tid ≠ tid }
      let s := (setDirState s tid 0).modDir tid fun _ => {}
      let s := x.pend.foldl (fun s r => sendLost s c r) s
      let s := (x.starter.toList ++ x.waiting).foldl (fun s q => answerTl s q.wave q.d 5) s
      postMessage s (coreDie c) { m0 := msgWord0 Code.format.num 5 0 0 c false false false false false 0, m2 := BitVec.ofNat 64 tid })

/-- 15 R365. -/
def execReplicaCopyDone (tid : Nat) (s : State) : Res :=
  .next (dirRow <|match (s.dir tid).copyTo with
    | none => s
    | some h =>
      if dirState s tid ≠ 3 || !transferDone s tid h then s
      else
        let x := s.dir tid
        let s := landCopy s tid h
        let s := match (List.range 8).find? fun k => dirRepl s tid k = 0x7F with
          | some k => setRepl s tid k (rhtIndex s tid h)
          | none => s
        let s := setDe1 s tid 25 16 0
        let s := match x.copyFor with
          | some q => grantTl s q
          | none => s
        requeue (s.modDir tid fun y => { y with copyTo := none, copyFor := none }) tid)

/-- 15 R365: the owner confirms; and rays that wait in a COLD entry find a host (R364). -/
def execEvictConfirm (tid : Nat) (s : State) : Res :=
  .next (dirRow <|
    if dirState s tid = 4 then
      let x := s.dir tid
      let s := (setDirState (setDe1 s tid 24 1 0) tid 1).modDir tid fun y => { y with evicting := none, confirm := false }
      let s := match x.evicting with
        | some (w, d) => answerTl s w d 0
        | none => s
      coldRays (requeue s tid) tid
    else coldRays s tid)

/-! ### Messages to the controller (15 R365) -/

/-- Rays in the pend buffer of a controller. -/
def pendCount (s : State) (tile : Nat) : Nat := ((s.dirs.filter fun d => dirTile s d.1 = tile).map fun d => d.2.pend.length).sum

/-- A ray reaches its controller: none, where it is held back. -/
def dirTakeRay (s : State) (r : Ray) : Option State :=
  let t := r.tid
  let s := touchEntry s t
  let c := dirTile s t
  if dirState s t = 0 then some (sendLost s c r)
  else if dirState s t = 3 then some (s.modNet fun n => { n with rays := n.rays ++ [(dirOwner s t, r)] })
  else if pendCount s c < 64 then some (coldRays (s.modDir t fun y => { y with pend := y.pend ++ [r] }) t)
  else if ringHasRoom (s.core c) then some (spillRay s c r)
  else none

/-- 15 R365. -/
def execDirRay (n : Nat) (s : State) : Res :=
  .next (dirRow <| match s.net.dirRays[n]? with
    | some r => (dirTakeRay (s.modNet fun m => { m with dirRays := dropAt m.dirRays n }) r).getD s
    | none => s)

/-- A heat report. -/
def dirTakeHeat (s : State) (t n org : Nat) : State :=
  let s := touchEntry s t
  if dirState s t ≠ 3 then s
  else
    let s := setDe1 s t 25 16 (Nat.min (dirHeat s t + n) 0xFFFF)
    let th := fld (dirCfg s t) 19 16
    if th = 0 ∨ dirHeat s t < th ∨ (s.dir t).copyTo.isSome ∨ !((List.range 8).any fun k => decide (dirRepl s t k = 0x7F)) then s
    else match chooseHost s t org with
      | some h => beginCopy s t h none
      | none => s

/-- 15 R365. -/
def execDirHeatReport (n : Nat) (s : State) : Res :=
  .next (dirRow <| match s.net.heats[n]? with
    | some (t, k, org) => dirTakeHeat (s.modNet fun m => { m with heats := dropAt m.heats n }) t k org
    | none => s)

/-- 15 R365. -/
def execDirTlreq (n : Nat) (s : State) : Res :=
  .next (dirRow <| match s.net.tlreqs[n]? with
    | some q => dirTakeTl (s.modNet fun m => { m with tlreqs := dropAt m.tlreqs n }) q
    | none => s)

/-- 15 R365, R369. -/
def execDirTlevict (n : Nat) (s : State) : Res :=
  .next (dirRow <| match s.net.evicts[n]? with
    | some e => evictCopy (s.modNet fun m => { m with evicts := dropAt m.evicts n }) e.core e.tid e.waiter
    | none => s)

/-! ### Route queries (15 R367) -/

/-- The holders of a RESIDENT treelet, the owner first; none for any other. -/
def dirHolders (s : State) (t : Nat) : Option (List Nat) :=
  if dirState s t = 3 then some (dirOwner s t :: (replicas s t).map (·.2)) else none

/-- 15 R367. -/
def execRouteQuery (n : Nat) (s : State) : Res :=
  .next (match s.net.queries[n]? with
    | some (t, c) =>
      let s := touchEntry (s.modNet fun m => { m with queries := dropAt m.queries n }) t
      let hs := dirHolders s t
      s.modNet fun m => { m with routeReps := m.routeReps ++ [⟨c, t, hs.isNone, hs.getD []⟩] }
    | none => s)

/-- 15 R367. -/
def execRouteReply (n : Nat) (s : State) : Res :=
  .next (match s.net.routeReps[n]? with
    | some r =>
      let s := s.modNet fun m => { m with routeReps := dropAt m.routeReps n }
      let exp := leaseNow s (coreDie r.core) + 256 * fld (s.core r.core).raycfg 40 8
      s.modCore r.core fun x => { x with
        queries := x.queries.filter (· ≠ r.tid)
        routes := ((⟨r.tid, r.viaDir, r.holders, exp⟩ : Route) :: x.routes.filter fun e => e.tid ≠ r.tid).take 256 }
    | none => s)

/-! ### The instructions (15 R381) -/

/-- 15 R381. -/
def execTlreq (d a b : BitVec 6) (s : State) : Res :=
  checkedTlreq d a b s fun s =>
    let t := fld (s.lo a.toNat) 0 24
    let m := s.lo b.toNat
    let c := s.curCore
    if (slotOf s c t).isSome then
      let s := touchEntry s t
      rayDone (if bit m 1 ∧ dirState s t = 3 ∧ dirOwner s t = c then setDe1 s t 24 1 1 else s) d 0 0
    else
      (park s (.reply d.toNat true)).modNet fun n => { n with tlreqs := n.tlreqs ++ [⟨t, c, s.curW, d.toNat, bit m 0, bit m 1⟩] }

/-- 15 R381. -/
def execTlevict (d a : BitVec 6) (s : State) : Res :=
  checkedTlevict d a s fun s =>
    let t := fld (s.lo a.toNat) 0 24
    if (slotOf s s.curCore t).isSome then
      (park s (.reply d.toNat true)).modNet fun n => { n with evicts := n.evicts ++ [⟨t, s.curCore, some (s.curW, d.toNat)⟩] }
    else rayDone s d 3 0

/-- 15 R381. -/
def execTlreqReply (n : Nat) (s : State) : Res :=
  .next (match s.net.tlreps[n]? with
    | some k => wakeAgent (s.modNet fun m => { m with tlreps := dropAt m.tlreps n }) k
    | none => s)

end Sys2Proof.Machine
end

