-- ==== Sys2Proof/Machine/Exchange.lean ====
section
/-! DEFINITION. Scheduled exchange (chapter 16): the plane and its collisions (R383, R384), barrier domains
(R385, R386, R392), slot tables (R387, R388, R393), and the port and its phase (R389, R394 to R396). -/

namespace Sys2Proof.Machine

/-! ### The exchange plane (16 R383, R384)

What the plane does in a cycle comes before the accesses of waves in that cycle (R390): ports that reach PLEN,
PHASE-STARTs, sends, and then, of the beats that have not met, those that arrive. -/

/-- Where a beat from `a` to `b` is after `i` hops, x first. -/
def beatAt (a b i : Nat) : Nat :=
  let dx := ((coreX a : Int) - coreX b).natAbs
  let dy := ((coreY a : Int) - coreY b).natAbs
  let move (p q n : Nat) : Nat := if p < q then p + n else p - n
  coreOf (move (coreX a) (coreX b) (Nat.min i dx)) (move (coreY a) (coreY b) (Nat.min (i - dx) dy))
/-- The router that it leaves, and the one it goes to (the same: its core port), in cycle `t`. -/
def Beat.link (x : Beat) (t : Nat) : Nat × Nat := (beatAt x.src x.dst (t - x.sent), beatAt x.src x.dst (t - x.sent + 1))
/-- Rank of the side on which it enters the router: x−, x+, y−, y+, the core port last. -/
def Beat.side (x : Beat) (t : Nat) : Nat :=
  let r := beatAt x.src x.dst (t - x.sent)
  let p := beatAt x.src x.dst (t - x.sent - 1)
  if t = x.sent then 4
  else if coreX p < coreX r then 0 else if coreX r < coreX p then 1 else if coreY p < coreY r then 2 else 3
/-- It goes straight on. -/
def Beat.straight (x : Beat) (t : Nat) : Bool :=
  let r := beatAt x.src x.dst (t - x.sent)
  let p := beatAt x.src x.dst (t - x.sent - 1)
  let n := beatAt x.src x.dst (t - x.sent + 1)
  decide (t ≠ x.sent ∧ n ≠ r ∧ (coreX p = coreX n ∨ coreY p = coreY n))
/-- Beat `y` takes the link from beat `x` in cycle `t`. -/
def Beat.yields (x y : Beat) (t : Nat) : Bool :=
  decide (x.link t = y.link t)
    && ((!x.straight t && y.straight t) || (x.straight t == y.straight t && decide (y.side t < x.side t)))

/-- The beats dropped in cycle `t` leave the plane; their senders will be told. -/
def resolveBeats (s : State) (t : Nat) : State :=
  let live := s.net.beats.filter fun b => decide (t ≤ b.sent + hops b.src b.dst)
  let lost (b : Beat) : Bool := decide (t ≤ b.sent + hops b.src b.dst) && live.any (b.yields · t)
  s.modNet fun n => { n with beats := n.beats.filter (!lost ·), colls := n.colls ++ ((n.beats.filter lost).map fun b => (b.src, t)) }

/-- 16 R384. -/
def execExchCollReport (n : Nat) (s : State) : Res :=
  .next (match s.net.colls[n]? with
    | some (c, t) =>
      if t + 8 ≤ s.cyc then (s.modNet fun m => { m with colls := dropAt m.colls n }).modCore c fun x => { x with port := { x.port with coll := true } }
      else s
    | none => s)

/-! ### Slot tables (16 R387, R388) -/

/-- An entry of a table: kind (RX), first cycle, beats, peer, barrier enable and index. -/
structure Entry where
  rx : Bool
  start : Nat
  beats : Nat
  peer : Nat
  be : Bool
  bidx : Nat
deriving DecidableEq, Repr

def Entry.ofWords (e0 e1 : Word) : Entry :=
  ⟨bit e0 63, fld e0 36 20, fld e0 24 12, fld e0 0 20, bit e1 63, fld e1 0 16⟩
def tablePlen (t : List Word) : Nat := fld (t.getD 0 0) 32 20
def tableNent (t : List Word) : Nat := fld (t.getD 0 0) 0 6
def tableEntry (t : List Word) (k : Nat) : Entry := Entry.ofWords (t.getD (1 + 2 * k) 0) (t.getD (2 + 2 * k) 0)
def tableEntries (t : List Word) : List (Nat × Entry) := (List.range (tableNent t)).map fun k => (k, tableEntry t k)

/-- The header is refused: NENT outside 1 to 32, or a reserved bit set. -/
def headerBad (h0 h1 : Word) : Bool :=
  decide (fld h0 0 6 = 0 ∨ 32 < fld h0 0 6 ∨ fld h0 6 26 ≠ 0 ∨ fld h0 52 12 ≠ 0 ∨ h1 ≠ 0)
/-- An entry breaks a limit by itself. -/
def entryBad (c : Nat) (plen : Nat) (e0 e1 : Word) : Bool :=
  let e := Entry.ofWords e0 e1
  decide (fld e0 56 7 ≠ 0 ∨ fld e0 20 4 ≠ 0 ∨ e.beats = 0 ∨ plen < e.start + e.beats ∨ fld e1 16 47 ≠ 0 ∨ (e.rx = false ∧ e1 ≠ 0)
    ∨ coreDie e.peer ≠ coreDie c ∨ 512 ≤ coreX e.peer ∨ (e.rx = false ∧ e.peer = c))
/-- Two entries of one kind overlap. -/
def entriesClash : List (Nat × Entry) → Bool
  | [] => false
  | a :: t => (t.any fun b => decide (a.2.rx = b.2.rx ∧ a.2.start < b.2.start + b.2.beats ∧ b.2.start < a.2.start + a.2.beats)) || entriesClash t
/-- The table is refused (16 R388). -/
def tableBad (c : Nat) (t : List Word) : Bool :=
  decide (tablePlen t = 0) || (List.range (tableNent t)).any (fun k => entryBad c (tablePlen t) (t.getD (1 + 2 * k) 0) (t.getD (2 + 2 * k) 0))
    || entriesClash (tableEntries t)

def Port.table (p : Port) : List Word := Tbl.get [] p.banks p.bank
/-- XC: 0 before RUN, PLEN once it is DONE. -/
def Port.xc (p : Port) (cyc : Nat) : Nat := match p.st with
  | .run => cyc - p.start
  | .done => tablePlen p.table
  | _ => 0

/-! ### The phase (16 R389) -/

/-- The next exchange cycle in which a queued slot sends, from `next` on: slot and cycle. -/
def Port.nextSend (p : Port) : Option (Nat × Nat) :=
  let cs := (tableEntries p.table).filterMap fun e =>
    if !e.2.rx && (Tbl.get? p.sends e.1).isSome && decide (p.next < e.2.start + e.2.beats) then some (e.1, Nat.max p.next e.2.start) else none
  match cs with
  | [] => none
  | x :: t => some (t.foldl (fun a b => if b.2 < a.2 then b else a) x)

/-- The 32 bytes of a beat, as the port reads them (10 R272); beyond the scratch they are undefined (log 47). -/
def beatData (s : State) (core ea : Nat) : List Byte × State := match engineRead s core 0 ea 32 with
  | (.ok bs, s) => (bs, s)
  | (.error _, s) => freeBytes s 32

/-- 16 R389. -/
def execExchBeatSend (core : Nat) (s : State) : Res :=
  .next (
    let p := (s.core core).port
    match p.nextSend with
    | some (k, c) =>
      if p.st = .run ∧ p.start + c ≤ s.cyc then
        let e := tableEntry p.table k
        let (bs, s) := beatData s core ((Tbl.get {} p.sends k).addr + 32 * (c - e.start))
        (s.modCore core fun x => { x with port := { x.port with next := c + 1 } }).modNet fun n => { n with
          beats := n.beats ++ [⟨core, e.peer, bs, p.start + c⟩] }
      else s
    | none => s)

/-- A beat is discarded and counted. -/
def dropBeat (s : State) (c : Nat) : State :=
  s.modCore c fun x => { x with port := { x.port with drop := Nat.min (x.port.drop + 1) 0xFFFF } }

/-- A beat reaches the port of a core in cycle `t`. DESIGN CHOICE (log 47): a landing's credit to its barrier, which is on the
same core, is made in the cycle of the landing. -/
def landBeat (s : State) (b : Beat) (t : Nat) : State :=
  let p := (s.core b.dst).port
  match p.st with
  | .idle => s
  | .run =>
    match (tableEntries p.table).find? fun e => e.2.rx && decide (p.start + e.2.start ≤ t ∧ t < p.start + e.2.start + e.2.beats) with
    | some (k, e) => match Tbl.get? p.lands k with
      | some cap =>
        let (_, bad, s) := engineWrite s {} b.dst 0 (cap.addr + 32 * (t - p.start - e.start)) b.data
        if bad.isSome then dropBeat s b.dst
        else if e.be then creditBar s ⟨scratchKey b.dst (32 * e.bidx), 32, .port b.dst, []⟩ else s
      | none => dropBeat s b.dst
    | none => dropBeat s b.dst
  | _ => dropBeat s b.dst

/-- 16 R389: in the cycle of its arrival, if no other beat takes its link. -/
def execExchBeatArrive (n : Nat) (s : State) : Res :=
  .next (match s.net.beats[n]? with
    | some b =>
      let t := b.sent + hops b.src b.dst
      if s.cyc < t then s
      else
        let s := resolveBeats s t
        if s.net.beats.contains b then landBeat (s.modNet fun m => { m with beats := m.beats.erase b }) b t else s
    | none => s)

/-- XC has reached PLEN: the sends and landings that were missing are counted. -/
def Port.finish (p : Port) : Port :=
  let es := tableEntries p.table
  let p := { p with
    st := .done
    unsent := (es.filter fun (e : Nat × Entry) => !e.2.rx && (Tbl.get? p.sends e.1).isNone).length
    unbound := (es.filter fun (e : Nat × Entry) => e.2.rx && (Tbl.get? p.lands e.1).isNone).length }
  if p.orphan then p.idle else p

/-- 16 R389, R390. -/
def execExchPhaseEnd (core : Nat) (s : State) : Res :=
  .next (
    let p := (s.core core).port
    if p.st = .run ∧ tablePlen p.table ≤ p.xc s.cyc then s.modCore core fun x => { x with port := p.finish } else s)

/-! ### DBAR (16 R392) -/

def exchWord (st v : Nat) : Word := BitVec.ofNat 64 (st * 2 ^ 56 + v)
def exchDone (s : State) (d : BitVec 6) (st v : Nat) : State := (s.setData d.toNat (exchWord st v)).advance

/-- The mask of a domain: 192 bits. -/
def domainMask (s : State) (k : Nat) : Nat := readNat s.mem (k + 32) 24
/-- A member port is ARMED or RUN for the domain. -/
def memberBusy (s : State) (d n mask : Nat) : Bool :=
  (List.range 192).any fun t => mask.testBit t &&
    let p := (s.core (dieTile d t)).port
    decide ((p.st = .armed ∨ p.st = .run) ∧ p.domain = n)

/-- A claim at the home: status and state. -/
def claimDomain (s : State) (d n grid : Nat) (ws : List Word) : Nat × State :=
  let k := domainKey d n
  let mask := (ws.getD 0 0).toNat + (ws.getD 1 0).toNat * 2 ^ 64 + (ws.getD 2 0).toNat * 2 ^ 128
  let arrn := fld (ws.getD 3 0) 0 5
  if domainOwner s d n ≠ 0 then (1, s)
  else if mask = 0 ∨ (List.range 192).any (fun t => mask.testBit t && !corePresent s (dieTile d t)) ∨ arrn = 0 ∨ 16 < arrn
      ∨ fld (ws.getD 3 0) 5 59 ≠ 0 then (4, s)
  else
    let members := ((List.range 192).filter mask.testBit).length
    let b : Bar := { arra := 0, expa := members * arrn, phase := 0, landb := 0, expb := 0, wcnt := 0, sa := false, ovf := false, v := true, stray := 0 }
    let s := poke (Bar.write { s with bars := Tbl.erase s.bars k } k b) (k + 24) (bytesOf 8 0 ++ bytesOf 24 mask ++ bytesOf 8 (grid * 2 ^ 32 + arrn))
    (0, broadcast s d n grid mask)

/-- An arrival at the home: status, phase, state. -/
def arriveDomain (s : State) (d n grid core : Nat) : Nat × Nat × State :=
  let k := domainKey d n
  if domainOwner s d n = 0 then (5, 0, s)
  else if domainOwner s d n ≠ grid then (3, 0, s)
  else if !(domainMask s k).testBit (tileOf core) then (2, 0, s)
  else
    let p := (Bar.read s k).phase
    let s := s.release
    (0, p, arriveBar s ⟨k, 1, .agent s.cur, s.curClk⟩)

/-- A free at the home. -/
def releaseDomain (s : State) (d n grid : Nat) : Nat × State :=
  let k := domainKey d n
  if domainOwner s d n = 0 then (5, s)
  else if domainOwner s d n ≠ grid then (3, s)
  else if (Bar.read s k).wcnt ≠ 0 ∨ memberBusy s d n (domainMask s k) then (1, s)
  else (0, freeDomain s d n)

/-- The status comes back, after any broadcast has reached every tile. -/
def domainReply (s : State) (c : BitVec 6) (d n st v : Nat) : State :=
  (park s (.reply c.toNat)).modNet fun m => { m with wakes := m.wakes ++ [{ agent := s.cur, d := c.toNat, value := exchWord st v, tree := some (d, n) }] }

/-- 16 R392. -/
def execDbar (d a b : BitVec 6) (s : State) : Res :=
  checkedDbar d a b s fun s =>
    let die := coreDie s.curCore
    let n := fld (s.lo a.toNat) 0 3
    let grid := s.curWave.grid
    match fld (s.lo a.toNat) 8 2 with
    | 0 =>
      let k := domainKey die n
      if domainOwner s die n = grid ∧ (domainMask s k).testBit (tileOf s.curCore) ∧ arrivalHeld s then stall s
      else
        let (st, p, s) := arriveDomain s die n grid s.curCore
        domainReply s d die n st p
    | 1 =>
      let cap := s.reg b.toNat
      withAccess s cap cap.addr 32 permLD 32 .load fun p s =>
        if ownHeld s s.curW true [(p.key, 32)] then stall s
        else withGranules s (granulesAt p.key 2) fun gs s =>
          let (st, s) := claimDomain s die n grid (wordsOf gs)
          domainReply s d die n st 0
    | 2 =>
      let (st, s) := releaseDomain s die n grid
      domainReply s d die n st 0
    | _ => raise s (codeTrap .illegal (wordDbar d a b))

/-! ### Tables and the port (16 R393 to R396) -/

/-- Continue with the memory key of bytes of the wave's own scratch. -/
def withOwnScratch (s : State) (cap : Cap) (size need align : Nat) (u : Use) (k : Nat → State → State) : State :=
  withAccess s cap cap.addr size need align u fun p s =>
    if cap.addr / 2 ^ 48 ≠ 0x7F then raise s ⟨.xlate, BitVec.ofNat 64 cap.addr⟩ else k p.key s

/-- 16 R393. -/
def execXslots (d a b : BitVec 6) (s : State) : Res :=
  checkedXslots d a b s fun s =>
    let cap := s.reg a.toNat
    withOwnScratch s cap 16 permLD 16 .load fun key s =>
      if ownHeld s s.curW true [(key, 16)] then stall s
      else if headerBad (memWord s key) (memWord s (key + 8)) then exchDone s d 7 0
      else
        let n := fld (memWord s key) 0 6
        withOwnScratch s cap (16 + 16 * n) permLD 16 .load fun key s =>
          if ownHeld s s.curW true [(key, 16 + 16 * n)] then stall s
          else
            let t := memWord s key :: (List.range (2 * n)).map fun i => memWord s (key + 16 + 8 * i)
            let bank := fld (s.lo b.toNat) 0 2
            let p := (s.core s.curCore).port
            if tableBad s.curCore t then exchDone s d 7 0
            else if (p.st = .armed ∨ p.st = .run) ∧ p.bank = bank then exchDone s d 1 0
            else exchDone (s.modCore s.curCore fun x => { x with port := { x.port with banks := Tbl.set x.port.banks bank t } }) d 0 0

/-- 16 R393. -/
def execXsel (d a : BitVec 6) (s : State) : Res :=
  checkedXsel d a s fun s =>
    let bank := fld (s.lo a.toNat) 0 2
    let t := Tbl.get [] (s.core s.curCore).port.banks bank
    exchDone (s.modCore s.curCore fun x => { x with port := { x.port with sel := bank } }) d 0 (tablePlen t * 2 ^ 32 + tableNent t)

/-- A tile has seen PHASE-START of phase `p` or a later one in an earlier cycle, and whether that of `p` reaches it
in this one (16 R394). -/
def Port.late (p : Port) (n phase cyc : Nat) : Bool :=
  (((Tbl.get? p.seen n).bind fun (q : Seen) => if q.cyc = cyc then q.prev else some q.phase)).any fun q => decide ((q + 2 ^ 32 - phase) % 2 ^ 32 < 2 ^ 31)
def Port.starts (p : Port) (n phase cyc : Nat) : Bool := (Tbl.get? p.seen n).any fun (q : Seen) => decide (q.cyc = cyc ∧ q.phase = phase)

/-- 16 R394. -/
def execXph (d a b : BitVec 6) (s : State) : Res :=
  checkedXph d a b s fun s =>
    let n := fld (s.lo a.toNat) 0 3
    let phase := fld (s.lo b.toNat) 0 32
    let p := (s.core s.curCore).port
    let owner := Tbl.get 0 p.owners n
    if p.st ≠ .idle then exchDone s d 8 0
    else if owner = 0 then exchDone s d 5 0
    else if owner ≠ s.curWave.grid then exchDone s d 3 0
    else if !Tbl.get false p.member n then exchDone s d 2 0
    else if tableNent (Tbl.get [] p.banks p.sel) = 0 then exchDone s d 7 0
    else if p.late n phase s.cyc then exchDone s d 6 0
    else exchDone (s.modCore s.curCore fun x => { x with port := { x.port with
        st := if p.starts n phase s.cyc then .run else .armed
        owner := s.curW, domain := n, phase := phase, bank := x.port.sel, start := s.cyc, next := 0, orphan := false, stale := false } }) d 0 0

/-- The wave that moves owns the port: one that has ended owns it no more, whoever takes its slot. -/
def Port.ownedBy (p : Port) (w : Nat) : Bool := decide (p.st ≠ .idle ∧ p.owner = w) && !p.orphan
/-- The port is ARMED or RUN and the wave that moves owns it. -/
def portMine (s : State) : Bool :=
  let p := (s.core s.curCore).port
  decide (p.st = .armed ∨ p.st = .run) && p.ownedBy s.curW

/-- The fault of a send outside the core's own slot (16 R395). -/
def slotTrap (s : State) (why k : Nat) : Trap :=
  ⟨.exchSlot, BitVec.ofNat 64 (why * 2 ^ 56 + k * 2 ^ 48 + (s.core s.curCore).port.xc s.cyc % 2 ^ 32)⟩

/-- 16 R395. -/
def execXmit (d a b : BitVec 6) (s : State) : Res :=
  checkedXmit d a b s fun s =>
    let k := fld (s.lo b.toNat) 0 6
    let p := (s.core s.curCore).port
    let e := tableEntry p.table k
    let cap := s.reg a.toNat
    if !portMine s then raise s (slotTrap s 1 k)
    else if tableNent p.table ≤ k ∨ e.rx then raise s (slotTrap s 2 k)
    else withOwnScratch s cap (32 * e.beats) permES 32 .load fun _ s =>
      if p.st = .run ∧ e.start ≤ p.xc s.cyc + 8 then raise s (slotTrap s 3 k)
      else if (Tbl.get? p.sends k).isSome then raise s (slotTrap s 4 k)
      else exchDone (s.modCore s.curCore fun x => { x with port := { x.port with sends := Tbl.set x.port.sends k cap } }) d 0 0

/-- 16 R395. -/
def execXrecv (d a b : BitVec 6) (s : State) : Res :=
  checkedXrecv d a b s fun s =>
    let k := fld (s.lo b.toNat) 0 6
    let p := (s.core s.curCore).port
    let e := tableEntry p.table k
    let cap := s.reg a.toNat
    if !portMine s then exchDone s d 9 0
    else if tableNent p.table ≤ k ∨ !e.rx then exchDone s d 0x0B 0
    else withOwnScratch s cap (32 * e.beats) permED 32 .store fun _ s =>
      if p.st = .run ∧ e.start ≤ p.xc s.cyc then exchDone s d 6 0
      else exchDone (s.modCore s.curCore fun x => { x with port := { x.port with lands := Tbl.set x.port.lands k cap } }) d 0 0

/-- The status word of a phase (16 R396). -/
def Port.status (p : Port) : Word :=
  let v := p.unsent * 2 ^ 40 + p.unbound * 2 ^ 32 + p.drop * 2 ^ 16 + b2n p.stray * 2 + b2n p.coll
  exchWord (if v = 0 then 0 else 0x0A) v

/-- 16 R396. -/
def execXend (d a : BitVec 6) (s : State) : Res :=
  checkedXend d a s fun s =>
    let p := (s.core s.curCore).port
    if !p.ownedBy s.curW then exchDone s d 9 0
    else if p.st = .done ∨ (p.st = .armed ∧ bit (s.lo a.toNat) 0) then
      ((s.modCore s.curCore fun x => { x with port := x.port.idle }).setData d.toNat p.status).advance
    else park s (if bit (s.lo a.toNat) 0 then .retry else .timed)

end Sys2Proof.Machine
end

