-- ==== Sys2Proof/Machine/Super.lean ====
section
/-! DEFINITION. The supervisor's side of faults (chapter 18): the mailbox (R406, R410), resuming and killing waves
and grids (R409, R411 to R413), the watchdog (R404), and messages of slices and links (R408). -/

namespace Sys2Proof.Machine

/-! ### The mailbox -/

/-- Take a message on its way, or a refused one, to its mailbox, in the order of sources within a cycle (18 R406). -/
def deliverPost (s : State) (n : Nat) (ready : Posting → Bool) : State :=
  match s.net.posts[n]? with
  | some p => if ready p && mayTake s p.die p.msg then mailboxTake (s.modNet fun m => { m with posts := dropAt m.posts n }) p.die p.msg else s
  | none => s

/-- 18 R406. -/
def execMailboxMessage (n : Nat) (s : State) : Res := .next (deliverPost s n fun p => !p.refused)
/-- 18 R406: a refused message is sent again 1,024 cycles later. -/
def execMailboxRetry (n : Nat) (s : State) : Res := .next (deliverPost s n fun p => p.refused && decide (p.cyc + 1024 ≤ s.cyc))

/-- 18 R410. -/
def execMbxpop (d : BitVec 6) (s : State) : Res :=
  checkedMbxpop d s fun s =>
    let die := coreDie s.curCore
    let m := ((s.die die).mailbox.head?).getD {}
    let s := s.modDie die fun x => { x with mailbox := x.mailbox.drop 1 }
    ((((s.setData d.toNat m.m0).setData (d.toNat + 1) m.m1).setData (d.toNat + 2) m.m2).setData (d.toNat + 3) m.m3).advance

/-! ### Naming a wave (18 R409) -/

/-- The wave that a handle names. -/
def findWave (s : State) (h : Word) : Option Nat :=
  let c := fld h 0 20
  let w := c * 32 + fld h 20 5
  let x := s.wave w
  if x.live ∧ x.run ≠ .ended ∧ (Tbl.get 0 (s.core c).wtag (fld h 20 5)).toNat = fld h 32 16 then some w else none

/-- SVST takes the outcome, and the agent goes on. -/
def svDone (s : State) (st count : Nat) : State := (s.modCur fun x => { x with svst := BitVec.ofNat 64 (st * 2 ^ 56 + count) }).advance

/-! ### Resuming and killing (18 R411 to R413) -/

/-- 18 R411. -/
def execWresume (a : BitVec 6) (s : State) : Res :=
  checkedWresume a s fun s =>
    let h := s.lo a.toNat
    match findWave s h with
    | none => svDone s 2 0
    | some w =>
      if 2 ≤ fld h 62 2 then svDone s 4 0
      else match (s.wave w).fault with
        | some m => if (s.wave w).halt then svDone s 1 0 else svDone (resumeWave s w m (decide (fld h 62 2 = 1))) 0 0
        | none => svDone s 1 0

/-- The waves that a kill of a wave ends. -/
def killedBy (s : State) (w : Nat) (group : Bool) : List Nat := if group then groupWaves s (s.wave w).group else [w]

/-- 18 R412. -/
def execWkill (a : BitVec 6) (s : State) : Res :=
  checkedWkill a s fun s =>
    let h := s.lo a.toNat
    match findWave s h with
    | none => svDone s 2 0
    | some w =>
      let ws := killedBy s w (bit h 63)
      ws.foldl endWave (svDone s 0 ws.length)

/-- 18 R413. -/
def execGkill (a : BitVec 6) (s : State) : Res :=
  checkedGkill a s fun s =>
    let h := fld (s.lo a.toNat) 0 32
    match s.grid? h with
    | none => svDone s 3 0
    | some g => if g.st = .retired then svDone s 3 0 else (killGrid (svDone s 0 (killGrid s h).1) h).2

/-! ### The watchdog (18 R404) -/

/-- The wave is in a wait that the watchdog times. -/
def timedWait (x : Wave) : Bool := match x.run with
  | .waiting .timed => true
  | .waiting (.reply _ t) => t
  | .waiting (.barrier _ _) => true
  | _ => false

/-- The limit of a die, in cycles; 0 is off. -/
def wdogLimit (s : State) (d : Nat) : Nat := fld (s.die d).wdog 0 16 * 65536

/-- A wave of the grid is halted, resident or saved (19 R427). -/
def gridHalted (s : State) (h : Nat) : Bool :=
  s.waves.any (fun y => y.2.live && y.2.halt && decide (y.2.grid = h ∧ y.2.run ≠ .ended))
    || s.saved.any fun v => decide (v.grid = h) && v.kept.any (·.halt)

/-- A wave has waited too long, and no wave of its grid is halted (19 R427). -/
def expired (s : State) (w : Nat) : Bool :=
  let x := s.wave w
  let lim := wdogLimit s (coreDie (waveCore w))
  x.live && timedWait x && decide (lim ≠ 0 ∧ x.waitAt + lim < s.cyc) && !beingSaved s x.group && !gridHalted s x.grid

/-- A wait ends with no effect, and the wave stays at its instruction. -/
def abandonWait (s : State) (w : Nat) : State :=
  let s := deregister s (.wave w)
  let v := coreVat (waveCore w)
  let stops := (s.vat v).ctxs.any fun k => k.2.stopper.any fun p => p.1 = w
  let s := s.modVat v fun y => { y with ctxs := y.ctxs.map fun k => (k.1, { k.2 with stopper := k.2.stopper.filter fun p => p.1 ≠ w }) }
  let s := s.modCore (waveCore w) fun c => { c with rrecv := c.rrecv.filter (· ≠ w) }
  (disown s w).modWave w fun x => { x with
    passes := if stops then x.passes - 1 else x.passes
    run := .ready
    again := false
    since := s.cyc
    entered := s.cyc }

/-- 18 R404. -/
def execWatchdogExpire (wave : Nat) (s : State) : Res :=
  .next (if expired s wave then waveFault (abandonWait s wave) wave (codeTrap .watchdog (s.wave wave).word) false else s)

/-! ### Messages of slices and links (18 R408) -/

/-- A corrected error of a slice is counted, and each 1,024th is an event of the controller's log (18 R403, 22 R466). -/
def countCorrected (s : State) (tile : Nat) : State :=
  let s := s.modSlice tile fun c => { c with ecc := c.ecc + 1 }
  if (s.slice tile).ecc.toNat % 1024 = 0 then logEvent s 4 0 else s

/-- 18 R403, R408: a write-back or a scrub meets an error in a line of the slice. One that was corrected, for which an odd
`pa` stands (log 40), is only counted; an uncorrectable one stays in the line until it is written. -/
def execSliceEccError (tile pa : Nat) (s : State) : Res :=
  .next (
    if paStorage s pa && dieLive s (coreDie tile) && decide (paHome pa = tile) then
      if pa % 2 = 1 then countCorrected s tile
      else sliceMessage { s with badLines := if s.badLines.contains (lineOf pa) then s.badLines else s.badLines ++ [lineOf pa] } pa
    else s)

/-- The first `n` of a list that `p` names, and the rest. -/
def takeFirst {α : Type} (p : α → Bool) : Nat → List α → List α × List α
  | _, [] => ([], [])
  | n, x :: t =>
    if p x && decide (n ≠ 0) then
      let (a, b) := takeFirst p (n - 1) t
      (x :: a, b)
    else
      let (a, b) := takeFirst p n t
      (a, x :: b)

/-- Of the accesses and promotions in flight, the first `count` that the dead link may cut are answered with an error at
once, and their number (08 R219, 09 R248); those that are left meet it as they are served (`routeCut`). -/
def cutLink (s : State) (tile dir count : Nat) : Nat × State :=
  let cross (c : Nat × Nat) : Bool := crossesLink tile dir c.1 c.2
  let (reqs, keep) := takeFirst (fun (r : Req) => cross (r.route s)) count s.net.reqs
  let left := count - reqs.length
  let (asks, keep2) := takeFirst (fun (p : Nat × Nat) => cross (waveCore p.2, p.1)) left s.net.promotes
  let (reps, keep3) := takeFirst (fun (p : PromoRep) => cross (p.core, waveCore p.wave)) (left - asks.length) s.net.promoReps
  let s := s.modNet fun n => { n with
    reqs := keep
    promotes := keep2
    promoReps := keep3 ++ asks.map (fun p => ⟨p.2, 0, p.1, true⟩) ++ reps.map fun p => { p with err := true } }
  (reqs.length + asks.length + reps.length, reqs.foldl (fun s r => arriveWrite s r 1) s)

/-- A link dies: what is in flight over it is answered with errors (18 R408; log 40). -/
def killLink (s : State) (tile dir count : Nat) : State :=
  let (n, s) := cutLink s tile dir count
  { s with links := s.links ++ [{ tile := tile, dir := dir, since := s.cyc, count := n }] }
/-- A dead link is told of once its first 1,024 cycles are over, with the messages answered with an error in them
(18 R408). -/
def tellLink (s : State) (l : DeadLink) : State :=
  if l.told || decide (s.cyc < l.since + 1024) then s
  else
    postMessage { s with links := s.links.map fun k => if k = l then { k with told := true } else k } (coreDie l.tile)
      { m0 := msgWord0 Code.ecc.num 7 0 l.dir l.tile false false false false false 0, m2 := BitVec.ofNat 64 l.count }

/-- 18 R408, 08 R219: a link dies, or one that is dead is told of. -/
def execLinkDead (tile dir count : Nat) (s : State) : Res :=
  .next (match s.links.find? fun l => l.tile = tile ∧ l.dir = dir with
    | some l => tellLink s l
    | none => if dir < 4 ∧ pkgPresent s (corePkg tile) ∧ dieLive s (coreDie tile) then killLink s tile dir count else s)

end Sys2Proof.Machine
end

