-- ==== Sys2Proof/Machine/Preempt.lean ====
section
/-! DEFINITION. Pre-emption, the context image, restore and debug (chapter 19). -/

namespace Sys2Proof.Machine

/-! ### The group and what it holds -/

/-- The context that a group keeps across a save: one that is not STOPPING. -/
def keptCtx (s : State) (c g : Nat) : Option Nat :=
  (groupCtx s c g).filter fun n => (s.ctx (coreVat c) n).st ≠ .stopping
/-- The windows that a context holds. -/
def ctxWindows (s : State) (v : Nat) (n : Option Nat) : List (Nat × Window) := match n with
  | some n => (s.vat v).wins.filter fun w => w.2.holders.contains n
  | none => []

def padTo64 (n : Nat) : Nat := (n + 63) / 64 * 64
/-- Bytes of a wave record (19 R420). -/
def recordLen (r : List Word) (i : Nat) : Nat := if i < recFull r then 1536 + 128 * recVregs r else 1536
/-- Where the sections of an image start: wave records, scratch, tags, engines, events, context, windows; and
its length. -/
structure ImageMap where
  waves : List Nat
  scratch : Nat
  tags : Nat
  engines : Nat
  events : Nat
  ctx : Nat
  wins : Nat
  len : Nat
deriving DecidableEq, Repr

/-- The sections of an image (19 R420). -/
def imageMap (r : List Word) (slen : Nat) (ctx : Bool) (sizes : List Nat) : ImageMap :=
  let (ws, scratch) := (List.range (recFull r + recNarrow r)).foldl (fun (a : List Nat × Nat) i => (a.1 ++ [a.2], a.2 + recordLen r i)) ([], 64)
  let tags := padTo64 (scratch + slen)
  let engines := padTo64 (tags + slen / 128)
  let events := engines + 2560
  let c := events + 256
  let w := if ctx then c + 2048 else c
  ⟨ws, scratch, tags, engines, events, c, w, if sizes = [] then w else w + 64 + (sizes.map (1024 * ·)).sum⟩

/-- The sections of a group's image as it stands. -/
def groupMap (s : State) (id : Nat) : ImageMap :=
  match Tbl.get? s.groups id with
  | none => imageMap [] 0 false []
  | some g =>
    let n := keptCtx s g.core id
    imageMap (((s.grid? g.grid).map (·.record)).getD []) g.slen n.isSome ((ctxWindows s (coreVat g.core) n).map (·.2.sizeu))

/-! ### Writing an image (19 R420 to R422) -/

/-- A section's bytes padded with zeros to a length. -/
def fill (n : Nat) (bs : List Byte) : List Byte := bs ++ List.replicate (n - bs.length) 0
def word8 (n : Nat) : List Byte := bytesOf 8 n
def capBytes (c : Cap) : List Byte := bytesOf 8 c.lo.toNat ++ bytesOf 8 c.hi.toNat
def msgBytes (m : FaultMsg) : List Byte := word8 m.m0.toNat ++ word8 m.m1.toNat ++ word8 m.m2.toNat ++ word8 m.m3.toNat

/-- A wave record (19 R421). -/
def waveRecord (x : Wave) (len : Nat) : List Byte :=
  fill len (fill 1536 (
    (List.range 64).flatMap (fun n => capBytes (x.reg n))
      ++ word8 ((List.range 64).map fun n => b2n (x.reg n).tag * 2 ^ n).sum
      ++ capBytes x.pc ++ word8 (b2n x.pc.tag)
      ++ bytesOf 4 x.fmode.toNat ++ bytesOf 4 x.fflags.toNat ++ word8 x.fstat.toNat ++ word8 x.finfo.toNat
      ++ word8 (b2n x.halt * 2 ^ 63 + b2n x.fault.isSome * 2 ^ 62)
      ++ (List.range 32).map (fun l => BitVec.ofNat 8 (b2n (x.nest l).2 * 128 + (x.nest l).1 % 128))
      ++ word8 x.mgg ++ word8 (x.lk.toNat * 2 ^ 32 + x.rf.toNat * 2 ^ 16 + b2n x.gl * 2 + b2n x.gr)
      ++ (List.range 16).flatMap (fun i => word8 (Tbl.get 0 x.mg i))
      ++ msgBytes (x.fault.getD {}))
    ++ (List.range x.vregs).flatMap fun n => (List.range 32).flatMap fun l => bytesOf 4 (x.lane n l).toNat)

/-- A ladle record. -/
def ladleRecord (r : LReq) : List Byte :=
  fill 64 (capBytes r.src ++ capBytes r.dst ++ [BitVec.ofNat 8 (b2n r.src.tag + 2 * b2n r.dst.tag), BitVec.ofNat 8 r.ch, BitVec.ofNat 8 r.by_.widx]
    ++ List.replicate 5 0 ++ word8 r.ccmd.toNat)
/-- A harp record. -/
def harpRecord (r : HReq) : List Byte :=
  fill 32 (capBytes r.block ++ [BitVec.ofNat 8 (b2n r.block.tag), BitVec.ofNat 8 r.op, BitVec.ofNat 8 r.by_.widx])

/-- The carried sinks, by their place in the image (19 R422). -/
def carriedSinks (civ : Nat) (n : Option Nat) : List Nat :=
  (List.range 8).map (8 * civ + ·) ++ match n with
    | some n => [32 + n, 36 + n]
    | none => []
/-- The events section. -/
def eventBytes (s : State) (c : Nat) (n : Option Nat) : List Byte :=
  let v := s.vat (coreVat c)
  let sinks := (carriedSinks (coreInVat c) n).zipIdx
  let rows := (List.range 64).flatMap fun r => bytesOf 2 ((sinks.map fun k => b2n (bit (Tbl.get 0 v.rows r) k.1) * 2 ^ k.2).sum)
  fill 192 (rows ++ fill 10 (sinks.map fun k => BitVec.ofNat 8 (Tbl.get 0 v.cnt k.1)) ++ bytesOf 2 ((sinks.map fun k => b2n (Tbl.get false v.ovf k.1) * 2 ^ k.2).sum))
    ++ (List.range 8).flatMap fun ch => word8 (Tbl.get 0 (s.core c).ccmd ch).toNat

/-- The press registers that an operation latches (13 R315, 14 R345). -/
def PressOp.latches : PressOp → List Nat
  | .pass => [1, 2, 3, 4, 5, 6]
  | .clear => [6]
  | .join => [5, 6, 8, 9, 10, 11, 12]
  | .drain _ => [5, 6, 8, 9, 10, 11, 12]
/-- A recorded reservation entry. -/
def entryBytes (e : REntry) : List Byte :=
  fill 128 (word8 e.word.toNat ++ word8 e.ma.toNat ++ word8 e.mb.toNat
    ++ (List.range 13).flatMap fun n => word8 (if e.op.latches.contains n then (Tbl.get 0 e.regs n).toNat else 0))
def CtxSt.num : CtxSt → Nat
  | .halted => 1
  | .faulted => 2
  | _ => 0
/-- The context section. -/
def ctxBytes (x : Ctx) (es : List REntry) : List Byte :=
  fill 2048 (fill 1024 (fill 320 (fill 192 (
      word8 0 ++ (List.range 15).flatMap (fun n => word8 (x.reg (n + 1)).toNat)
        ++ capBytes x.pc ++ capBytes x.arena ++ word8 (b2n x.arena.tag))
      ++ (List.range 15).flatMap fun n => word8 (x.pr n).toNat)
    ++ word8 x.st.num) ++ es.flatMap entryBytes)

/-- A window's descriptor, in the layout of `PRES`, and its slots. -/
def windowWord (n : Nat) (w : Window) : Nat := n * 2 ^ 48 + b2n w.hash * 2 ^ 51 + w.baseu * 2 ^ 16 + w.sizeu
def slotBytes (x : Slot) : List Byte := bytesOf 16 (x.st * 2 ^ 80 + x.key % 2 ^ 48 * 2 ^ 32 + x.val.toNat)
def windowBytes (s : State) (v : Nat) (ws : List (Nat × Window)) : List Byte :=
  if ws = [] then [] else
    fill 64 (ws.flatMap fun w => word8 (windowWord w.1 w.2))
      ++ ws.flatMap fun w => (List.range (64 * w.2.sizeu)).flatMap fun i => slotBytes (acfAt s v (64 * w.2.baseu + i))

/-- Scratch and its tags. -/
def scratchBytes (s : State) (k n : Nat) : List Byte := memBytes s k n
def tagBytes (s : State) (k n : Nat) : List Byte :=
  (List.range (n / 128)).map fun m => BitVec.ofNat 8 (((List.range 8).map fun i => b2n (readTag s (k + 16 * (8 * m + i))) * 2 ^ i).sum)

/-- The header (19 R420). -/
def headerBytes (m : ImageMap) (g : Group) (r : List Word) (ctx : Bool) (nwin nlad nharp npend : Nat) (oslots : Nat) : List Byte :=
  fill 64 (word8 (0x4D37 * 2 ^ 48 + 2 ^ 40 + m.len) ++ word8 (g.grid * 2 ^ 32 + g.gidx % 2 ^ 32)
    ++ word8 (recFull r * 2 ^ 37 + recNarrow r * 2 ^ 32 + recVregs r * 2 ^ 24) ++ word8 (g.soff * 2 ^ 22 + g.slen)
    ++ word8 (b2n ctx * 2 ^ 47 + nwin * 2 ^ 43 + nlad * 2 ^ 37 + nharp * 2 ^ 32 + npend * 2 ^ 28 + g.core) ++ word8 oslots)

/-- The requests of a group that have not started. -/
def groupLadle (s : State) (c id : Nat) : List LReq := (s.core c).fifo.filter fun r => decide (r.by_.group = id) && !r.running
def groupHarp (s : State) (c id : Nat) : List HReq := (s.vat (coreVat c)).harp.filter fun r => decide (r.by_.group = id) && !r.running
def ctxEntries (s : State) (v : Nat) (n : Option Nat) : List REntry := match n with
  | some n => (s.vat v).rtab.filter fun e => e.ctx = n
  | none => []

/-- The whole image of a group that has come to rest. -/
def imageBytes (s : State) (id : Nat) (g : Group) : List Byte :=
  let r := ((s.grid? g.grid).map (·.record)).getD []
  let m := groupMap s id
  let v := coreVat g.core
  let n := keptCtx s g.core id
  let ws := groupWaves s id
  let es := ctxEntries s v n
  let win := ctxWindows s v n
  let record (i : Nat) : List Byte := match ws.find? fun w => (s.wave w).widx = i with
    | some w => waveRecord (s.wave w) (recordLen r i)
    | none => List.replicate (recordLen r i) 0
  let key := scratchKey g.core g.soff
  fill m.tags (headerBytes m g r n.isSome win.length (groupLadle s g.core id).length (groupHarp s g.core id).length es.length
      ((ws.map fun w => 2 ^ waveSlot w).sum)
    ++ (List.range (recFull r + recNarrow r)).flatMap record ++ scratchBytes s key g.slen)
  ++ fill (m.engines - m.tags) (tagBytes s key g.slen)
  ++ fill 2048 ((groupLadle s g.core id).flatMap ladleRecord) ++ fill 512 ((groupHarp s g.core id).flatMap harpRecord)
  ++ eventBytes s g.core n
  ++ (match n with
    | some k => ctxBytes (s.ctx v k) es
    | none => [])
  ++ windowBytes s v win

/-! ### The save (19 R417, R418, R425) -/

/-- The word of an instruction whose wait the part bounds itself: `FENCE`, `REL`, `ACQ`, `ACQP`, `CWAIT`, `INVI`,
`INVL1` (19 R417 step 1). -/
def boundedWord (w : W32) : Bool :=
  let f := fld w 20 6
  decide ((fld w 26 6 = 0x37 ∧ 8 ≤ fld w 0 5 ∧ fld w 0 5 ≤ 11) ∨ (fld w 26 6 = 0x3D ∧ (f = 3 ∨ f = 8 ∨ f = 9)))
/-- A wave of a group that is being saved goes on with such a wait. -/
def finishing (x : Wave) : Bool := x.again && boundedWord x.word

/-- Steps 1, 3 and 5 for one wave: it issues nothing more, its gathered stores leave, and a wait that the part
does not bound is given up. -/
def quietWave (s : State) (w : Nat) : State :=
  let s := drainWhere s (waveCore w) (holdsWave w)
  let s := if (s.core (waveCore w)).port.st = .armed then closePort s w else s
  let s := s.modCore (waveCore w) fun c => { c with rrecv := c.rrecv.filter (· ≠ w) }
  match (s.wave w).run with
  | .waiting (.barrier _ _) => abandonWait s w
  | .waiting (.reply _ true) => abandonWait s w
  | _ => s

/-- The save begins. -/
def beginSave (s : State) (id : Nat) (image : Cap) (w d : Nat) : State :=
  match Tbl.get? s.groups id with
  | none => s
  | some g =>
    let s := { s with groups := Tbl.set s.groups id { g with saving := some (image, w, d) } }
    let s := (groupWaves s id).foldl quietWave s
    match groupCtx s g.core id with
    | some n =>
      let s := deregister s (.ctx (coreVat g.core) n)
      s.modCtx (coreVat g.core) n fun x => { x with wait := none }
    | none => s

/-- A `CWAIT` whose counts do not come down once nothing is in flight waits for requests that the save records, which do
not start: it is at its boundary. DESIGN CHOICE (log 32). -/
def cwaitStuck (x : Wave) : Bool :=
  let f (lo : Nat) : BitVec 5 := BitVec.ofNat 5 (fld x.word lo 5)
  decide (fld x.word 20 12 = 0x3D * 2 ^ 6 + 3) && !x.countsAtMost (f 15) (f 10) (f 5) (f 0)

/-- A store, atomic or acknowledgement of the group's waves, ended ones among them: by its wave's slot and its grid. -/
def ofGroup (s : State) (id : Nat) (g : Group) (w grid : Nat) : Bool :=
  decide (grid = g.grid) && g.waves.contains (w % 2 ^ 40) && (decide (2 ^ 40 ≤ w) || decide ((s.wave w).group = id))
/-- Steps 2 and 3: every store and atomic of the group is acknowledged, and its port is not in RUN. -/
def storesDone (s : State) (id : Nat) (g : Group) : Bool :=
  let c := s.core g.core
  !s.net.reqs.any (fun r => decide (r.sid < 16) && ofGroup s id g r.wave r.grid)
    && !s.net.acks.any (fun a => ofGroup s id g a.wave a.grid) && !c.squeue.any (fun q => ofGroup s id g q.wave q.grid)
    && !c.sgb.any (fun e => g.waves.any fun w => holdsWave w e && decide ((s.wave w).group = id))
    && !(decide (c.port.st = .run) && g.waves.contains c.port.owner)

/-- Step 4: no arrival, credit or firing of an engine is on its way. -/
def signalsDone (s : State) (g : Group) : Bool :=
  let key := scratchKey g.core g.soff
  let own (k : Credit) : Bool := decide (key ≤ k.key ∧ k.key < key + g.slen)
  !s.net.arrivals.any own && !s.net.credits.any own && !s.net.events.any fun e => e.vat = coreVat g.core

/-- The group has come to rest: steps 1 to 4 are done. -/
def saveReady (s : State) (id : Nat) (g : Group) : Bool :=
  let v := coreVat g.core
  (groupWaves s id).all (fun w =>
    let x := s.wave w
    decide (x.loads = 0 ∧ x.stores = 0 ∧ x.vq = []) && (!finishing x || cwaitStuck x)
      && (match x.run with
        | .waiting (.reply _ _) => false
        | .waiting (.lease _) => false
        | _ => true))
    && storesDone s id g && signalsDone s g
    && !(s.core g.core).fifo.any (fun r => decide (r.by_.group = id) && r.running)
    && !(s.vat v).harp.any (fun r => decide (r.by_.group = id) && r.running)
    && (match groupCtx s g.core id with
      | some n => !(s.vat v).rtab.any (fun e => decide (e.ctx = n) && e.granted) && decide ((s.ctx v n).st ≠ .stopping)
      | none => true)

/-- An `XEND` that waited for a port that is DONE ends; the port is then IDLE (16 R390, 19 R417). -/
def finishXend (s : State) (w : Nat) : State :=
  let p := (s.core (waveCore w)).port
  if p.st ≠ .done ∨ !p.ownedBy w then s
  else
    let word := (s.wave w).word
    let s := if (s.wave w).again ∧ fld word 18 14 = 0x3B * 2 ^ 8 + 5 then
        let old := s.cur
        { ({ s with cur := .wave w }.setData (fld word 12 6) p.status).advance with cur := old }
      else s
    s.modCore (waveCore w) fun c => { c with port := c.port.idle }

/-- Step 8, and the carried event state: what the group held on its core is free. -/
def freeSaved (s : State) (id : Nat) (g : Group) : State :=
  let v := coreVat g.core
  let n := keptCtx s g.core id
  let sinks := carriedSinks (coreInVat g.core) n
  let mask : Word := BitVec.ofNat 64 ((sinks.map fun k => 2 ^ k).sum)
  let s := s.modVat v fun x => { x with
    rows := x.rows.map fun r => (r.1, r.2 &&& ~~~mask)
    cnt := sinks.foldl Tbl.erase x.cnt
    ovf := sinks.foldl Tbl.erase x.ovf
    harp := x.harp.filter fun r => r.by_.group ≠ id
    rtab := match n with
      | some n => x.rtab.filter fun e => e.ctx ≠ n
      | none => x.rtab
    wins := match n with
      | some n => dropHolder x.wins n
      | none => x.wins
    ctxs := match n with
      | some n => Tbl.erase x.ctxs n
      | none => x.ctxs }
  let s := s.modCore g.core fun c => { c with
    fifo := c.fifo.filter fun r => r.by_.group ≠ id
    streams := c.streams.filter fun t => !t.2.owner.any fun w => decide ((s.wave w).group = id)
    rrecv := c.rrecv.filter fun w => decide ((s.wave w).group ≠ id)
    relq := c.relq.filter fun w => decide ((s.wave w).group ≠ id)
    hprog := c.hprog.map fun h => if h.user = some id then { h with user := none } else h }
  (groupWaves s id).foldl (fun s w => s.setWave w {}) { s with groups := Tbl.erase s.groups id }

/-- What an image does not hold of a wave. -/
def keptOf (x : Wave) : Kept := ⟨x.widx, x.halt, x.poison, x.uid, x.clk, x.l1clk⟩

/-- Every wait on a barrier object in the group's scratch is over (step 5), so the image holds no registration; then the
image is written, and the group waits to be restored. -/
def finishSave (s : State) (id : Nat) (g : Group) (image : Cap) (w : Nat) : Nat × State :=
  let s := (groupWaves s id).foldl finishXend s
  let key := scratchKey g.core g.soff
  let s := invalidateWaiters s fun k => decide (key ≤ k ∧ k < key + g.slen)
  let n := keptCtx s g.core id
  let ws := groupWaves s id
  let bs := imageBytes s id g
  let asid := ((s.grid? (s.wave w).grid).map (·.asid)).getD 0
  let sv : Saved := {
    grid := g.grid, gidx := g.gidx, image := image.addr, asid := asid, viewer := waveCore w, core := g.core, slots := g.held ++ ws
    alive := ws.map fun v => (s.wave v).widx
    starter := (n.map fun n => (s.ctx (coreVat g.core) n).wave).bind fun v => if ws.contains v then some (s.wave v).widx else none
    kept := ws.map fun v => keptOf (s.wave v)
    context := n.map fun n => ((s.ctx (coreVat g.core) n).uid, (s.ctx (coreVat g.core) n).clk)
    entries := ctxEntries s (coreVat g.core) n, since := s.cyc }
  let s := freeSaved s id g
  let s := writeAcross s {} (waveCore w) asid image.addr (granules (bs.length / 16) bs)
  (bs.length, { s with saved := s.saved ++ [sv] })

/-- 19 R417. A group that a kill has ended is not saved (18 R414). -/
def execSaveComplete (n : Nat) (s : State) : Res :=
  .next (match Tbl.get? s.groups n with
    | none => s
    | some g =>
      match g.saving with
      | none => s
      | some (image, w, d) =>
        let answer (s : State) (st len : Nat) : State := wakeAgent s { agent := .wave w, d := d, value := BitVec.ofNat 64 (st * 2 ^ 56 + len) }
        if (groupWaves s n).isEmpty then answer { s with groups := Tbl.set s.groups n { g with saving := none } } 1 0
        else if saveReady s n g then
          let (len, s) := finishSave s n g image w
          answer s 0 len
        else s)

/-- 19 R425. -/
def execGpreempt (d a : BitVec 6) (s : State) : Res :=
  checkedGpreempt d a s fun s =>
    let done (st : Nat) (s : State) : State := (s.setData d.toNat (BitVec.ofNat 64 (st * 2 ^ 56))).advance
    match findWave s (s.lo a.toNat) with
    | none => done 1 s
    | some w =>
      let id := (s.wave w).group
      if (groupWaves s id).any fun v => decide (v = s.curW) || (s.wave v).sup then done 3 s
      else if beingSaved s id then done 2 s
      else
        let cap := s.reg (a.toNat + 1)
        withAccess s cap cap.addr (groupMap s id).len permST 64 .store fun _ s =>
          beginSave (park s (.reply d.toNat)) id cap s.curW d.toNat

/-! ### The restore (19 R423, R424) -/

/-- A number in an image. -/
def imgNat (bs : List Byte) (off n : Nat) : Nat := ofBytes ((bs.drop off).take n)
def imgWord (bs : List Byte) (off : Nat) : Word := BitVec.ofNat 64 (imgNat bs off 8)
def imgCap (bs : List Byte) (off : Nat) (tag : Bool) : Cap := ⟨tag, imgWord bs (off + 8), imgWord bs off⟩

/-- The header of an image, checked against the grid's record (19 R424 step 1). -/
def imageBad (bs : List Byte) (r : List Word) : Bool :=
  let w (i : Nat) : Word := imgWord bs (8 * i)
  decide (fld (w 0) 48 16 ≠ 0x4D37 ∨ fld (w 0) 40 8 ≠ 1 ∨ fld (w 0) 32 8 ≠ 0 ∨ fld (w 2) 42 22 ≠ 0 ∨ fld (w 2) 0 24 ≠ 0
    ∨ fld (w 3) 43 21 ≠ 0 ∨ fld (w 4) 48 16 ≠ 0 ∨ fld (w 4) 20 8 ≠ 0 ∨ fld (w 5) 32 32 ≠ 0 ∨ w 6 ≠ 0 ∨ w 7 ≠ 0
    ∨ fld (w 2) 37 5 ≠ recFull r ∨ fld (w 2) 32 5 ≠ recNarrow r ∨ fld (w 2) 24 8 ≠ recVregs r ∨ fld (w 3) 0 22 ≠ recScratchLen r
    ∨ 8 < fld (w 4) 43 4 ∨ 32 < fld (w 4) 37 6 ∨ 16 < fld (w 4) 32 5 ∨ 8 < fld (w 4) 28 4)

def imgSoff (bs : List Byte) : Nat := fld (imgWord bs 24) 22 21
def imgCtx (bs : List Byte) : Bool := bit (imgWord bs 32) 47
def imgNwin (bs : List Byte) : Nat := fld (imgWord bs 32) 43 4

/-- Read `n` bytes of an image. -/
def readImage (s : State) (v : Saved) (n : Nat) : Option (List Byte) × State :=
  match engineRead s v.viewer v.asid v.image n with
  | (.ok bs, s) => (some bs, s)
  | (.error _, s) => (none, s)

/-- The window descriptors of an image: number, window without holders. -/
def imgWindow (w : Word) : Nat × Window := (fld w 48 3, ⟨bit w 51, fld w 16 9, fld w 0 10, []⟩)
/-- Where the window section starts, from the header alone. -/
def imgWins (bs : List Byte) (r : List Word) : Nat := (imageMap r (recScratchLen r) (imgCtx bs) []).wins

/-- A saved window may be held in the vat again. -/
def windowFits (s : State) (v : Nat) (w : Nat × Window) : Bool := match winAt s v w.1 with
  | some o => decide (o.hash = w.2.hash ∧ o.baseu = w.2.baseu ∧ o.sizeu = w.2.sizeu)
  | none => !(s.vat v).wins.any fun o => decide (o.2.baseu < w.2.baseu + w.2.sizeu ∧ w.2.baseu < o.2.baseu + o.2.sizeu)

/-- The slots that a restore takes on a core: those held for it there, or free ones. -/
def restoreSlots (s : State) (v : Saved) (c : Nat) : List Nat :=
  let own := v.slots.filter fun w => waveCore w = c
  if own.length = v.alive.length then own else ((freeSlots s c).take v.alive.length).map (c * 32 + ·)

/-- Some core could hold the group with nothing resident. -/
def restoreEver (s : State) (r : List Word) (soff : Nat) (c : Nat) : Bool :=
  fitsEver s r c && decide (scratchStart c ≤ soff ∧ soff + recScratchLen r ≤ scratchStart c + usable s c)
/-- A restore is granted as a pending index of its grid is: to a core that asks, before the pool tasks that rank lower
(07 R179, R180). DESIGN CHOICE (log 33): a pool task is granted without regard to the restores that rank before it. -/
def restoreRanks (s : State) (v : Saved) (c : Nat) : Bool := asks s c && match (grantable s c).1 with
  | some t => ranksBefore s ⟨v.grid, v.gidx, v.gidx + 1, .pool (coreDie c), v.since⟩ t
  | none => true
def imgNlad (bs : List Byte) : Nat := fld (imgWord bs 32) 37 6
def imgNharp (bs : List Byte) : Nat := fld (imgWord bs 32) 32 5
def imgNpend (bs : List Byte) : Nat := fld (imgWord bs 32) 28 4
/-- The queues of a core and its vat have room for the requests of an image (00 R1). -/
def queuesFit (s : State) (c : Nat) (hd : List Byte) : Bool :=
  let v := s.vat (coreVat c)
  decide ((s.core c).fifo.length + imgNlad hd ≤ 32 ∧ v.harp.length + imgNharp hd ≤ 16 ∧ v.rtab.length + imgNpend hd ≤ 16)
/-- A core takes the restore now (19 R423), and what comes with it finds room. -/
def restoreNow (s : State) (v : Saved) (r : List Word) (hd : List Byte) (ws : List (Nat × Window)) (c : Nat) : Bool :=
  let soff := imgSoff hd
  let ctx := imgCtx hd
  let own := v.slots.filter fun w => waveCore w = c
  restoreRanks s v c && restoreEver s r soff c && queuesFit s c hd && rangeFree s c soff (recScratchLen r)
    && (decide (own.length = v.alive.length) || decide (recFull r + recNarrow r ≤ (freeSlots s c).length))
    && decide (blocksUsed s c + recFull r * recVregs r / 8 ≤ capBlocks s c)
    && (!ctx || (freeCtxOf s (coreVat c)).isSome) && ws.all (windowFits s (coreVat c)) && admitted s c (recClass r)

/-- A BCIV that named the old core-in-vat names the new one. -/
def recastCiv (w : Word) (lo old new : Nat) : Word := if fld w lo 2 = old then setFld w lo 2 new else w

/-- A wave's state from its record (19 R421, R424 step 3); a fault is posted again. -/
def loadWave (s : State) (w : Nat) (bs : List Byte) : State :=
  let x := s.wave w
  let tags := imgNat bs 1024 8
  let st := imgWord bs 1080
  let err := imgWord bs 1120 
  let e := imgWord bs 1128
  let c := waveCore w
  let m : FaultMsg := ⟨imgWord bs 1264, imgWord bs 1272, imgWord bs 1280, imgWord bs 1288⟩
  let m := { m with m0 := setFld (setFld (setFld (setFld m.m0 47 5 (waveSlot w)) 24 20 c) 21 1 1) 0 16 (Tbl.get 0 (s.core c).wtag (waveSlot w)).toNat }
  let x := { x with
    c := (List.range 63).map fun n => (n + 1, imgCap bs (16 * (n + 1)) (tags.testBit (n + 1)))
    pc := imgCap bs 1032 (decide (imgNat bs 1048 1 % 2 = 1))
    fmode := BitVec.ofNat 32 (imgNat bs 1056 4), fflags := BitVec.ofNat 32 (imgNat bs 1060 4)
    fstat := imgWord bs 1064, finfo := imgWord bs 1072
    halt := bit st 63
    nc := (List.range 32).map fun l => (l, imgNat bs (1088 + l) 1 % 128)
    bk := (List.range 32).map fun l => (l, decide (128 ≤ imgNat bs (1088 + l) 1))
    mgg := err.toNat, lk := BitVec.ofNat 16 (fld e 32 16), rf := BitVec.ofNat 16 (fld e 16 16), gl := bit e 1, gr := bit e 0
    mg := (List.range 16).map fun i => (i, imgNat bs (1136 + 8 * i) 8)
    v := (List.range (x.vregs * 32)).map fun i => (i, BitVec.ofNat 32 (imgNat bs (1536 + 4 * i) 4)) }
  if bit st 62 then postMessage (s.setWave w { x with run := .waiting .fault, fault := some m }) (coreDie c) m
  else s.setWave w x

/-- Steps 4 and 8 for a context: itself, and its recorded entries. -/
def loadCtx (s : State) (v : Saved) (bs : List Byte) (off c id n : Nat) (starter npend : Nat) : State :=
  let r (i : Nat) : Word := imgWord bs (off + i)
  let vt := coreVat c
  let x : Ctx := {
    st := match (r 320).toNat with
      | 1 => .halted
      | 2 => .faulted
      | _ => .run
    uid := (v.context.map (·.1)).getD 0, clk := (v.context.map (·.2)).getD []
    group := id, grid := v.grid, wave := starter, wtag := Tbl.get 0 (s.core c).wtag (waveSlot starter)
    m := (List.range 15).map fun i => (i + 1, r (8 * (i + 1)))
    pc := imgCap bs (off + 128) true
    arena :=
      let a := imgCap bs (off + 144) (decide (imgNat bs (off + 160) 1 % 2 = 1))
      if a.base / 2 ^ 48 = 0x7E ∨ a.base / 2 ^ 48 = 0x7F then recastArena a (coreInVat c) else a
    regs := (List.range 15).map fun i => (i, r (192 + 8 * i)) }
  let es := (List.range npend).filterMap fun e => (v.entries[e]?).map fun y =>
    let w (i : Nat) : Word := imgWord bs (off + 1024 + 128 * e + i)
    { y with ctx := n, word := BitVec.ofNat 32 (w 0).toNat, ma := w 8, mb := w 16, posted := s.cyc
             regs := y.op.latches.foldl (fun t i => Tbl.set t i (w (24 + 8 * i))) y.regs }
  (s.setCtx vt n x).modVat vt fun y => { y with rtab := y.rtab ++ es }

/-- Step 5: the windows, whose slots the bytes hold one after another. -/
def loadWindows (s : State) (vt n : Nat) (bs : List Byte) : List (Nat × Window) → State
  | [] => s
  | w :: t =>
    let s := match winAt s vt w.1 with
      | some o => s.modVat vt fun y => { y with wins := Tbl.set y.wins w.1 { o with holders := o.holders ++ [n] } }
      | none =>
        (List.range (64 * w.2.sizeu)).foldl (fun s i =>
          let x := imgNat bs (16 * i) 16
          setAcf s vt (64 * w.2.baseu + i) ⟨x / 2 ^ 80 % 4, x / 2 ^ 32 % 2 ^ 48, BitVec.ofNat 32 x⟩)
          (s.modVat vt fun y => { y with wins := Tbl.set y.wins w.1 { w.2 with holders := [n] } })
    loadWindows s vt n (bs.drop (1024 * w.2.sizeu)) t

/-- Steps 6 and 7: events and command words. -/
def loadEvents (s : State) (bs : List Byte) (off c : Nat) (n : Option Nat) (old : Nat) : State :=
  let sinks := (carriedSinks (coreInVat c) n).zipIdx
  let s := s.modVat (coreVat c) fun x => { x with
    rows := (List.range 64).foldl (fun t r =>
      let m := imgNat bs (off + 2 * r) 2
      if m = 0 then t else Tbl.set t r (Tbl.get 0 t r ||| BitVec.ofNat 64 ((sinks.map fun k => b2n (m.testBit k.2) * 2 ^ k.1).sum))) x.rows
    cnt := sinks.foldl (fun t k => Tbl.set t k.1 (Nat.min 255 (Tbl.get 0 t k.1 + imgNat bs (off + 128 + k.2) 1))) x.cnt
    ovf := sinks.foldl (fun t k =>
      let past := decide (255 < Tbl.get 0 x.cnt k.1 + imgNat bs (off + 128 + k.2) 1)
      Tbl.set t k.1 (Tbl.get false t k.1 || past || (imgNat bs (off + 138) 2).testBit k.2)) x.ovf }
  s.modCore c fun x => { x with
    ccmd := (List.range 8).foldl (fun t ch => Tbl.set t ch (recastCiv (imgWord bs (off + 192 + 8 * ch)) 53 old (coreInVat c))) x.ccmd }

/-- The restored wave with an index, as one that hands an engine its request. -/
def restoredPusher (s : State) (id : Nat) (i : Nat) : Pusher :=
  let w := ((groupWaves s id).find? fun w => (s.wave w).widx = i).getD (2 ^ 40)
  let g := (Tbl.get? s.groups id).getD { grid := 0, gidx := 0, core := 0, waves := [], soff := 0, slen := 0 }
  ⟨w, if w < 2 ^ 40 then Tbl.get 0 (s.core g.core).wtag (waveSlot w) else 0, id, g.grid, g.gidx, ((s.grid? g.grid).map (·.asid)).getD 0, i⟩

/-- Step 8: one ladle record is queued again. -/
def requeueLadle (s : State) (id c old : Nat) (bs : List Byte) : State :=
  let t := imgNat bs 32 1
  let src := imgCap bs 0 (t.testBit 0)
  let ch := imgNat bs 33 1 % 8
  let w := recastCiv (imgWord bs 40) 53 old (coreInVat c)
  let p := restoredPusher s id (imgNat bs 34 1)
  let seq := (Tbl.get 0 (s.core c).pushes ch + 1) % 2 ^ 32
  let (u, s) := s.newAgent
  (s.modCore c fun x => { x with
    pushes := Tbl.set x.pushes ch seq
    fifo := x.fifo ++ [{ ch := ch, src := src, dst := imgCap bs 16 (t.testBit 1), ccmd := w, by_ := p, seq := seq, uid := u, len := outLen w src.fmt (src.top - src.addr) }] }).modPusher p
    fun x => { x with copies := x.copies + 1 }

/-- The block of a harp record, read afresh by a wave through its saved capability; or the code of the check that fails
(01 R17, 18 R403). -/
def rereadBlock (s : State) (reader : Nat) (block : Cap) : Except Code (List Cap) × State :=
  match checkCap block block.addr 128 (permLD + permLC) 64 with
  | some t => (.error t.code, s)
  | none =>
    let back (t : State) : State := { t with cur := s.cur }
    match mapAcross { s with cur := .wave reader } block.addr 8 with
    | (none, t) => (.error .xlate, back t)
    | (some ks, t) => match readKeys t (ks.take 5) with
      | (gs, none, t) => (.ok gs, back t)
      | (_, some _, t) => (.error .ecc, back t)

/-- Step 8: one harp record. DESIGN CHOICE (log 33): a block that cannot be read, or whose capabilities no longer pass the
checks of the push, ends the request as an abort does; one that is a bad request by now is dropped. -/
def requeueHarp (s : State) (id c old : Nat) (bs : List Byte) : State :=
  let block := imgCap bs 0 (decide (imgNat bs 16 1 % 2 = 1))
  let p := restoredPusher s id (imgNat bs 18 1)
  let abort (s : State) (code : Code) : State := harpMsg s (coreVat c) p code.num 0 false
  match rereadBlock s (if p.wave < 2 ^ 40 then p.wave else (groupWaves s id).headD 0) block with
  | (.error e, s) => abort s e
  | (.ok gs, s) =>
    let at_ (n : Nat) : Cap := gs.getD n {}
    let (u, s) := s.newAgent
    let r : HReq := { op := imgNat bs 17 1, block := block, tbl := at_ 0, idx := at_ 1, aux := at_ 2, dst := at_ 3, h0 := (at_ 4).lo,
                      h1 := recastCiv (at_ 4).hi 50 old (coreInVat c), core := c, by_ := p, uid := u }
    match blockTraps r with
    | some t => abort s t.code
    | none =>
      if harpBad r then s
      else (s.modVat (coreVat c) fun x => { x with harp := x.harp ++ [r] }).modPusher p fun x => { x with passes := x.passes + 1 }

/-- A restored wave takes up what its image does not hold; what an INVL1 on another core has ordered does not hold here
(01 R37; log 32). -/
def takeKept (s : State) (v : Saved) (w c : Nat) : State :=
  match v.kept.find? fun k => k.widx = (s.wave w).widx with
  | some k => s.modWave w fun x => { x with poison := k.poison, uid := k.uid, clk := k.clk, l1clk := if v.core = c then k.l1clk else [] }
  | none => s

/-- Rebuild a saved group on a core from its image. -/
def rebuild (s : State) (v : Saved) (g : Grid) (c : Nat) (bs : List Byte) (ws : List (Nat × Window)) : State :=
  let r := g.record
  let slen := recScratchLen r
  let soff := imgSoff bs
  let m := imageMap r slen (imgCtx bs) (ws.map (·.2.sizeu))
  let key := scratchKey c soff
  let id := s.groupNo
  let slots := restoreSlots s v c
  let old := coreInVat (fld (imgWord bs 32) 0 20)
  let s := { s with saved := s.saved.erase v }
  -- the lease clock that its waves read does not go back (01 R28)
  let s := passTime s (coreDie c) (leaseNow s (coreDie v.core))
  let s := note (note s ⟨coreDie c, v.grid, 1, v.gidx, v.gidx + 1⟩) ⟨coreDie c, v.grid, 2, v.gidx, v.gidx + 1⟩
  let s := switchGrid (charge s c (recClass r)) c v.grid
  let base := baseGroup s c
  -- step 2
  let s := poke s key ((bs.drop m.scratch).take slen)
  let tags : List (Byte × Nat) := ((bs.drop m.tags).take (slen / 128)).zipIdx
  let s := { s with tags := tags.foldl (fun t (b : Byte × Nat) => (List.range 8).foldl (fun t i =>
    Tbl.put false t (key / 16 + 8 * b.2 + i) (bit b.1 i)) t) s.tags }
  -- step 3
  let s := { s with
    groupNo := id + 1
    groups := Tbl.set s.groups id { grid := v.grid, gidx := v.gidx, core := c, waves := slots, soff := soff, slen := slen
                                    held := v.slots.filter fun w => !slots.contains w } }
  let s := (slots.zip v.alive).foldl (fun s n =>
    let s := startWave s n.1 id v.grid v.gidx n.2 soff base r g.sup {} 0
    takeKept (loadWave s n.1 ((bs.drop (m.waves.getD n.2 0)).take (recordLen r n.2))) v n.1 c) s
  -- steps 4 to 7
  let n := if imgCtx bs then freeCtxOf s (coreVat c) else none
  let s := match n with
    | some n =>
      let st := ((slots.zip v.alive).find? fun a => some a.2 = v.starter).map (·.1)
      loadWindows (loadCtx s v bs m.ctx c id n (st.getD (c * 32)) (imgNpend bs)) (coreVat c) n (bs.drop (m.wins + 64)) ws
    | none => s
  let s := loadEvents s bs m.events c n old
  -- step 8
  let s := (List.range (imgNlad bs)).foldl (fun s i => requeueLadle s id c old ((bs.drop (m.engines + 64 * i)).take 64)) s
  let s := (List.range (imgNharp bs)).foldl (fun s i => requeueHarp s id c old ((bs.drop (m.engines + 2048 + 32 * i)).take 32)) s
  -- step 9
  writeAcross s {} v.viewer v.asid v.image [word8 0 ++ (bs.drop 8).take 8]

/-- A saved group that no core can ever hold is discarded: its grid completes with NO_FIT, and goes on without it (19 R423,
05 R150, 15 R382). -/
def discardSaved (s : State) (v : Saved) : State :=
  let s : State := { s with saved := s.saved.erase v }
  endGroup (s.modGrid v.grid fun y => { y with nofit := true }) v.grid v.gidx

/-- 19 R423, R424: a core takes a saved group. -/
def execRestore (core n : Nat) (s : State) : Res :=
  .next (match s.saved[n]? with
    | none => s
    | some v =>
      match s.grid? v.grid with
      | none => { s with saved := s.saved.erase v }
      | some g =>
        match readImage s v 64 with
        | (none, s) => (killGrid s v.grid).2
        | (some hd, s) =>
          let r := g.record
          let off := imgWins hd r
          let fail (s : State) : State := (killGrid s v.grid).2
          if imageBad hd r then fail s
          else match readImage s v (if imgNwin hd = 0 then off else off + 64) with
            | (none, s) => fail s
            | (some b1, s) =>
              let ws := (List.range (imgNwin hd)).map fun i => imgWindow (imgWord b1 (off + 8 * i))
              if !((liveDies s).any fun d => (dieCores d).any (restoreEver s r (imgSoff hd))) then
                discardSaved s v
              else if restoreNow s v r hd ws core then
                match readImage s v (imageMap r (recScratchLen r) (imgCtx hd) (ws.map (·.2.sizeu))).len with
                | (some bs, s) => rebuild s v g core bs ws
                | (none, s) => fail s
              else s)

/-! ### Debug (19 R426) -/

/-- 19 R426. -/
def execDbghalt (a : BitVec 6) (s : State) : Res :=
  checkedDbghalt a s fun s => match findWave s (s.lo a.toNat) with
    | some w => (svDone s 0 0).modWave w fun x => { x with halt := true }
    | none => svDone s 2 0
/-- 19 R426. -/
def execDbgrun (a : BitVec 6) (s : State) : Res :=
  checkedDbgrun a s fun s => match findWave s (s.lo a.toNat) with
    | some w => (svDone s 0 0).modWave w fun x =>
      if !x.halt then x
      else { x with halt := false, run := if x.run = .window then .ready else x.run, since := s.cyc, entered := s.cyc }
    | none => svDone s 2 0

end Sys2Proof.Machine
end

