-- ==== Sys2Proof/Machine/Fence.lean ====
section
/-! DEFINITION. Many dies (chapter 21): keeping the lease clocks in step (R441), fencing dies (R443, R444, 18
R415, 15 R371), the election of a master (R445, R447) and the reissue of indices (R448, 18 R416). -/

namespace Sys2Proof.Machine

/-! ### The lease clock (21 R441) -/

/-- The reference die: die 0 of the lowest package that still has it. -/
def referenceDie (s : State) : Nat := (((pkgs s).map (4 * ·)).find? (dieLive s)).getD 0
/-- A skew of a die keeps the bounds of 08 R208 towards every other live die. -/
def skewHeld (s : State) (d : Nat) (k : Int) : Bool :=
  (liveDies s).all fun e => decide (e = d ∨ (k - (s.die e).skew).natAbs < guardNs d e)

/-- 21 R441: a die that is ahead repeats a tick (the others go on by one), one that is behind adds one. -/
def execLeaseSync (die : Nat) (ahead : Bool) (s : State) : Res :=
  .next (
    let k := (s.die die).skew + (if ahead then -1 else 1)
    if !dieLive s die || !pkgPresent s (die / 4) || decide (die = referenceDie s) || !skewHeld s die k then s
    else (if ahead then { s with ahead := s.ahead + 1 } else s).modDie die fun d => { d with skew := k })

/-! ### What a fenced die held -/

def coreDead (ds : List Nat) (c : Nat) : Bool := ds.contains (coreDie c)
def waveDead (ds : List Nat) (w : Nat) : Bool := coreDead ds (waveCore w)
def agentDead (ds : List Nat) (a : Agent) : Bool := match a with
  | .wave w => waveDead ds w
  | .ctx v _ => coreDead ds v
  | .none => false
/-- An entry of a request's sender. -/
def reqDead (ds : List Nat) (r : Req) : Bool := waveDead ds r.wave

/-- Messages to or from what is gone. -/
def Net.without (n : Net) (ds : List Nat) : Net :=
  { n with
    reqs := n.reqs.filter (!reqDead ds ·)
    replies := n.replies.filter fun r => !waveDead ds r.wave
    acks := n.acks.filter fun r => !waveDead ds r.wave
    mcasts := (n.mcasts.filter fun m => !coreDead ds (keyHome (m.line * 128))).map fun m => { m with reqs := m.reqs.filter (!reqDead ds ·) }
    promotes := n.promotes.filter fun p => !waveDead ds p.2
    promoReps := (n.promoReps.filter fun p => !waveDead ds p.wave).map fun p => if coreDead ds p.core then { p with err := true } else p
    wakes := n.wakes.filter fun k => !agentDead ds k.agent
    replies2 := n.replies2.filter fun k => !agentDead ds k.agent
    hits := n.hits.filter fun h => !coreDead ds h.1
    rays := n.rays.filter fun r => !coreDead ds r.1
    tlreqs := n.tlreqs.filter fun q => !coreDead ds q.core
    evicts := n.evicts.filter fun e => !coreDead ds e.core
    queries := n.queries.filter fun q => !coreDead ds q.2
    routeReps := n.routeReps.filter fun r => !coreDead ds r.core
    pages := n.pages.filter fun p => !coreDead ds p.host
    tlreps := n.tlreps.filter fun k => !agentDead ds k.agent
    phases := n.phases.filter fun m => !coreDead ds m.core
    bcasts := n.bcasts.filter fun m => !coreDead ds m.core
    beats := n.beats.filter fun b => !coreDead ds b.src
    colls := n.colls.filter fun c => !coreDead ds c.1
    posts := n.posts.filter fun p => !ds.contains p.die
    events := n.events.filter fun e => !coreDead ds e.vat }

/-- What a writer learns of a write that a fence lost: LK or RF (18 R415; log 9). -/
def lostErr (s : State) : Nat × State :=
  let (b, s) := drawBit s
  (if b then 1 else 2, s)
/-- Acknowledgements that the fenced dies had sent are lost. -/
def loseAcks (ds : List Nat) : List Ack → State → List Ack × State
  | [], s => ([], s)
  | a :: t, s =>
    if coreDead ds a.home && decide (a.err = 0) then
      let (e, s) := lostErr s
      let (t, s) := loseAcks ds t s
      ({ a with gwct := 0, err := e } :: t, s)
    else
      let (t, s) := loseAcks ds t s
      (a :: t, s)
/-- A drain that a fenced home has served, and that is not yet acknowledged, is lost. -/
def loseDrain (ds : List Nat) (s : State) (c : Nat) (e : Sgb) : State :=
  if coreDead ds (keyHome (e.line * 128)) && e.served.any (·.2 = 0) then
    let (k, s) := lostErr s
    s.modCore c fun x => { x with sgb := x.sgb.map fun y => if y.fgs = e.fgs then { y with served := some (0, k) } else y }
  else s
/-- Every write to a fenced die that has not been acknowledged is lost, and answered with an error (18 R415). -/
def loseWrites (s : State) (ds : List Nat) : State :=
  let lost (r : Req) : Bool := !r.kind.isRead && coreDead ds (r.route s).2
  let s := (s.net.reqs.filter lost).foldl (fun t r =>
    let (e, t) := lostErr t
    arriveWrite t r e) (s.modNet fun n => { n with reqs := n.reqs.filter (!lost ·) })
  let s := s.cores.foldl (fun t c => c.2.sgb.foldl (fun t e => loseDrain ds t c.1 e) t) s
  let (acks, s) := loseAcks ds s.net.acks s
  s.modNet fun n => { n with acks := acks }

/-- Bypassed requests of live waves that wait in a multicast response of a lost home are answered with an error;
so are the promotions that a lost core had begun (10 R270). -/
def answerLost (s : State) (ds : List Nat) : State :=
  let lost := (s.net.mcasts.filter fun m => coreDead ds (keyHome (m.line * 128))).flatMap fun m => m.reqs.filter (!reqDead ds ·)
  let ws : List PromoRep := (s.cores.filter fun c => coreDead ds c.1).flatMap fun c =>
    (((c.2.active.map (·.2)).getD [] ++ c.2.promoWait.getD []).filter (!waveDead ds ·)).map fun w => ⟨w, 0, c.1, true⟩
  s.modNet fun n => { n with reqs := n.reqs ++ lost, promoReps := n.promoReps ++ ws }

/-- The dies stop: their waves, groups, engines and units are gone (21 R443, R444); which cores are repaired is not
forgotten (05 R138). -/
def stopDies (s : State) (ds : List Nat) (cut : Bool) : State :=
  let s := answerLost (loseWrites s ds) ds
  let s := { s with
    cur := if agentDead ds s.cur then .none else s.cur
    waves := s.waves.filter fun w => !waveDead ds w.1
    cores := s.cores.map fun (c : Nat × Core) => (c.1, if coreDead ds c.1 then { capw := c.2.capw } else c.2)
    vats := s.vats.filter fun v => !coreDead ds v.1
    slices := s.slices.filter fun c => !coreDead ds c.1
    groups := s.groups.filter fun g => !coreDead ds g.2.core
    waiters := s.waiters.filter fun w => !agentDead ds w.agent }
  let s := s.modNet (·.without ds)
  ds.foldl (fun s d => s.modDie d fun x => { fence := if cut then .cut else .pass, skew := x.skew }) s

/-! ### Treelets (15 R371) -/

/-- The host in an entry of the replica host table, present or not. -/
def rhtRaw (s : State) (t h : Nat) : Nat := readNat s.mem (dirBase s t - 512 + 4 * h) 4 % 2 ^ 20

/-- One entry after a fence: no copy on a fenced die, an owner that survives, or COLD. -/
def fenceEntry (s : State) (ds : List Nat) (t : Nat) : State :=
  let answer (s : State) (q : TlReq) : State := if coreDead ds q.core then s else answerTl s q.wave q.d 5
  if !dirValid s t then
    -- its controller is gone: what pended there is lost, and who waits there is told that there is no treelet
    let x := s.dir t
    (x.starter.toList ++ x.copyFor.toList ++ x.redo ++ x.waiting).foldl answer (s.modDir t fun _ => {})
  else
    let s := (List.range 8).foldl (fun s k =>
      if dirRepl s t k ≠ 0x7F ∧ coreDead ds (rhtRaw s t (dirRepl s t k)) then setRepl s t k 0x7F else s) s
    let s := s.modDir t fun y => { y with waiting := y.waiting.filter fun q => !coreDead ds q.core
                                          copyFor := y.copyFor.filter fun q => !coreDead ds q.core }
    let o := dirOwner s t
    let s := match (s.dir t).copyTo with
      | some h => if coreDead ds h ∨ coreDead ds o then requeue (abandonCopy s t) t else s
      | none => s
    if !coreDead ds o ∨ dirState s t < 2 then s
    else
      let s := (setDe1 s t 24 1 0).modDir t fun y => { y with starter := none, evicting := none, confirm := false }
      match (if dirState s t = 3 then replicas s t else []) with
      | (k, h) :: _ => setRepl (setDe1 s t 41 20 h) t k 0x7F
      | [] => coldRays (requeue (setDirState s t 1) t) t

/-- Every treelet of which the directory or a core keeps anything. -/
def knownTids (s : State) : List Nat :=
  ((s.dirs.map (·.1)) ++ s.cores.flatMap fun c => c.2.tslots.map (·.2.tid)).foldl (fun a t => if a.contains t then a else a ++ [t]) []

/-! ### Election (21 R445, R447) -/

/-- The standby for a master: lowest rank in another package, else the lowest other die of its own. -/
def chooseStandby (s : State) (m : Nat) : Option Nat :=
  match (liveDies s).find? fun d => d / 4 ≠ m / 4 with
  | some d => some d
  | none => (liveDies s).find? fun d => d ≠ m

/-- The roles after a fence; an election counts in every package's EPOCH. -/
def elect (s : State) : State :=
  let standbyGone := s.standby.any fun d => !dieLive s d
  if dieLive s s.master && !standbyGone then s
  else
    let m := if dieLive s s.master then s.master else match s.standby with
      | some d => if dieLive s d then d else (liveDies s).headD 0
      | none => (liveDies s).headD 0
    let s := { s with master := m, standby := chooseStandby s m }
    { s with packages := (pkgs s).foldl (fun t p =>
        Tbl.set t p { Tbl.get ({} : Package) t p with epoch := ((Tbl.get ({} : Package) t p).epoch + 1) % 256 }) s.packages }

/-! ### Reissue (18 R416, 21 R448) -/

/-- The first `n` indices of a list of ranges, and the rest. -/
def takeIndices : Nat → List (Nat × Nat) → List (Nat × Nat) × List (Nat × Nat)
  | _, [] => ([], [])
  | n, (lo, hi) :: t =>
    if n = 0 then ([], (lo, hi) :: t)
    else if hi - lo ≤ n then
      let (a, b) := takeIndices (n - (hi - lo)) t
      ((lo, hi) :: a, b)
    else ([(lo, lo + n)], (lo + n, hi) :: t)

/-- Put a range into ascending order, joined to one that it touches. -/
def insertRange (r : Nat × Nat) : List (Nat × Nat) → List (Nat × Nat)
  | [] => [r]
  | x :: t =>
    if x.2 = r.1 then insertRange (x.1, r.2) t
    else if r.2 = x.1 then (r.1, x.2) :: t
    else if r.1 < x.1 then r :: x :: t
    else x :: insertRange r t

/-- Cut reissued indices over the live dies by the rule of 07 R182, into their pools. -/
def reissue (s : State) (h : Nat) (rs : List (Nat × Nat)) : State :=
  let n := (rs.map fun r => r.2 - r.1).sum
  let parts := (cutRange s 0 n).map fun p => (p.1, p.2.2 - p.2.1)
  (parts.foldl (fun (a : State × List (Nat × Nat)) p =>
    let (mine, rest) := takeIndices p.2 a.2
    (mine.foldl (fun s r => note { s with tasks := s.tasks ++ [⟨h, r.1, r.2, .pool p.1, s.cyc⟩] } ⟨p.1, h, 0, r.1, r.2⟩) a.1, rest)) (s, rs)).1

/-- What the fenced dies held of a grid, as it stood. -/
structure Held where
  /-- Pending: ranges of pools and cores, and of shadow slots. -/
  pending : List (Nat × Nat)
  /-- Indices of runnable groups whose scratch was not released. -/
  running : List Nat
  /-- Shading waves, or the hit program itself. -/
  shading : Bool
deriving DecidableEq, Repr

def heldBy (s : State) (ds : List Nat) (h : Nat) : Held :=
  let tasks := (s.tasks.filter fun t => decide (t.grid = h) && match t.hold with
    | .pool d => ds.contains d
    | .core c => coreDead ds c
    | .deferred => false).map fun t => (t.lo, t.hi)
  let dead := s.cores.filter fun c => coreDead ds c.1
  let shadow := dead.flatMap fun c => (c.2.shadow.filter fun x => x.2.grid = h).map fun x => (x.2.gidx, x.2.gidx + 1)
  let gs := (s.groups.filter fun g => decide (g.2.grid = h) && coreDead ds g.2.core).map (·.2)
  { pending := tasks ++ shadow
    running := (gs.filter fun g => !g.shading).map (·.gidx)
    shading := gs.any (·.shading) }

/-- Everything that the distributors have told their masters of a die and a grid, or are about to (21 R446). -/
def told (s : State) (d h : Nat) : List Journal := (s.journal ++ s.net.journal).filter fun j => decide (j.die = d ∧ j.grid = h)
/-- How many indices of a grid a die has made runnable. -/
def dispatched (s : State) (d h : Nat) : Nat :=
  (((told s d h).filter (·.what = 2)).foldl (fun (a : List Nat) j => if a.contains j.lo then a else a ++ [j.lo]) []).length

/-- What a fence does to a grid; `lost` is what cannot be known of a master's die that goes together with the standby, `had`
whether the grid ever had an index there, and `ran` how many of them were dispatched there (21 R447). -/
def fenceGrid (s : State) (h : Nat) (x lost : Held) (had : Bool) (ran : Nat) : State :=
  match s.grid? h with
  | none => s
  | some g =>
    let s := { s with tasks := s.tasks.filter fun t => !(t.grid = h && x.pending.contains (t.lo, t.hi) && match t.hold with
      | .pool d => !dieLive s d
      | .core c => !corePresent s c
      | .deferred => false) }
    let known := x.running.filter fun i => !lost.running.contains i
    let kind0 := decide (recKind g.record = 0)
    let replay := kind0 && !recNoReplay g.record && !g.sup
    let g := { g with
      lost := g.lost || had || x.shading || (g.sup && decide (x.pending ≠ [] ∨ x.running ≠ [])) || (decide (known ≠ []) && !replay)
      replayed := g.replayed || (decide (known ≠ []) && replay)
      ngrp := g.ngrp - ran
      batches := g.batches.map fun b => if x.running.contains b.no ∨ lost.pending.contains (b.no, b.no + 1) then { b with released := true } else b }
    let again := (x.pending.filter fun r => !lost.pending.contains r) ++ (if replay then known.map fun i => (i, i + 1) else [])
    let s := s.setGrid h g
    let s := if g.sup || g.killed then s else reissue s h (again.foldl (fun l r => insertRange r l) [])
    settleGrid (advanceNode s h (g.batches.length + 1)) h

/-! ### The fence -/

/-- A wave that waits in `GPREEMPT` for a group of a fenced die is told that there is no such wave (18 R414). -/
def endSaves (s : State) (ds : List Nat) : State :=
  (s.groups.filter fun g => coreDead ds g.2.core).foldl (fun s g => match g.2.saving with
    | some (_, w, d) => wakeAgent s { agent := .wave w, d := d, value := BitVec.ofNat 64 (2 ^ 56) }
    | none => s) s

/-! ### Launches and GROWs that the lost master had not answered (21 R449) -/

/-- Nothing of the grid has been granted, and no batch of it is under way. -/
def untouched (s : State) (h : Nat) : Bool :=
  !(s.journal ++ s.net.journal).any (fun j => decide (j.grid = h ∧ j.what ≠ 0)) && (s.grid? h).any (·.batches.isEmpty)
/-- Of launches that the old master had accepted and not answered, the new one refuses with NO_SLOT those whose handle it
does not know: of which nothing has been granted, as a draw says (log 9). -/
def refuseUnknown (s : State) : List Wake → List Wake × State
  | [] => ([], s)
  | k :: t =>
    let keep (s : State) : List Wake × State :=
      let (t, s) := refuseUnknown s t
      (k :: t, s)
    match k.made with
    | some (h, none) =>
      let (known, s) := drawBit s
      if known || !untouched s h then keep s
      else
        let s := { s with tasks := s.tasks.filter (·.grid ≠ h), grids := Tbl.erase s.grids h }
        let (t, s) := refuseUnknown s t
        ({ k with value := BitVec.ofNat 64 (3 * 2 ^ 56), made := none } :: t, s)
    | _ => keep s
/-- A GROW of a fenced die's wave on its way to the fenced master may be lost: one whose indices are its grid's last and all
deferred, as a draw says (log 9). -/
def loseGrow (s : State) (k : Wake) : State := match k.made with
  | some (h, some n) =>
    let lo := fld k.value 0 32
    let (lose, s) := drawBit s
    let mine (t : Task) : Bool := decide (t.grid = h ∧ t.lo = lo ∧ t.hi = lo + n ∧ t.hold = .deferred)
    if lose && s.tasks.any mine && (s.grid? h).any (·.groups = lo + n) then
      { s with tasks := s.tasks.filter (!mine ·) }.modGrid h fun g => { g with groups := lo, grown := g.grown.filter (·.1 ≠ lo) }
    else s
  | _ => s

/-- The message that tells a die of a fence (18 R408). -/
def fenceMsg (d : Nat) : FaultMsg :=
  { m0 := msgWord0 Code.xlate.num 8 0 0 (dieCore d 0 0) false false false false false 0, m2 := BitVec.ofNat 64 (d % 4) }

/-- Dies are fenced in one event (21 R443, R444). -/
def fenceDies (s : State) (dies : List Nat) (cut : Bool) : State :=
  let ds := (liveDies s).filter dies.contains
  if ds = [] then s
  else
    let hs := s.grids.map (·.1)
    let m := s.master
    let blind := ds.contains m && s.standby.any ds.contains
    let held := hs.map fun h => (h, heldBy s ds h, heldBy s (if blind then [m] else []) h,
      blind && !(told s m h).isEmpty, if blind then dispatched s m h else 0)
    let tids := knownTids s
    let s := if ds.contains m then (s.net.replies2.filter fun k => agentDead ds k.agent).foldl loseGrow s else s
    let s := stopDies (endSaves s ds) ds cut
    let s := wakeWaiters s (fun k => isScratch k && coreDead ds (keyCore k)) 2
    let s := ds.foldl (fun s d => (liveDies s).foldl (fun s e => postMessage s e (fenceMsg d)) (logEvent s 1 d)) s
    let s := dirRow (tids.foldl (fun s t => fenceEntry s ds t) s)
    let s := elect s
    let (ks, s) := if ds.contains m then refuseUnknown s s.net.replies2 else (s.net.replies2, s)
    held.foldl (fun s x => fenceGrid s x.1 x.2.1 x.2.2.1 x.2.2.2.1 x.2.2.2.2) (s.modNet fun n => { n with replies2 := ks })

/-- 21 R443, R444. A loss of the host-link port or of the management controller is the fence of all four dies of die 0's
package. -/
def execDieFence (dies : List Nat) (cut : Bool) (s : State) : Res := .next (fenceDies s dies cut)

/-- 21 R441: a die that cannot confirm its bound is fenced, as one whose routers still pass. -/
def execLeaseBoundTimeout (die : Nat) (s : State) : Res := .next (fenceDies s [die] false)

end Sys2Proof.Machine
end

