-- ==== Sys2Proof/Machine/Digest.lean ====
section
/-! DEFINITION. SHAKE256, by which the management controller takes digests (22 R463, R464). The spec names the function and
does not define it: PRESUMED from FIPS 202 (log 49). -/

namespace Sys2Proof.Machine

/-- The rotations of the 25 lanes of Keccak-f[1600], lane x + 5y. -/
def keccakRho : List Nat :=
  [0, 1, 62, 28, 27, 36, 44, 6, 55, 20, 3, 10, 43, 25, 39, 41, 45, 15, 21, 8, 18, 2, 61, 56, 14]
/-- Its round constants. -/
def keccakRc : List Word :=
  [0x0000000000000001, 0x0000000000008082, 0x800000000000808A, 0x8000000080008000, 0x000000000000808B, 0x0000000080000001,
   0x8000000080008081, 0x8000000000008009, 0x000000000000008A, 0x0000000000000088, 0x0000000080008009, 0x000000008000000A,
   0x000000008000808B, 0x800000000000008B, 0x8000000000008089, 0x8000000000008003, 0x8000000000008002, 0x8000000000000080,
   0x000000000000800A, 0x800000008000000A, 0x8000000080008081, 0x8000000000008080, 0x0000000080000001, 0x8000000080008008]

/-- A round: theta, rho and pi, chi, iota. -/
def keccakRound (a : List Word) (rc : Word) : List Word :=
  let c := (List.range 5).map fun x => (List.range 5).foldl (fun w y => w ^^^ a.getD (x + 5 * y) 0) 0
  let e := (List.range 25).map fun i => a.getD i 0 ^^^ (c.getD ((i + 4) % 5) 0 ^^^ (c.getD ((i + 1) % 5) 0).rotateLeft 1)
  let b := (List.range 25).map fun i =>
    let j := (i + 3 * (i / 5)) % 5 + 5 * (i % 5)
    (e.getD j 0).rotateLeft (keccakRho.getD j 0)
  (List.range 25).map fun i =>
    b.getD i 0 ^^^ (~~~(b.getD ((i + 1) % 5 + i / 5 * 5) 0) &&& b.getD ((i + 2) % 5 + i / 5 * 5) 0) ^^^ (if i = 0 then rc else 0)
def keccak (a : List Word) : List Word := keccakRc.foldl keccakRound a

/-- The bytes after a message up to a whole number of blocks of 136. -/
def shakePad (n : Nat) : List Byte :=
  let m := 136 - n % 136
  if m = 1 then [0x9F] else 0x1F :: List.replicate (m - 2) 0 ++ [0x80]
/-- The lanes after `n` blocks of the bytes. -/
def absorb (a : List Word) (bs : List Byte) : Nat → List Word
  | 0 => a
  | n + 1 =>
    let lane (i : Nat) : Word := if i < 17 then BitVec.ofNat 64 (ofBytes ((bs.drop (8 * i)).take 8)) else 0
    absorb (keccak ((List.range 25).map fun i => a.getD i 0 ^^^ lane i)) (bs.drop 136) n
/-- The first 32 bytes of SHAKE256 of a byte string. -/
def shake256 (bs : List Byte) : List Byte :=
  ((absorb (List.replicate 25 0) (bs ++ shakePad bs.length) (bs.length / 136 + 1)).take 4).flatMap fun w => bytesOf 8 w.toNat

end Sys2Proof.Machine
end

