-- ==== Sys2Proof/Machine/Host.lean ====
section
/-! DEFINITION. Chapter 22: launch slots (R453, R454), the tagged write and translation control (R455, R456),
the management map (R460, R461), CXL.mem (10 R274), hardware limits (R462), the management controller (R463 to
R466) and reset and bring-up (R467, R469). -/

namespace Sys2Proof.Machine

/-! ### Launch slots (R453, R454) -/

def slotError (s : State) (n : Nat) : State :=
  { s with bar0 := { s.bar0 with sloterr := s.bar0.sloterr ||| BitVec.ofNat 64 (2 ^ n) } }

/-- The record is handled as `LAUNCH` does, with depth 1 and no parent: status and handle; its waves see what the host has
written by now (R454). -/
def hostLaunch (s : State) (n : Nat) (r : List Word) : Nat × Nat × State :=
  let ctl : Word := Tbl.get 0 s.bar0.slotctl n
  let asid := fld ctl 0 12
  if recordBad s r || decide (recKind r = 2) then (1, 0, s)
  else
    let (q, s) := if recKind r = 1 then queuePlace s r 0 asid else (some 0, s)
    match q with
    | none => (1, 0, s)
    | some q =>
      if !someCoreFits s r then (5, 0, s)
      else if gridsFull s then (3, 0, s)
      else
        let (h, t) := acceptGrid s r 1 0 asid (fld ctl 16 4) q
        (0, h, t.modGrid h fun g => { g with host := s.seq })

/-- R454: LRES is written, and only then the slot's bit clears; no slot accepts a record before bring-up is
complete (R467). -/
def execLaunchSlotSubmit (slot : Nat) (record : List (BitVec 64)) (s : State) : Res :=
  .next (
    if !s.up || decide (64 ≤ slot) then s
    else if record.length ≠ 8 ∨ bit s.bar0.slotst slot then slotError s slot
    else
      let (st, h, s) := hostLaunch s slot record
      let v := BitVec.ofNat 64 (st * 2 ^ 56 + h)
      let s : State := { s with bar0 := { s.bar0 with slotst := s.bar0.slotst ||| BitVec.ofNat 64 (2 ^ slot) } }
      s.modNet fun m => { m with
        replies2 := m.replies2 ++ [{ agent := .none, d := slot, value := v, made := if st = 0 then some (h, none) else none }] })

/-- R453. -/
def sloterrClear (s : State) (mask : Word) : State := { s with bar0 := { s.bar0 with sloterr := s.bar0.sloterr &&& ~~~mask } }
def execSloterrClear (mask : BitVec 64) (s : State) : Res := .next (if s.up then sloterrClear s mask else s)

/-! ### The tagged write (R456) -/

/-- GO: the granule, its value and tag are latched; ignored while a write is in flight. -/
def taggedWrite (s : State) (tag : Bool) : State :=
  if s.bar0.tgbusy.isSome then s
  else { s with bar0 := { s.bar0 with
    tgtag := tag, tgbusy := some (fld s.bar0.tgaddr 4 44 * 16, ⟨tag, s.bar0.tghi, s.bar0.tglo⟩) } }
def execTaggedWrite (tag : Bool) (s : State) : Res := .next (if s.up then taggedWrite s tag else s)

/-- The write takes effect at its home, is acknowledged, and BUSY clears; what names no storage sets ERR. A write
to a lost home is lost (18 R415), and one into a line with an error is refused (18 R403). -/
def execTaggedWriteDone (s : State) : Res :=
  .next (match s.bar0.tgbusy with
    | none => s
    | some (pa, c) =>
      let t := if !paStorage s pa then s else if homeBad s pa then sliceMessage s pa else
          (homeWrite (notePage s pa) {} 1 pa (bytesOf 8 c.lo.toNat ++ bytesOf 8 c.hi.toNat) (some c.tag)).1
      { t with bar0 := { t.bar0 with tgbusy := none, tgerr := !paStorage s pa } })

/-! ### Translation control (R455, R456) -/

/-- The bits of TLBINV that hold what is written: BUSY, ALLASID, ALLVA, VA and ASID. -/
def tlbinvMask : Word := 0xE07F_FFFF_FFFF_0FFF

/-- A write of TLBINV: ignored while an invalidation is under way. -/
def tlbInvalidate (s : State) (v : Word) : State :=
  if bit s.bar0.tlbinv 63 then s else { s with bar0 := { s.bar0 with tlbinv := v &&& tlbinvMask } }
def execTlbInvalidate (value : BitVec 64) (s : State) : Res := .next (if s.up then tlbInvalidate s value else s)

/-- An invalidation names a cached translation. -/
def tlbMatches (v : Word) (t : TlbE) : Bool :=
  (bit v 62 || decide (t.asid = fld v 0 12))
    && (bit v 61 || decide (fld v 16 39 * 2 ^ 16 / leafSize t.lvl t.pte = t.page))

/-- Every TLB has dropped the matching translations; with ALLASID the ASID table's base takes effect. -/
def execTlbInvalidateDone (s : State) : Res :=
  .next (
    let v := s.bar0.tlbinv
    if !bit v 63 then s
    else { keepTlbs s (fun t => !tlbMatches v t) with
      bar0 := { s.bar0 with
        tlbinv := v &&& ~~~(BitVec.ofNat 64 (2 ^ 63))
        asidlive := if bit v 62 then s.bar0.asidbase else s.bar0.asidlive } })

/-! ### CXL.mem (10 R274, R451) -/

/-- The physical address at a host address: host address HDMB + p × 2^40 + la is local address la of package p (R451); one
below HDMB is none of the part's, and reaches nothing. -/
def hostPa (s : State) (a : Nat) : Nat := if s.ctrl.hdmb ≤ a then a - s.ctrl.hdmb else 0xFF * 2 ^ 40
/-- Host reads and writes reach package storage once the HDM decoder is enabled (R451, R467). -/
def hostReaches (s : State) (pa : Nat) : Bool := s.up && decide (pa / 2 ^ 40 ≠ 0xFF) && paStorage s pa

/-- `n` bytes from `pa`, in pieces within one line each; a piece that names no storage gives nothing. -/
def hostRead (s : State) (pa n : Nat) : Nat → List Byte × State
  | 0 => ([], s)
  | fuel + 1 =>
    if n = 0 ∨ hostReaches s pa = false then ([], s)
    else
      let m := Nat.min n (128 - pa % 128)
      let (g, s) := homeRead (notePage s pa) pa m 1
      let (t, s) := hostRead s (pa + m) (n - m) fuel
      (g.bytes ++ t, s)

/-- Bytes written by the host within one line: waves of launches that follow see them (R454). -/
def hostPut (s : State) (pa : Nat) (bs : List Byte) : State :=
  let s := (homeWrite (notePage s pa) {} 1 pa bs none).1
  { s with hosted := Tbl.set s.hosted (lineOf pa) (s.seq :: Tbl.get [] s.hosted (lineOf pa)) }
/-- Bytes written from `pa`, in pieces within one line each, which clear tags (01 R20). -/
def hostWrite (s : State) (pa : Nat) (bs : List Byte) : Nat → State
  | 0 => s
  | fuel + 1 =>
    if bs = [] ∨ hostReaches s pa = false then s
    else
      let m := Nat.min bs.length (128 - pa % 128)
      let s := if homeBad s pa then sliceMessage s pa else hostPut s pa (bs.take m)
      hostWrite s (pa + m) (bs.drop m) fuel

/-- 10 R274, 22 R451: `pa` is the host's address. -/
def execHostMemRead (pa len : Nat) (s : State) : Res :=
  .next (
    let (bs, s) := hostRead s (hostPa s pa) len (len / 128 + 2)
    { s with ctrl := { s.ctrl with reads := s.ctrl.reads ++ [bs] } })
/-- 10 R274, 22 R451. -/
def execHostMemWrite (pa : Nat) (bytes : List (BitVec 8)) (s : State) : Res :=
  .next (hostWrite s (hostPa s pa) bytes (bytes.length / 128 + 2))

/-! ### Bring-up (R467, R469) -/

/-- Measure image `n` of the bank that runs into register `n` (R464): MR := SHAKE256(MR ‖ digest). -/
def measure (c : Ctrl) (n : Nat) : Ctrl :=
  let old := Tbl.get (List.replicate 32 0) c.mr n
  { c with mr := Tbl.set c.mr n (shake256 (old ++ shake256 ((Tbl.get [] c.banks c.active).getD n []))) }
/-- The controller boots a bank and measures its image (R463, R467 step 1). -/
def boot (s : State) (bank : Nat) : State := { s with ctrl := measure { s.ctrl with active := bank } 0 }

/-- A package is at the board position of its id. The first one is (R435). -/
def onBoard (p : Nat) : Bool := decide (p = 0) || Config.onBoard p
/-- The rectangle of `nx` by `ny` packages is whole. -/
def whole (d : Nat × Nat) : Bool := (List.range d.1).all fun x => (List.range d.2).all fun y => onBoard (16 * y + x)
/-- The largest rectangle of packages that contains package 0 (R435); DESIGN CHOICE (log 5): of several the one that reaches
least far in y. -/
def rectangle : Nat × Nat :=
  (((List.range 15).flatMap fun y => (List.range 16).map fun x => (x + 1, y + 1)).filter whole).foldl
    (fun b d => if b.1 * b.2 < d.1 * d.2 then d else b) (1, 1)

/-- A capacity word after a repair: nothing that was removed comes back (07 R183). -/
def repaired (old new : Word) : Word :=
  BitVec.ofNat 64 (b2n (bit old 47 && bit new 47) * 2 ^ 47 + (fld old 43 4 &&& fld new 43 4) * 2 ^ 43
    + Nat.min (fld old 37 6) (fld new 37 6) * 2 ^ 37 + Nat.min (fld old 27 10) (fld new 27 10) * 2 ^ 27
    + Nat.min (fld old 16 11) (fld new 16 11) * 2 ^ 16)
/-- Steps 2 and 3 (R467): package ids are set from the board's positions, packages outside the rectangle are fenced, and the
capacity words are written. -/
def powerOn (s : State) : State :=
  let (nx, ny) := rectangle
  let s := { s with nx := nx, ny := ny }
  let outside := (List.range 240).filter fun p => onBoard p && !pkgPresent s p
  let s := outside.foldl (fun s p => (List.range 4).foldl (fun s d => s.modDie (4 * p + d) fun x => { x with fence := .pass }) s) s
  ((liveDies s).flatMap dieCores).foldl (fun s c => s.modCore c fun k => { k with capw := repaired k.capw (Config.tested c) }) s

/-- One die's supervisor grid, held by the core that SUPLOC names; none if it cannot hold the group (R469). -/
def launchSup (r : List Word) (s : Option State) (d : Nat) : Option State := match s with
  | none => none
  | some s =>
    let c := supCore s d
    if recordBad s r || decide (recKind r ≠ 0 ∨ recGroups r ≠ 1) || !recNoReplay r || !fitsNow s r c || gridsFull s then none
    else
      let (h, s) := newGrid s r 1 0 0 0 true
      some (note { s with tasks := s.tasks ++ [⟨h, 0, 1, .core c, s.cyc⟩] } ⟨d, h, 0, 0, 1⟩)

/-- Steps 4 to 7: stack ordinals, measurements and supervisor grids, master and standby, BAR0 (R467). A
supervisor group that cannot be held makes bring-up fail (R469). -/
def bringUp (s : State) : State :=
  let s := { s with
    up := false
    unnumbered := (s.cores.filter fun c => pkgPresent s (corePkg c.1) && !bit c.2.capw 47).map (·.1)
    ctrl := measure (measure s.ctrl 1) 2 }
  let m := (liveDies s).headD 0
  let go := match Tbl.get? s.ctrl.records s.ctrl.active with
    | some r => (liveDies s).foldl (launchSup r) (some s)
    | none => some s
  match go with
  | some s =>
    logEvent { s with master := m, standby := chooseStandby s m, up := true, bar0 := { s.bar0 with slotst := 0 } } 3 0
  | none => logEvent s 3 1

/-- R467: the controller boots its bank and measures it, and bring-up runs through all its steps. -/
def execStandbyPowerOn (s : State) : Res := .next (if s.up then s else bringUp (powerOn (boot s s.ctrl.next)))

/-- R463: a bank that does not become ready is abandoned for the other one, which boots. -/
def execBootTimeout (s : State) : Res :=
  .next (if s.up then s
    else
      let b := 1 - s.ctrl.active
      bringUp (powerOn (logEvent (boot { s with ctrl := { s.ctrl with next := b } } b) 3 2)))

/-- Release and retire what a kill leaves free to go, children first. -/
def sweep (s : State) : State :=
  let s := (s.groups.map (·.1)).foldl (fun s g => if releasable s g then releaseGroup s g else s) s
  (List.range 11).foldl (fun s i =>
    ((s.grids.filter fun g => g.2.depth = 10 - i).map (·.1)).foldl (fun s h => retireGrid (settleGrid s h) h) s) s

/-- R467: every grid is killed as `GKILL` does, with its record if the ring is enabled; then steps 4 to 7, from the bank that
an update has marked (R463; log 8). Memory and tags stay. -/
def warmReset (s : State) : State :=
  let roots := (s.grids.filter fun g => g.2.parent = 0).map (·.1)
  let s := roots.foldl (fun s h => (killGrid s h).2) s
  let s := if bit s.bar0.ercfg 5 then s
    else { s with grids := s.grids.map fun g => (g.1, { g.2 with recorded := true }) }
  let s := sweep s
  bringUp (if s.ctrl.next = s.ctrl.active then s else boot s s.ctrl.next)
def execWarmReset (s : State) : Res := .next (if s.up then warmReset s else s)

/-! ### Registers of BAR0 and of the management map (R453, R455, R460, R461) -/

def setBar0 (s : State) (f : Bar0 → Bar0) : State := { s with bar0 := f s.bar0 }

/-- LG of ERCFG as a write stores it (R455). -/
def clampLg (n : Nat) : Nat := Nat.max 4 (Nat.min 20 n)

/-- ERCFG after a write: PA and LG ignore writes while EN is 1 (R455). -/
def writeErcfg (old v : Word) : Word :=
  let lg := if bit old 5 then fld old 0 5 else clampLg (fld v 0 5)
  BitVec.ofNat 64 (b2n (bit v 5) * 2 ^ 5 + lg)

/-- ICOAL as a write leaves it: ICNT 0 is read as 1. -/
def icoalOf (v : Word) : Word :=
  let w := v &&& 0x8000_FFFF_FFFF_FFFF
  if fld w 32 16 = 0 then w ||| 0x1_0000_0000 else w

/-- A write of 8 bytes to BAR0 (R453). -/
def writeBar0 (s : State) (off : Nat) (v : Word) : State :=
  if off < 0x1000 then slotError s (off / 64)
  else if off % 8 ≠ 0 then s
  else if off = 0x1008 then sloterrClear s v
  else if 0x1100 ≤ off ∧ off < 0x1300 then
    setBar0 s fun b => { b with slotctl := Tbl.set b.slotctl ((off - 0x1100) / 8) (v &&& 0xF_0FFF) }
  else if off = 0x2000 then
    if bit s.bar0.ercfg 5 then s else setBar0 s fun b => { b with erbase := v &&& 0xFFFF_FFFF_FFFF }
  else if off = 0x2008 then setBar0 s fun b => { b with ercfg := writeErcfg b.ercfg v }
  else if off = 0x2018 then setBar0 s fun b => { b with ertail := fld v 0 32 }
  else if 0x2100 ≤ off ∧ off < 0x2180 then
    setBar0 s fun b => { b with icoal := Tbl.set b.icoal ((off - 0x2100) / 8) (icoalOf v) }
  else if off = 0x3000 then setBar0 s fun b => { b with tgaddr := v &&& 0xFFFF_FFFF_FFF0 }
  else if off = 0x3008 then setBar0 s fun b => { b with tglo := v }
  else if off = 0x3010 then setBar0 s fun b => { b with tghi := v }
  else if off = 0x3018 then
    if bit v 1 then taggedWrite s (bit v 0) else setBar0 s fun b => { b with tgtag := bit v 0 }
  else if off = 0x3100 then tlbInvalidate s v
  else if off = 0x3108 then setBar0 s fun b => { b with asidbase := v &&& 0xFFFF_FFFF_0000 }
  else if off = 0x3200 then
    let s := setBar0 s fun b => { b with devctl := v &&& 1 }
    if bit v 0 then warmReset s else s
  else s

/-- A read of 8 bytes of BAR0 (R453, R455): LSLOT is write-only and reads as 0, like every bit not named. -/
def readBar0 (s : State) (off : Nat) : Word :=
  let b := s.bar0
  if off % 8 ≠ 0 then 0
  else if off = 0x1000 then b.slotst
  else if off = 0x1008 then b.sloterr
  else if 0x1100 ≤ off ∧ off < 0x1300 then Tbl.get 0 b.slotctl ((off - 0x1100) / 8)
  else if 0x1400 ≤ off ∧ off < 0x1600 then Tbl.get 0 b.lres ((off - 0x1400) / 8)
  else if off = 0x2000 then b.erbase
  else if off = 0x2008 then b.ercfg
  else if off = 0x2010 then BitVec.ofNat 64 b.erhead
  else if off = 0x2018 then BitVec.ofNat 64 b.ertail
  else if 0x2100 ≤ off ∧ off < 0x2180 then icoal s ((off - 0x2100) / 8)
  else if off = 0x3000 then b.tgaddr
  else if off = 0x3008 then b.tglo
  else if off = 0x3010 then b.tghi
  else if off = 0x3018 then BitVec.ofNat 64 (b2n b.tgerr * 8 + b2n b.tgbusy.isSome * 4 + b2n b.tgtag)
  else if off = 0x3100 then b.tlbinv
  else if off = 0x3108 then b.asidbase
  else if off = 0x3200 then b.devctl
  else 0

/-- A budget register after a write: CNT stays (R461). -/
def writeBudget (old v : Word) : Word := setFld v 40 24 (fld old 40 24)

/-- MCFG after a write: LEASEU outside 16 to 1,000 stores the nearest limit (08 R211). -/
def writeMcfg (v : Word) : Word :=
  BitVec.ofNat 64 (fld v 24 8 * 2 ^ 24 + Nat.max 16 (Nat.min 1000 (fld v 11 10)) * 2 ^ 11 + b2n (bit v 0))

/-- VPOL after a write: PSL outside 1 to 16 stores 16 (R461). -/
def writeVpol (v : Word) : Word :=
  let p := fld v 0 5
  BitVec.ofNat 64 (fld v 8 8 * 2 ^ 8 + (if p = 0 ∨ 16 < p then 16 else p))

/-- Core-in-vat 0 of vat `n` of a die (R460). -/
def dieVat (d n : Nat) : Nat := dieCore d (2 * (n % 8)) (2 * (n / 8))

/-- A write of 8 bytes to the block of a die in the management map (R460). -/
def writeMap (s : State) (d off : Nat) (v : Word) : State :=
  if off % 8 ≠ 0 ∨ !pkgPresent s (d / 4) then s
  else if off = 0x0000 then s.modDie d fun x => { x with mcfg := writeMcfg v }
  else if off = 0x0008 then
    if d % 4 = 0 then { s with packages := Tbl.set s.packages (d / 4) { s.package (d / 4) with dircfg := v &&& 0xFFFF_FFFF_FFF8_0000 } } else s
  else if off = 0x0010 then (refillOf s (dieCore d 0 0)).modDie d fun x => { x with dbud := writeBudget x.dbud v }
  else if off = 0x0018 then s.modDie d fun x => { x with ecost := v }
  else if 0x4000 ≤ off ∧ off < 0x4300 then
    let n := dieVat d ((off - 0x4000) / 16)
    if off % 16 = 0 then (refillOf s n).modVat n fun x => { x with vbud := writeBudget x.vbud v }
    else s.modVat n fun x => { x with vpol := writeVpol v }
  else s

/-- A read of 8 bytes of the management map (R460). -/
def readMap (s : State) (d off : Nat) : Word :=
  if off % 8 ≠ 0 ∨ !pkgPresent s (d / 4) then 0
  else if off = 0x0000 then (s.die d).mcfg
  else if off = 0x0008 then if d % 4 = 0 then (s.package (d / 4)).dircfg else 0
  else if off = 0x0010 then ((refillOf s (dieCore d 0 0)).die d).dbud
  else if off = 0x0018 then (s.die d).ecost
  else if 0x1000 ≤ off ∧ off < 0x1600 then capWord s (dieTile d ((off - 0x1000) / 8))
  else if 0x2000 ≤ off ∧ off < 0x2C00 then
    let x := s.slice (dieTile d ((off - 0x2000) / 16))
    (if off % 16 = 0 then x.mcreq else x.mcsent).setWidth 64
  else if 0x3000 ≤ off ∧ off < 0x3600 then (s.slice (dieTile d ((off - 0x3000) / 8))).ecc.setWidth 64
  else if 0x4000 ≤ off ∧ off < 0x4300 then
    let n := dieVat d ((off - 0x4000) / 16)
    if off % 16 = 0 then ((refillOf s n).vat n).vbud else (s.vat n).vpol
  else if 0x5000 ≤ off ∧ off < 0x5180 then (wrap 16 (s.vat (dieVat d ((off - 0x5000) / 8))).temp).setWidth 64
  else 0

/-- R453, R455, R460, R461. BAR0 answers once it is enabled (R467); the management map always, one block of
0x10_0000 bytes for each die of the system. DESIGN CHOICE (log 48): the place after BAR0's 64 KiB stands for HDMB of the HDM
decoder, which the host sets (R451). -/
def execRegisterWrite (bar2 : Bool) (off : Nat) (value : BitVec 64) (s : State) : Res :=
  .next (if bar2 then writeMap s (off / 0x10_0000) (off % 0x10_0000) value
    else if off = 0x1_0000 then { s with ctrl := { s.ctrl with hdmb := value.toNat } }
    else if s.up then writeBar0 s off value else s)

/-! ### Hardware limits (R462) and sensors (R465) -/

/-- R462. -/
def execDroopDetect (vat : Nat) (s : State) : Res :=
  .next (if (s.vat vat).stretched then s else logEvent (s.modVat vat fun v => { v with stretched := true }) 2 1)
/-- R462. -/
def execDroopRecover (vat : Nat) (s : State) : Res :=
  .next (if (s.vat vat).stretched then logEvent (s.modVat vat fun v => { v with stretched := false }) 2 0 else s)

/-- R462, R465: the core rail's current of a package, in A. -/
def execCurrentLimit (package amps : Nat) (s : State) : Res :=
  .next (
    let p := s.package package
    let capped := decide (3500 < amps)
    let halved := decide (4000 < amps)
    let was := (s.die (4 * package)).halved
    let s := { s with
      ctrl := { s.ctrl with sensors := Tbl.set s.ctrl.sensors package amps }
      packages := Tbl.set s.packages package { p with capped := capped } }
    let s := if was = halved then s
      else logEvent ([0, 1, 2, 3].foldl (fun s d => s.modDie (4 * package + d) fun x => { x with halved := halved }) s) 2 (4 + b2n halved)
    if p.capped = capped then s else logEvent s 2 (2 + b2n capped))

/-- R462: 105 °C is 840 eighths, 115 °C is 920. -/
def execThermalLimit (vat : Nat) (eighths : Int) (s : State) : Res :=
  .next (
    let hot := decide (840 ≤ eighths)
    let was := (s.vat vat).hot
    let s := s.modVat vat fun v => { v with temp := eighths, hot := hot }
    let s := if was = hot then s else logEvent s 2 (6 + b2n hot)
    if 920 ≤ eighths then fenceDies s [coreDie vat] false else s)

/-- The voltage and the current of a rail of a package are sampled; the core rail's current is the one that its limit is held
to (R462; log 8). -/
def sampleRail (p : Nat) (s : State) (r : Nat) : State :=
  let k := 256 * p + 2 * r
  let (u, s) := drawWord s
  let (i, s) := drawWord s
  let amps := if r = 0 then Tbl.get i.toNat s.ctrl.sensors p else i.toNat
  { s with ctrl := { s.ctrl with rails := Tbl.set (Tbl.set s.ctrl.rails k u.toNat) (k + 1) amps } }
/-- R465: the temperature of a vat, and its package's rails. -/
def execSensorSample (vat : Nat) (eighths : Int) (s : State) : Res :=
  .next ((List.range (Config.otherRails + 1)).foldl (sampleRail (corePkg vat)) (s.modVat vat fun v => { v with temp := eighths }))

/-! ### The management controller (R463, R464) and repair (07 R183) -/

/-- R463: the inactive bank is written; it boots at the next reset if the image's digest, signature and version
pass. The outcome is logged. -/
def execFirmwareUpdate (image : List (BitVec 8)) (version : Nat) (s : State) : Res :=
  .next (
    let b := 1 - s.ctrl.active
    let ok := Config.signatureOk image (shake256 image) && decide (s.ctrl.minVersion ≤ version)
    logEvent { s with ctrl := { s.ctrl with
      banks := Tbl.set s.ctrl.banks b (Config.images image)
      versions := Tbl.set s.ctrl.versions b version
      records := Tbl.set s.ctrl.records b (Config.imageRecord ((Config.images image).getD 2 []))
      next := if ok then b else s.ctrl.active } } 3 (if ok then 3 else 4))

/-- MR0 to MR7, one after another. -/
def measurements (c : Ctrl) : List Byte := (List.range 8).flatMap fun i => Tbl.get (List.replicate 32 0) c.mr i

/-- R464: a reply to a request with a nonce of 32 bytes. -/
def execAttestation (nonce : List (BitVec 8)) (s : State) : Res :=
  .next (if nonce.length ≠ 32 then s
    else
      let m := measurements s.ctrl ++ nonce
      { s with ctrl := { s.ctrl with sent := s.ctrl.sent ++ [m ++ Config.sign m] } })

/-- 07 R183. -/
def execFieldRepair (core : Nat) (capacity : BitVec 64) (s : State) : Res :=
  .next (s.modCore core fun c => { c with capw := repaired c.capw capacity })

end Sys2Proof.Machine
end

