-- ==== Sys2Proof/Machine/ScalarFp.lean ====
section
/-! DEFINITION. Scalar floating point (04 R114 to R118). -/

namespace Sys2Proof.Machine

/-- The low 32 bits of a register, as a number. -/
def State.fp (s : State) (n : Nat) : Nat := (s.lo n).toNat % 2 ^ 32

/-- A result and its flags are written (04 R114). -/
def fpWrite (d : BitVec 6) (r : Nat × Nat) (s : State) : State := ((s.raiseFlags r.2).setData d.toNat (BitVec.ofNat 64 r.1)).advance

/-- A rounding operation in the mode of its field: `f` is given the mode, FTZ and the random values. -/
def fpRounded (d : BitVec 6) (m : BitVec 3) (f : Nat → Bool → (Nat → Nat) → Nat × Nat) (s : State) : State :=
  fpWrite d (f (s.mode m.toNat) s.ftz s.rand) (s.drew (s.mode m.toNat) 2)

/-- 04 R114. -/
def execFadd (d a b : BitVec 6) (m : BitVec 3) (s : State) : Res :=
  checked (.fadd d a b m) s fun s => fpRounded d m (fun md z r => fpAdd fmtFP32 md z r (s.fp a.toNat) (s.fp b.toNat)) s
/-- 04 R114. -/
def execFsub (d a b : BitVec 6) (m : BitVec 3) (s : State) : Res :=
  checked (.fsub d a b m) s fun s => fpRounded d m (fun md z r => fpSub fmtFP32 md z r (s.fp a.toNat) (s.fp b.toNat)) s
/-- 04 R114. -/
def execFmul (d a b : BitVec 6) (m : BitVec 3) (s : State) : Res :=
  checked (.fmul d a b m) s fun s => fpRounded d m (fun md z r => fpMul fmtFP32 md z r (s.fp a.toNat) (s.fp b.toNat)) s
/-- 04 R114. -/
def execFdiv (d a b : BitVec 6) (m : BitVec 3) (s : State) : Res :=
  checked (.fdiv d a b m) s fun s => fpRounded d m (fun md z r => fpDiv fmtFP32 md z r (s.fp a.toNat) (s.fp b.toNat)) s
/-- 04 R114: d is also the addend. -/
def execFfma (d a b : BitVec 6) (m : BitVec 3) (s : State) : Res :=
  checked (.ffma d a b m) s fun s =>
    fpRounded d m (fun md z r => fpFma fmtFP32 md z r (s.fp a.toNat) (s.fp b.toNat) (s.fp d.toNat)) s
/-- 04 R114. -/
def execFsqrt (d a : BitVec 6) (m : BitVec 3) (s : State) : Res :=
  checked (.fsqrt d a m) s fun s => fpRounded d m (fun md z r => fpSqrt fmtFP32 md z r (s.fp a.toNat)) s

/-- The conversion of a code 0 to 7 (02 R51, 03 R86, R87). -/
def fcvtOp (c mode : Nat) (ftz : Bool) (r : Nat → Nat) (x : Word) : Nat × Nat :=
  let lo32 := x.toNat % 2 ^ 32
  match c with
  | 0 => fpToInt 64 true mode r (fmtFP32.read ftz lo32)
  | 1 => fpToInt 64 false mode r (fmtFP32.read ftz lo32)
  | 2 => roundFmt fmtFP32 mode false ftz r (.ofInt x.toInt)
  | 3 => roundFmt fmtFP32 mode false ftz r (.ofInt x.toNat)
  | 4 => fpConvert fmtFP32 fmtBF16 mode false ftz r lo32
  | 5 => fpConvert fmtBF16 fmtFP32 mode false ftz r (x.toNat % 2 ^ 16)
  | 6 => fpConvert fmtFP32 fmtFP16 mode false ftz r lo32
  | _ => fpConvert fmtFP16 fmtFP32 mode false ftz r (x.toNat % 2 ^ 16)
/-- 04 R114. -/
def execFcvt (d a c : BitVec 6) (m : BitVec 3) (s : State) : Res :=
  checked (.fcvt d a c m) s fun s => fpRounded d m (fun md z r => fcvtOp c.toNat md z r (s.lo a.toNat)) s

/-- 04 R115. -/
def execFmin (d a b : BitVec 6) (s : State) : Res :=
  checked (.fmin d a b) s fun s => fpWrite d (fpMinMax fmtFP32 s.ftz false (s.fp a.toNat) (s.fp b.toNat)) s
/-- 04 R115. -/
def execFmax (d a b : BitVec 6) (s : State) : Res :=
  checked (.fmax d a b) s fun s => fpWrite d (fpMinMax fmtFP32 s.ftz true (s.fp a.toNat) (s.fp b.toNat)) s
/-- 04 R116. -/
def execFcmp (d a b : BitVec 6) (p : BitVec 3) (s : State) : Res :=
  checked (.fcmp d a b p) s fun s =>
    let r := fpCmp fmtFP32 s.ftz p.toNat (s.fp a.toNat) (s.fp b.toNat)
    fpWrite d (b2n r.1, r.2) s
/-- 04 R117: FTZ is not applied and no flag is set. -/
def execFclass (d a : BitVec 6) (s : State) : Res :=
  checked (.fclass d a) s fun s => (s.setData d.toNat (BitVec.ofNat 64 (2 ^ fpClass fmtFP32 (s.fp a.toNat)))).advance
/-- 04 R118. -/
def execFsgn (d a b : BitVec 6) (p : BitVec 3) (s : State) : Res :=
  checked (.fsgn d a b p) s fun s => fpWrite d (fpSgn p.toNat (s.fp a.toNat) (s.fp b.toNat)) s

end Sys2Proof.Machine
end

