-- ==== Sys2Proof/Machine/Dispatch.lean ====
section
/-! DEFINITION. One arm for each constructor of `Instr`. -/

namespace Sys2Proof.Machine

/-- The effect of an instruction, or of a step of another agent, on the machine. -/
def exec (i : Instr) (s : State) : Host.Outcome State Fault Refusal :=
  match i with
  | .illegalInstruction word => Sys2Proof.Machine.execIllegalInstruction word s
  | .add d a b w => Sys2Proof.Machine.execAdd d a b w s
  | .sub d a b w => Sys2Proof.Machine.execSub d a b w s
  | .mul d a b w => Sys2Proof.Machine.execMul d a b w s
  | .mulh d a b w => Sys2Proof.Machine.execMulh d a b w s
  | .mulhu d a b w => Sys2Proof.Machine.execMulhu d a b w s
  | .div d a b w => Sys2Proof.Machine.execDiv d a b w s
  | .divu d a b w => Sys2Proof.Machine.execDivu d a b w s
  | .rem d a b w => Sys2Proof.Machine.execRem d a b w s
  | .remu d a b w => Sys2Proof.Machine.execRemu d a b w s
  | .and d a b w => Sys2Proof.Machine.execAnd d a b w s
  | .or d a b w => Sys2Proof.Machine.execOr d a b w s
  | .xor d a b w => Sys2Proof.Machine.execXor d a b w s
  | .andn d a b w => Sys2Proof.Machine.execAndn d a b w s
  | .sll d a b w => Sys2Proof.Machine.execSll d a b w s
  | .srl d a b w => Sys2Proof.Machine.execSrl d a b w s
  | .sra d a b w => Sys2Proof.Machine.execSra d a b w s
  | .ror d a b w => Sys2Proof.Machine.execRor d a b w s
  | .min d a b w => Sys2Proof.Machine.execMin d a b w s
  | .max d a b w => Sys2Proof.Machine.execMax d a b w s
  | .minu d a b w => Sys2Proof.Machine.execMinu d a b w s
  | .maxu d a b w => Sys2Proof.Machine.execMaxu d a b w s
  | .slt d a b w => Sys2Proof.Machine.execSlt d a b w s
  | .sltu d a b w => Sys2Proof.Machine.execSltu d a b w s
  | .seq d a b w => Sys2Proof.Machine.execSeq d a b w s
  | .sne d a b w => Sys2Proof.Machine.execSne d a b w s
  | .clz d a w => Sys2Proof.Machine.execClz d a w s
  | .ctz d a w => Sys2Proof.Machine.execCtz d a w s
  | .popc d a w => Sys2Proof.Machine.execPopc d a w s
  | .brev d a w => Sys2Proof.Machine.execBrev d a w s
  | .addi d a im => Sys2Proof.Machine.execAddi d a im s
  | .andi d a im => Sys2Proof.Machine.execAndi d a im s
  | .ori d a im => Sys2Proof.Machine.execOri d a im s
  | .xori d a im => Sys2Proof.Machine.execXori d a im s
  | .slli d a w sf => Sys2Proof.Machine.execSlli d a w sf s
  | .srli d a w sf => Sys2Proof.Machine.execSrli d a w sf s
  | .srai d a w sf => Sys2Proof.Machine.execSrai d a w sf s
  | .slti d a im => Sys2Proof.Machine.execSlti d a im s
  | .sltiu d a im => Sys2Proof.Machine.execSltiu d a im s
  | .lui d im => Sys2Proof.Machine.execLui d im s
  | .auipc d im => Sys2Proof.Machine.execAuipc d im s
  | .beq a b o => Sys2Proof.Machine.execBeq a b o s
  | .bne a b o => Sys2Proof.Machine.execBne a b o s
  | .blt a b o => Sys2Proof.Machine.execBlt a b o s
  | .bge a b o => Sys2Proof.Machine.execBge a b o s
  | .bltu a b o => Sys2Proof.Machine.execBltu a b o s
  | .bgeu a b o => Sys2Proof.Machine.execBgeu a b o s
  | .btag a o => Sys2Proof.Machine.execBtag a o s
  | .bntag a o => Sys2Proof.Machine.execBntag a o s
  | .jal d im => Sys2Proof.Machine.execJal d im s
  | .jalr d a => Sys2Proof.Machine.execJalr d a s
  | .ldB d a sf q o => Sys2Proof.Machine.execLdB d a sf q o s
  | .ldH d a sf q o => Sys2Proof.Machine.execLdH d a sf q o s
  | .ldW d a sf q o => Sys2Proof.Machine.execLdW d a sf q o s
  | .ldD d a sf q o => Sys2Proof.Machine.execLdD d a sf q o s
  | .stB d a sf q o => Sys2Proof.Machine.execStB d a sf q o s
  | .stH d a sf q o => Sys2Proof.Machine.execStH d a sf q o s
  | .stW d a sf q o => Sys2Proof.Machine.execStW d a sf q o s
  | .stD d a sf q o => Sys2Proof.Machine.execStD d a sf q o s
  | .cinc d a b => Sys2Proof.Machine.execCinc d a b s
  | .csetb d a b => Sys2Proof.Machine.execCsetb d a b s
  | .cperm d a b => Sys2Proof.Machine.execCperm d a b s
  | .cfmt d a b => Sys2Proof.Machine.execCfmt d a b s
  | .cfld d a sf => Sys2Proof.Machine.execCfld d a sf s
  | .ctest d a => Sys2Proof.Machine.execCtest d a s
  | .cclrt d a => Sys2Proof.Machine.execCclrt d a s
  | .csubc d a b => Sys2Proof.Machine.execCsubc d a b s
  | .cinci d a im => Sys2Proof.Machine.execCinci d a im s
  | .csetbi d a im => Sys2Proof.Machine.execCsetbi d a im s
  | .ldc d a sf q o => Sys2Proof.Machine.execLdc d a sf q o s
  | .stc d a sf q o => Sys2Proof.Machine.execStc d a sf q o s
  | .fadd d a b m => Sys2Proof.Machine.execFadd d a b m s
  | .fsub d a b m => Sys2Proof.Machine.execFsub d a b m s
  | .fmul d a b m => Sys2Proof.Machine.execFmul d a b m s
  | .ffma d a b m => Sys2Proof.Machine.execFfma d a b m s
  | .fdiv d a b m => Sys2Proof.Machine.execFdiv d a b m s
  | .fsqrt d a m => Sys2Proof.Machine.execFsqrt d a m s
  | .fmin d a b => Sys2Proof.Machine.execFmin d a b s
  | .fmax d a b => Sys2Proof.Machine.execFmax d a b s
  | .fcmp d a b p => Sys2Proof.Machine.execFcmp d a b p s
  | .fcvt d a c m => Sys2Proof.Machine.execFcvt d a c m s
  | .fclass d a => Sys2Proof.Machine.execFclass d a s
  | .fsgn d a b p => Sys2Proof.Machine.execFsgn d a b p s
  | .vadd d a b => Sys2Proof.Machine.execVadd d a b s
  | .vsub d a b => Sys2Proof.Machine.execVsub d a b s
  | .vmul d a b => Sys2Proof.Machine.execVmul d a b s
  | .vmulh d a b => Sys2Proof.Machine.execVmulh d a b s
  | .vmad d a b => Sys2Proof.Machine.execVmad d a b s
  | .vand d a b => Sys2Proof.Machine.execVand d a b s
  | .vor d a b => Sys2Proof.Machine.execVor d a b s
  | .vxor d a b => Sys2Proof.Machine.execVxor d a b s
  | .vandn d a b => Sys2Proof.Machine.execVandn d a b s
  | .vshl d a b => Sys2Proof.Machine.execVshl d a b s
  | .vshr d a b => Sys2Proof.Machine.execVshr d a b s
  | .vsra d a b => Sys2Proof.Machine.execVsra d a b s
  | .vmin d a b => Sys2Proof.Machine.execVmin d a b s
  | .vmax d a b => Sys2Proof.Machine.execVmax d a b s
  | .vminu d a b => Sys2Proof.Machine.execVminu d a b s
  | .vmaxu d a b => Sys2Proof.Machine.execVmaxu d a b s
  | .vabs d a => Sys2Proof.Machine.execVabs d a s
  | .vsel d a b => Sys2Proof.Machine.execVsel d a b s
  | .vmov d a => Sys2Proof.Machine.execVmov d a s
  | .vcmpEq d a b => Sys2Proof.Machine.execVcmpEq d a b s
  | .vcmpNe d a b => Sys2Proof.Machine.execVcmpNe d a b s
  | .vcmpLt d a b => Sys2Proof.Machine.execVcmpLt d a b s
  | .vcmpGe d a b => Sys2Proof.Machine.execVcmpGe d a b s
  | .vcmpLtu d a b => Sys2Proof.Machine.execVcmpLtu d a b s
  | .vcmpGeu d a b => Sys2Proof.Machine.execVcmpGeu d a b s
  | .vaddi d a im => Sys2Proof.Machine.execVaddi d a im s
  | .vshli d a sf => Sys2Proof.Machine.execVshli d a sf s
  | .vshri d a sf => Sys2Proof.Machine.execVshri d a sf s
  | .vsrai d a sf => Sys2Proof.Machine.execVsrai d a sf s
  | .vandi d a im => Sys2Proof.Machine.execVandi d a im s
  | .vori d a im => Sys2Proof.Machine.execVori d a im s
  | .vxori d a im => Sys2Proof.Machine.execVxori d a im s
  | .vmovi d im => Sys2Proof.Machine.execVmovi d im s
  | .vbcst d c => Sys2Proof.Machine.execVbcst d c s
  | .vshfl d a c => Sys2Proof.Machine.execVshfl d a c s
  | .vrot d a c => Sys2Proof.Machine.execVrot d a c s
  | .vredAdd a c => Sys2Proof.Machine.execVredAdd a c s
  | .vredMin a c => Sys2Proof.Machine.execVredMin a c s
  | .vredMax a c => Sys2Proof.Machine.execVredMax a c s
  | .vredMinu a c => Sys2Proof.Machine.execVredMinu a c s
  | .vredMaxu a c => Sys2Proof.Machine.execVredMaxu a c s
  | .vredAnd a c => Sys2Proof.Machine.execVredAnd a c s
  | .vredOr a c => Sys2Proof.Machine.execVredOr a c s
  | .vredXor a c => Sys2Proof.Machine.execVredXor a c s
  | .vredFadd a c => Sys2Proof.Machine.execVredFadd a c s
  | .vredFmin a c => Sys2Proof.Machine.execVredFmin a c s
  | .vredFmax a c => Sys2Proof.Machine.execVredFmax a c s
  | .vballot a c => Sys2Proof.Machine.execVballot a c s
  | .vpopc a c => Sys2Proof.Machine.execVpopc a c s
  | .vfirst a c => Sys2Proof.Machine.execVfirst a c s
  | .vextr l a c => Sys2Proof.Machine.execVextr l a c s
  | .vins d l c => Sys2Proof.Machine.execVins d l c s
  | .vperm d a b => Sys2Proof.Machine.execVperm d a b s
  | .vscanAdd d a => Sys2Proof.Machine.execVscanAdd d a s
  | .vscanFadd d a => Sys2Proof.Machine.execVscanFadd d a s
  | .vscanMin d a => Sys2Proof.Machine.execVscanMin d a s
  | .vscanMax d a => Sys2Proof.Machine.execVscanMax d a s
  | .vlane d => Sys2Proof.Machine.execVlane d s
  | .vfadd d a b => Sys2Proof.Machine.execVfadd d a b s
  | .vfsub d a b => Sys2Proof.Machine.execVfsub d a b s
  | .vfmul d a b => Sys2Proof.Machine.execVfmul d a b s
  | .vfma d a b => Sys2Proof.Machine.execVfma d a b s
  | .vfmin d a b => Sys2Proof.Machine.execVfmin d a b s
  | .vfmax d a b => Sys2Proof.Machine.execVfmax d a b s
  | .vfdiv d a b => Sys2Proof.Machine.execVfdiv d a b s
  | .vfsqrt d a => Sys2Proof.Machine.execVfsqrt d a s
  | .vrcp d a => Sys2Proof.Machine.execVrcp d a s
  | .vrsq d a => Sys2Proof.Machine.execVrsq d a s
  | .vexp2 d a => Sys2Proof.Machine.execVexp2 d a s
  | .vlog2 d a => Sys2Proof.Machine.execVlog2 d a s
  | .vsin d a => Sys2Proof.Machine.execVsin d a s
  | .vcos d a => Sys2Proof.Machine.execVcos d a s
  | .vfclass d a => Sys2Proof.Machine.execVfclass d a s
  | .vfcmpEq d a b => Sys2Proof.Machine.execVfcmpEq d a b s
  | .vfcmpNe d a b => Sys2Proof.Machine.execVfcmpNe d a b s
  | .vfcmpLt d a b => Sys2Proof.Machine.execVfcmpLt d a b s
  | .vfcmpLe d a b => Sys2Proof.Machine.execVfcmpLe d a b s
  | .vfcmpGt d a b => Sys2Proof.Machine.execVfcmpGt d a b s
  | .vfcmpGe d a b => Sys2Proof.Machine.execVfcmpGe d a b s
  | .vfcmpUn d a b => Sys2Proof.Machine.execVfcmpUn d a b s
  | .vfcvt d a sf r c => Sys2Proof.Machine.execVfcvt d a sf r c s
  | .vbadd2 d a b => Sys2Proof.Machine.execVbadd2 d a b s
  | .vbmul2 d a b => Sys2Proof.Machine.execVbmul2 d a b s
  | .vbfma2 d a b => Sys2Proof.Machine.execVbfma2 d a b s
  | .vpk d a b => Sys2Proof.Machine.execVpk d a b s
  | .vunpkLo d a => Sys2Proof.Machine.execVunpkLo d a s
  | .vunpkHi d a => Sys2Proof.Machine.execVunpkHi d a s
  | .vdot4I8 d a b => Sys2Proof.Machine.execVdot4I8 d a b s
  | .vdot4Ui8 d a b => Sys2Proof.Machine.execVdot4Ui8 d a b s
  | .vdotb d a b => Sys2Proof.Machine.execVdotb d a b s
  | .vif a => Sys2Proof.Machine.execVif a s
  | .velse => Sys2Proof.Machine.execVelse s
  | .vendif => Sys2Proof.Machine.execVendif s
  | .vloop => Sys2Proof.Machine.execVloop s
  | .vbrk a => Sys2Proof.Machine.execVbrk a s
  | .vcont a => Sys2Proof.Machine.execVcont a s
  | .vendl im => Sys2Proof.Machine.execVendl im s
  | .vany a im => Sys2Proof.Machine.execVany a im s
  | .vnone a im => Sys2Proof.Machine.execVnone a im s
  | .rep l c x y z sf => Sys2Proof.Machine.execRep l c x y z sf s
  | .vrebal d a c => Sys2Proof.Machine.execVrebal d a c s
  | .vplane d a c => Sys2Proof.Machine.execVplane d a c s
  | .vld d a c sf q => Sys2Proof.Machine.execVld d a c sf q s
  | .vst d a c sf q => Sys2Proof.Machine.execVst d a c sf q s
  | .vldmc d a c sf q => Sys2Proof.Machine.execVldmc d a c sf q s
  | .atomAdd d a b sf => Sys2Proof.Machine.execAtomAdd d a b sf s
  | .atomMin d a b sf => Sys2Proof.Machine.execAtomMin d a b sf s
  | .atomMax d a b sf => Sys2Proof.Machine.execAtomMax d a b sf s
  | .atomMinu d a b sf => Sys2Proof.Machine.execAtomMinu d a b sf s
  | .atomMaxu d a b sf => Sys2Proof.Machine.execAtomMaxu d a b sf s
  | .atomAnd d a b sf => Sys2Proof.Machine.execAtomAnd d a b sf s
  | .atomOr d a b sf => Sys2Proof.Machine.execAtomOr d a b sf s
  | .atomXor d a b sf => Sys2Proof.Machine.execAtomXor d a b sf s
  | .atomSwap d a b sf => Sys2Proof.Machine.execAtomSwap d a b sf s
  | .acas d a b sf => Sys2Proof.Machine.execAcas d a b sf s
  | .atomAddW d a b sf => Sys2Proof.Machine.execAtomAddW d a b sf s
  | .atomMinW d a b sf => Sys2Proof.Machine.execAtomMinW d a b sf s
  | .atomMaxW d a b sf => Sys2Proof.Machine.execAtomMaxW d a b sf s
  | .atomMinuW d a b sf => Sys2Proof.Machine.execAtomMinuW d a b sf s
  | .atomMaxuW d a b sf => Sys2Proof.Machine.execAtomMaxuW d a b sf s
  | .atomAndW d a b sf => Sys2Proof.Machine.execAtomAndW d a b sf s
  | .atomOrW d a b sf => Sys2Proof.Machine.execAtomOrW d a b sf s
  | .atomXorW d a b sf => Sys2Proof.Machine.execAtomXorW d a b sf s
  | .atomSwapW d a b sf => Sys2Proof.Machine.execAtomSwapW d a b sf s
  | .atomFaddW d a b sf => Sys2Proof.Machine.execAtomFaddW d a b sf s
  | .atomBfadd2W d a b sf => Sys2Proof.Machine.execAtomBfadd2W d a b sf s
  | .acasW d a b sf => Sys2Proof.Machine.execAcasW d a b sf s
  | .dqpush d a b sf => Sys2Proof.Machine.execDqpush d a b sf s
  | .dqpop d a sf => Sys2Proof.Machine.execDqpop d a sf s
  | .dqsteal d a sf => Sys2Proof.Machine.execDqsteal d a sf s
  | .vatomAdd d o w a sf => Sys2Proof.Machine.execVatomAdd d o w a sf s
  | .vatomMin d o w a sf => Sys2Proof.Machine.execVatomMin d o w a sf s
  | .vatomMax d o w a sf => Sys2Proof.Machine.execVatomMax d o w a sf s
  | .vatomMinu d o w a sf => Sys2Proof.Machine.execVatomMinu d o w a sf s
  | .vatomMaxu d o w a sf => Sys2Proof.Machine.execVatomMaxu d o w a sf s
  | .vatomAnd d o w a sf => Sys2Proof.Machine.execVatomAnd d o w a sf s
  | .vatomOr d o w a sf => Sys2Proof.Machine.execVatomOr d o w a sf s
  | .vatomXor d o w a sf => Sys2Proof.Machine.execVatomXor d o w a sf s
  | .vatomSwap d o w a sf => Sys2Proof.Machine.execVatomSwap d o w a sf s
  | .vatomFadd d o a sf => Sys2Proof.Machine.execVatomFadd d o a sf s
  | .vatomBfadd2 d o a sf => Sys2Proof.Machine.execVatomBfadd2 d o a sf s
  | .vacas d o w a sf => Sys2Proof.Machine.execVacas d o w a sf s
  | .binit d a b => Sys2Proof.Machine.execBinit d a b s
  | .barv a => Sys2Proof.Machine.execBarv a s
  | .bexp a b => Sys2Proof.Machine.execBexp a b s
  | .bwait d a b => Sys2Proof.Machine.execBwait d a b s
  | .btry d a b => Sys2Proof.Machine.execBtry d a b s
  | .binv d a => Sys2Proof.Machine.execBinv d a s
  | .fence d a sf => Sys2Proof.Machine.execFence d a sf s
  | .rel a b sf => Sys2Proof.Machine.execRel a b sf s
  | .acq d a sf => Sys2Proof.Machine.execAcq d a sf s
  | .acqp d a b sf => Sys2Proof.Machine.execAcqp d a b sf s
  | .zfill a b => Sys2Proof.Machine.execZfill a b s
  | .cqpush n d a b => Sys2Proof.Machine.execCqpush n d a b s
  | .cqtry n d a b => Sys2Proof.Machine.execCqtry n d a b s
  | .cset n d a => Sys2Proof.Machine.execCset n d a s
  | .cgete n d b => Sys2Proof.Machine.execCgete n d b s
  | .cbind n a => Sys2Proof.Machine.execCbind n a s
  | .ccancel n d => Sys2Proof.Machine.execCcancel n d s
  | .cunbind a => Sys2Proof.Machine.execCunbind a s
  | .spop d a => Sys2Proof.Machine.execSpop d a s
  | .vspop d a => Sys2Proof.Machine.execVspop d a s
  | .evset a b => Sys2Proof.Machine.execEvset a b s
  | .evclr a b => Sys2Proof.Machine.execEvclr a b s
  | .evrd d a => Sys2Proof.Machine.execEvrd d a s
  | .evsig a => Sys2Proof.Machine.execEvsig a s
  | .pset a b => Sys2Proof.Machine.execPset a b s
  | .pget d a => Sys2Proof.Machine.execPget d a s
  | .pres d a => Sys2Proof.Machine.execPres d a s
  | .prel a => Sys2Proof.Machine.execPrel a s
  | .ppass a b => Sys2Proof.Machine.execPpass a b s
  | .pjoin a b => Sys2Proof.Machine.execPjoin a b s
  | .pdrainO a => Sys2Proof.Machine.execPdrainO a s
  | .pdrainU a => Sys2Proof.Machine.execPdrainU a s
  | .pclr a => Sys2Proof.Machine.execPclr a s
  | .mstart d a b => Sys2Proof.Machine.execMstart d a b s
  | .mstop d a => Sys2Proof.Machine.execMstop d a s
  | .hgath d a => Sys2Proof.Machine.execHgath d a s
  | .hcsr d a => Sys2Proof.Machine.execHcsr d a s
  | .hscat d a => Sys2Proof.Machine.execHscat d a s
  | .rrecv d a b => Sys2Proof.Machine.execRrecv d a b s
  | .rsend d a b => Sys2Proof.Machine.execRsend d a b s
  | .rhit d a => Sys2Proof.Machine.execRhit d a s
  | .rbox4 d a b => Sys2Proof.Machine.execRbox4 d a b s
  | .rtri d a b => Sys2Proof.Machine.execRtri d a b s
  | .rroute d a b => Sys2Proof.Machine.execRroute d a b s
  | .tlreq d a b => Sys2Proof.Machine.execTlreq d a b s
  | .tlevict d a => Sys2Proof.Machine.execTlevict d a s
  | .hqbind d a b => Sys2Proof.Machine.execHqbind d a b s
  | .dbar d a b => Sys2Proof.Machine.execDbar d a b s
  | .xph d a b => Sys2Proof.Machine.execXph d a b s
  | .xmit d a b => Sys2Proof.Machine.execXmit d a b s
  | .xsel d a => Sys2Proof.Machine.execXsel d a s
  | .xrecv d a b => Sys2Proof.Machine.execXrecv d a b s
  | .xend d a => Sys2Proof.Machine.execXend d a s
  | .xslots d a b => Sys2Proof.Machine.execXslots d a b s
  | .nop => Sys2Proof.Machine.execNop s
  | .gets d n => Sys2Proof.Machine.execGets d n s
  | .sets a n => Sys2Proof.Machine.execSets a n s
  | .cwait l sf c p => Sys2Proof.Machine.execCwait l sf c p s
  | .yield => Sys2Proof.Machine.execYield s
  | .trap c => Sys2Proof.Machine.execTrap c s
  | .bkpt c => Sys2Proof.Machine.execBkpt c s
  | .exit => Sys2Proof.Machine.execExit s
  | .invl1 => Sys2Proof.Machine.execInvl1 s
  | .invi => Sys2Proof.Machine.execInvi s
  | .launch d a => Sys2Proof.Machine.execLaunch d a s
  | .grow d a b => Sys2Proof.Machine.execGrow d a b s
  | .emit d a b => Sys2Proof.Machine.execEmit d a b s
  | .mbxpop d => Sys2Proof.Machine.execMbxpop d s
  | .wresume a => Sys2Proof.Machine.execWresume a s
  | .wkill a => Sys2Proof.Machine.execWkill a s
  | .gkill a => Sys2Proof.Machine.execGkill a s
  | .gpreempt d a => Sys2Proof.Machine.execGpreempt d a s
  | .dbghalt a => Sys2Proof.Machine.execDbghalt a s
  | .dbgrun a => Sys2Proof.Machine.execDbgrun a s
  | .sgbIdleDrain core n => Sys2Proof.Machine.execSgbIdleDrain core n s
  | .sgbDrainAck core n err => Sys2Proof.Machine.execSgbDrainAck core n err s
  | .mreqRead n => Sys2Proof.Machine.execMreqRead n s
  | .mreqWrite n err => Sys2Proof.Machine.execMreqWrite n err s
  | .mreqAtomic n err => Sys2Proof.Machine.execMreqAtomic n err s
  | .scratchRequest n => Sys2Proof.Machine.execScratchRequest n s
  | .loadReply n fill ecc => Sys2Proof.Machine.execLoadReply n fill ecc s
  | .storeAck n => Sys2Proof.Machine.execStoreAck n s
  | .pageWalkDone die asid ea => Sys2Proof.Machine.execPageWalkDone die asid ea s
  | .multicastSend n => Sys2Proof.Machine.execMulticastSend n s
  | .leaseWaitDone wave => Sys2Proof.Machine.execLeaseWaitDone wave s
  | .promote n => Sys2Proof.Machine.execPromote n s
  | .promotionDone core => Sys2Proof.Machine.execPromotionDone core s
  | .promoteReply n => Sys2Proof.Machine.execPromoteReply n s
  | .barrierArrival n => Sys2Proof.Machine.execBarrierArrival n s
  | .barrierCredit n => Sys2Proof.Machine.execBarrierCredit n s
  | .barrierWake n => Sys2Proof.Machine.execBarrierWake n s
  | .workRequest core => Sys2Proof.Machine.execWorkRequest core s
  | .localSlotFill core => Sys2Proof.Machine.execLocalSlotFill core s
  | .masterTaskRequest die => Sys2Proof.Machine.execMasterTaskRequest die s
  | .deferredRangeJoin grid => Sys2Proof.Machine.execDeferredRangeJoin grid s
  | .groupRunnable core slot => Sys2Proof.Machine.execGroupRunnable core slot s
  | .prefetchTimeout core slot => Sys2Proof.Machine.execPrefetchTimeout core slot s
  | .windowRotate core => Sys2Proof.Machine.execWindowRotate core s
  | .distributorReply n => Sys2Proof.Machine.execDistributorReply n s
  | .scratchRelease group => Sys2Proof.Machine.execScratchRelease group s
  | .gridRetire grid => Sys2Proof.Machine.execGridRetire grid s
  | .batchTimeout grid => Sys2Proof.Machine.execBatchTimeout grid s
  | .hitRecordArrive n => Sys2Proof.Machine.execHitRecordArrive n s
  | .hqtTimeout core => Sys2Proof.Machine.execHqtTimeout core s
  | .shadingWaveLaunch core => Sys2Proof.Machine.execShadingWaveLaunch core s
  | .ladleRequestStart core ch => Sys2Proof.Machine.execLadleRequestStart core ch s
  | .ladleWriteAck core ch bytes => Sys2Proof.Machine.execLadleWriteAck core ch bytes s
  | .ladleComplete core ch => Sys2Proof.Machine.execLadleComplete core ch s
  | .ladleAbort core ch code info => Sys2Proof.Machine.execLadleAbort core ch code info s
  | .eventArrive n => Sys2Proof.Machine.execEventArrive n s
  | .pressGrant vat => Sys2Proof.Machine.execPressGrant vat s
  | .pressOpComplete vat => Sys2Proof.Machine.execPressOpComplete vat s
  | .contextFree vat ctx => Sys2Proof.Machine.execContextFree vat ctx s
  | .spillTailReread vat => Sys2Proof.Machine.execSpillTailReread vat s
  | .harpStart vat => Sys2Proof.Machine.execHarpStart vat s
  | .harpComplete vat => Sys2Proof.Machine.execHarpComplete vat s
  | .harpAbort vat code info => Sys2Proof.Machine.execHarpAbort vat code info s
  | .harpShip vat ok => Sys2Proof.Machine.execHarpShip vat ok s
  | .rayArrive n => Sys2Proof.Machine.execRayArrive n s
  | .rayReinject core => Sys2Proof.Machine.execRayReinject core s
  | .dirRay n => Sys2Proof.Machine.execDirRay n s
  | .dirHeatReport n => Sys2Proof.Machine.execDirHeatReport n s
  | .dirTlreq n => Sys2Proof.Machine.execDirTlreq n s
  | .dirTlevict n => Sys2Proof.Machine.execDirTlevict n s
  | .pageInDone tid => Sys2Proof.Machine.execPageInDone tid s
  | .pageInFail tid => Sys2Proof.Machine.execPageInFail tid s
  | .replicaCopyDone tid => Sys2Proof.Machine.execReplicaCopyDone tid s
  | .evictConfirm tid => Sys2Proof.Machine.execEvictConfirm tid s
  | .routeQuery n => Sys2Proof.Machine.execRouteQuery n s
  | .routeReply n => Sys2Proof.Machine.execRouteReply n s
  | .pageTransfer n => Sys2Proof.Machine.execPageTransfer n s
  | .tlreqReply n => Sys2Proof.Machine.execTlreqReply n s
  | .phaseStart n => Sys2Proof.Machine.execPhaseStart n s
  | .domainBroadcast n => Sys2Proof.Machine.execDomainBroadcast n s
  | .exchBeatSend core => Sys2Proof.Machine.execExchBeatSend core s
  | .exchBeatArrive n => Sys2Proof.Machine.execExchBeatArrive n s
  | .exchCollReport n => Sys2Proof.Machine.execExchCollReport n s
  | .exchPhaseEnd core => Sys2Proof.Machine.execExchPhaseEnd core s
  | .mailboxMessage n => Sys2Proof.Machine.execMailboxMessage n s
  | .mailboxRetry n => Sys2Proof.Machine.execMailboxRetry n s
  | .watchdogExpire wave => Sys2Proof.Machine.execWatchdogExpire wave s
  | .sliceEccError tile pa => Sys2Proof.Machine.execSliceEccError tile pa s
  | .linkDead tile dir count => Sys2Proof.Machine.execLinkDead tile dir count s
  | .saveComplete n => Sys2Proof.Machine.execSaveComplete n s
  | .restore core n => Sys2Proof.Machine.execRestore core n s
  | .leaseSync die ahead => Sys2Proof.Machine.execLeaseSync die ahead s
  | .leaseBoundTimeout die => Sys2Proof.Machine.execLeaseBoundTimeout die s
  | .dieFence die cut => Sys2Proof.Machine.execDieFence die cut s
  | .journalEntry n => Sys2Proof.Machine.execJournalEntry n s
  | .launchSlotSubmit slot record => Sys2Proof.Machine.execLaunchSlotSubmit slot record s
  | .sloterrClear mask => Sys2Proof.Machine.execSloterrClear mask s
  | .taggedWrite tag => Sys2Proof.Machine.execTaggedWrite tag s
  | .taggedWriteDone => Sys2Proof.Machine.execTaggedWriteDone s
  | .tlbInvalidate value => Sys2Proof.Machine.execTlbInvalidate value s
  | .tlbInvalidateDone => Sys2Proof.Machine.execTlbInvalidateDone s
  | .warmReset => Sys2Proof.Machine.execWarmReset s
  | .registerWrite bar2 off value => Sys2Proof.Machine.execRegisterWrite bar2 off value s
  | .hostMemRead pa len => Sys2Proof.Machine.execHostMemRead pa len s
  | .hostMemWrite pa bytes => Sys2Proof.Machine.execHostMemWrite pa bytes s
  | .completionRecordWrite grid => Sys2Proof.Machine.execCompletionRecordWrite grid s
  | .vectorTimeFire v => Sys2Proof.Machine.execVectorTimeFire v s
  | .droopDetect vat => Sys2Proof.Machine.execDroopDetect vat s
  | .droopRecover vat => Sys2Proof.Machine.execDroopRecover vat s
  | .currentLimit package amps => Sys2Proof.Machine.execCurrentLimit package amps s
  | .thermalLimit vat eighths => Sys2Proof.Machine.execThermalLimit vat eighths s
  | .sensorSample vat eighths => Sys2Proof.Machine.execSensorSample vat eighths s
  | .firmwareUpdate image version => Sys2Proof.Machine.execFirmwareUpdate image version s
  | .bootTimeout => Sys2Proof.Machine.execBootTimeout s
  | .attestation nonce => Sys2Proof.Machine.execAttestation nonce s
  | .standbyPowerOn => Sys2Proof.Machine.execStandbyPowerOn s
  | .raystatRead d => Sys2Proof.Machine.execRaystatRead d s
  | .fieldRepair core capacity => Sys2Proof.Machine.execFieldRepair core capacity s

end Sys2Proof.Machine
end

