-- ==== Sys2Proof/Machine/Pipes.lean ====
section
/-! DEFINITION. What an instruction's word takes of its core's pipes and lane groups: the scalar pipes by 04 R98,
the vector queues and their lane groups by 06 R159 and 07 R192. Times to a result are not kept (log 1). -/

namespace Sys2Proof.Machine

/-! ### The scalar pipes (04 R98) -/

/-- The pipes on which an instruction may issue: either; either, as the wave's only branch of the cycle; pipe 0;
pipe 0 with nothing else of the wave beside it. -/
inductive Pipes where
  | either | branch | first | alone
deriving DecidableEq, Repr

/-- The pipes of the ray instructions (15 R376, R378). -/
def rayPipes (f : Nat) : Pipes := if f = 3 ∨ f = 5 then .either else if f = 4 then .first else .alone

/-- The pipes that a word may take. The class of a vector word's issue slot, and of the barrier instructions, is the
model's (log 43). -/
def pipesOf (w : W32) : Pipes :=
  let m := fld w 26 6
  if m = 0x01 then (if 5 ≤ fld w 0 6 ∧ fld w 0 6 ≤ 8 then .first else .either)
  else if m ≤ 0x0C then .either
  else if m ≤ 0x0F then .branch
  else if m ≤ 0x17 then .first
  else if m ≤ 0x1A then .either
  else if m ≤ 0x1F then .first
  else if m = 0x2D then .branch
  else if m ≤ 0x2F then .either
  else if m ≤ 0x36 then .first
  else if m = 0x37 then (if 8 ≤ fld w 0 5 ∧ fld w 0 5 ≤ 11 then .alone else .first)
  else if m = 0x38 then .first
  else if m = 0x3A then rayPipes (fld w 18 8)
  else if m = 0x3D ∧ fld w 20 6 = 0 then .either
  else .alone

/-- The pipes not yet given in this cycle; an instruction that may take either takes pipe 1 if it can (log 43). -/
def freePipes (c : Core) : List Nat := [1, 0].filter fun p => !c.issued.any fun i => i.pipe = p
/-- The pipe that a word takes. -/
def pipeOf (c : Core) (w : W32) : Option Nat :=
  (freePipes c).find? fun p => decide (p = 0 ∨ pipesOf w = .either ∨ pipesOf w = .branch)

/-! ### Vector queues (06 R159, 07 R192) -/

/-- The cycles for which a vector word holds its lane group; none for a word that takes no queue entry. DESIGN CHOICE (log
43): the vector accesses, which the table of R159 gives no class, take an entry and one cycle. -/
def vecInterval (w : W32) : Option Nat :=
  let m := fld w 26 6
  let f := fld w 0 6
  if 0x20 ≤ m ∧ m ≤ 0x23 then some 1
  else if m = 0x24 then some (if f ≤ 2 ∨ f = 0x14 then 1 else 2)
  else if m = 0x25 then some (if 1 ≤ fld w 0 5 ∧ fld w 0 5 ≤ 4 then 2 else 1)
  else if m = 0x26 then
    some (if fld w 0 5 = 6 ∨ fld w 0 5 = 7 then 8 else if 8 ≤ fld w 0 5 ∧ fld w 0 5 ≤ 0x0D then 4 else 1)
  else if m = 0x27 ∨ m = 0x28 ∨ m = 0x2C ∨ m = 0x2D then some 1
  else if m = 0x2F then some 2
  else if (0x30 ≤ m ∧ m ≤ 0x32) ∨ m = 0x36 then some 1
  else none

/-- The intervals of a word of the wave that moves: its own, or for a `REP` that of each body word and pass (06 R175).
DESIGN CHOICE (log 43): those of a `REP` are one queue entry, which leaves the queue with its last pass. -/
def vecEntries (s : State) (w : W32) : List Nat :=
  if fld w 26 6 = 0x2E then
    match (fetchBody s s.pc (s.pc.addr + 4) (fld w 16 4 + 1)).1 with
    | .ok body => (List.range (fld w 9 7 + 1)).flatMap fun _ => body.filterMap vecInterval
    | .error _ => []
  else (vecInterval w).toList

/-- The weight of a wave's queue: (PRIO + 1) × F (07 R192). -/
def laneWeight (s : State) (w : Nat) (x : Wave) : Nat :=
  let k := ((s.grid? x.grid).map fun g => recClass g.record).getD 0
  (wavePrio s x + 1) * (fld (s.vat (coreVat (waveCore w))).vpol (8 + 2 * k) 2 + 1)

/-- The nonempty queues of a lane group. -/
def laneQueues (s : State) (core home : Nat) : List (Nat × Wave) :=
  s.waves.filter fun w => decide (waveCore w.1 = core ∧ w.2.home = home ∧ w.2.vq ≠ [])

/-- An entry is placed in a wave's queue; one that was empty takes its pass value (07 R192). DESIGN CHOICE (log 43): the
queues that count as ready are all that are nonempty, also while the lane group is held by an interval. -/
def enqueue (s : State) (w : Nat) (es : List Nat) : State :=
  if es = [] then s
  else
    let least := (((laneQueues s (waveCore w) (s.wave w).home).map (·.2.pass)).min?).getD 0
    s.modWave w fun x => { x with vq := x.vq ++ [es], pass := if x.vq = [] then Nat.max x.pass least else x.pass }

/-- The queue head of a lane group that is granted: the least pass value, on a tie the lowest wave slot (07 R192). -/
def laneGrant (s : State) (core home : Nat) : Option Nat :=
  if s.cyc < Tbl.get 0 (s.core core).lanesBusy home then none
  else match laneQueues s core home with
    | [] => none
    | q :: t => some (t.foldl (fun b y => if y.2.pass < b.2.pass ∨ (y.2.pass = b.2.pass ∧ y.1 < b.1) then y else b) q).1

/-- A queue whose head has been granted its first interval. -/
def nextGrant : List (List Nat) → List (List Nat)
  | (_ :: i :: t) :: q => (i :: t) :: q
  | _ :: q => q
  | [] => []
/-- The head of a wave's queue goes to its lane group. -/
def grantHead (s : State) (w : Nat) : State :=
  let x := s.wave w
  (s.modWave w fun y => { y with vq := nextGrant y.vq, pass := y.pass + 2 ^ 20 / laneWeight s w x }).modCore (waveCore w)
    fun c => { c with lanesBusy := Tbl.set c.lanesBusy x.home (s.cyc + (x.vq.headD []).headD 0) }

/-- Each lane group chooses one ready queue head (07 R192). -/
def grantLanes (s : State) : State :=
  let gs := (s.waves.filter fun w => decide (w.2.vq ≠ [])).foldl
    (fun (a : List (Nat × Nat)) w => let g := (waveCore w.1, w.2.home); if a.contains g then a else a ++ [g]) []
  gs.foldl (fun s g => match laneGrant s g.1 g.2 with
    | some w => grantHead s w
    | none => s) s

end Sys2Proof.Machine
end

