-- ==== Sys2Proof/Machine/Schedule.lean ====
section
/-! DEFINITION. What the machine does next (log 1): which agent or which other step moves, fetching an
instruction (01 R32), and what goes with every step. -/

namespace Sys2Proof.Machine

/-! ### Agents that can move -/

/-- A wave that has tried its next instruction and will try it again. -/
def Wave.retries (x : Wave) : Bool := decide (x.run = .waiting .retry ∨ x.run = .waiting .timed)
/-- A wave that waits at its next instruction, for anything but the supervisor. -/
def Wave.waits (x : Wave) : Bool := match x.run with
  | .waiting .fault => false
  | .waiting _ => true
  | _ => false

/-- A wave may execute: its core's clock runs, no halt stops it, and a group that is being saved only ends the waits that
the part bounds (19 R417, R426, 22 R462). -/
def mayRun (s : State) (w : Nat) : Bool :=
  let x := s.wave w
  x.live && x.unhalted && (!beingSaved s x.group || finishing x) && !vatIdle s (coreVat (waveCore w))

/-- A wave that may issue: in the window, and its vector queue is not full (07 R189, R192). -/
def runnableWave (s : State) (w : Nat) : Bool :=
  let x := s.wave w
  decide (x.run = .window ∧ x.vq.length < 8) && mayRun s w

/-- A context may move on (19 R417, 22 R462). -/
def ctxMoves (s : State) (v n : Nat) : Bool :=
  let x := s.ctx v n
  decide (x.st = .run) && !beingSaved s x.group && !vatIdle s v
/-- A context that may execute (13 R309, R314). -/
def runnableCtx (s : State) (v n : Nat) : Bool := decide ((s.ctx v n).wait = none) && ctxMoves s v n

/-! ### An agent's instruction -/

/-- The agent is taken up. -/
def begin_ (s : State) (a : Agent) : State :=
  let s := { s with cur := a }
  match a with
  | .wave w => s.modWave w fun x => { x with run := .window }
  | .ctx v n => s.modCtx v n fun x => { x with wait := none }
  | .none => s

/-- The instruction that a word stands for. -/
noncomputable def instrOf (w : W32) : Instr := match decode w with
  | .ok i => i
  | .error _ => .illegalInstruction w

/-- Fetch and execute the next instruction of the agent that moves (01 R32, R35). -/
noncomputable def runAgent (s : State) : Res :=
  match fetchAt s s.pc s.pc.addr with
  | (.error t, s) => .next (raise s t)
  | (.ok w, s) => exec (instrOf w) s

/-- The word of an agent's next instruction, as it would be fetched; 0 where that fails. -/
def nextWord (s : State) (a : Agent) : W32 :=
  let s := begin_ s a
  match (fetchAt s s.pc s.pc.addr).1 with
  | .ok w => w
  | .error _ => 0

/-! ### Which wave of a core issues (07 R191) -/

/-- The waves of a core that may issue. -/
def coreReady (s : State) (c : Nat) : List (Nat × Wave) := s.waves.filter fun w => decide (waveCore w.1 = c) && runnableWave s w.1

/-- A pipe that the wave's next instruction may take is free. -/
def fitsPipe (s : State) (c w : Nat) : Bool :=
  (s.core c).issued.isEmpty || (pipeOf (s.core c) (nextWord s (.wave w))).isSome

/-- A wave's second instruction may issue on the pipe that is left: the first was no SYS instruction and no taken
branch, this one is no SYS instruction and no second branch, and it reads nothing that the first writes (01 R33, 04
R98). DESIGN CHOICE (log 43): the one branch in a cycle is one of a wave, not of a core. -/
noncomputable def fitsSecond (s : State) (c : Nat) (i : Issued) : Bool :=
  let w := nextWord s (.wave i.wave)
  !i.alone && decide (pipesOf w ≠ .alone) && !(decide (pipesOf w = .branch) && decide (pipesOf (s.wave i.wave).word = .branch))
    && (pipeOf (s.core c) w).isSome && !(regs (instrOf w)).rd.any fun n => i.wr.contains n

/-- Round 1: the wave that comes first by effective priority, then the longest without an issue, of those that have
not issued in this cycle and whose instruction finds a pipe. -/
def roundOne (s : State) (c : Nat) : Option Nat :=
  firstWave (effPrio s) (·.last) ((coreReady s c).filter fun w => !(s.core c).issued.any (fun i => i.wave = w.1) && fitsPipe s c w.1)

/-- Round 2: a pipe that is left goes to a wave granted in round 1, by priority. -/
noncomputable def roundTwo (s : State) (c : Nat) : Option Nat :=
  match (s.core c).issued with
  | [i] =>
    if fitsSecond s c i then firstWave (effPrio s) (·.last) ((coreReady s c).filter fun w => w.1 = i.wave) else none
  | _ => none

/-- The wave of a core to which a pipe is given next in this cycle. -/
noncomputable def grantPipe (s : State) (c : Nat) : Option Nat := match roundOne s c with
  | some w => some w
  | none => roundTwo s c

/-- A core takes its place among others, by y, then x. -/
def insertCore (c : Nat) : List Nat → List Nat
  | [] => [c]
  | d :: t => if c = d then d :: t else if coreY c * 1024 + coreX c < coreY d * 1024 + coreX d then c :: d :: t else d :: insertCore c t
/-- The cores with a wave in the window, by y, then x: the order in which requests of one cycle are taken (12 R303, 14 R346,
16 R392, 18 R406). -/
def busyCores (s : State) : List Nat := (s.waves.filter fun w => decide (w.2.run = .window)).foldr (fun w l => insertCore (waveCore w.1) l) []

/-- What a word does in a cycle comes after the faults of the cycle if it is a kill (1), and after the kills if it is a
resume (2) (18 R414). -/
def turnRank (w : W32) : Nat := if fld w 20 12 = 0xF81 then 2 else if fld w 20 12 = 0xF82 ∨ fld w 20 12 = 0xF83 then 1 else 0

/-- The wave of a core whose turn it is, and its rank: before a kill or a resume, which take pipe 0, another wave may take
the pipe that is left. -/
noncomputable def coreTurn (s : State) (c : Nat) : Option (Nat × Nat) :=
  (grantPipe s c).map fun w =>
    let k := turnRank (nextWord s (.wave w))
    if k = 0 then (0, w)
    else match grantPipe (s.modCore c fun x => { x with issued := x.issued ++ [⟨w, 0, true, []⟩] }) c with
      | some v => (0, v)
      | none => (k, w)

/-- The next wave that issues in this cycle, on whichever core. -/
noncomputable def pickWave (s : State) : Option Agent :=
  let l := (busyCores s).filterMap (coreTurn s)
  ([0, 1, 2].findSome? fun k => (l.find? fun x => x.1 = k)).map fun x => .wave x.2

/-- The context of a vat whose turn it is: the first after the one that issued last; one issues in a cycle (13 R309). -/
def ctxTurn (s : State) (v : Nat) : Option Nat :=
  if (s.vat v).ctxDone then none
  else ((List.range 4).map fun i => ((s.vat v).lastCtx + 1 + i) % 4).find? (runnableCtx s v)
/-- The next context that executes in this cycle, of whichever vat. -/
def pickCtx (s : State) : Option Agent := s.vats.findSome? fun v => (ctxTurn s v.1).map (Agent.ctx v.1)

/-- It is the agent's turn. -/
noncomputable def allowed (s : State) : Agent → Bool
  | .wave w => decide (pickWave s = some (.wave w))
  | .ctx v n => decide (ctxTurn s v = some n)
  | .none => false

/-! ### Steps that no wave executes -/

/-- One step for each place of a list. -/
def each {α : Type} (l : List α) (f : Nat → List Instr) : List Instr := (List.range l.length).flatMap f

/-- Steps that time itself makes: firings, the exchange plane and the phase broadcasts keep their cycles (12 R304, 16 R384,
R386, R389, R390), a multicast response whose data is there leaves when it must (08 R221), and a window rotates (07 R190). -/
noncomputable def urgentSteps (s : State) : List Instr :=
  let runs := (s.cores.filter fun c => decide (c.2.port.st = .run)).map (·.1)
  let old := (s.waves.filter fun w => decide (w.2.run = .ready ∧ w.2.entered + 512 ≤ s.cyc)).map fun w => waveCore w.1
  runs.map .exchPhaseEnd ++ each s.net.phases (fun n => [.phaseStart n]) ++ runs.map .exchBeatSend
    ++ each s.net.beats (fun n => [.exchBeatArrive n]) ++ each s.net.colls (fun n => [.exchCollReport n])
    ++ each s.net.bcasts (fun n => [.domainBroadcast n]) ++ each s.net.events (fun n => [.eventArrive n])
    ++ ((s.net.mcasts.zipIdx).filter fun m => m.1.arrived).map (fun m => .multicastSend m.2)
    ++ (old.filter fun c => decide (16 ≤ windowCount s c)).map .windowRotate

/-- Messages on their way. -/
noncomputable def messageSteps (n : Net) : List Instr :=
  each n.reqs (fun k => [.mreqRead k, .mreqWrite k 0, .mreqAtomic k 0, .scratchRequest k])
    ++ each n.replies (fun k => [.loadReply k false false]) ++ each n.acks (fun k => [.storeAck k])
    ++ each n.mcasts (fun k => [.multicastSend k]) ++ each n.promotes (fun k => [.promote k])
    ++ each n.promoReps (fun k => [.promoteReply k]) ++ each n.arrivals (fun k => [.barrierArrival k])
    ++ each n.credits (fun k => [.barrierCredit k]) ++ each n.wakes (fun k => [.barrierWake k])
    ++ each n.replies2 (fun k => [.distributorReply k]) ++ each n.hits (fun k => [.hitRecordArrive k])
    ++ each n.rays (fun k => [.rayArrive k]) ++ each n.dirRays (fun k => [.dirRay k]) ++ each n.heats (fun k => [.dirHeatReport k])
    ++ each n.tlreqs (fun k => [.dirTlreq k]) ++ each n.evicts (fun k => [.dirTlevict k]) ++ each n.queries (fun k => [.routeQuery k])
    ++ each n.routeReps (fun k => [.routeReply k]) ++ each n.pages (fun k => [.pageTransfer k]) ++ each n.tlreps (fun k => [.tlreqReply k])
    ++ each n.posts (fun k => [.mailboxMessage k, .mailboxRetry k]) ++ each n.journal (fun k => [.journalEntry k])

/-- The units of a core. -/
noncomputable def coreSteps (c : Nat) (x : Core) : List Instr :=
  each x.sgb (fun n => [.sgbDrainAck c n 0, .sgbIdleDrain c n]) ++ (if x.active.isSome then [.promotionDone c] else [])
    ++ (if x.ovfN = 0 then [] else [.rayReinject c]) ++ (if x.hprog.isSome then [.shadingWaveLaunch c, .hqtTimeout c] else [])
    ++ (if x.fifo.isEmpty then [] else (List.range 8).flatMap fun ch => [.ladleRequestStart c ch, .ladleComplete c ch, .ladleWriteAck c ch 4096])
    ++ x.shadow.map fun h => .groupRunnable c h.1

/-- The units of a vat. -/
noncomputable def vatSteps (v : Nat) (x : Vat) : List Instr :=
  (if x.rtab.isEmpty then [] else [.pressOpComplete v, .pressGrant v, .spillTailReread v])
    ++ (if x.harp.isEmpty then [] else [.harpStart v, .harpShip v true, .harpComplete v]) ++ x.ctxs.map fun k => .contextFree v k.1

/-- An owner's confirmation is on its way; and rays that wait in a cold entry are looked at again when some host could
take the treelet (15 R364, R365). -/
def directoryReady (s : State) (t : Nat) : Bool :=
  (s.dir t).confirm || decide (dirState s t = 4) || match (s.dir t).pend with
    | r :: _ => (chooseHost s t r.org).isSome
    | [] => false

/-- The directories. -/
noncomputable def directorySteps (s : State) : List Instr :=
  s.dirs.flatMap fun d => [.pageInDone d.1, .pageInFail d.1, .replicaCopyDone d.1] ++ (if directoryReady s d.1 then [.evictConfirm d.1] else [])

/-- Grids, groups and the distributors. -/
noncomputable def gridSteps (s : State) : List Instr :=
  s.grids.flatMap (fun g => [.gridRetire g.1, .completionRecordWrite g.1, .batchTimeout g.1, .deferredRangeJoin g.1])
    ++ s.groups.flatMap (fun g => [.scratchRelease g.1, .saveComplete g.1])
    ++ (if s.tasks.isEmpty then [] else (liveDies s).flatMap fun d =>
      .masterTaskRequest d :: (presentCores s d).flatMap fun c => [.localSlotFill c, .workRequest c])
    ++ each s.saved fun n => (liveDies s).flatMap fun d => (presentCores s d).map fun c => .restore c n

/-- Waits of waves, dead links, and the host's registers. -/
noncomputable def waitSteps (s : State) : List Instr :=
  s.waves.flatMap (fun w => match w.2.run with
      | .waiting _ => [.leaseWaitDone w.1, .watchdogExpire w.1]
      | _ => []) ++ (if s.bar0.tgbusy.isSome then [.taggedWriteDone] else [])
    ++ (s.links.filter fun l => !l.told).map (fun l => .linkDead l.tile l.dir 0)
    ++ (if bit s.bar0.tlbinv 63 then [.tlbInvalidateDone] else []) ++ s.bar0.oldest.map fun v => .vectorTimeFire v.1

/-- The first time the machine is powered, bring-up begins (22 R467). -/
noncomputable def bootSteps (s : State) : List Instr := if !s.up && s.ctrl.log.isEmpty then [.standbyPowerOn] else []

/-- Every step that the machine may make by itself, with the place it begins at turned round (log 1). -/
noncomputable def ownSteps (s : State) : List Instr :=
  bootSteps s ++
  let l := messageSteps s.net ++ s.cores.flatMap (fun c => if vatIdle s (coreVat c.1) then [] else coreSteps c.1 c.2)
    ++ s.vats.flatMap (fun v => if vatIdle s v.1 then [] else vatSteps v.1 v.2)
    ++ directorySteps s ++ gridSteps s ++ waitSteps s
  let n := s.cyc % Nat.max l.length 1
  l.drop n ++ l.take n

/-- The step does something now. -/
def acts (s : State) (i : Instr) : Bool := match exec i { s with cur := .none } with
  | .next t => decide (t ≠ { s with cur := .none })
  | _ => false

/-! ### Which turn it is -/

/-- What moves next. -/
inductive Move where
  /-- A step of the exchange plane, which takes no cycle of its own. -/
  | urgent (i : Instr)
  | event (i : Instr)
  | agent (a : Agent)
  | idle
deriving DecidableEq, Repr

/-- What moves next in this cycle: what is urgent; what is chosen from outside; the waves, then the contexts, to which
the cycle gives a turn; one step of a unit; then the cycle ends (log 1). -/
noncomputable def pick (s : State) : Move :=
  match (urgentSteps s).find? (acts s) with
  | some i => .urgent i
  | none => match s.agenda with
    | .agent a :: _ => if allowed s a then .agent a else .idle
    | .event i :: _ => .event i
    | [] => match (pickWave s).or (pickCtx s) with
      | some a => .agent a
      | none => match if s.moved then none else (ownSteps s).find? (acts s) with
        | some i => .event i
        | none => .idle

/-! ### After an instruction -/

/-- The registers that an instruction's word writes. -/
noncomputable def wordWrites (w : W32) : List Nat := (regs (instrOf w)).wr

/-- A wave's instruction has been tried: whether it is to be tried again, or else what it has taken of the cycle (07
R191, R192). `s` is the state before. -/
noncomputable def settleWave (s : State) (w : Nat) (t : State) : State :=
  if !(t.wave w).live then t
  else
    let code := nextWord s (.wave w)
    let core := waveCore w
    let t := t.modWave w fun x => { x with word := code, again := x.waits }
    if (t.wave w).retries ∨ (t.wave w).fault.isSome then t
    else
      let jump := decide (pipesOf code = .branch ∧ (t.wave w).pc.addr ≠ (s.wave w).pc.addr + 4)
      let t := enqueue t w (vecEntries (begin_ s (.wave w)) code)
      (t.modWave w fun x => { x with last := s.cyc, since := s.cyc }).modCore core fun c =>
        { c with issued := c.issued ++ [⟨w, (pipeOf (s.core core) code).getD 0, decide (pipesOf code = .alone) || jump, wordWrites code⟩] }

/-- A context's instruction has been tried: one that does not wait has had its vat's turn (13 R309). -/
def settleCtx (v n : Nat) (t : State) : State :=
  if (t.ctx v n).wait = some .retry ∨ (t.ctx v n).wait = some .timed then t
  else t.modVat v fun x => { x with lastCtx := n, ctxDone := true }

/-- What follows an agent's instruction. -/
noncomputable def settle (s : State) (a : Agent) (t : State) : State :=
  let t := match a with
    | .wave w => settleWave s w t
    | .ctx v n => settleCtx v n t
    | .none => t
  { t with cur := .none }

/-! ### The end of a cycle -/

/-- What of a core a waiting instruction can set going. -/
def Core.bare (c : Core) : Core := { c with l1 := [], l1use := [], icache := [], icuse := [], utlb := [] }
/-- The same of a vat. -/
def Vat.bare (v : Vat) : Vat := { v with tlb := [] }

/-- The agent's attempt at its next instruction, which it has tried, sets something going. -/
noncomputable def stirs (s : State) (core : Nat) (t : State) : Bool :=
  decide (t.net ≠ s.net ∨ (t.core core).bare ≠ (s.core core).bare ∨ (t.vat (coreVat core)).bare ≠ (s.vat (coreVat core)).bare)

/-- A wait is over: the wave is PARKED-READY (07 R189). -/
def wakeWave (s : State) (w : Nat) : State := s.modWave w fun x => { x with run := .ready, since := s.cyc, entered := s.cyc }
/-- A waiting wave looks whether the event that it waits for has come: its instruction could go on. A wait that goes on
does what it now can of what it waits for, and is timed anew when it turns into one of the other sort (18 R404). -/
noncomputable def tryWave (s : State) (w : Nat) : State := match runAgent (begin_ s (.wave w)) with
  | .next t =>
    if !(t.wave w).retries then wakeWave s w
    else
      let x := s.wave w
      let why := (t.wave w).run
      (if stirs s (waveCore w) t then { t with cur := s.cur } else s).modWave w fun y =>
        { y with run := why, entered := x.entered, waitAt := if why = x.run then x.waitAt else s.cyc }
  | _ => wakeWave s w
/-- The same for a context. -/
noncomputable def tryCtx (s : State) (v n : Nat) : State :=
  let go (s : State) : State := s.modCtx v n fun x => { x with wait := none }
  match runAgent (begin_ s (.ctx v n)) with
  | .next t =>
    if (t.ctx v n).wait ≠ some .retry ∧ (t.ctx v n).wait ≠ some .timed then go s
    else if stirs (go s) v (go t) then { t with cur := s.cur } else s
  | _ => go s

/-- The waves and contexts that wait look for their events. What a wait that goes on finds is chosen afresh in the next
cycle (log 9). -/
noncomputable def endWaits (s : State) : State :=
  let ws := (s.waves.filter fun w => w.2.retries && mayRun s w.1).map (·.1)
  let cs := s.vats.flatMap fun v => (v.2.ctxs.filter fun x =>
    decide (x.2.wait = some .retry ∨ x.2.wait = some .timed) && ctxMoves s v.1 x.1).map fun x => (v.1, x.1)
  let t := cs.foldl (fun t k => tryCtx t k.1 k.2) (ws.foldl tryWave s)
  if ws.isEmpty && cs.isEmpty then t else { t with fresh := t.fresh + 1 }

/-- What does not grow in a cycle: a wait of a wave whose grid has a halted one, or whose clock does not run (18 R404, 19
R427), and the time for which a wave could issue while its vector queue is full or its clock does not run (07 R191). -/
def heldBack (s : State) (w : Nat) (x : Wave) : Wave :=
  let idle := vatIdle s (coreVat (waveCore w))
  if x.waits then (if idle || gridHalted s x.grid then { x with waitAt := x.waitAt + 1 } else x)
  else if idle ∨ (x.run = .window ∧ 8 ≤ x.vq.length) then { x with since := x.since + 1 } else x
def holdBack (s : State) : State := { s with waves := s.waves.map fun w => (w.1, heldBack s w.1 w.2) }

/-- A stretched clock runs or not in a cycle as the droop has it, and one that is halved or hot in every other cycle (22
R462; log 6). -/
def clockVat (s : State) (v : Nat) : State :=
  let x := s.vat v
  let (skip, s) := if x.stretched then drawBit s else (false, s)
  s.modVat v fun y => { y with
    lag := y.lag + b2n (y.idle && !(s.die (coreDie v)).idle)
    idle := skip || (y.hot && decide (s.cyc % 2 = 1)) }
def clockDie (s : State) (d : Die) : Die :=
  if d.halved || d.idle then { d with lag := d.lag + b2n d.idle, idle := d.halved && decide (s.cyc % 2 = 1) } else d
/-- The clocks of the next cycle. -/
def runClocks (s : State) : State :=
  let s := ((s.vats.filter fun v => v.2.stretched || v.2.hot || v.2.idle).map (·.1)).foldl clockVat s
  { s with dies := s.dies.map fun d => (d.1, clockDie s d.2) }

/-- The turns of a cycle are over. -/
def clearTurns (s : State) : State :=
  { s with
    moved := false
    cores := s.cores.map fun c => (c.1, if c.2.issued.isEmpty then c.2 else { c.2 with issued := [] })
    vats := s.vats.map fun v => (v.1, if v.2.ctxDone then { v.2 with ctxDone := false } else v.2) }

/-- Free window positions are given on every core (07 R190). -/
def fillWindows (s : State) : State :=
  ((s.waves.filter fun w => decide (w.2.run = .ready)).foldl
    (fun (a : List Nat) w => if a.contains (waveCore w.1) then a else a ++ [waveCore w.1]) []).foldl fillWindow s

/-- A cycle ends: beats that meet are resolved, lane groups take their next instructions, waits end, windows are filled,
and the next cycle begins. -/
noncomputable def tick (s : State) : State :=
  let s := holdBack (fillWindows (endWaits (grantLanes (resolveBeats { s with cur := .none } s.cyc))))
  clearTurns (runClocks { s with cyc := s.cyc + 1 })

/-! ### Moves -/

/-- Go on from a next state. -/
def onNext (r : Res) (f : State → State) : Res := match r with
  | .next s => .next (f s)
  | .fault e => .fault e
  | .refused e => .refused e

/-- One step that is not an agent's. -/
def runEvent (s : State) (i : Instr) : Res := exec i { s with cur := .none, agenda := s.agenda.drop 1, moved := true }

/-- Make a move. -/
noncomputable def make (s : State) : Move → Res
  | .urgent i => exec i { s with cur := .none }
  | .event i => runEvent s i
  | .agent a =>
    let s := { s with agenda := s.agenda.drop 1 }
    onNext (runAgent (begin_ s a)) (settle s a)
  | .idle => .next (tick { s with agenda := s.agenda.drop 1 })

/-! ### Placing a word for the next fetch -/

/-- Where the word is put: in the scratch of core (0, 0), where groups' allocations start. -/
def placeKey : Nat := scratchKey 0 4096

/-- A full supervisor wave in slot 0 of core (0, 0) that stands at the word, and its turn. -/
def placeWord (s : State) (w : Nat) : State :=
  let s := poke s placeKey (bytesOf 4 w)
  let a := 0x7F * 2 ^ 48 + 4096
  let (u, s) := s.newAgent
  let s := s.setWave 0 { live := true, full := true, vregs := 128, sup := true, uid := u, pc := Cap.make (permEX + permLD) a 256 a }
  { s with agenda := [.agent (.wave 0)] }

end Sys2Proof.Machine
end

