-- ==== Sys2Proof/Machine/Step.lean ====
section
/-! DEFINITION. One step of the machine. -/

namespace Sys2Proof.Machine

/-- One step: what is to move moves (log 1). -/
noncomputable def step (s : State) : Host.Outcome State Fault Refusal := make s (pick s)

/-- The state with an instruction's word placed where the next step fetches it (log 1). -/
def State.withFetchWord (s : State) (_nbits w : Nat) : State := placeWord s w

end Sys2Proof.Machine
end

