-- ==== Sys2Proof/Safety.lean ====
section
/-! DEFINITION. What claims take as a safe run: steps that answer a next state, over states that keep their
form. -/

namespace Sys2Proof.Machine

/-- Memory and tags are in their canonical form (log 3). -/
def State.MemOk (s : State) : Prop := Memory.wf s.mem = true ∧ Tbl.wf false s.tags = true

/-- The machine goes on from a state. -/
def GoesOn (s : State) : Prop := ∃ t, step s = .next t

/-- Nothing is chosen from outside: the machine goes by itself (log 1). -/
def State.alone (s : State) : Prop := s.agenda = []

end Sys2Proof.Machine
end

