-- ==== Sys2Proof/Certificates/Slice0/Obligations.lean ====
section
/-! DEFINITION. The statements for the provers. The first words of each docstring name the rules of spec/ it
states; `Admitted i s` says that every check before an instruction passes. -/

open Sys2Proof Sys2Proof.Machine

/-! ### Words used in the statements -/

/-- Every check passes and the instruction answers the next state `k s`. -/
def Sys2Proof.Spec.does (i : Instr) (k : State → State) (s : State) : Prop := Admitted i s → exec i s = .next (k s)

/-- 04 R99: W = 1 computes on the low 32 bits and sign-extends bit 31. -/
def Sys2Proof.Spec.width (w : BitVec 1) (f : (n : Nat) → BitVec n → BitVec n → BitVec n) (x y : Word) : Word :=
  if w = 1 then (f 32 (x.setWidth 32) (y.setWidth 32)).signExtend 64 else f 64 x y

/-- A truth value as an n-bit number. -/
def Sys2Proof.Spec.truth (n : Nat) (b : Prop) [Decidable b] : BitVec n := if b then 1 else 0

/-- How many of the bits met first, in the order given, are zero. -/
def Sys2Proof.Spec.zerosFirst {n : Nat} (x : BitVec n) (order : List Nat) : Nat := (order.takeWhile fun i => !x.getLsbD i).length

/-! ### Scalar integers (04 R99 to R106) -/

/-- 04 R99, R100: each register-form integer instruction writes its result, by width, and goes on. -/
def Sys2Proof.Spec.IntegerRegisterForms : Prop :=
  ∀ (s : State) (d a b : BitVec 6) (w : BitVec 1),
    let r (i : Instr) (f : (n : Nat) → BitVec n → BitVec n → BitVec n) : Prop :=
      Spec.does i (fun s => (s.setData d.toNat (Spec.width w f (s.lo a.toNat) (s.lo b.toNat))).advance) s
    r (.add d a b w) (fun _ x y => x + y) ∧
    r (.sub d a b w) (fun _ x y => x - y) ∧
    r (.mul d a b w) (fun n x y => BitVec.ofInt n (x.toInt * y.toInt)) ∧
    r (.mulh d a b w) (fun n x y => BitVec.ofInt n (x.toInt * y.toInt / 2 ^ n)) ∧
    r (.mulhu d a b w) (fun n x y => BitVec.ofNat n (x.toNat * y.toNat / 2 ^ n)) ∧
    r (.div d a b w) (fun n x y => if y = 0 then BitVec.allOnes n else BitVec.ofInt n (x.toInt.tdiv y.toInt)) ∧
    r (.divu d a b w) (fun n x y => if y = 0 then BitVec.allOnes n else BitVec.ofNat n (x.toNat / y.toNat)) ∧
    r (.rem d a b w) (fun n x y => if y = 0 then x else BitVec.ofInt n (x.toInt.tmod y.toInt)) ∧
    r (.remu d a b w) (fun n x y => if y = 0 then x else BitVec.ofNat n (x.toNat % y.toNat)) ∧
    r (.and d a b w) (fun _ x y => x &&& y) ∧
    r (.or d a b w) (fun _ x y => x ||| y) ∧
    r (.xor d a b w) (fun _ x y => x ^^^ y) ∧
    r (.andn d a b w) (fun _ x y => x &&& ~~~y) ∧
    r (.sll d a b w) (fun n x y => x <<< (y.toNat % n)) ∧
    r (.srl d a b w) (fun n x y => x >>> (y.toNat % n)) ∧
    r (.sra d a b w) (fun n x y => BitVec.ofInt n (x.toInt / 2 ^ (y.toNat % n))) ∧
    r (.ror d a b w) (fun n x y => x >>> (y.toNat % n) ||| x <<< (n - y.toNat % n)) ∧
    r (.min d a b w) (fun _ x y => if x.toInt < y.toInt then x else y) ∧
    r (.max d a b w) (fun _ x y => if x.toInt < y.toInt then y else x) ∧
    r (.minu d a b w) (fun n x y => BitVec.ofNat n (min x.toNat y.toNat)) ∧
    r (.maxu d a b w) (fun n x y => BitVec.ofNat n (max x.toNat y.toNat)) ∧
    r (.slt d a b w) (fun n x y => Spec.truth n (x.toInt < y.toInt)) ∧
    r (.sltu d a b w) (fun n x y => Spec.truth n (x.toNat < y.toNat)) ∧
    r (.seq d a b w) (fun n x y => Spec.truth n (x = y)) ∧
    r (.sne d a b w) (fun n x y => Spec.truth n (x ≠ y)) ∧
    r (.clz d a w) (fun n x _ => BitVec.ofNat n (Spec.zerosFirst x (List.range n).reverse)) ∧
    r (.ctz d a w) (fun n x _ => BitVec.ofNat n (Spec.zerosFirst x (List.range n))) ∧
    r (.popc d a w) (fun n x _ => BitVec.ofNat n ((List.range n).filter x.getLsbD).length) ∧
    r (.brev d a w) (fun _ x _ => x.reverse)

/-- 04 R101: an immediate operation is the register form with W = 0 on the sign-extended immediate. -/
def Sys2Proof.Spec.IntegerImmediateForms : Prop :=
  ∀ (s : State) (d a : BitVec 6) (m : BitVec 14),
    let r (i : Instr) (f : Word → Word → Word) : Prop :=
      Spec.does i (fun s => (s.setData d.toNat (f (s.lo a.toNat) (m.signExtend 64))).advance) s
    r (.addi d a m) (· + ·) ∧ r (.andi d a m) (· &&& ·) ∧ r (.ori d a m) (· ||| ·) ∧ r (.xori d a m) (· ^^^ ·) ∧
    r (.slti d a m) (fun x y => Spec.truth 64 (x.toInt < y.toInt)) ∧ r (.sltiu d a m) (fun x y => Spec.truth 64 (x.toNat < y.toNat))

/-- 04 R102, R103: shifts by an amount in the word (below 32 for W = 1, which a word with more is no
instruction of), and the upper immediates, in bits [33:14] with their sign. -/
def Sys2Proof.Spec.ShiftAndUpperForms : Prop :=
  ∀ (s : State) (d a : BitVec 6) (w : BitVec 1) (n : BitVec 6) (m : BitVec 20),
    let r (i : Instr) (f : (n : Nat) → BitVec n → BitVec n) : Prop :=
      Spec.does i (fun s => (s.setData d.toNat (Spec.width w (fun n x _ => f n x) (s.lo a.toNat) 0)).advance) s
    (w = 1 → n.toNat < 32) →
    r (.slli d a w n) (fun _ x => x <<< n.toNat) ∧
    r (.srli d a w n) (fun _ x => x >>> n.toNat) ∧
    r (.srai d a w n) (fun k x => BitVec.ofInt k (x.toInt / 2 ^ n.toNat)) ∧
    Spec.does (.lui d m) (fun s => (s.setData d.toNat (BitVec.ofInt 64 (m.toInt * 2 ^ 14))).advance) s ∧
    Spec.does (.auipc d m) (fun s => (s.setData d.toNat (BitVec.ofInt 64 (s.pc.addr + m.toInt * 2 ^ 14))).advance) s

/-- Scalar integer instructions write their result by width and go on (R99, R100, R101, R103). -/
def Obligations.IntegerArithmetic : Prop := Spec.IntegerRegisterForms ∧ Spec.IntegerImmediateForms ∧ Spec.ShiftAndUpperForms

/-- 02 R48, 04 R104: a branch goes to PC.ADDR + 4 × off11 by the rule of R14 when its condition holds, else to
the next instruction, and writes no register. -/
def Sys2Proof.Spec.ConditionalBranches : Prop :=
  ∀ (s : State) (a b : BitVec 6) (o : BitVec 11),
    let x := s.lo a.toNat
    let y := s.lo b.toNat
    let r (i : Instr) (c : Prop) : Prop :=
      (c → Spec.does i (fun s => s.setPc (s.pc.inc (4 * o.toInt))) s) ∧ (¬c → Spec.does i (fun s => s.setPc (s.pc.setAddr (s.pc.addr + 4))) s)
    r (.beq a b o) (x = y) ∧ r (.bne a b o) (x ≠ y) ∧ r (.blt a b o) (x.toInt < y.toInt) ∧ r (.bge a b o) (x.toInt ≥ y.toInt) ∧
    r (.bltu a b o) (x.toNat < y.toNat) ∧ r (.bgeu a b o) (x.toNat ≥ y.toNat) ∧
    r (.btag a o) ((s.reg a.toNat).tag = true) ∧ r (.bntag a o) ((s.reg a.toNat).tag = false)

/-- 04 R105, R106: a jump writes the link, the PC with ADDR + 4 and its tag, and goes to PC.ADDR + 4 × imm20,
or to the whole value c[a] held before anything was written. -/
def Sys2Proof.Spec.Jumps : Prop :=
  ∀ (s : State) (d a : BitVec 6) (m : BitVec 20), s.cur ≠ .none →
    (Admitted (.jal d m) s → ∃ t, exec (.jal d m) s = .next t ∧ t.pc = s.pc.inc (4 * m.toInt) ∧
      t = (s.setReg d.toNat (s.pc.setAddr (s.pc.addr + 4))).setPc t.pc) ∧
    (Admitted (.jalr d a) s → ∃ t, exec (.jalr d a) s = .next t ∧ t.pc = s.reg a.toNat ∧
      t = (s.setReg d.toNat (s.pc.setAddr (s.pc.addr + 4))).setPc t.pc)

/-! ### Capabilities (04 R107 to R113) -/

/-- Branches and jumps set the PC by the rule of pointer arithmetic, and JAL and JALR write the link (R104, R105). -/
def Obligations.ControlTransfers : Prop := Spec.ConditionalBranches ∧ Spec.Jumps

/-- 04 R107: pointer arithmetic keeps the tag only inside the representable window. -/
def Sys2Proof.Spec.moved (c : Cap) (i : Int) : Cap :=
  let n : Int := c.addr + i
  { tag := c.tag && decide (0 ≤ n ∧ n < 2 ^ 55 ∧ n / 2 ^ (c.exp + 25) = (c.addr / 2 ^ (c.exp + 25) : Nat))
    hi := c.hi
    lo := setFld c.lo 0 55 (n % 2 ^ 55).toNat }

/-- 04 R107, R109 to R113: the capability instructions that never fault. -/
def Obligations.CapabilityForms : Prop :=
  ∀ (s : State) (d a b n : BitVec 6) (m : BitVec 14),
    let c := s.reg a.toNat
    let y := s.lo b.toNat
    let r (i : Instr) (v : Cap) : Prop := Spec.does i (fun s => (s.setReg d.toNat v).advance) s
    r (.cinc d a b) (Spec.moved c y.toInt) ∧
    r (.cinci d a m) (Spec.moved c m.toInt) ∧
    r (.cperm d a b) { c with hi := setFld c.hi 56 8 (c.perm &&& (y.toNat % 256)) } ∧
    r (.cfmt d a b) { c with lo := setFld c.lo 56 8 (y.toNat % 256) } ∧
    r (.cclrt d a) { c with tag := false } ∧
    r (.csubc d a b) (.data (BitVec.ofInt 64 ((c.addr : Int) - (s.reg b.toNat).addr))) ∧
    r (.ctest d a) (.data (BitVec.ofNat 64 ((if c.tag then 1 else 0) + (if c.z55 = false ∧ c.exp ≤ 30 then 2 else 0)
      + (if c.base ≤ c.addr ∧ c.addr < c.top then 4 else 0) + (if reservedFormat c.fmt then 0 else 8)))) ∧
    (n.toNat < 8 → r (.cfld d a n) (.data
      (if n = 0 then BitVec.ofNat 64 c.base else if n = 1 then BitVec.ofNat 64 c.top else if n = 2 then BitVec.ofNat 64 (c.len * 2 ^ c.exp)
       else if n = 3 then BitVec.ofInt 64 ((c.addr : Int) - c.base) else if n = 4 then BitVec.ofNat 64 c.perm
       else if n = 5 then BitVec.ofNat 64 (c.fmt * 4 + c.blk) else if n = 6 then (if c.tag then 1 else 0) else c.hi)))

/-- 04 R108: the smallest exponent that can hold a range. -/
def Sys2Proof.Spec.smallestExp (lo hi e : Nat) : Prop :=
  (hi + 2 ^ e - 1) / 2 ^ e - lo / 2 ^ e < 2 ^ 25 ∧ ∀ k < e, 2 ^ 25 ≤ (hi + 2 ^ k - 1) / 2 ^ k - lo / 2 ^ k

/-- 04 R108: a capability without tag, with Z55 or E > 30, or whose bounds do not hold the range ADDR to ADDR + len,
faults; for any other there is a smallest exponent that can hold the range, and bounds of that exponent around it,
which fault outside the capability's bounds and else become the new ones. -/
def Obligations.CapabilityBounds : Prop :=
  ∀ (s : State) (d a b : BitVec 6) (m : BitVec 14),
    let c := s.reg a.toNat
    let r (i : Instr) (len : Nat) : Prop :=
      let lo := c.addr
      let hi := lo + len
      Admitted i s →
        (c.tag = false → exec i s = .next (raise s ⟨.capTag, BitVec.ofNat 64 lo⟩)) ∧
        (c.tag = true → c.z55 = true ∨ 30 < c.exp ∨ lo < c.base ∨ c.top < hi → exec i s = .next (raise s ⟨.capBound, BitVec.ofNat 64 lo⟩)) ∧
        (c.tag = true → c.z55 = false → c.exp ≤ 30 → c.base ≤ lo → hi ≤ c.top → ∃ e, e ≤ 30 ∧ Spec.smallestExp lo hi e ∧
          (let nb := lo / 2 ^ e * 2 ^ e
           let nt := (hi + 2 ^ e - 1) / 2 ^ e * 2 ^ e
           (nb < c.base ∨ c.top < nt → exec i s = .next (raise s ⟨.capBound, BitVec.ofNat 64 lo⟩)) ∧
           (c.base ≤ nb → nt ≤ c.top → exec i s = .next ((s.setReg d.toNat
            { c with hi := setFld (setFld (setFld c.hi 50 6 e) 25 25 (lo / 2 ^ e)) 0 25 ((nt - nb) / 2 ^ e) }).advance))))
    r (.csetb d a b) (s.lo b.toNat).toNat ∧ r (.csetbi d a m) m.toNat

/-! ### Scalar floating point (04 R114 to R118) -/

/-- The low 32 bits of a register. -/
def Sys2Proof.Spec.single (s : State) (n : Nat) : Nat := (s.lo n).toNat % 2 ^ 32

/-- 04 R114: the operations that round do so once, in the mode of their field (a dynamic one reads FMODE.RM),
with FMODE.FTZ, and their flags are added to FFLAGS; the random values of mode SR are used up. -/
def Sys2Proof.Spec.ScalarFloatRounded : Prop :=
  ∀ (s : State) (d a b c : BitVec 6) (m : BitVec 3),
    let md := s.mode m.toNat
    let x := Spec.single s a.toNat
    let y := Spec.single s b.toNat
    let r (i : Instr) (v : Nat × Nat) : Prop :=
      Spec.does i (fun s => (((s.drew md 2).raiseFlags v.2).setData d.toNat (BitVec.ofNat 64 v.1)).advance) s
    r (.fadd d a b m) (fpAdd fmtFP32 md s.ftz s.rand x y) ∧
    r (.fsub d a b m) (fpSub fmtFP32 md s.ftz s.rand x y) ∧
    r (.fmul d a b m) (fpMul fmtFP32 md s.ftz s.rand x y) ∧
    r (.fdiv d a b m) (fpDiv fmtFP32 md s.ftz s.rand x y) ∧
    r (.fsqrt d a m) (fpSqrt fmtFP32 md s.ftz s.rand x) ∧
    r (.ffma d a b m) (fpFma fmtFP32 md s.ftz s.rand x y (Spec.single s d.toNat)) ∧
    r (.fcvt d a c m) (fcvtOp c.toNat md s.ftz s.rand (s.lo a.toNat))

/-- 04 R115 to R118: the operations that do not round. -/
def Sys2Proof.Spec.ScalarFloatExact : Prop :=
  ∀ (s : State) (d a b : BitVec 6) (p : BitVec 3),
    let x := Spec.single s a.toNat
    let y := Spec.single s b.toNat
    let r (i : Instr) (v : Nat × Nat) : Prop :=
      Spec.does i (fun s => ((s.raiseFlags v.2).setData d.toNat (BitVec.ofNat 64 v.1)).advance) s
    r (.fmin d a b) (fpMinMax fmtFP32 s.ftz false x y) ∧
    r (.fmax d a b) (fpMinMax fmtFP32 s.ftz true x y) ∧
    r (.fcmp d a b p) ((if (fpCmp fmtFP32 s.ftz p.toNat x y).1 then 1 else 0), (fpCmp fmtFP32 s.ftz p.toNat x y).2) ∧
    Spec.does (.fclass d a) (fun s => (s.setData d.toNat (BitVec.ofNat 64 (2 ^ fpClass fmtFP32 x))).advance) s ∧
    r (.fsgn d a b p) (
      if x % 2 ^ 31 > 0x7F800000 then (0x7FC00000, if x % 2 ^ 23 < 2 ^ 22 then flNV else 0)
      else (x % 2 ^ 31 + 2 ^ 31 * (if p = 0 then y / 2 ^ 31 else if p = 1 then 1 - y / 2 ^ 31 else (x / 2 ^ 31 + y / 2 ^ 31) % 2), 0))

/-- Scalar floating-point instructions write their result and add their flags (04 R114, 04 R115, 04 R116, 04 R117,
04 R118, 03 R83). -/
def Obligations.ScalarFloat : Prop := Spec.ScalarFloatRounded ∧ Spec.ScalarFloatExact

/-! ### Vectors (06) -/

/-- From `s` to `t` the wave's lanes of one register change where `on` says, FFLAGS collects `fl`, the random
values stand at `rnd`, the wave goes on, and nothing else changes but deferred marks of a rewritten register. -/
def Sys2Proof.Spec.vec (s t : State) (d : Nat) (on : Nat → Bool) (f : Nat → W32) (fl rnd : Nat) : Prop :=
  (∃ v p g r, t = { s.modCur (fun x => { x with v := v, poison := p, fflags := g, pc := x.pc.setAddr (x.pc.addr + 4) }) with rnd := r }) ∧
  (∀ n l, l < 32 → t.curWave.lane n l = if n = d ∧ on l then f l else s.curWave.lane n l) ∧
  t.curWave.fflags = s.curWave.fflags ||| BitVec.ofNat 32 fl ∧ t.rnd = rnd

/-- Lane l is active: NC = 0 and BK = 0 (06 R154). -/
def Sys2Proof.Spec.on (s : State) (l : Nat) : Bool := Tbl.get 0 s.curWave.nc l == 0 && !Tbl.get false s.curWave.bk l
/-- The active lanes in ascending order. -/
def Sys2Proof.Spec.lanesOn (s : State) : List Nat := (List.range 32).filter (Spec.on s)

/-- Each active lane of vd is written and no flag is set. -/
def Sys2Proof.Spec.lanewise (i : Instr) (d : BitVec 7) (s : State) (f : Nat → W32) : Prop :=
  Admitted i s → ∃ t, exec i s = .next t ∧ Spec.vec s t d.toNat (Spec.on s) f 0 s.rnd

/-- 06 R160: the two-operand integer instructions, lane by lane. -/
def Sys2Proof.Spec.VectorIntegerForms : Prop :=
  ∀ (s : State) (d a b : BitVec 7),
    let x := s.curWave.lane a.toNat
    let y := s.curWave.lane b.toNat
    let z := s.curWave.lane d.toNat
    let r (i : Instr) (f : W32 → W32 → W32 → W32) : Prop := Spec.lanewise i d s fun l => f (x l) (y l) (z l)
    r (.vadd d a b) (fun x y _ => x + y) ∧
    r (.vsub d a b) (fun x y _ => x - y) ∧
    r (.vmul d a b) (fun x y _ => BitVec.ofInt 32 (x.toInt * y.toInt)) ∧
    r (.vmulh d a b) (fun x y _ => BitVec.ofInt 32 (x.toInt * y.toInt / 2 ^ 32)) ∧
    r (.vmad d a b) (fun x y z => BitVec.ofInt 32 (x.toInt * y.toInt + z.toInt)) ∧
    r (.vand d a b) (fun x y _ => x &&& y) ∧
    r (.vor d a b) (fun x y _ => x ||| y) ∧
    r (.vxor d a b) (fun x y _ => x ^^^ y) ∧
    r (.vandn d a b) (fun x y _ => x &&& ~~~y) ∧
    r (.vshl d a b) (fun x y _ => x <<< (y.toNat % 32)) ∧
    r (.vshr d a b) (fun x y _ => x >>> (y.toNat % 32)) ∧
    r (.vsra d a b) (fun x y _ => BitVec.ofInt 32 (x.toInt / 2 ^ (y.toNat % 32))) ∧
    r (.vmin d a b) (fun x y _ => if x.toInt < y.toInt then x else y) ∧
    r (.vmax d a b) (fun x y _ => if x.toInt < y.toInt then y else x) ∧
    r (.vminu d a b) (fun x y _ => BitVec.ofNat 32 (min x.toNat y.toNat)) ∧
    r (.vmaxu d a b) (fun x y _ => BitVec.ofNat 32 (max x.toNat y.toNat)) ∧
    r (.vabs d a) (fun x _ _ => BitVec.ofInt 32 |x.toInt|) ∧
    r (.vsel d a b) (fun x y z => if z = 0 then y else x) ∧
    r (.vmov d a) (fun x _ _ => x) ∧
    r (.vcmpEq d a b) (fun x y _ => Spec.truth 32 (x = y)) ∧
    r (.vcmpNe d a b) (fun x y _ => Spec.truth 32 (x ≠ y)) ∧
    r (.vcmpLt d a b) (fun x y _ => Spec.truth 32 (x.toInt < y.toInt)) ∧
    r (.vcmpGe d a b) (fun x y _ => Spec.truth 32 (x.toInt ≥ y.toInt)) ∧
    r (.vcmpLtu d a b) (fun x y _ => Spec.truth 32 (x.toNat < y.toNat)) ∧
    r (.vcmpGeu d a b) (fun x y _ => Spec.truth 32 (x.toNat ≥ y.toNat))

/-- 06 R161, R166, R167: immediates, and moves of data between lanes. -/
def Sys2Proof.Spec.VectorImmediateAndMoveForms : Prop :=
  ∀ (s : State) (d a b : BitVec 7) (c : BitVec 6) (m12 : BitVec 12) (m9 : BitVec 9) (n : BitVec 5),
    let x := s.curWave.lane a.toNat
    let k := (s.lo c.toNat).toNat % 32
    let r (i : Instr) (f : Nat → W32) : Prop := Spec.lanewise i d s f
    r (.vaddi d a m12) (fun l => x l + m12.signExtend 32) ∧
    r (.vandi d a m9) (fun l => x l &&& m9.signExtend 32) ∧
    r (.vori d a m9) (fun l => x l ||| m9.signExtend 32) ∧
    r (.vxori d a m9) (fun l => x l ^^^ m9.signExtend 32) ∧
    r (.vshli d a n) (fun l => x l <<< n.toNat) ∧
    r (.vshri d a n) (fun l => x l >>> n.toNat) ∧
    r (.vsrai d a n) (fun l => BitVec.ofInt 32 ((x l).toInt / 2 ^ n.toNat)) ∧
    r (.vmovi d m12) (fun _ => m12.signExtend 32) ∧
    r (.vlane d) (fun l => BitVec.ofNat 32 l) ∧
    r (.vbcst d c) (fun _ => (s.lo c.toNat).setWidth 32) ∧
    r (.vshfl d a c) (fun l => x (l ^^^ k)) ∧
    r (.vrot d a c) (fun l => x ((l + k) % 32)) ∧
    r (.vperm d a b) (fun l => x ((s.curWave.lane b.toNat l).toNat % 32)) ∧
    (Admitted (.vins d n c) s → ∃ t, exec (.vins d n c) s = .next t ∧
      Spec.vec s t d.toNat (fun l => l == n.toNat) (fun _ => (s.lo c.toNat).setWidth 32) 0 s.rnd) ∧
    Spec.does (.vextr n a c) (fun s => (s.setData c.toNat ((s.curWave.lane a.toNat n.toNat).setWidth 64)).advance) s

/-- Vector integer instructions and moves write the active lanes and no other (06 R154, 06 R160, 06 R161, 06 R166,
06 R167). -/
def Obligations.VectorIntegers : Prop := Spec.VectorIntegerForms ∧ Spec.VectorImmediateAndMoveForms

/-- A lane's random values. -/
def Sys2Proof.Spec.rand (s : State) (l i : Nat) : Nat := s.rand (4 * l + i)

/-- Each active lane of vd takes a floating-point result; FFLAGS collects the flags of the active lanes. -/
def Sys2Proof.Spec.floatLanes (i : Instr) (d : BitVec 7) (mode : Nat) (s : State) (f : Nat → Nat × Nat) : Prop :=
  Admitted i s → ∃ t, exec i s = .next t ∧
    Spec.vec s t d.toNat (Spec.on s) (fun l => BitVec.ofNat 32 (f l).1) ((Spec.lanesOn s).foldl (fun g l => g ||| (f l).2) 0) (s.drew mode 128).rnd

/-- 06 R158, R162, R164: floating-point lanes, each rounded once in FMODE.RM (a conversion in the mode of its
field) with FMODE.FTZ. -/
def Sys2Proof.Spec.VectorFloatForms : Prop :=
  ∀ (s : State) (d a b : BitVec 7) (t : BitVec 1) (m : BitVec 3) (c : BitVec 5),
    let x := s.curWave.laneN a.toNat
    let y := s.curWave.laneN b.toNat
    let z := s.curWave.laneN d.toNat
    let r (i : Instr) (f : (Nat → Nat) → Nat → Nat × Nat) : Prop := Spec.floatLanes i d s.rm s fun l => f (Spec.rand s l) l
    let q (i : Instr) (p : Nat) : Prop := r i fun _ l => ((if (fpCmp fmtFP32 s.ftz p (x l) (y l)).1 then 1 else 0), (fpCmp fmtFP32 s.ftz p (x l) (y l)).2)
    r (.vfadd d a b) (fun g l => fpAdd fmtFP32 s.rm s.ftz g (x l) (y l)) ∧
    r (.vfsub d a b) (fun g l => fpSub fmtFP32 s.rm s.ftz g (x l) (y l)) ∧
    r (.vfmul d a b) (fun g l => fpMul fmtFP32 s.rm s.ftz g (x l) (y l)) ∧
    r (.vfma d a b) (fun g l => fpFma fmtFP32 s.rm s.ftz g (x l) (y l) (z l)) ∧
    r (.vfdiv d a b) (fun g l => fpDiv fmtFP32 s.rm s.ftz g (x l) (y l)) ∧
    r (.vfsqrt d a) (fun g l => fpSqrt fmtFP32 s.rm s.ftz g (x l)) ∧
    r (.vfmin d a b) (fun _ l => fpMinMax fmtFP32 s.ftz false (x l) (y l)) ∧
    r (.vfmax d a b) (fun _ l => fpMinMax fmtFP32 s.ftz true (x l) (y l)) ∧
    q (.vfcmpEq d a b) 0 ∧ q (.vfcmpNe d a b) 1 ∧ q (.vfcmpLt d a b) 2 ∧ q (.vfcmpLe d a b) 3 ∧
    q (.vfcmpGt d a b) 4 ∧ q (.vfcmpGe d a b) 5 ∧ q (.vfcmpUn d a b) 6 ∧
    Spec.lanewise (.vfclass d a) d s (fun l => BitVec.ofNat 32 (2 ^ fpClass fmtFP32 (x l))) ∧
    Spec.floatLanes (.vfcvt d a t m c) d (s.mode m.toNat) s
      (fun l => vfcvtOp c.toNat (s.mode m.toNat) (decide (t = 1)) s.ftz (Spec.rand s l) (x l))

/-- 06 R163: the transcendental instructions round the exact function to nearest even, with FMODE.FTZ; NaN,
infinities and the poles give the values and flags of their table. -/
def Sys2Proof.Spec.VectorTranscendentals : Prop :=
  ∀ (s : State) (d a : BitVec 7),
    let x := s.curWave.laneN a.toNat
    let r (i : Instr) (f : Val → Val × Nat) : Prop :=
      Spec.floatLanes i d 0 s fun l => fpOut fmtFP32 0 s.ftz (fun _ => 0) (f (fmtFP32.read s.ftz (x l)))
    r (.vrcp d a) valRcp ∧ r (.vrsq d a) valRsq ∧ r (.vexp2 d a) valExp2 ∧ r (.vlog2 d a) valLog2 ∧
    r (.vsin d a) valSin ∧ r (.vcos d a) valCos

/-- 06 R165: packed BF16, conversions of halves, and dot products. -/
def Sys2Proof.Spec.VectorPackedForms : Prop :=
  ∀ (s : State) (d a b : BitVec 7),
    let x := s.curWave.laneN a.toNat
    let y := s.curWave.laneN b.toNat
    let z := s.curWave.laneN d.toNat
    let r (i : Instr) (f : (Nat → Nat) → Nat → Nat × Nat) : Prop := Spec.floatLanes i d s.rm s fun l => f (Spec.rand s l) l
    let join (p q : Nat × Nat) : Nat × Nat := (p.1 + 2 ^ 16 * q.1, p.2 ||| q.2)
    let up (g : Nat → Nat) (i : Nat) : Nat := g (i + 2)
    let byte (v i : Nat) : Nat := v / 2 ^ (8 * i) % 2 ^ 8
    let dot (f : Nat → Int) (l : Nat) : W32 :=
      BitVec.ofInt 32 (z l + f (byte (x l) 0) * f (byte (y l) 0) + f (byte (x l) 1) * f (byte (y l) 1)
        + f (byte (x l) 2) * f (byte (y l) 2) + f (byte (x l) 3) * f (byte (y l) 3))
    r (.vbadd2 d a b) (fun g l => join (fpAdd fmtBF16 s.rm s.ftz g (x l % 2 ^ 16) (y l % 2 ^ 16))
      (fpAdd fmtBF16 s.rm s.ftz (up g) (x l / 2 ^ 16) (y l / 2 ^ 16))) ∧
    r (.vbmul2 d a b) (fun g l => join (fpMul fmtBF16 s.rm s.ftz g (x l % 2 ^ 16) (y l % 2 ^ 16))
      (fpMul fmtBF16 s.rm s.ftz (up g) (x l / 2 ^ 16) (y l / 2 ^ 16))) ∧
    r (.vbfma2 d a b) (fun g l => join (fpFma fmtBF16 s.rm s.ftz g (x l % 2 ^ 16) (y l % 2 ^ 16) (z l % 2 ^ 16))
      (fpFma fmtBF16 s.rm s.ftz (up g) (x l / 2 ^ 16) (y l / 2 ^ 16) (z l / 2 ^ 16))) ∧
    r (.vpk d a b) (fun g l => join (fpConvert fmtFP32 fmtBF16 s.rm false s.ftz g (x l)) (fpConvert fmtFP32 fmtBF16 s.rm false s.ftz (up g) (y l))) ∧
    r (.vdotb d a b) (fun g l => dotb s.rm s.ftz g (x l) (y l) (z l)) ∧
    Spec.floatLanes (.vunpkLo d a) d 0 s (fun l => fpConvert fmtBF16 fmtFP32 0 false false (fun _ => 0) (x l % 2 ^ 16)) ∧
    Spec.floatLanes (.vunpkHi d a) d 0 s (fun l => fpConvert fmtBF16 fmtFP32 0 false false (fun _ => 0) (x l / 2 ^ 16)) ∧
    Spec.lanewise (.vdot4I8 d a b) d s (dot fun v => if v < 128 then v else (v : Int) - 256) ∧
    Spec.lanewise (.vdot4Ui8 d a b) d s (dot fun v => v)

/-- Vector floating-point lanes are rounded once and collect their flags (06 R158, 06 R162, 06 R163, 06 R164, 06
R165). -/
def Obligations.VectorFloatingPoint : Prop := Spec.VectorFloatForms ∧ Spec.VectorTranscendentals ∧ Spec.VectorPackedForms

/-- A scalar register takes a word, FFLAGS collects `fl`, and the wave goes on. -/
def Sys2Proof.Spec.toScalar (i : Instr) (c : BitVec 6) (s : State) (v : Word) : Prop :=
  Spec.does i (fun s => (s.setData c.toNat v).advance) s

/-- 06 R168: votes and integer reductions over the active lanes: masks, counts, the exact signed sum, extremes
(the identity when no lane is active) and bitwise combinations. -/
def Sys2Proof.Spec.VectorReductions : Prop :=
  ∀ (s : State) (a : BitVec 7) (c : BitVec 6),
    let x := s.curWave.lane a.toNat
    let true_ := (Spec.lanesOn s).filter fun l => x l ≠ 0
    let r (i : Instr) (v : Word) : Prop := Spec.toScalar i c s v
    let extreme (i : Instr) (ident : Int) (val : W32 → Int) (before : Int → Int → Prop) : Prop :=
      ∃ m : Int, r i (BitVec.ofInt 64 m) ∧ (∀ l ∈ Spec.lanesOn s, m = val (x l) ∨ before m (val (x l))) ∧
        (if Spec.lanesOn s = [] then m = ident else ∃ l ∈ Spec.lanesOn s, m = val (x l))
    let bitwise (i : Instr) (ident : Bool) (f : Bool → Bool → Bool) : Prop :=
      ∃ m : W32, r i (m.setWidth 64) ∧ ∀ k < 32, m.getLsbD k = (Spec.lanesOn s).foldl (fun g l => f g ((x l).getLsbD k)) ident
    r (.vballot a c) (BitVec.ofNat 64 ((true_.map fun l => 2 ^ l).sum)) ∧
    r (.vpopc a c) (BitVec.ofNat 64 true_.length) ∧
    r (.vfirst a c) (BitVec.ofNat 64 (true_.headD 32)) ∧
    r (.vredAdd a c) (BitVec.ofInt 64 (((Spec.lanesOn s).map fun l => (x l).toInt).sum)) ∧
    extreme (.vredMin a c) (2 ^ 31 - 1) (fun v => v.toInt) (· < ·) ∧
    extreme (.vredMax a c) (-2 ^ 31) (fun v => v.toInt) (· > ·) ∧
    extreme (.vredMinu a c) (2 ^ 32 - 1) (fun v => v.toNat) (· < ·) ∧
    extreme (.vredMaxu a c) 0 (fun v => v.toNat) (· > ·) ∧
    bitwise (.vredAnd a c) true (· && ·) ∧ bitwise (.vredOr a c) false (· || ·) ∧ bitwise (.vredXor a c) false Bool.xor

/-- 06 R168: the fixed tree: at each step every node takes its neighbour's value; an absent one is neutral. -/
def Sys2Proof.Spec.tree (f : Nat → Nat → Nat → Nat × Nat) (x : Nat → Option Nat) : Nat → Nat → Option Nat × Nat
  | 0, l => (x l, 0)
  | n + 1, l =>
    let p := Spec.tree f x n (2 * l)
    let q := Spec.tree f x n (2 * l + 1)
    match p.1, q.1 with
    | some u, some v => let w := f (n * 16 + l) u v; (some w.1, w.2 ||| p.2 ||| q.2)
    | some u, none => (some u, p.2 ||| q.2)
    | none, v => (v, p.2 ||| q.2)

/-- 03 R75, R84, 06 R158: what a lane's FP32 value is before it is combined: a NaN is the default NaN, and NV if it
signals; under FTZ a subnormal is a zero of its sign. -/
def Sys2Proof.Spec.seed (ftz : Bool) (x : Nat) : Nat × Nat :=
  if x % 2 ^ 31 > 0x7F800000 then (0x7FC00000, if x % 2 ^ 23 < 2 ^ 22 then flNV else 0)
  else if ftz = true ∧ x / 2 ^ 23 % 256 = 0 then (x / 2 ^ 31 * 2 ^ 31, 0) else (x, 0)

/-- 06 R168: floating-point reductions combine the active lanes by the fixed tree, with their flags. -/
def Sys2Proof.Spec.VectorFloatReductions : Prop :=
  ∀ (s : State) (a : BitVec 7) (c : BitVec 6),
    let x (l : Nat) : Option Nat := if Spec.on s l then some (Spec.seed s.ftz (s.curWave.laneN a.toNat l)).1 else none
    let met := (Spec.lanesOn s).foldl (fun g l => g ||| (Spec.seed s.ftz (s.curWave.laneN a.toNat l)).2) 0
    let r (i : Instr) (mode ident : Nat) (f : (Nat → Nat) → Nat → Nat → Nat × Nat) : Prop :=
      let v := Spec.tree (fun k => f fun j => s.rand (2 * k + j)) x 5 0
      Admitted i s → ∃ t, exec i s = .next t ∧ ∃ g, t = (({ s with rnd := (s.drew mode 160).rnd }.modCur fun y => { y with fflags := g }).setData c.toNat
          (BitVec.ofNat 64 (v.1.getD ident % 2 ^ 32))).advance ∧ g = s.curWave.fflags ||| BitVec.ofNat 32 (v.2 ||| met)
    r (.vredFadd a c) s.rm 0 (fun g x y => fpAdd fmtFP32 s.rm s.ftz g x y) ∧
    r (.vredFmin a c) 0 0x7F800000 (fun _ x y => fpMinMax fmtFP32 s.ftz false x y) ∧
    r (.vredFmax a c) 0 0xFF800000 (fun _ x y => fpMinMax fmtFP32 s.ftz true x y)

/-- The values of a scan: each lane's running result and the flags so far; `g` is what the first lane's value is. -/
def Sys2Proof.Spec.scan (g : Nat → Nat × Nat) (f : Nat → Nat → Nat → Nat × Nat) (x : Nat → Nat) (ls : List Nat) : Option Nat × Nat :=
  ls.foldl (fun a l => match a.1 with
    | none => (some (g (x l)).1, (g (x l)).2 ||| a.2)
    | some p => (some (f l p (x l)).1, (f l p (x l)).2 ||| a.2)) (none, 0)

/-- 06 R166: an inclusive scan of the active lanes in ascending order. -/
def Sys2Proof.Spec.VectorScans : Prop :=
  ∀ (s : State) (d a : BitVec 7),
    let x := s.curWave.laneN a.toNat
    let as_ (x : Nat) : Nat × Nat := (x, 0)
    let r (i : Instr) (mode : Nat) (g : Nat → Nat × Nat) (f : Nat → Nat → Nat → Nat × Nat) : Prop :=
      Admitted i s → ∃ t, exec i s = .next t ∧
        Spec.vec s t d.toNat (Spec.on s) (fun l => BitVec.ofNat 32 ((Spec.scan g f x ((Spec.lanesOn s).filter (· ≤ l))).1.getD 0))
          (Spec.scan g f x (Spec.lanesOn s)).2 (s.drew mode 128).rnd
    r (.vscanAdd d a) 0 as_ (fun _ p y => ((p + y) % 2 ^ 32, 0)) ∧
    r (.vscanMin d a) 0 as_ (fun _ p y => (if (BitVec.ofNat 32 p).toInt ≤ (BitVec.ofNat 32 y).toInt then p else y, 0)) ∧
    r (.vscanMax d a) 0 as_ (fun _ p y => (if (BitVec.ofNat 32 p).toInt ≤ (BitVec.ofNat 32 y).toInt then y else p, 0)) ∧
    r (.vscanFadd d a) s.rm (Spec.seed s.ftz) (fun l p y => fpAdd fmtFP32 s.rm s.ftz (Spec.rand s l) p y)

/-- 06 R176: VREBAL writes the row and the offset of each position; 06 R177: VPLANE writes the plane words. -/
def Sys2Proof.Spec.VectorRebalanceAndPlane : Prop :=
  ∀ (s : State) (d a : BitVec 7) (c : BitVec 6),
    let n (r : Nat) : Nat := if Spec.on s r then s.curWave.laneN a.toNat r else 0
    let p (r : Nat) : Nat := ((List.range r).map n).sum
    let start := (s.lo c.toNat).toNat
    let w := min (start % 32) 16
    let elem (e : Nat) : Nat := s.curWave.laneN (a.toNat + e / 32) (e % 32)
    (Admitted (.vrebal d a c) s → ∃ t, exec (.vrebal d a c) s = .next t ∧
      (∃ v q, t = s.modCur fun x => { x with v := v, poison := q, pc := x.pc.setAddr (x.pc.addr + 4) }) ∧
      (∀ k l, l < 32 → ¬(Spec.on s l ∧ (k = d.toNat ∨ k = d.toNat + 1)) → t.curWave.lane k l = s.curWave.lane k l) ∧
      ∀ l < 32, Spec.on s l →
        (∀ r < 32, p r ≤ start + l → start + l < p (r + 1) →
          t.curWave.lane d.toNat l = BitVec.ofNat 32 r ∧ t.curWave.lane (d.toNat + 1) l = BitVec.ofNat 32 (start + l - p r)) ∧
        (p 32 ≤ start + l → t.curWave.lane d.toNat l = 32 ∧ t.curWave.lane (d.toNat + 1) l = BitVec.ofNat 32 (start + l - p 32))) ∧
    (Admitted (.vplane d a c) s → ∃ t, exec (.vplane d a c) s = .next t ∧
      (∃ v q, t = s.modCur fun x => { x with v := v, poison := q, pc := x.pc.setAddr (x.pc.addr + 4) }) ∧
      (∀ k l, k ≠ d.toNat → l < 32 → t.curWave.lane k l = s.curWave.lane k l) ∧
      ∀ l < 32, (2 * w ≤ l → t.curWave.lane d.toNat l = 0) ∧
        (l < 2 * w → ∀ i < 32, (t.curWave.lane d.toNat l).getLsbD i = (elem (l % 2 * 32 + i)).testBit (l / 2)))

/-! ### Structured control (06 R169 to R175) -/

/-- Votes, reductions, scans, VREBAL and VPLANE take the active lanes in the stated order (06 R166, 06 R168, 06
R176, 06 R177). -/
def Obligations.VectorReductionsAndScans : Prop := Spec.VectorReductions ∧ Spec.VectorFloatReductions ∧ Spec.VectorScans ∧ Spec.VectorRebalanceAndPlane

/-- The counter and the break bit of a lane. -/
def Sys2Proof.Spec.nest (x : Wave) (l : Nat) : Nat × Bool := (Tbl.get 0 x.nc l, Tbl.get false x.bk l)

/-- 06 R169, 05 R131: every lane's NC and BK change at once, or, when a counter would pass 127, NEST is raised
with the instruction's word and no lane changes. -/
def Sys2Proof.Spec.StructuredControl : Prop :=
  ∀ (s : State) (a : BitVec 7),
    let yes (l : Nat) : Bool := decide (s.curWave.lane a.toNat l ≠ 0)
    let r (i : Instr) (f : Nat → Nat → Bool → Nat × Bool) : Prop := Admitted i s →
      let g (l : Nat) : Nat × Bool := f l (Spec.nest s.curWave l).1 (Spec.nest s.curWave l).2
      ((∀ l < 32, (g l).1 ≤ 127) → ∃ t, exec i s = .next t ∧ (∀ l < 32, Spec.nest t.curWave l = g l) ∧
        ∃ n b, t = s.modCur fun x => { x with nc := n, bk := b, pc := x.pc.setAddr (x.pc.addr + 4) }) ∧
      ((∃ l < 32, 127 < (g l).1) → exec i s = .next (raise s ⟨.nest, i.code.setWidth 64⟩))
    r (.vif a) (fun l n b => if b then (n, b) else if n = 0 then (if yes l then 0 else 1, b) else (n + 1, b)) ∧
    r .velse (fun _ n b => if b then (n, b) else if n = 0 then (1, b) else if n = 1 then (0, b) else (n, b)) ∧
    r .vendif (fun _ n b => if b then (n, b) else (n - 1, b)) ∧
    r .vloop (fun _ n b => if b then (n + 2, b) else if n = 0 then (0, b) else (n + 1, b)) ∧
    r (.vbrk a) (fun l n b => if n = 0 ∧ b = false ∧ yes l then (0, true) else (n, b)) ∧
    r (.vcont a) (fun l n b => if n = 0 ∧ b = false ∧ yes l then (1, true) else (n, b))

/-- 06 R170, R171: VENDL wakes the lanes that continued, branches while a lane is active, and at the end of the
loop releases the lanes that broke out; VANY and VNONE branch on the active lanes' conditions. -/
def Sys2Proof.Spec.LoopEndAndVotes : Prop :=
  ∀ (s : State) (a : BitVec 7) (m : BitVec 12),
    let there (s : State) : State := s.setPc (s.pc.inc (4 * m.toInt))
    let any := (Spec.lanesOn s).any fun l => decide (s.curWave.lane a.toNat l ≠ 0)
    let woken (l : Nat) : Nat × Bool := if Spec.nest s.curWave l = (1, true) then (0, false) else Spec.nest s.curWave l
    let left (l : Nat) : Nat × Bool := let e := woken l
      if e = (0, true) then (0, false) else if e.2 then (e.1 - 2, true) else (e.1 - 1, false)
    Spec.does (.vany a m) (fun s => if any then there s else s.advance) s ∧
    Spec.does (.vnone a m) (fun s => if any then s.advance else there s) s ∧
    (Admitted (.vendl m) s →
      ((∃ l < 32, woken l = (0, false)) → ∃ t n b, exec (.vendl m) s = .next t ∧
        t = there (s.modCur fun x => { x with nc := n, bk := b }) ∧ ∀ l < 32, Spec.nest t.curWave l = woken l) ∧
      ((∀ l < 32, woken l ≠ (0, false)) → ∃ t n b, exec (.vendl m) s = .next t ∧
        t = (s.modCur fun x => { x with nc := n, bk := b }).advance ∧ ∀ l < 32, Spec.nest t.curWave l = left l))

/-- Structured control changes NC and BK of all lanes at once, or raises NEST (R169, R170, R171). -/
def Obligations.StructuredControlFlow : Prop := Spec.StructuredControl ∧ Spec.LoopEndAndVotes

/-- 06 R173 to R175: when its body of len + 1 words can be fetched, every pass is legal and no body word
faults or waits, REP executes the passes in order and goes on after the body. -/
def Obligations.Repetition : Prop :=
  ∀ (s t : State) (n : BitVec 4) (c : BitVec 7) (x y z : BitVec 1) (k : BitVec 6) (body : List W32) (is : List Instr),
    Admitted (.rep n c x y z k) s →
    fetchBody s s.pc (s.pc.addr + 4) (n.toNat + 1) = (.ok body, t) →
    repPlan (x = 1) (y = 1) (z = 1) k.toNat t.curWave body (c.toNat + 1) = some is →
    (∀ i ∈ is, waveVerdict i t.curWave = .go) →
    exec (.rep n c x y z k) s = .next (let u := is.foldl (fun u i => vecEffect i u) t; u.setPc (u.pc.setAddr (u.pc.addr + 4 * (n.toNat + 2))))
/-! ### Memory (01 R17, R20, R37; 04 R119, R121; 08 R194 to R201; 09 R223 to R234) -/

/-- Nothing of the agent that moves is under way: no message of its own, no store in its core's queue and no copy in its
ladle's. No access of its own is then held back (08 R199, 10 R253, 12 R293). -/
def Sys2Proof.Spec.still (s : State) : Prop :=
  (∀ c ∈ s.net.arrivals, c.src ≠ .agent s.cur) ∧ ∀ w, s.cur = .wave w →
    (∀ r ∈ s.net.reqs, r.wave ≠ w) ∧ (∀ r ∈ s.net.replies, r.wave ≠ w) ∧ (∀ r ∈ s.net.acks, r.wave ≠ w) ∧
      (∀ m ∈ s.net.mcasts, ∀ r ∈ m.reqs, r.wave ≠ w) ∧ (s.core (waveCore w)).fifo = [] ∧ (s.core (waveCore w)).squeue = []

/-- A request of the wave that moves. -/
def Sys2Proof.Spec.asks (s : State) (sid : BitVec 4) (q : Nat) (rep : Bool) (k : ReqKind) : Req := { wave := s.curW, sid := sid.toNat, q := q, kind := k, rep := rep }

/-- 04 R123, 08 R217, 09 R225, R230: an access that is sent leaves as one request for each line (each location of a
vector atomic, each half of a BFADD2), and enters the wave's counters until its last part is answered; nothing else
changes but deferred marks of the registers it will write. A request that writes carries the releases that its bytes
stand for (10 R257, log 12). -/
def Sys2Proof.Spec.Requests : Prop :=
  ∀ (s : State) (r : Req), r.kind.parts ≠ [] → inQueue s r.wave s.reqNo = false →
    let x := s.wave r.wave
    ∃ p, send s r = { s.modWave r.wave (fun x => { x with
        loads := x.loads + (if r.kind.counts then 1 else 0), stores := x.stores + (if r.kind.isRead then 0 else 1),
        pend := x.pend ++ (if r.kind.counts then r.kind.dests.filter (· ≠ 0) else []), poison := p }) with
      reqNo := s.reqNo + 1,
      net := { s.net with reqs := s.net.reqs ++ r.kind.parts.map fun k =>
        { r with kind := k, l1e := (s.core (waveCore r.wave)).l1e, id := s.reqNo, grid := x.grid, uid := x.uid,
                 rels := if r.kind.isRead then [] else r.rels ++ knownRels s (waveCore r.wave) r.kind.spans } } } ∧
      (∀ d k n, (ReqKind.load d k n).parts = [.load d k n]) ∧ (∀ d k c, (ReqKind.loadCap d k c).parts = [.loadCap d k c]) ∧
      (∀ k b t, (ReqKind.store [(k, b)] t).parts = [.store [(k, b)] t]) ∧
      (∀ d k o y, (ReqKind.deque d k o y).parts = [.deque d k o y]) ∧ (∀ d o l, (ReqKind.atom d 8 o l).parts = [.atom d 8 o l]) ∧
      (∀ ls, (ReqKind.zero ls).parts = ls.map fun l => .zero [l])

/-- The access passes R17's checks and leads to byte `k` of a scratch that is there. -/
def Sys2Proof.Spec.inScratch (s : State) (cap : Cap) (ea : Int) (size need align : Nat) (u : Use) (k : Nat) : Prop :=
  checkCap cap ea size need align = none ∧ window s s.curCore s.curAsid ea.toNat u = (some ⟨k, none⟩, s) ∧
    isScratch k = true ∧ homeLost s k = false

/-- No page that stands for zeros is known or mapped, and no line of one is kept (08 R206, R207). -/
def Sys2Proof.Spec.plain (s : State) : Prop := s.zpages = [] ∧ s.zeroed = [] ∧ s.hollow = [] ∧ ∀ k, findZ s k = none
/-- The place is not in such a page. -/
def Sys2Proof.Spec.flat (p : Place) : Prop := ∀ l, p.leaf = some l → pteZ l.pte = false
/-- No deque is in use: no entry stands pushed and no operation is on its way (09 R233, R234). -/
def Sys2Proof.Spec.noDeque (s : State) : Prop := s.ringed = [] ∧ ∀ r ∈ s.net.reqs, r.dequeAt = none

/-- No dead link or die cuts a route (08 R219, 21 R443). -/
def Sys2Proof.Spec.uncut (s : State) : Prop := s.links = [] ∧ ∀ d ∈ s.dies, d.2.fence ≠ .cut
/-- Request `r` is the n-th under way, and nothing cuts its route. -/
def Sys2Proof.Spec.underway (s : State) (n : Nat) (r : Req) : Prop := s.net.reqs[n]? = some r ∧ Spec.uncut s
/-- The n-th request has been taken at its home. -/
def Sys2Proof.Spec.taken (s : State) (n : Nat) : State := { s with net := { s.net with reqs := dropAt s.net.reqs n } }
/-- Who a request writes for. -/
def Sys2Proof.Spec.writer (r : Req) : Writer := { uid := r.uid, grid := r.grid, sid := r.sid, engine := false, rels := r.rels }
/-- The reply to a request, with the keys it read. -/
def Sys2Proof.Spec.answerOf (r : Req) (d : ReplyData) (ks : List Nat) : Reply := { wave := r.wave, data := d, keys := ks, q := r.q, sid := r.sid, id := r.id }
/-- The acknowledgement of a request leaves, with a completion time, and with it what it answers. -/
def Sys2Proof.Spec.acked (t : State) (r : Req) (g home : Nat) (out : List Reply) : State :=
  t.modNet fun m => { m with acks := m.acks ++ [⟨r.wave, r.sid, g, 0, r.scratch, r.id, r.grid, home⟩], replies := m.replies ++ out }

/-- The core's store gather buffer holds none of the bytes. -/
def Sys2Proof.Spec.ungathered (s : State) (k n : Nat) : Prop := (s.core (waveCore s.curW)).sgb.any (Sgb.touches [(k, n)]) = false

/-- 01 R11, R17: the checks of an access, in their order; a fault's information word is the effective address. -/
def Sys2Proof.Spec.AccessChecks : Prop :=
  ∀ (c : Cap) (ea : Int) (size need align : Nat),
    let fails (k : Code) : Prop := checkCap c ea size need align = some ⟨k, BitVec.ofInt 64 ea⟩
    (c.tag = false → fails .capTag) ∧
    (c.tag = true → c.perm &&& need ≠ need → fails .capPerm) ∧
    (c.tag = true → c.perm &&& need = need →
      (c.z55 = true ∨ 30 < c.exp → fails .capBound) ∧
      (c.z55 = false → c.exp ≤ 30 →
        (ea < c.base ∨ c.top < ea + size ∨ 2 ^ 55 < ea + size → fails .capBound) ∧
        (c.base ≤ ea → ea + size ≤ c.top → ea + size ≤ 2 ^ 55 →
          (reservedFormat c.fmt = true → fails .format) ∧
          (reservedFormat c.fmt = false → ¬((align : Int) ∣ ea) → fails .align) ∧
          (reservedFormat c.fmt = false → (align : Int) ∣ ea → checkCap c ea size need align = none))))

/-- 02 R41, 04 R119: a scalar load asks for the element at ADDR + off8 × n, and stores nothing; an access that fails a
check faults. Of scratch it asks for just these bytes. -/
def Sys2Proof.Spec.ScalarLoads : Prop :=
  ∀ (s : State) (d a : BitVec 6) (sid : BitVec 4) (q : BitVec 2) (o : BitVec 8), Spec.still s →
    let r (i : Instr) (n : Nat) : Prop := Admitted i s →
      let cap := s.reg a.toNat
      let ea : Int := cap.addr + o.toInt * n
      (∀ t s', checkAccess s cap ea n permLD n .load = (.error t, s') → exec i s = .next (raise s' t)) ∧
      (∀ p s', checkAccess s cap ea n permLD n .load = (.ok p, s') →
        let t := send (noteLeaf s' p) (Spec.asks s sid q.toNat p.rep (.load d.toNat p.key n))
        exec i s = .next t.advance ∧ (Spec.plain s → Spec.flat p → t.mem = s.mem ∧ t.tags = s.tags)) ∧
      (∀ k, Spec.inScratch s cap ea n permLD n .load k → exec i s = .next (send s (Spec.asks s sid q.toNat false (.load d.toNat k n))).advance)
    r (.ldB d a sid q o) 1 ∧ r (.ldH d a sid q o) 2 ∧ r (.ldW d a sid q o) 4 ∧ r (.ldD d a sid q o) 8

/-- What every store of `n` bytes does, by its policy: a direct write is sent to its home; a gathered one enters the store
gather buffer, which has room here (08 R194, R199). -/
def Sys2Proof.Spec.stores (i : Instr) (s : State) (a : BitVec 6) (sid : BitVec 4) (q : BitVec 2) (o : BitVec 8) (n need : Nat) (bs : List Byte) (tag : Bool) : Prop :=
  Admitted i s →
    let cap := s.reg a.toNat
    let ea : Int := cap.addr + o.toInt * n
    let w := s.curW
    (∀ t s', checkAccess s cap ea n need n .store = (.error t, s') → exec i s = .next (raise s' t)) ∧
    (∀ p s', checkAccess s cap ea n need n .store = (.ok p, s') → Spec.ungathered s p.key n → (q ≠ 0 ∨ isScratch p.key = true) →
      let t := send (noteLeaf s' p) (Spec.asks s sid q.toNat p.rep (.store [(p.key, bs)] tag))
      exec i s = .next t.advance ∧ (Spec.plain s → Spec.flat p → t.mem = s.mem ∧ t.tags = s.tags)) ∧
    (∀ p s', checkAccess s cap ea n need n .store = (.ok p, s') → q = 0 → isScratch p.key = false → (s.core (waveCore w)).sgb.length < 48 →
      let u := noteLeaf s' p
      let rels := (knownRels u (waveCore w) [(p.key, bs.length)]).filter (·.meets p.key bs.length)
      let t := gatherStore u ⟨w, sid.toNat, s.reqNo, p.key, bs, tag, s.curWave.grid, s.curWave.uid, rels⟩
      exec i s = .next { t.advance with reqNo := Nat.max t.reqNo (s.reqNo + 1) } ∧
      (Spec.plain s → Spec.flat p → (∀ e ∈ (s.core (waveCore w)).sgb, e.line ≠ lineOf p.key) →
        t.mem = s.mem ∧ t.tags = s.tags ∧ ∀ j < n, sgbByte (t.core (waveCore w)) (p.key + j) = bs[j]?)) ∧
    (∀ k, Spec.inScratch s cap ea n need n .store k → Spec.ungathered s k n →
      exec i s = .next (send s (Spec.asks s sid q.toNat false (.store [(k, bs)] tag))).advance)

/-- 04 R119: a scalar store writes the low bytes of c[d] at ADDR + off8 × n and no other byte. -/
def Sys2Proof.Spec.ScalarStores : Prop :=
  ∀ (s : State) (d a : BitVec 6) (sid : BitVec 4) (q : BitVec 2) (o : BitVec 8), Spec.still s →
    let r (i : Instr) (n : Nat) : Prop := Spec.stores i s a sid q o n permST (bytesOf n (s.lo d.toNat).toNat) false
    r (.stB d a sid q o) 1 ∧ r (.stH d a sid q o) 2 ∧ r (.stW d a sid q o) 4 ∧ r (.stD d a sid q o) 8

/-- 04 R119, 08 R194, R204, R205: a load that reaches its home is answered with the bytes that stand there: of scratch, and
of a line of package memory read with q = 3 past an empty store gather buffer; nothing of memory changes. A store that reaches
its home writes its bytes, and no other byte changes; the tags of the granules it touches are 0, but for that of a
tagged granule; it is acknowledged with its completion time. A write that is cut off or refused changes nothing. -/
def Sys2Proof.Spec.HomeAccesses : Prop :=
  ∀ (s : State) (n err k : Nat) (r : Req), Spec.underway s n r →
    let u := Spec.taken s n
    (∀ d z, r.kind = .load d k z →
      let out := Spec.answerOf r (.reg d (.data (BitVec.ofNat 64 (readNat s.mem k z)))) [k]
      (isScratch k = true → homeLost s k = false → exec (.scratchRequest n) s = .next (u.modNet fun m => { m with replies := m.replies ++ [out] })) ∧
      (isHbm k = true → homeBad s k = false → r.q = 3 → r.rep = false → Spec.plain s → (s.core (waveCore r.wave)).sgb = [] → (s.core (waveCore r.wave)).squeue = [] →
        ∃ t, exec (.mreqRead n) s = .next t ∧ t.mem = s.mem ∧ t.tags = s.tags ∧ t.net = { u.net with replies := u.net.replies ++ [out] })) ∧
    (∀ bs tag, r.kind = .store [(k, bs)] tag →
      let h := homeWrite u (Spec.writer r) r.q k bs (if tag then some true else none)
      (homeBad s k = false →
        exec (if isScratch k then .scratchRequest n else .mreqWrite n 0) s = .next (Spec.acked h.1 r h.2 (keyHome k) []) ∧
        (Spec.plain s → Spec.noDeque s → 0 < bs.length →
          (∀ x, readByte h.1.mem x = if k ≤ x ∧ x < k + bs.length then bs.getD (x - k) 0 else readByte s.mem x) ∧
          (∀ g, Tbl.get false h.1.tags g = if k / 16 ≤ g ∧ g ≤ (k + bs.length - 1) / 16 then tag && decide (g = k / 16) else Tbl.get false s.tags g))) ∧
      (isScratch k = false → err ≠ 0 → ∃ t, exec (.mreqWrite n err) s = .next t ∧ t.mem = s.mem ∧ t.tags = s.tags ∧
        t.net.acks = s.net.acks ++ [⟨r.wave, r.sid, 0, min err 2, false, r.id, r.grid, keyHome k⟩])) ∧
    (isScratch k = true → ∀ by_ q bs tag, homeWrite u by_ q k bs tag = (misuse { u with
      mem := writeBytes u.mem k bs, flags := putRels u.flags k bs.length by_.rels
      tags := (match tag with
        | some t => Tbl.put false (clearTags u.tags k bs.length) (k / 16) t
        | none => clearTags u.tags k bs.length) } k bs.length, leaseNow u (homeDie k)))

/-- Scalar loads take the element and scalar stores write its bytes and no other (02 R41, 04 R119, 04 R120). -/
def Obligations.ScalarMemory : Prop := Spec.ScalarLoads ∧ Spec.ScalarStores ∧ Spec.HomeAccesses

/-- 01 R16, R20, 04 R121: a capability load takes the granule and its tag, cleared without PERM.LC; a capability
store puts the granule, low half first, with its tag, and needs PERM.SC for a tagged one. -/
def Sys2Proof.Spec.CapabilityLoadsAndStores : Prop :=
  ∀ (s : State),
    (Spec.still s → ∀ (d a : BitVec 6) (sid : BitVec 4) (q : BitVec 2) (o : BitVec 8),
      let cap := s.reg a.toNat
      let ea : Int := cap.addr + o.toInt * 16
      let v := s.reg d.toNat
      let i : Instr := .ldc d a sid q o
      (Admitted i s →
        (∀ t s', checkAccess s cap ea 16 permLD 16 .load = (.error t, s') → exec i s = .next (raise s' t)) ∧
        (∀ p s', checkAccess s cap ea 16 permLD 16 .load = (.ok p, s') →
          exec i s = .next (send (noteLeaf s' p) (Spec.asks s sid q.toNat p.rep (.loadCap d.toNat p.key (decide (cap.perm &&& permLC = permLC))))).advance)) ∧
      Spec.stores (.stc d a sid q o) s a sid q o 16 (if v.tag then permST + permSC else permST) (bytesOf 8 v.lo.toNat ++ bytesOf 8 v.hi.toNat) v.tag) ∧
    (∀ (n : Nat) (r : Req) (d k : Nat) (lc : Bool), Spec.underway s n r → r.kind = .loadCap d k lc → isScratch k = true → homeLost s k = false →
      exec (.scratchRequest n) s = .next ((Spec.taken s n).modNet fun m => { m with replies := m.replies ++
        [Spec.answerOf r (.cap d ⟨Tbl.get false s.tags (k / 16) && lc, BitVec.ofNat 64 (readNat s.mem (k + 8) 8), BitVec.ofNat 64 (readNat s.mem k 8)⟩ lc) [k]] }))

/-- LDC and STC move a granule with its tag (01 R16, 01 R20, 04 R121). -/
def Obligations.CapabilityMemory : Prop := Spec.CapabilityLoadsAndStores

/-- The new value of a location of n bits by the atomic's name, from the old value and the operand (09 R227). -/
def Sys2Proof.Spec.atomic (op : AtomOp) (n old x : Nat) : Nat :=
  let lt : Bool := decide ((BitVec.ofNat n x).toInt < (BitVec.ofNat n old).toInt)
  match op with
  | .add => (old + x) % 2 ^ n
  | .min => if lt then x else old
  | .max => if (BitVec.ofNat n old).toInt < (BitVec.ofNat n x).toInt then x else old
  | .minu => if x < old then x else old
  | .maxu => if x < old then old else x
  | .and => old &&& x
  | .or => old ||| x
  | .xor => old ^^^ x
  | .swap => x
  | .cas => x
  | .fadd => addFP32 old x
  | .bfadd2 => if n = 16 then addBF16 old x else addBF16 (old % 2 ^ 16) (x % 2 ^ 16) + addBF16 (old / 2 ^ 16) (x / 2 ^ 16) * 2 ^ 16

/-- 09 R227, R229: a scalar atomic asks its home to read the old value of a naturally aligned location into c[d] and
to write the new one, indivisibly; ACAS compares with c[d] and writes c[b]. -/
def Sys2Proof.Spec.ScalarAtomics : Prop :=
  ∀ (s : State) (d a b : BitVec 6) (sid : BitVec 4), Spec.still s →
    let r (i : Instr) (n : Nat) (op : AtomOp) : Prop := Admitted i s →
      let cap := s.reg a.toNat
      let need := permLD + permST + permAT
      let x := (s.lo b.toNat).toNat % 2 ^ (8 * n)
      let cmp := (s.lo d.toNat).toNat % 2 ^ (8 * n)
      (∀ t s', checkAccess s cap cap.addr n need n .store = (.error t, s') → exec i s = .next (raise s' t)) ∧
      (∀ p s', checkAccess s cap cap.addr n need n .store = (.ok p, s') → Spec.ungathered s p.key n →
        exec i s = .next (send (noteLeaf s' p) (Spec.asks s sid 1 false (.atom d.toNat n op ⟨0, p.key, x, cmp, 0⟩))).advance) ∧
      (∀ k, Spec.inScratch s cap cap.addr n need n .store k → Spec.ungathered s k n →
        exec i s = .next (send s (Spec.asks s sid 1 false (.atom d.toNat n op ⟨0, k, x, cmp, 0⟩))).advance)
    r (.atomAdd d a b sid) 8 .add ∧ r (.atomAddW d a b sid) 4 .add ∧ r (.atomMin d a b sid) 8 .min ∧ r (.atomMinW d a b sid) 4 .min ∧
    r (.atomMax d a b sid) 8 .max ∧ r (.atomMaxW d a b sid) 4 .max ∧ r (.atomMinu d a b sid) 8 .minu ∧ r (.atomMinuW d a b sid) 4 .minu ∧
    r (.atomMaxu d a b sid) 8 .maxu ∧ r (.atomMaxuW d a b sid) 4 .maxu ∧ r (.atomAnd d a b sid) 8 .and ∧ r (.atomAndW d a b sid) 4 .and ∧
    r (.atomOr d a b sid) 8 .or ∧ r (.atomOrW d a b sid) 4 .or ∧ r (.atomXor d a b sid) 8 .xor ∧ r (.atomXorW d a b sid) 4 .xor ∧
    r (.atomSwap d a b sid) 8 .swap ∧ r (.atomSwapW d a b sid) 4 .swap ∧ r (.atomFaddW d a b sid) 4 .fadd ∧ r (.atomBfadd2W d a b sid) 4 .bfadd2 ∧
    r (.acas d a b sid) 8 .cas ∧ r (.acasW d a b sid) 4 .cas

/-- 09 R227, R229, R232: an atomic, or a half of a BFADD2, that reaches its home in scratch reads the old value, which it
answers, and writes the new one; a failed ACAS writes nothing. A half waits while another BFADD2 of its word has been made
in its other half (log 9). -/
def Sys2Proof.Spec.AtomicArrivals : Prop :=
  ∀ (s : State) (n d z : Nat) (op : AtomOp) (l : AtomLane) (r : Req), Spec.underway s n r → r.kind = .atom d z op l →
    isScratch l.key = true → homeLost s l.key = false → (z = 4 ∨ z = 8 ∨ (z = 2 ∧ op = .bfadd2)) →
    let u : State := { s with net := { s.net with reqs := twinLast (dropAt s.net.reqs n) r } }
    let old := readNat s.mem l.key z
    let out := Spec.answerOf r (if z = 2 then .half d (8 * (l.key % 4)) old else .reg d (.data (BitVec.ofNat 64 old))) [l.key]
    let ends (t : State) (g : Nat) : Prop := exec (.scratchRequest n) s = .next (Spec.acked t r g (keyCore l.key) (if d = 0 then [] else [out]))
    (z ≠ 2 → halfHeld s.net.reqs n r = false ∧ u = Spec.taken s n) ∧
    (halfHeld s.net.reqs n r = true → exec (.scratchRequest n) s = .next s) ∧
    (halfHeld s.net.reqs n r = false →
      (op = .cas → old ≠ l.cmp → ends u 0) ∧
      (op ≠ .cas ∨ old = l.cmp → let h := homeWrite u (Spec.writer r) 1 l.key (bytesOf z (Spec.atomic op (8 * z) old l.x)) none; ends h.1 h.2))

/-- 09 R233, R234: a deque operation is sent to its descriptor's home, where it makes one indivisible change, shown here for
a descriptor in scratch, and answers {status, value}: a descriptor out of form 3, a full one 2 on a push, an empty one 1 on
a pop or steal, an entry that cannot be reached 4; else a push puts the low 56 bits of c[b] at bot, moves it up and answers
the index pushed, a pop takes the entry below bot, a steal the one at top, whose place is ring + 8 × (index mod capacity). -/
def Sys2Proof.Spec.DequeOperations : Prop :=
  (∀ (s : State) (d a b : BitVec 6) (sid : BitVec 4), Spec.still s →
    let cap := s.reg a.toNat
    let need := permLD + permST + permAT
    let sent (i : Instr) (op : Nat) (x : Word) : Prop := Admitted i s →
      (∀ t s', checkAccess s cap cap.addr 32 need 32 .store = (.error t, s') → exec i s = .next (raise s' t)) ∧
      (∀ p s', checkAccess s cap cap.addr 32 need 32 .store = (.ok p, s') → Spec.ungathered s p.key 32 →
        exec i s = .next (send (noteLeaf s' p) (Spec.asks s sid 1 false (.deque d.toNat p.key op x))).advance) ∧
      (∀ k, Spec.inScratch s cap cap.addr 32 need 32 .store k → Spec.ungathered s k 32 →
        exec i s = .next (send s (Spec.asks s sid 1 false (.deque d.toNat k op x))).advance)
    sent (.dqpush d a b sid) 0 (s.lo b.toNat) ∧ sent (.dqpop d a sid) 1 0 ∧ sent (.dqsteal d a sid) 2 0) ∧
  ∀ (s : State) (n d k op : Nat) (x : Word) (r : Req), Spec.underway s n r → r.kind = .deque d k op x → op < 3 →
    isScratch k = true → homeLost s k = false →
    let t := Spec.taken s n
    let w := Spec.writer r
    let asid := match s.grid? r.grid with
      | some g => g.asid
      | none => 0
    let ring := readNat s.mem k 8
    let top := readNat s.mem (k + 8) 4
    let bot := readNat s.mem (k + 12) 4
    let lg := readNat s.mem (k + 16) 8
    let size := (bot + 2 ^ 32 - top) % 2 ^ 32
    let index := if op = 0 then bot else if op = 1 then (bot + 2 ^ 32 - 1) % 2 ^ 32 else top
    let good := ring < 2 ^ 55 ∧ 8 ∣ ring ∧ 0 < lg ∧ lg ≤ 24 ∧ readNat s.mem (k + 24) 8 = 0
    let ends (st v top' bot' : Nat) (u : State) (g : Nat) : Prop :=
      let h := plainWrite u w 1 k (bytesOf 8 ring ++ bytesOf 4 top' ++ bytesOf 4 bot') none
      exec (.scratchRequest n) s = .next (Spec.acked h.1 r (Nat.max g h.2) (keyCore k) [Spec.answerOf r (.reg d (.data (BitVec.ofNat 64 (st * 2 ^ 56 + v)))) [k]])
    (¬good → ends 3 0 top bot t 0) ∧
    (good → op = 0 → size = 2 ^ lg → ends 2 0 top bot t 0) ∧
    (good → op ≠ 0 → size = 0 → ends 1 0 top bot t 0) ∧
    (good → (op = 0 → size ≠ 2 ^ lg) → (op ≠ 0 → size ≠ 0) →
      let ea := ring + 8 * (index % 2 ^ lg)
      (∀ u, dequeEntry t (keyCore k) asid ring lg index (op = 0) = (none, u) → ends 4 0 top bot u 0) ∧
      (∀ p v, ea < 2 ^ 55 → ea / 2 ^ 48 < 0x7E → window t (keyCore k) asid ea (if op = 0 then .store else .load) = (some p, v) →
        homeBad v p.key = false →
        let u := noteLeaf v p
        (op = 0 → let h := plainWrite u w 1 p.key (bytesOf 8 (x.toNat % 2 ^ 56)) none
          ends 0 bot top ((bot + 1) % 2 ^ 32) { h.1 with ringed := p.key / 8 :: h.1.ringed.filter (· ≠ p.key / 8) } h.2) ∧
        (op ≠ 0 → let u := accessLine u (lineOf p.key) true false
          let e := readNat u.mem p.key 8 % 2 ^ 56
          let u := { u with ringed := u.ringed.filter (· ≠ p.key / 8) }
          if op = 1 then ends 0 e top index u 0 else ends 0 e ((top + 1) % 2 ^ 32) bot u 0)))

/-- Scalar atomics and deque operations make one indivisible change and answer the old state (09 R227, 09 R229, 09
R233, 09 R234). -/
def Obligations.ScalarAtomicsAndDeques : Prop := Spec.ScalarAtomics ∧ Spec.AtomicArrivals ∧ Spec.DequeOperations

/-- The bytes of an element of a vector access and its sign, by FMT (09 R223). -/
def Sys2Proof.Spec.element (f : Nat) : Nat × Bool := if f ≤ 1 then (4, false) else if f ≤ 3 then (2, false) else (1, f = 6)

/-- 09 R223, R224, R226: a vector load asks for each active lane's element at ADDR plus the lane's signed offset; with no
active lane nothing is accessed; the lowest lane that fails a check names the fault. -/
def Sys2Proof.Spec.VectorLoads : Prop :=
  ∀ (s : State) (d a : BitVec 7) (c : BitVec 6) (sid : BitVec 4) (q : BitVec 2) (key : Nat → Nat), Spec.still s →
    let cap := s.reg c.toNat
    let e := Spec.element cap.fmt
    let off (l : Nat) : Int := (s.curWave.lane a.toNat l).toInt
    let ea (l : Nat) : Int := cap.addr + off l
    let r (i : Instr) (mc : Bool) : Prop := Admitted i s →
      (Spec.lanesOn s = [] → exec i s = .next s.advance) ∧
      (∀ p ps s', lanePlaces cap off e.1 permLD .load s (Spec.lanesOn s) = (.ok (p :: ps), s') → exec i s = .next (send s'
        (Spec.asks s sid q.toNat ((p :: ps).all fun p => p.2.rep) (.vload d.toNat e.1 e.2 mc ((p :: ps).map fun p => (p.1, p.2.key))))).advance) ∧
      (Spec.lanesOn s ≠ [] → (∀ l ∈ Spec.lanesOn s, Spec.inScratch s cap (ea l) e.1 permLD e.1 .load (key l)) →
        exec i s = .next (send s (Spec.asks s sid q.toNat false (.vload d.toNat e.1 e.2 mc ((Spec.lanesOn s).map fun l => (l, key l))))).advance) ∧
      (∀ l ∈ Spec.lanesOn s, (∀ j ∈ Spec.lanesOn s, j < l → Spec.inScratch s cap (ea j) e.1 permLD e.1 .load (key j)) →
        ∀ t s', checkAccess s cap (ea l) e.1 permLD e.1 .load = (.error t, s') → exec i s = .next (raise s' t))
    r (.vld d a c sid q) false ∧ r (.vldmc d a c sid q) true

/-- 09 R224, R225: a vector store writes the low bytes of each active lane; of lanes that write the same bytes the highest.
Direct lanes are sent; gathered lanes enter the store gather buffer in their order. -/
def Sys2Proof.Spec.VectorStores : Prop :=
  ∀ (s : State) (d a : BitVec 7) (c : BitVec 6) (sid : BitVec 4) (q : BitVec 2) (key : Nat → Nat), Spec.still s →
    (s.core (waveCore s.curW)).sgb = [] →
    let cap := s.reg c.toNat
    let n := (Spec.element cap.fmt).1
    let off (l : Nat) : Int := (s.curWave.lane a.toNat l).toInt
    let ea (l : Nat) : Int := cap.addr + off l
    let i : Instr := .vst d a c sid q
    let out (p : Nat × Place) : Nat × List Byte := (p.2.key, bytesOf n (s.curWave.laneN d.toNat p.1))
    Admitted i s →
      (Spec.lanesOn s = [] → exec i s = .next s.advance) ∧
      (∀ p ps s', lanePlaces cap off n permST .store s (Spec.lanesOn s) = (.ok (p :: ps), s') →
        let last := (p :: ps).filter fun x => !(p :: ps).any fun y => decide (x.1 < y.1 ∧ y.2.key = x.2.key)
        let gathered := last.filter fun x => decide (q = 0) && !isScratch x.2.key
        let direct := last.filter fun x => decide (q ≠ 0) || isScratch x.2.key
        let r := Spec.asks s sid q.toNat false (.store (direct.map out) false)
        (gathered = [] → exec i s = .next (send s' r).advance) ∧
        (gathered ≠ [] → exec i s = .next (issueGather s' s.curW sid.toNat (gathered.map out) false fun t => (send t r).advance)) ∧
        (gathered ≠ [] → direct = [] → ∃ t : State, exec i s = .next t.advance ∧ t.mem = s'.mem ∧ t.tags = s'.tags ∧
          ((t : State).core (waveCore s.curW)).squeue = [])) ∧
      (Spec.lanesOn s ≠ [] → (∀ l ∈ Spec.lanesOn s, Spec.inScratch s cap (ea l) n permST n .store (key l)) →
        let last := (Spec.lanesOn s).filter fun l => !(Spec.lanesOn s).any fun j => decide (l < j ∧ key j = key l)
        exec i s = .next (send s (Spec.asks s sid q.toNat false (.store (last.map fun l => (key l, bytesOf n (s.curWave.laneN d.toNat l))) false))).advance) ∧
      (∀ l ∈ Spec.lanesOn s, (∀ j ∈ Spec.lanesOn s, j < l → Spec.inScratch s cap (ea j) n permST n .store (key j)) →
        ∀ t s', checkAccess s cap (ea l) n permST n .store = (.error t, s') → exec i s = .next (raise s' t))

/-- 09 R223, R225: a request of a vector load that reaches scratch is answered with each lane's element, widened to 32 bits
by its sign; one of a vector store writes its bytes there, those of lanes that do not meet, and no other byte. -/
def Sys2Proof.Spec.VectorArrivals : Prop :=
  ∀ (s : State) (n : Nat) (r : Req), Spec.underway s n r →
    let u := Spec.taken s n
    (∀ vd z sx mc lanes, r.kind = .vload vd z sx mc lanes → lanes ≠ [] → (∀ l ∈ lanes, isScratch l.2 = true ∧ homeLost s l.2 = false) →
      exec (.scratchRequest n) s = .next (u.modNet fun m => { m with replies := m.replies ++ [Spec.answerOf r (.lanes (lanes.map fun l =>
        let x := BitVec.ofNat (8 * z) (readNat s.mem l.2 z)
        (vd, l.1, if sx then x.signExtend 32 else x.setWidth 32))) (lanes.map (·.2))] })) ∧
    (∀ ws, r.kind = .store ws false → ws ≠ [] → (∀ w ∈ ws, isScratch w.1 = true ∧ homeLost s w.1 = false) → Spec.noDeque s →
      (ws.Pairwise fun a b => a.1 + a.2.length ≤ b.1 ∨ b.1 + b.2.length ≤ a.1) →
      ∃ t g, exec (.scratchRequest n) s = .next (Spec.acked t r g (keyCore (ws.map (·.1)).headI) []) ∧
        ∀ x, readByte t.mem x = match ws.find? fun w => decide (w.1 ≤ x ∧ x < w.1 + w.2.length) with
          | some w => w.2.getD (x - w.1) 0
          | none => readByte s.mem x)

/-- Vector loads and stores act on the active lanes (09 R223, 09 R224, 09 R225, 09 R226). -/
def Obligations.VectorMemory : Prop := Spec.VectorLoads ∧ Spec.VectorStores ∧ Spec.VectorArrivals

/-- 09 R229 to R232: a vector atomic asks for the active lanes' locations, with each lane's operand and, for ACAS, its
comparison value. -/
def Sys2Proof.Spec.VectorAtomicsSent : Prop :=
  ∀ (s : State) (d : BitVec 7) (o : BitVec 4) (w : BitVec 1) (a : BitVec 6) (sid : BitVec 4) (key : Nat → Nat), Spec.still s →
    (s.core (waveCore s.curW)).sgb = [] →
    let cap := s.reg a.toNat
    let need := permLD + permST + permAT
    let pair (n r l : Nat) : Nat := s.curWave.laneN r l + (if n = 8 then s.curWave.laneN (r + 1) l * 2 ^ 32 else 0)
    let r (i : Instr) (n : Nat) (op : AtomOp) : Prop := Admitted i s →
      let off (l : Nat) : Int := (s.curWave.lane (8 * o.toNat) l).toInt
      let ea (l : Nat) : Int := cap.addr + off l
      let x (l : Nat) : Nat := pair n (if op = .cas then d.toNat + n / 4 else d.toNat) l
      (Spec.lanesOn s = [] → exec i s = .next s.advance) ∧
      (∀ p ps s', lanePlaces cap off n need .store s (Spec.lanesOn s) = (.ok (p :: ps), s') → exec i s = .next (send s'
        (Spec.asks s sid 1 false (.vatom d.toNat n op ((p :: ps).map fun p => ⟨p.1, p.2.key, x p.1, pair n d.toNat p.1, (ea p.1).toNat⟩)))).advance) ∧
      (∀ l ∈ Spec.lanesOn s, (∀ j ∈ Spec.lanesOn s, j < l → Spec.inScratch s cap (ea j) n need n .store (key j)) →
        ∀ t s', checkAccess s cap (ea l) n need n .store = (.error t, s') → exec i s = .next (raise s' t)) ∧
      (Spec.lanesOn s ≠ [] → (∀ l ∈ Spec.lanesOn s, Spec.inScratch s cap (ea l) n need n .store (key l)) → exec i s = .next (send s
        (Spec.asks s sid 1 false (.vatom d.toNat n op ((Spec.lanesOn s).map fun l => ⟨l, key l, x l, pair n d.toNat l, (ea l).toNat⟩)))).advance)
    let z := if w = 1 then 8 else 4
    r (.vatomAdd d o w a sid) z .add ∧ r (.vatomMin d o w a sid) z .min ∧ r (.vatomMax d o w a sid) z .max ∧
    r (.vatomMinu d o w a sid) z .minu ∧ r (.vatomMaxu d o w a sid) z .maxu ∧ r (.vatomAnd d o w a sid) z .and ∧
    r (.vatomOr d o w a sid) z .or ∧ r (.vatomXor d o w a sid) z .xor ∧ r (.vatomSwap d o w a sid) z .swap ∧
    r (.vatomFadd d o a sid) 4 .fadd ∧ r (.vatomBfadd2 d o a sid) 4 .bfadd2 ∧ r (.vacas d o w a sid) z .cas

/-- 09 R229 to R232: the lanes of one location, which come as one request, act there one after another, and each receives
the value it found; a floating sum first folds the lanes in that order. Shown in scratch, where no deque is in use. -/
def Sys2Proof.Spec.VectorAtomicArrivals : Prop :=
  ∀ (s : State) (n vd z k e : Nat) (op : AtomOp) (lanes : List AtomLane) (r : Req), Spec.underway s n r → r.kind = .vatom vd z op lanes →
    lanes ≠ [] → (∀ l ∈ lanes, l.key = k ∧ l.ea = e ∧ l.x < 2 ^ (8 * z)) → isScratch k = true → homeLost s k = false → Spec.noDeque s →
    (z = 8 ∧ op ≠ .fadd ∧ op ≠ .bfadd2) ∨ (z = 4 ∧ op ≠ .bfadd2) ∨ (z = 2 ∧ op = .bfadd2) → halfHeld s.net.reqs n r = false →
    let old := readNat s.mem k z
    let act (v : Nat) (l : AtomLane) : Nat := if op = .cas ∧ v ≠ l.cmp then v else Spec.atomic op (8 * z) v l.x
    let sum : List AtomLane → Nat
      | [] => 0
      | l :: t => t.foldl (fun p j => Spec.atomic op (8 * z) p j.x) l.x
    let after (ls : List AtomLane) : Nat :=
      if op = .fadd ∨ op = .bfadd2 then (if ls = [] then old else Spec.atomic op (8 * z) old (sum ls)) else ls.foldl act old
    let found := lanes.zipIdx.map fun l => (l.1.lane, after (lanes.take l.2))
    let data : ReplyData := if z = 2 then .halves (8 * (k % 4)) (found.map fun o => (vd, o.1, BitVec.ofNat 32 o.2))
      else .lanes (found.flatMap fun o => (vd, o.1, BitVec.ofNat 32 o.2) :: (if z = 8 then [(vd + 1, o.1, BitVec.ofNat 32 (o.2 / 2 ^ 32))] else []))
    ∃ t g, exec (.scratchRequest n) s = .next (Spec.acked t r g (keyCore k) [Spec.answerOf r data (lanes.map (·.key))]) ∧
      readNat t.mem k z = after lanes ∧ ∀ x, ¬(k ≤ x ∧ x < k + z) → readByte t.mem x = readByte s.mem x

/-- Vector atomics act lane by lane in ascending order at each location (09 R229, 09 R230, 09 R231, 09 R232). -/
def Obligations.VectorAtomics : Prop := Spec.VectorAtomicsSent ∧ Spec.VectorAtomicArrivals

/-- 10 R253, 01 R37: an access in an ordered stream waits while an earlier one of the wave in that stream is
under way; it has no effect then, and is tried again. -/
def Sys2Proof.Spec.OrderedStreams : Prop :=
  ∀ (s : State) (d a : BitVec 6) (sid : BitVec 4) (q : BitVec 2) (o : BitVec 8) (p : Place) (s' : State),
    sid ≠ 0 → underWay s s.curW (· = sid.toNat) = true → watermarkHeld s (eaM s a o 8).toNat 8 = false →
    (Admitted (.ldD d a sid q o) s → checkAccess s (s.reg a.toNat) (eaM s a o 8) 8 permLD 8 .load = (.ok p, s') →
      exec (.ldD d a sid q o) s = .next (stall (noteLeaf s' p))) ∧
    (Admitted (.stD d a sid q o) s → checkAccess s (s.reg a.toNat) (eaM s a o 8) 8 permST 8 .store = (.ok p, s') →
      exec (.stD d a sid q o) s = .next (stall (noteLeaf s' p)))

/-- The checks of an access come in their order, and an ordered stream waits for its earlier access (01 R11, 01 R17,
10 R253, 01 R37, 04 R123, 08 R217, 09 R225, 09 R232). -/
def Obligations.AccessRules : Prop := Spec.AccessChecks ∧ Spec.OrderedStreams ∧ Spec.Requests

/-! ### Ordering (09 R243 to R249, 04 R128, R129) -/

/-- Narrow scope codes; the vat scope; every other scope is wide (09 R243). -/
abbrev Sys2Proof.Spec.narrow (c : BitVec 3) : Prop := c.toNat ≤ 2
/-- The guard of a wide scope, in ns. -/
def Sys2Proof.Spec.guard (c : BitVec 3) : Nat := if c = 6 then 32 else 4
/-- The latest completion time of the wave's stores in the streams `p`, and of its drains. -/
def Sys2Proof.Spec.latest (x : Wave) (p : Nat → Bool) : Nat := (((List.range 16).filter p).map (Tbl.get 0 x.mg)).foldl Nat.max x.mgg

/-- 09 R244: nothing is to be waited for: the wave has no gathered store (vat and wide), and the lease clock stands at the
latest completion time with the guard or past it (wide). -/
def Sys2Proof.Spec.joinable (s : State) (c : BitVec 3) (p : Nat → Bool) : Prop :=
  Spec.narrow c ∨ ((∀ e ∈ (s.core (waveCore s.curW)).sgb, waveSlot s.curW ∉ e.writers) ∧
    (c = 3 ∨ Spec.latest s.curWave p + Spec.guard c ≤ leaseNow s s.curDie))

/-- 09 R244: what is waited for has happened. A vat or wide scope then notes which writes others may see (01 R37, log 12). -/
def Sys2Proof.Spec.joined (s : State) (c : BitVec 3) (p : Nat → Bool) (own : Bool := false) : State :=
  if Spec.narrow c then s else publish s own p

/-- 09 R244, R245: FENCE joins the streams of its mask once there is nothing to wait for, writes the status word of the error
bits it reports and clears those; the bits of gathered stores are reported and cleared by the vat and wide scopes alone. A
wide one waits while the lease clock stands before the latest completion time with the guard. -/
def Sys2Proof.Spec.Fences : Prop :=
  ∀ (s : State) (d a : BitVec 6) (c : BitVec 3), Spec.still s → Admitted (.fence d a c) s →
    let m := (s.lo a.toNat).toNat % 2 ^ 16
    let named (i : Nat) : Bool := decide (m = 0) || m.testBit i
    let u := Spec.joined s c named true
    let x := u.curWave
    let mask := if m = 0 then (0xFFFF : BitVec 16) else BitVec.ofNat 16 m
    let all := decide (¬Spec.narrow c)
    let body := (if x.gl && all then 2 ^ 49 else 0) + (if x.gr && all then 2 ^ 48 else 0) + (x.lk &&& mask).toNat * 2 ^ 32 + (x.rf &&& mask).toNat * 2 ^ 16
    (Spec.joinable s c named → exec (.fence d a c) s = .next (((u.modCur fun y => { y with
        lk := y.lk &&& ~~~mask, rf := y.rf &&& ~~~mask, gl := y.gl && !all, gr := y.gr && !all }).setData d.toNat
          (BitVec.ofNat 64 ((if body = 0 then 0 else 2 ^ 56) + body))).advance)) ∧
    (¬Spec.narrow c → c ≠ 3 → (∀ e ∈ (s.core (waveCore s.curW)).sgb, waveSlot s.curW ∉ e.writers) →
      leaseNow s s.curDie < Spec.latest s.curWave named + Spec.guard c →
      exec (.fence d a c) s = .next (park s (.lease (Spec.latest s.curWave named + Spec.guard c)))) ∧
    (u.mem = s.mem ∧ u.tags = s.tags ∧ u.cores = s.cores ∧ u.net = s.net ∧ ∃ k, x = { s.curWave with clk := k })

/-- 09 R246, 10 R264: REL stores the 8-byte flag after the wave's earlier accesses: a narrow one notes what it covers in
the promotion log, which has room here and no other release waiting for it, and stores the flag gathered (direct in
scratch); a wider one joins all streams first and sends the flag in stream 0. The flag goes out as the value of the
release (10 R257, log 12). -/
def Sys2Proof.Spec.Releases : Prop :=
  ∀ (s : State) (a b : BitVec 6) (c : BitVec 3), Spec.still s → Admitted (.rel a b c) s →
    let cap := s.reg a.toNat
    let v := bytesOf 8 (s.lo b.toNat).toNat
    let w := s.curW
    let k := waveCore w
    (∀ t s', checkAccess s cap cap.addr 8 permST 8 .store = (.error t, s') → exec (.rel a b c) s = .next (raise s' t)) ∧
    (∀ p s', checkAccess s cap cap.addr 8 permST 8 .store = (.ok p, s') →
      let s1 := noteLeaf s' p
      let flag (r : Rel) : Req := { Spec.asks s 0 1 false (.store [(p.key, v)] false) with rels := [r] }
      (Spec.narrow c → (s1.core k).log.length < 16 → (s1.core k).relq = [] →
        let s2 := (s1.modCore k fun x => { x with relq := x.relq.filter (· ≠ w) }).release
        let r := relOf s2 c p.key
        (isScratch p.key = true → Spec.ungathered s p.key 8 →
          exec (.rel a b c) s = .next (send (s2.modCore k fun x => retireLog { x with log := x.log ++ [(s2.core k).gs] }) (flag r)).advance) ∧
        (isScratch p.key = false → (s.core k).sgb.length < 48 →
          let s3 := s2.modCore k fun x => { x with log := x.log ++ [(x.gs + 1) % 2 ^ 32] }
          let t := (gatherStore s3 ⟨w, 0, s.reqNo, p.key, v, false, s.curWave.grid, s.curWave.uid,
            ([r] ++ knownRels s3 k [(p.key, 8)]).filter (·.meets p.key 8)⟩).advance
          exec (.rel a b c) s = .next { t with reqNo := Nat.max t.reqNo (s.reqNo + 1) })) ∧
      (¬Spec.narrow c → Spec.ungathered s p.key 8 → Spec.joinable s c (fun _ => true) →
        let u := Spec.joined s1 c fun _ => true
        exec (.rel a b c) s = .next (send u (flag (relOf u c p.key))).advance))

/-- 09 R247, R248: ACQ returns the flag, and ACQP the promotion's status and the flag's low 56 bits, when the
lease clock has passed the flag's time with the guard (wide); an absent target and one outside the scope are
answered with no flag read. The wave learns of the releases whose values the flag holds (10 R257, log 12). Its loads have
come in here (log 46). -/
def Sys2Proof.Spec.Acquires : Prop :=
  ∀ (s : State) (d a b : BitVec 6) (c : BitVec 3) (k : Nat), Spec.still s → s.curWave.loads = 0 →
    let cap := s.reg a.toNat
    let t := (s.lo b.toNat).toNat % 2 ^ 20
    let me := waveCore s.curW
    let time := if 4 ≤ c.toNat then leaseNow s (homeDie k) + Spec.guard c else 0
    let here := s.flags.filter fun r => decide (r.key = k)
    Spec.inScratch s cap cap.addr 8 permLD 8 .load k →
    (Admitted (.acq d a c) s →
      exec (.acq d a c) s = .next (reply (acquire s (here.filter (·.reaches s c.toNat))) d.toNat (BitVec.ofNat 64 (readNat s.mem k 8)) time)) ∧
    (Admitted (.acqp d a b c) s → s.curWave.promo = none →
      let out := (c = 3 ∧ coreVat me ≠ coreVat t) ∨ (c = 4 ∧ coreDie me ≠ coreDie t) ∨ (c = 5 ∧ corePkg me ≠ corePkg t)
      let ends (st : Nat) : Prop := exec (.acqp d a b c) s = .next (reply s d.toNat (BitVec.ofNat 64 (st * 2 ^ 56)))
      (corePresent s t = false → ends 2) ∧
      (corePresent s t = true → out → ends 3) ∧
      (corePresent s t = true → ¬out → exec (.acqp d a b c) s = .next ((park s (.reply d.toNat)).modNet fun n =>
        { n with promotes := n.promotes ++ [(t, s.curW)] }))) ∧
    (∀ pct, Admitted (.acqp d a b c) s → s.curWave.promo = some (pct, false) →
      let u := s.modCur fun x => { x with promo := none }
      (c.toNat < 4 ∨ pct + Spec.guard c ≤ leaseNow s s.curDie → exec (.acqp d a b c) s = .next
        (reply (acquire u (here.filter (·.promoted u t))) d.toNat (BitVec.ofNat 64 (readNat s.mem k 8 % 2 ^ 56)) time)) ∧
      (4 ≤ c.toNat → leaseNow s s.curDie < pct + Spec.guard c → exec (.acqp d a b c) s = .next (park s (.lease (pct + Spec.guard c))))) ∧
    (∀ pct, Admitted (.acqp d a b c) s → s.curWave.promo = some (pct, true) → exec (.acqp d a b c) s = .next
      (((s.modCur fun x => { x with promo := none }).setData d.toNat (BitVec.ofNat 64 (2 ^ 56))).advance))

/-- FENCE, REL, ACQ and ACQP join, publish and observe (09 R244, 09 R245, 09 R246, 09 R247, 09 R248). -/
def Obligations.FencesAndFlags : Prop := Spec.Fences ∧ Spec.Releases ∧ Spec.Acquires

/-- 09 R249: ZFILL of whole lines makes them zero, after the core's gathered bytes of those lines have drained;
a misaligned place or length raises ALIGN before any other check, and no byte is touched for a length of 0. -/
def Sys2Proof.Spec.ZeroFill : Prop :=
  ∀ (s : State),
    (∀ (a b : BitVec 6), Spec.still s → Admitted (.zfill a b) s →
    let cap := s.reg a.toNat
    let n := (s.lo b.toNat).toNat
    (¬(128 ∣ cap.addr ∧ 128 ∣ n) → exec (.zfill a b) s = .next (raise s ⟨.align, BitVec.ofNat 64 cap.addr⟩)) ∧
    (128 ∣ cap.addr → n = 0 → exec (.zfill a b) s = .next s.advance) ∧
    (128 ∣ cap.addr → 128 ∣ n → n ≠ 0 →
      (∀ t s', checkAccess s cap cap.addr n permST 1 .store = (.error t, s') → exec (.zfill a b) s = .next (raise s' t)) ∧
      ∀ p s', checkAccess s cap cap.addr n permST 1 .store = (.ok p, s') →
        (∀ t u, lineKeys (noteLeaf s' p) cap.addr (n / 128) = (.error t, u) → exec (.zfill a b) s = .next (raise u ⟨.xlate, BitVec.ofNat 64 cap.addr⟩)) ∧
        (∀ ks u, lineKeys (noteLeaf s' p) cap.addr (n / 128) = (.ok ks, u) → (s.core (waveCore s.curW)).sgb = [] →
          exec (.zfill a b) s = .next (send u (Spec.asks s 0 1 false (.zero (ks.map lineOf)))).advance))) ∧
    (∀ n l r, Spec.underway s n r → r.kind = .zero [l] → homeLost s (l * 128) = false →
      ∃ t g, exec (if isScratch (l * 128) then .scratchRequest n else .mreqWrite n 0) s = .next (Spec.acked t r g (keyHome (l * 128)) []) ∧
        (Spec.plain s → Spec.noDeque s →
          (∀ x, readByte t.mem x = if l * 128 ≤ x ∧ x < l * 128 + 128 then 0 else readByte s.mem x) ∧
          (∀ x, Tbl.get false t.tags x = if l * 8 ≤ x ∧ x < l * 8 + 8 then false else Tbl.get false s.tags x)))

/-- 04 R128, R129: INVL1 empties the core's L1, and INVI its instruction cache once the wave's stores are at
their homes; fills of L1 that are in flight will not be installed (08 R198). What happened before an INVL1 is what the
wave's loads through L1 may rely on (01 R37, log 12); an INVI waits for the wave's loads too (log 46). -/
def Sys2Proof.Spec.Invalidations : Prop :=
  ∀ s : State, Spec.still s →
    Spec.does .invl1 (fun s => ((s.modCore s.curCore fun c => { c with l1 := [], l1use := [], l1e := c.l1e + 1 }).modCur fun x =>
      { x with l1clk := x.clk }).advance) s ∧
    ((∀ e ∈ (s.core (waveCore s.curW)).sgb, waveSlot s.curW ∉ e.writers) → s.curWave.loads = 0 →
      Spec.does .invi (fun s => ({ s.modCore s.curCore (fun c => { c with icache := [], icuse := [], inviAt := s.invis + 1 }) with
        invis := s.invis + 1 }).advance) s)

/-! ### Barriers (09 R235 to R242) -/

/-- ZFILL zeroes whole lines, INVL1 and INVI empty the caches (09 R249, 04 R128, 04 R129). -/
def Obligations.ZeroFillAndInvalidation : Prop := Spec.ZeroFill ∧ Spec.Invalidations

/-- 09 R235: an object's words give back the fields they were made from. -/
def Sys2Proof.Spec.BarrierObject : Prop :=
  ∀ (s : State) (k : Nat) (b : Bar), b.arra < 2 ^ 16 → b.expa < 2 ^ 16 → b.phase < 2 ^ 32 → b.landb < 2 ^ 32 → b.expb < 2 ^ 32 →
    b.wcnt < 2 ^ 16 → b.rsv < 2 ^ 13 → b.stray < 2 ^ 32 →
    let t := Bar.write s k b
    Bar.read t k = b ∧ (∀ x, ¬(k ≤ x ∧ x < k + 24) → readByte t.mem x = readByte s.mem x) ∧
    (memWord t k).toNat = b.arra * 2 ^ 48 + b.expa * 2 ^ 32 + b.phase ∧ (memWord t (k + 8)).toNat = b.landb * 2 ^ 32 + b.expb

/-- 09 R237, 13 R310: the object that a barrier instruction names: 32 aligned bytes of scratch, for a wave
through its capability and for a context by its offset in the arena. -/
def Sys2Proof.Spec.barrier (s : State) (a : BitVec 6) (need : Nat) (u : Use) (k : Nat) : Prop := match s.cur with
  | .ctx v n => arenaAt s (s.ctx v n).arena (waveCore (s.ctx v n).wave) (s.lo a.toNat).toNat 32 32 u = (.ok k, s)
  | _ => Spec.inScratch s (s.reg a.toNat) (s.reg a.toNat).addr 32 need 32 u k

/-- A registered agent gets its wake (09 R241, R242): it waits for a reply, and the object's status word is on its way to it,
which takes the least time of the way from the object's core to its own. -/
def Sys2Proof.Spec.woken (s t : State) (w : Waiter) (st : Nat) (o : Bar) : Prop :=
  awaits t w.agent w.d = true ∧ ∃ k ∈ t.net.wakes, k.agent = w.agent ∧ k.d = w.d ∧ k.value = o.status st ∧
    k.due = s.cyc + wakeTrip (keyCore w.key) (agentCore s w.agent)

/-- 09 R236: at an object's home an arrival or credit counts, or is kept off by an invalid object or by
overflow; when all that is expected has come and landed the phase moves on, arrivals and the byte target go to
0, landed bytes beyond the target stay, and every registered agent is woken with the status of the phase completed: it
stands in the table no more, and a wake with OK is on its way to it. -/
def Sys2Proof.Spec.BarrierCounts : Prop :=
  ∀ (s : State) (c : Credit), corePresent s (keyCore c.key) = true → domainBlock c.key = false →
    (s.waiters.map (·.agent)).Nodup → (∀ w ∈ s.waiters, w.agent ≠ .none) →
    let o := Bar.read s c.key
    let u := joinPhase s c.key o.phase c.clk
    let settled (r : State) (o : Bar) : Prop :=
      let all := o.arra = o.expa ∧ o.expb ≤ o.landb
      let n : Bar := { o with phase := (o.phase + 1) % 2 ^ 32, arra := 0, landb := o.landb - o.expb, expb := 0, wcnt := 0 }
      (¬all → r = Bar.write u c.key o) ∧
      (all → r.mem = (Bar.write u c.key n).mem ∧ r.waiters = s.waiters.filter (fun w => decide (w.key ≠ c.key)) ∧
        (∀ w ∈ s.waiters, w.key = c.key → Spec.woken s r w 0 n) ∧
        ((∀ w ∈ s.waiters, w.key ≠ c.key) → r = { Bar.write u c.key n with waiters := r.waiters }))
    (o.v = false → arriveBar s c = Bar.write s c.key { o with sa := true }) ∧
    (o.v = true → o.expa < o.arra + c.amount → arriveBar s c = Bar.write s c.key { o with ovf := true }) ∧
    (o.v = true → o.arra + c.amount ≤ o.expa → settled (arriveBar s c) { o with arra := o.arra + c.amount }) ∧
    (o.v = false → creditBar s c = channelError (Bar.write s c.key { o with stray := min (o.stray + c.amount) (2 ^ 32 - 1) }) c.src) ∧
    (o.v = true → o.landb + c.amount < 2 ^ 32 → settled (creditBar s c) { o with landb := o.landb + c.amount }) ∧
    (o.v = true → 2 ^ 32 ≤ o.landb + c.amount → settled (creditBar s c) { o with ovf := true, landb := 2 ^ 32 - 1 })

/-- A barrier object gives back its fields, and arrivals and credits complete its phase (09 R235, 09 R236). -/
def Obligations.BarrierObjectsAndCounts : Prop := Spec.BarrierObject ∧ Spec.BarrierCounts

/-- 09 R238 to R242: each barrier instruction of a wave or a context acts on the object at its home; all but
BARV and BEXP answer {status, SA, OVF, PHASE}: 0 done, 1 busy, 2 invalid, 3 not yet, 4 bad operand, with the least time that a
load of the object takes (log 6). An agent that meets a completed phase learns of what happened before it, and a BARV
passes on what its agent knows (10 R257, log 12). -/
def Obligations.BarrierInstructions : Prop :=
  ∀ (s : State) (d a b : BitVec 6) (k : Nat), Spec.still s →
    let o := Bar.read s k
    let x := (s.lo b.toNat).toNat
    let rw := permLD + permST + permAT
    let word (o : Bar) (st : Nat) : Word :=
      BitVec.ofNat 64 (st * 2 ^ 56 + (if o.sa then 2 ^ 33 else 0) + (if o.ovf then 2 ^ 32 else 0) + o.phase)
    let answer (u : State) (o : Bar) (st : Nat) : State := reply u d.toNat (word o st) 0 none (s.cyc + loadTrip s.curCore (keyCore k))
    let ends (i : Instr) (u : State) (o : Bar) (st : Nat) : Prop := exec i s = .next (answer u o st)
    let fresh : Bar := { arra := 0, expa := x % 2 ^ 16, phase := 0, landb := 0, expb := x / 2 ^ 32, wcnt := 0, sa := false, ovf := false, v := true, stray := 0 }
    let seen := s.learn (phaseClk s k (x % 2 ^ 32))
    (Spec.barrier s a rw .store k →
      (Admitted (.binit d a b) s →
        (o.wcnt ≠ 0 → ends (.binit d a b) s o 1) ∧
        (o.wcnt = 0 → x % 2 ^ 16 = 0 ∨ x / 2 ^ 16 % 2 ^ 16 ≠ 0 → ends (.binit d a b) s o 4) ∧
        (o.wcnt = 0 → x % 2 ^ 16 ≠ 0 → x / 2 ^ 16 % 2 ^ 16 = 0 →
          ends (.binit d a b) (poke (Bar.write { s with bars := Tbl.erase s.bars k } k fresh) (k + 24) (List.replicate 8 0)) fresh 0)) ∧
      (Admitted (.barv a) s → arrivalHeld s = false →
        let u := s.release
        exec (.barv a) s = .next (let t := u.modNet fun n => { n with arrivals := n.arrivals ++ [⟨k, 1, .agent s.cur, u.curClk⟩] }
          (match s.cur with
            | .wave w => t.modWave w fun x => { x with stores := x.stores + 1 }
            | _ => t).advance)) ∧
      (Admitted (.bexp a b) s →
        let n := o.expb + x % 2 ^ 32
        (o.v = false → exec (.bexp a b) s = .next (Bar.write s k { o with sa := true }).advance) ∧
        (o.v = true → exec (.bexp a b) s = .next (completeBar s k (if n < 2 ^ 32 then { o with expb := n } else { o with expb := 2 ^ 32 - 1, ovf := true })).advance)) ∧
      (Admitted (.binv d a) s →
        (o.v = false → ends (.binv d a) s o 0) ∧
        (o.v = true → (∀ w ∈ s.waiters, w.key ≠ k) →
          ends (.binv d a) { Bar.write s k { o with v := false, wcnt := 0 } with waiters := s.waiters.filter fun w => !decide (w.key = k) } { o with v := false } 0) ∧
        (o.v = true → (s.waiters.map (·.agent)).Nodup → (∀ w ∈ s.waiters, w.agent ≠ .none ∧ w.agent ≠ s.cur) → ∃ t : State, ends (.binv d a) t { o with v := false } 0 ∧
          t.mem = (Bar.write s k { o with v := false, wcnt := 0 }).mem ∧ t.waiters = s.waiters.filter (fun w => decide (w.key ≠ k)) ∧
          ∀ w ∈ s.waiters, w.key = k → Spec.woken s t w 2 { o with v := false }))) ∧
    (Spec.barrier s a permLD .load k →
      (Admitted (.bwait d a b) s →
        (o.v = false → ends (.bwait d a b) s o 2) ∧
        (o.v = true → o.phase ≠ x % 2 ^ 32 → ends (.bwait d a b) seen o 0) ∧
        (o.v = true → o.phase = x % 2 ^ 32 → exec (.bwait d a b) s = .next (park
          (Bar.write { s with waiters := s.waiters ++ [⟨k, s.cur, d.toNat⟩] } k { o with wcnt := o.wcnt + 1 }) (.barrier k d.toNat)))) ∧
      (Admitted (.btry d a b) s →
        (o.v = false → ends (.btry d a b) s o 2) ∧
        (o.v = true → o.phase ≠ x % 2 ^ 32 → ends (.btry d a b) seen o 0) ∧
        (o.v = true → o.phase = x % 2 ^ 32 → ends (.btry d a b) s o 3)))

/-! ### State registers, waits, traps and ends (01 R25 to R30, 04 R122 to R127) -/

/-- 01 R24 to R30, 04 R122: GETS writes the register's value; PC is its low half with no tag, CYC and TIME the
clocks, WID the wave's place; a number with no register raises ILLEGAL. -/
def Sys2Proof.Spec.ReadStateRegister : Prop :=
  ∀ (s : State) (d : BitVec 6) (n : BitVec 12),
    let x := s.curWave
    let c := waveCore s.curW
    let p := s.die (coreDie c)
    let i : Instr := .gets d n
    let r (k : Nat) (v : Nat) : Prop := n.toNat = k → Spec.does i (fun s => (s.setData d.toNat (BitVec.ofNat 64 v)).advance) s
    r 0x000 x.pc.lo.toNat ∧
    r 0x001 (if x.full then ((Spec.lanesOn s).map fun l => 2 ^ l).sum else 0) ∧
    r 0x002 x.fmode.toNat ∧ r 0x003 x.fflags.toNat ∧ r 0x004 (s.cyc - (s.vat (coreVat c)).lag - p.lag) ∧ r 0x005 (leaseNow s (coreDie c)) ∧
    r 0x006 x.fstat.toNat ∧ r 0x007 x.finfo.toNat ∧
    r 0x008 ((if x.sup then 2 ^ 41 else 0) + (if x.full then 0 else 2 ^ 40) + s.curW % 32 * 2 ^ 35 + coreX c * 2 ^ 25 + coreY c * 2 ^ 15) ∧
    r 0x800 (p.mailbox.length * 2 ^ 40 + p.naks.toNat) ∧ r 0x801 x.svst.toNat ∧ r 0x802 (dieCore (coreDie c) 0 0 + p.suploc) ∧
    r 0x803 p.wdog.toNat ∧ r 0x810 (topo s (corePkg c)) ∧ r 0x8A0 (s.core c).raycfg.toNat ∧ r 0x8A1 (s.core c).rayovf.toNat ∧
    (n.toNat ∉ [0, 1, 2, 3, 4, 5, 6, 7, 8, 0x800, 0x801, 0x802, 0x803, 0x810, 0x8A0, 0x8A1, 0x8A2] →
      Spec.does i (fun s => raise s ⟨.illegal, i.code.setWidth 64⟩) s) ∧
    (∀ j : Instr, (j = .gets d 0x8A2 ∨ j = .raystatRead d) → Admitted (.gets d 0x8A2) s → exec j s = .next (((s.modCore s.curCore fun k => { k with hdrop := false }).setData d.toNat
      (BitVec.ofNat 64 ((s.core c).ovfN * 2 ^ 39 + (s.core c).inbox.length * 2 ^ 30 + (s.core c).hits.length * 2 ^ 21 +
        (if (s.core c).hdrop then 2 ^ 20 else 0)))).advance))

/-- 01 R25 to R27, 04 R122, 05 R132: SETS of FMODE, FFLAGS and EXM writes the register for the instructions
that follow; a reserved field that is not zero, a rounding code above 5, a read-only register and an unassigned
number raise ILLEGAL. An EXM bit that is 1 makes its lane active, 0 makes an active lane idle. A supervisor wave's SETS
writes SUPLOC, a present core of the die while its mailbox is empty, and WDOG (18 R407); RAYCFG, with its fields in range and
a treelet region that is resized only where no treelet and no allocation stands (15 R359); and RAYOVF, a ring that is aligned,
while the ring is empty (15 R361). -/
def Sys2Proof.Spec.WriteStateRegister : Prop :=
  ∀ (s : State) (a : BitVec 6) (n : BitVec 12),
    let v := s.lo a.toNat
    let i : Instr := .sets a n
    let r (k : Nat) (good : Prop) (f : Wave → Wave) : Prop := n.toNat = k →
      (good → Spec.does i (fun s => (s.modCur f).advance) s) ∧ (¬good → Spec.does i (fun s => raise s ⟨.illegal, i.code.setWidth 64⟩) s)
    r 2 (v.toNat / 16 % 2 ^ 28 = 0 ∧ v.toNat % 8 ≤ 5) (fun x => { x with fmode := v.setWidth 32 }) ∧
    r 3 (v.toNat / 32 % 2 ^ 27 = 0) (fun x => { x with fflags := v.setWidth 32 }) ∧
    (n.toNat = 1 → Admitted i s → ∃ t n' b, exec i s = .next t ∧ t = (s.modCur fun x => { x with nc := n', bk := b }).advance ∧
      ∀ l < 32, Spec.nest t.curWave l = if s.curWave.full = false then Spec.nest s.curWave l
        else if v.getLsbD l then (0, false) else if (Spec.nest s.curWave l).1 = 0 then (1, (Spec.nest s.curWave l).2) else Spec.nest s.curWave l) ∧
    (let c := waveCore s.curW
     let x := v.toNat
     let at_ := x % 2 ^ 20
     let tlru := x / 2 ^ 32 % 2 ^ 5
     let q (k : Nat) (good : Prop) (f : State → State) : Prop := n.toNat = k →
       (good → Spec.does i (fun s => (f s).advance) s) ∧ (¬good → Spec.does i (fun s => raise s ⟨.illegal, i.code.setWidth 64⟩) s)
     q 0x802 (x / 2 ^ 20 = 0 ∧ coreDie at_ = coreDie c ∧ corePresent s at_ = true ∧ (s.die (coreDie c)).mailbox = [])
       (fun s => s.modDie (coreDie c) fun y => { y with suploc := at_ - dieCore (coreDie c) 0 0 }) ∧
     q 0x803 (x / 2 ^ 16 = 0) (fun s => s.modDie (coreDie c) fun y => { y with wdog := v }) ∧
     q 0x8A0 (x / 2 ^ 48 = 0 ∧ x / 2 ^ 9 % 2 ^ 23 = 0 ∧ 0 < x % 2 ^ 9 ∧ x % 2 ^ 9 ≤ 256 ∧ x / 2 ^ 40 % 2 ^ 8 ≠ 0 ∧ tlru ≤ 24 ∧
         (tlru = (s.core c).raycfg.toNat / 2 ^ 32 % 2 ^ 5 ∨ ((s.core c).tslots = [] ∧ ∀ a ∈ allocs s c, a.2 = 0 ∨ a.1 + a.2 ≤ 2 ^ 21 - 2 ^ 16 * tlru)))
       (fun s => s.modCore c fun y => { y with raycfg := v }) ∧
     q 0x8A1 (x / 2 ^ 56 = 0 ∧ x / 2 ^ 48 % 2 ^ 3 = 0 ∧ x / 2 ^ 51 % 2 ^ 5 ≤ 24 ∧ 64 * 2 ^ (x / 2 ^ 51 % 2 ^ 5) ∣ x % 2 ^ 48 ∧ (s.core c).ovfN = 0)
       (fun s => s.modCore c fun y => { y with rayovf := v })) ∧
    (n.toNat ∉ [1, 2, 3, 0x802, 0x803, 0x8A0, 0x8A1] → Spec.does i (fun s => raise s ⟨.illegal, i.code.setWidth 64⟩) s)

/-- 04 R123 to R125: NOP only goes on; YIELD hands the wave back to the pool; CWAIT goes on when each counter it
names is at most its field, and waits otherwise. -/
def Sys2Proof.Spec.WaitsAndYields : Prop :=
  ∀ (s : State) (l t c p : BitVec 5),
    let x := s.curWave
    let held := (l ≠ 31 ∧ l.toNat < x.loads) ∨ (t ≠ 31 ∧ t.toNat < x.stores) ∨ (c ≠ 31 ∧ c.toNat < x.copies) ∨ (p ≠ 31 ∧ p.toNat < x.passes)
    Spec.does .nop (fun s => s.advance) s ∧
    Spec.does .yield (fun s => (s.modCur fun x => { x with run := .ready, entered := s.cyc }).advance) s ∧
    (¬held → Spec.does (.cwait l t c p) (fun s => s.advance) s) ∧ (held → Spec.does (.cwait l t c p) (fun s => stall s) s)

/-- GETS and SETS read and write the state registers; NOP, YIELD and CWAIT (01 R24, 01 R25, 01 R26, 01 R27, 01 R28,
01 R29, 01 R30, 04 R122, 04 R123, 04 R124, 04 R125, 05 R132). -/
def Obligations.StateRegistersAndWaits : Prop := Spec.ReadStateRegister ∧ Spec.WriteStateRegister ∧ Spec.WaitsAndYields

/-- 01 R35, 18 R402, R405: a wave that faults stops at its instruction with no other effect: it waits with its
message, which names its place, code and grid, the information word and the PC; the message leaves for the
mailbox of its die and the grid counts it, or only NAKS counts where an earlier message of the wave stands unsent. -/
def Sys2Proof.Spec.TakingAFault : Prop :=
  ∀ (s : State) (w : Nat) (t : Trap), s.cur = .wave w →
    let x := s.wave w
    let c := waveCore w
    let m : FaultMsg := {
      m0 := BitVec.ofNat 64 (t.code.num * 2 ^ 56 + w % 32 * 2 ^ 47 + c * 2 ^ 24 + (if x.sup then 2 ^ 22 else 0)
        + (Tbl.get 0 (s.core c).wtag (w % 32)).toNat % 2 ^ 16)
      m1 := BitVec.ofNat 64 (x.grid * 2 ^ 32 + x.gidx % 2 ^ 32), m2 := t.info, m3 := BitVec.ofNat 64 x.pc.addr }
    let stopped := (s.modCore c fun k => { k with relq := k.relq.filter (· ≠ w) }).modWave w fun x =>
      { x with run := .waiting .fault, fault := some m, entered := s.cyc, again := false }
    (unsent s (coreDie c) m = true → raise s t = stopped.modDie (coreDie c) fun y => { y with naks := y.naks + 1 }) ∧
    (unsent s (coreDie c) m = false → ∃ gs,
      raise s t = { stopped with grids := gs, net := { s.net with posts := s.net.posts ++ [⟨coreDie c, m, false, s.cyc⟩] } } ∧
      (∀ h, h ≠ m.m1.toNat / 2 ^ 32 → Tbl.get? gs h = Tbl.get? s.grids h) ∧
      ∀ g, Tbl.get? s.grids (m.m1.toNat / 2 ^ 32) = some g → Tbl.get? gs (m.m1.toNat / 2 ^ 32) = some { g with
        nfault := min (g.nfault + 1) (2 ^ 32 - 1), fcode := if g.fcode = 0 then m.m0.toNat / 2 ^ 56 else g.fcode })

/-- 04 R126, 02 R63: TRAP and BKPT raise their faults with the 20-bit code; a word that is no instruction raises
ILLEGAL, or PRIV where it is a privileged one in a wave that is not a supervisor's, with the word as
information. -/
def Sys2Proof.Spec.Traps : Prop :=
  ∀ (s : State) (c : BitVec 20) (w : W32),
    Spec.does (.trap c) (fun s => raise s ⟨.trap, c.setWidth 64⟩) s ∧
    Spec.does (.bkpt c) (fun s => raise s ⟨.bkpt, c.setWidth 64⟩) s ∧
    (∀ n, s.cur = .wave n → (privilegedWord w = false ∨ (s.wave n).sup = true) →
      exec (.illegalInstruction w) s = .next (raise s ⟨.illegal, w.setWidth 64⟩)) ∧
    (∀ n, s.cur = .wave n → privilegedWord w = true → (s.wave n).sup = false →
      exec (.illegalInstruction w) s = .next (raise s ⟨.priv, w.setWidth 64⟩)) ∧
    (∀ v n, s.cur = .ctx v n → exec (.illegalInstruction w) s = .next (raise s ⟨.illegal, w.setWidth 64⟩))

/-- A fault stops the wave at its instruction with a message; TRAP, BKPT and words that are no instruction raise
theirs (01 R35, 02 R63, 04 R126, 18 R402, 18 R405). -/
def Obligations.FaultsAndTraps : Prop := Spec.TakingAFault ∧ Spec.Traps

/-- 02 R62, R63, 04 R122: a privileged instruction in a wave that is not a supervisor's takes fault PRIV with its
word; so do a read and a write of a supervisor register. -/
def Obligations.Privilege : Prop :=
  ∀ (s : State) (w : Nat) (a b : BitVec 6) (n : BitVec 12), s.cur = .wave w → (s.wave w).sup = false → 0x800 ≤ n.toNat →
    ∀ i ∈ [Instr.mbxpop a, .wresume a, .wkill a, .gkill a, .gpreempt b a, .dbghalt a, .dbgrun a, .gets a n, .sets a n],
      wellFormed i = true → exec i s = .next (raise s ⟨.priv, i.code.setWidth 64⟩)
/-! ### Grids (05 R134 to R150) -/

/-- The instruction answers {status, value} in c[d], from the state `u`. -/
def Sys2Proof.Spec.answers (i : Instr) (s : State) (d : BitVec 6) (u : State) (st v : Nat) : Prop :=
  exec i s = .next ((u.setData d.toNat (BitVec.ofNat 64 (st * 2 ^ 56 + v))).advance)

/-- A distributor or a queue's home answers {status, value} for c[d] by a reply that the wave waits for, from the state `u`; a
reply that tells of a new grid, or of a range that GROW gave one, names it (05 R144, 21 R449). -/
def Sys2Proof.Spec.replies (i : Instr) (s : State) (d : BitVec 6) (u : State) (st v : Nat) (made : Option (Nat × Option Nat) := none) : Prop :=
  exec i s = .next ((park u (.reply d.toNat)).modNet fun n => { n with
    replies2 := n.replies2 ++ [{ agent := u.cur, d := d.toNat, value := BitVec.ofNat 64 (st * 2 ^ 56 + v), made := made }] })

/-- 05 R143 to R145: LAUNCH reads the 64-byte record once the wave's stores are visible to the system, and
answers: 4 a wave that is not wave 0 of its group, 1 a bad record, 2 a tenth level, 5 no core that could hold a
group, 3 no handle, 0 with the new grid's handle, which has the record, the next depth and this grid as its
parent; a grid of KIND 0 has its indices 0 to GROUPS pending, one of KIND 1 an empty queue. A record that cannot be read
raises ECC. -/
def Obligations.Launches : Prop :=
  ∀ (s s' : State) (d a : BitVec 6) (p : Place), Spec.still s → Admitted (.launch d a) s →
    let cap := s.reg a.toNat
    (∀ t s', checkAccess s cap cap.addr 64 permLD 64 .load = (.error t, s') → exec (.launch d a) s = .next (raise s' t)) ∧
    (checkAccess s cap cap.addr 64 permLD 64 .load = (.ok p, s') → Spec.joinable (noteLeaf s' p) 6 (fun _ => true) →
      let l := readKeys (Spec.joined (noteLeaf s' p) 6 fun _ => true) [p.key, p.key + 16, p.key + 32, p.key + 48]
      let v := l.2.2
      (∀ pa, l.2.1 = some pa → exec (.launch d a) s = .next (raise v ⟨.ecc, BitVec.ofNat 64 pa⟩)) ∧ (l.2.1 = none →
      let r := wordsOf l.1
      let x := v.curWave
      let g := (v.grid? x.grid).getD { record := [] }
      let ends (u : State) (st v : Nat) (made : Option (Nat × Option Nat) := none) : Prop := Spec.replies (.launch d a) s d u st v made
      let good := x.widx = 0 ∧ recordBad v r = false ∧ recKind r ≠ 2
      let place := if recKind r = 1 then queuePlace v r v.curCore g.asid else (some 0, v)
      let u := place.2
      (x.widx ≠ 0 → ends v 4 0) ∧
      (x.widx = 0 → recordBad v r = true ∨ recKind r = 2 → ends v 1 0) ∧
      (good → place.1 = none → ends u 1 0) ∧
      ∀ q, good → place.1 = some q →
        (g.depth = 10 → ends u 2 0) ∧
        (g.depth ≠ 10 → someCoreFits u r = false → ends u 5 0) ∧
        (g.depth ≠ 10 → someCoreFits u r = true → 4096 ≤ u.grids.length → ends u 3 0) ∧
        (g.depth ≠ 10 → someCoreFits u r = true → u.grids.length < 4096 → ∃ h t, ends t 0 h (some (h, none)) ∧ h ≠ 0 ∧ h < 2 ^ 32 ∧
          (u.grid? h = none → ∃ y, t.grid? h = some y ∧ y.record = r ∧ y.depth = g.depth + 1 ∧ y.parent = x.grid ∧ y.asid = g.asid ∧
            y.groups = recGroups r ∧ y.st = .pending) ∧
          (recKind r = 0 → ∃ new, t.tasks = u.tasks ++ new ∧ (∀ k ∈ new, k.grid = h) ∧ ∀ j, (∃ k ∈ new, k.lo ≤ j ∧ j < k.hi) ↔ j < recGroups r) ∧
          (recKind r = 1 → t.tasks = u.tasks ∧ (u.grid? h = none → ∃ y, t.grid? h = some y ∧ y.qkey = q) ∧
            (Spec.plain u → Spec.noDeque u → readNat t.mem (q + 24) 8 = 0)))))

/-- 05 R146, R147, 07 R188: GROW answers 7 for a handle that names no grid and for one that is killed or retired, 8 for a grid of another kind, 6 past GMAX with
the present GROUPS, and else 0 with the GROUPS before; the new indices wait until the old range has run out, and their groups
know what the wave that grew the grid knows (05 R144, log 12). -/
def Sys2Proof.Spec.Growth : Prop :=
  ∀ (s : State) (d a b : BitVec 6), Spec.still s → Admitted (.grow d a b) s → Spec.joinable s 6 (fun _ => true) →
    let u := Spec.joined s 6 fun _ => true
    let h := (s.lo a.toNat).toNat % 2 ^ 32
    let n := (s.lo b.toNat).toNat % 2 ^ 32
    let ends (u : State) (st v : Nat) (made : Option (Nat × Option Nat) := none) : Prop := Spec.replies (.grow d a b) s d u st v made
    (u.grid? h = none → ends u 7 0) ∧
    ∀ g, u.grid? h = some g →
      (g.killed = true ∨ g.st = .retired → ends u 7 0) ∧ (g.killed = false → g.st ≠ .retired →
      (recKind g.record ≠ 0 → ends u 8 0) ∧
      (recKind g.record = 0 → recGmax g.record < g.groups + n → ends u 6 g.groups) ∧
      (recKind g.record = 0 → g.groups + n ≤ recGmax g.record → n = 0 → ends u 0 g.groups) ∧
      (recKind g.record = 0 → g.groups + n ≤ recGmax g.record → n ≠ 0 → ends { u.setGrid h { g with
        groups := g.groups + n, st := if g.st = .draining then .running else g.st, grown := g.grown ++ [(g.groups, u.curClk)] } with
          tasks := u.tasks ++ [⟨h, g.groups, g.groups + n, .deferred, u.cyc⟩] } 0 g.groups (some (h, some n))))

/-- 05 R149, R150: EMIT of a payload, all of which must be mapped, writes it into the slot of PROD, moves PROD up and
answers it; 7 and 8 as for GROW, 9 when every slot is taken, 10 for a closed node; with a zero capability it closes the
node. The last slot of a batch makes it ready. What the wave knows goes with the batch (05 R144, log 12). -/
def Sys2Proof.Spec.Emission : Prop :=
  ∀ (s : State) (d a b : BitVec 6), Spec.still s → Admitted (.emit d a b) s →
    let cap := s.reg a.toNat
    let h := (s.lo b.toNat).toNat % 2 ^ 32
    let ends (u : State) (st v : Nat) : Prop := Spec.replies (.emit d a b) s d u st v
    let all (_ : Nat) : Bool := true
    let u := Spec.joined s 6 all
    (s.grid? h = none → Spec.joinable s 6 all → ends u 7 0) ∧
    ∀ g, s.grid? h = some g →
      (g.st = .retired → Spec.joinable s 6 all → ends u 7 0) ∧ (g.st ≠ .retired →
      (recKind g.record ≠ 1 → Spec.joinable s 6 all → ends u 8 0) ∧
      (recKind g.record = 1 → cap = ⟨false, 0, 0⟩ → Spec.joinable s 6 all → ends (closeNode (emitClk u h) h) 0 0) ∧
      (recKind g.record = 1 → cap ≠ ⟨false, 0, 0⟩ →
        let q := Queue.read s g.qkey
        (∀ t s', checkAccess s cap cap.addr (16 * q.rsz) permLD 16 .load = (.error t, s') → exec (.emit d a b) s = .next (raise s' t)) ∧
        (∀ p s' v, checkAccess s cap cap.addr (16 * q.rsz) permLD 16 .load = (.ok p, s') →
          (mapAcross (noteLeaf s' p) cap.addr q.rsz = (none, v) → exec (.emit d a b) s = .next (raise v ⟨.xlate, BitVec.ofNat 64 cap.addr⟩)) ∧
          (∀ ks, mapAcross (noteLeaf s' p) cap.addr q.rsz = (some ks, v) → Spec.joinable v 6 all →
          let u := Spec.joined v 6 all
          (g.closed = true → ends u 10 0) ∧
          (g.closed = false → (q.prod + 2 ^ 32 - q.cons) % 2 ^ 32 = q.slots → ends u 9 0) ∧
          (g.closed = false → (q.prod + 2 ^ 32 - q.cons) % 2 ^ 32 ≠ q.slots →
            let l := readKeys u ks
            (∀ pa, l.2.1 = some pa → exec (.emit d a b) s = .next (raise l.2.2 ⟨.ecc, BitVec.ofNat 64 pa⟩)) ∧
            (l.2.1 = none →
              let x := l.2.2.curWave
              let w := writeAcross l.2.2 { uid := x.uid, grid := x.grid } (keyHome g.qkey) g.asid (q.ring + q.prod % q.slots * (16 * q.rsz)) (l.1.map capOctets)
              let w := (homeWrite (emitClk w h) {} 1 (g.qkey + 24) (bytesOf 4 ((q.prod + 1) % 2 ^ 32)) none).1
              let w := if openSlots q = 0 then w.modGrid h fun g => { g with first := w.cyc } else w
              (openSlots q + 1 ≠ q.need → ends w 0 q.prod) ∧ (openSlots q + 1 = q.need → ends (readyBatch w h q.need) 0 q.prod)))))))

/-- GROW and EMIT add work to a grid or answer why not (05 R146, 05 R147, 05 R149, 05 R150). -/
def Obligations.GrowthAndEmission : Prop := Spec.Growth ∧ Spec.Emission

/-- 01 R31, 05 R138: a wave starts with c3 to c7 as its group gives them, c2 its stack if there is one and every
other register zero, at the entry of its code, in the launch's FMODE. -/
def Sys2Proof.Spec.WaveStart : Prop :=
  ∀ (s : State) (w grp h gidx widx soff base : Nat) (r : List Word) (sup : Bool) (c3 : Cap) (c5 : Nat),
    let t := startWave s w grp h gidx widx soff base r sup c3 c5
    let x := t.wave w
    let len := recScratch r
    x.live = true ∧ x.sup = sup ∧ x.grid = h ∧ x.gidx = gidx ∧ x.widx = widx ∧ (x.full = true ↔ widx < recFull r) ∧
      x.reg 0 = ⟨false, 0, 0⟩ ∧ x.reg 1 = ⟨false, 0, 0⟩ ∧ (recStackLg r = 0 → x.reg 2 = ⟨false, 0, 0⟩) ∧
      x.reg 3 = c3 ∧ (x.reg 4).tag = true ∧ (x.reg 4).perm = 0xDF ∧ (soff + len < 2 ^ 25 → len < 2 ^ 25 → (x.reg 4).base = 0x7F * 2 ^ 48 + soff ∧
        (x.reg 4).top = 0x7F * 2 ^ 48 + soff + len ∧ (x.reg 4).addr = 0x7F * 2 ^ 48 + soff) ∧
      x.reg 5 = ⟨false, 0, BitVec.ofNat 64 c5⟩ ∧ x.reg 6 = ⟨false, 0, BitVec.ofNat 64 widx⟩ ∧ x.reg 7 = ⟨false, 0, BitVec.ofNat 64 h⟩ ∧
      (∀ n, 8 ≤ n → x.reg n = ⟨false, 0, 0⟩) ∧ (∀ n l, x.lane n l = 0) ∧ (∀ l, Spec.nest x l = (0, false)) ∧
      x.pc = Cap.make (permEX + permLD) (recCode r) (recCodeLen r) (recCode r + recEntry r) ∧ x.fmode = BitVec.ofNat 32 (recFmode r) ∧
      x.fflags = 0 ∧ (x.run = .window ∨ x.run = .ready)

/-- 04 R127, 12 R299, 16 R390: EXIT ends the wave once its loads have come in (log 46), and waits until then: its registers are
gone, its gathered stores drain, its streams are unbound, it waits on no barrier, and an exchange port that it owns is
closed. -/
def Sys2Proof.Spec.Exits : Prop :=
  ∀ (s : State) (w : Nat), s.cur = .wave w → Admitted .exit s → ((s.wave w).loads ≠ 0 → exec .exit s = .next (stall s)) ∧ ((s.wave w).loads = 0 →
    ∃ t, exec .exit s = .next t ∧ (t.wave w).run = .ended ∧ (t.wave w).fault = none ∧ (∀ n, (t.wave w).reg n = ⟨false, 0, 0⟩) ∧
      (∀ n l, (t.wave w).lane n l = 0) ∧ (∀ x ∈ t.waiters, x.agent ≠ .wave w) ∧
      (∀ e ∈ (t.core (waveCore w)).sgb, waveSlot w ∈ e.writers → e.closed = true) ∧
      (∀ k ∈ (t.core (waveCore w)).streams, k.2.owner ≠ some w) ∧
      ((t.core (waveCore w)).port.st = .idle ∨ (t.core (waveCore w)).port.owner ≠ w ∨ (t.core (waveCore w)).port.orphan = true))

/-- A wave starts with the stated registers, and EXIT ends it (01 R31, 05 R138, 04 R127, 12 R299, 16 R390). -/
def Obligations.WaveStartAndExit : Prop := Spec.WaveStart ∧ Spec.Exits

/-- 05 R135, R139, R140, R150, R186; 07 R179 to R187, R190: steps of the distributors and of grids. Each acts when
its condition holds, and changes nothing else or at another time. Of the model's choice here: which of equal local ranges is
stolen and when one of one index is (log 43, 30), and what a prefetch that has timed out leaves and which wave a window
rotation brings in (DESIGN CHOICE, log 44). -/
def Sys2Proof.Spec.GridStepsOwn : Prop :=
  ∀ (s : State) (n c slot : Nat),
    let r (i : Instr) (ready : Prop) (t : State) : Prop := (ready → exec i s = .next t) ∧ (¬ready → exec i s = .next s)
    r (.scratchRelease n) (releasable s n = true) (releaseGroup s n) ∧
    (let u := settleGrid s n
     ((∀ g, u.grid? n = some g → g.st ≠ .retired ∧ (g.st ≠ .draining ∨ gridQuiet u n = false)) → exec (.gridRetire n) s = .next u) ∧
      ∀ g, u.grid? n = some g →
        (g.st = .draining → gridQuiet u n = true → leaseNow u u.master < g.gw + 32 → exec (.gridRetire n) s = .next u) ∧
        (g.st = .retired ∨ (g.st = .draining ∧ gridQuiet u n = true ∧ g.gw + 32 ≤ leaseNow u u.master) →
          let y : Grid := { g with st := .retired }
          let v := if g.st = .retired then u else (publishGrid u n y).setGrid n y
          (recCrec g.record = false ∨ g.recorded = true → exec (.gridRetire n) s = .next (finishGrid v n y)) ∧
          (recCrec g.record = true → g.recorded = false → ringRoom v = true → exec (.gridRetire n) s = .next (finishGrid (writeRecord v n y) n y)) ∧
          (recCrec g.record = true → g.recorded = false → ringRoom v = false → exec (.gridRetire n) s = .next v))) ∧
    (ringRoom s = true ↔ bit s.bar0.ercfg 5 = true ∧ (s.bar0.erhead + 2 ^ 32 - s.bar0.ertail) % 2 ^ 32 ≠ 2 ^ max 4 (min 20 (s.bar0.ercfg.toNat % 32))) ∧
    (∀ g, s.grid? n = some g → r (.batchTimeout n)
      (recKind g.record = 1 ∧ g.closed = false ∧ openSlots (Queue.read s g.qkey) ≠ 0 ∧ (Queue.read s g.qkey).qt ≠ 0 ∧ g.first + (Queue.read s g.qkey).qt ≤ s.cyc)
      (readyBatch s n (openSlots (Queue.read s g.qkey)))) ∧
    (∀ g, s.grid? n = some g → r (.completionRecordWrite n)
      (g.st = .retired ∧ recCrec g.record = true ∧ g.recorded = false ∧ ringRoom s = true)
      (writeRecord s n g)) ∧
    exec (.workRequest c) s = .next (workRequest s c) ∧ (Machine.asks s c = false → exec (.workRequest c) s = .next s) ∧
    (∀ t, Machine.asks s c = true → (grantable s c).1 = some t → exec (.workRequest c) s = .next (
      let mid := if t.hi - t.lo = 1 then t.hi else t.lo + (t.hi - t.lo) / 2
      let own : Task := ⟨t.grid, t.lo, mid, .core c, s.cyc⟩
      dispatchLocal { note s ⟨coreDie c, t.grid, 0, t.lo, mid⟩ with
        tasks := replaceTask s.tasks t (own :: if mid < t.hi then [⟨t.grid, mid, t.hi, t.hold, s.cyc⟩] else []) } c own)) ∧
    (∀ t, Machine.asks s c = true → grantable s c = (none, some t) → exec (.workRequest c) s = .next (
      let mid := if t.hi ≤ t.lo + 1 then t.lo else t.lo + (t.hi - t.lo + 1) / 2
      let own : Task := ⟨t.grid, mid, t.hi, .core c, s.cyc⟩
      dispatchLocal { s with tasks := replaceTask s.tasks t ((if t.lo < mid then [⟨t.grid, t.lo, mid, t.hold, t.since⟩] else []) ++ [own]) } c own)) ∧
    (∀ t, (emptyShadow s c).isSome = true → bestTask s (usableLocal s c) = some t → exec (.localSlotFill c) s = .next (dispatchLocal s c t)) ∧
    (emptyShadow s c = none → exec (.localSlotFill c) s = .next s) ∧
    (∀ t, (∀ t ∈ s.tasks, t.grid = n → t.hold = .deferred) → s.tasks.find? (fun t => t.grid = n) = some t →
      exec (.deferredRangeJoin n) s = .next (poolRange { s with tasks := replaceTask s.tasks t [] } n t.lo t.hi)) ∧
    (∀ sh g, Tbl.get? (s.core c).shadow slot = some sh → s.grid? sh.grid = some g →
      let due (k : Nat) : Prop := ∃ h, Tbl.get? (s.core c).shadow k = some h ∧ h.filled + 2000 ≤ s.cyc
      let turn := if slot = 0 then (s.core c).ran1 ≠ some s.cyc else ¬due 0
      let v := if slot = 1 then s.modCore c fun k => { k with ran1 := some s.cyc } else s
      let starts (u : State) : State := startGroup (u.modCore c fun k => { k with shadow := Tbl.erase k.shadow slot }) c sh g
      r (.groupRunnable c slot) turn (starts (prefetch v c sh g)) ∧ r (.prefetchTimeout c slot) (due slot ∧ turn) (starts v)) ∧
    (Tbl.get? (s.core c).shadow slot = none → exec (.groupRunnable c slot) s = .next s) ∧
    (windowCount s c < 16 → exec (.windowRotate c) s = .next (fillWindow s c)) ∧
    (windowCount s c = 15 → exec (.windowRotate c) s = .next (match firstWave (effPrio s) (·.entered) (readyWaves s c) with
      | some w => s.modWave w fun x => { x with run := .window, entered := s.cyc }
      | none => s)) ∧
    (∀ w v, 16 ≤ windowCount s c → (s.core c).rotated = 0 ∨ (s.core c).rotated + 64 ≤ s.cyc →
      firstWave (effPrio s) (·.entered) ((coreWaves s c .ready).filter fun w => w.2.entered + 512 ≤ s.cyc) = some w →
      firstWave (fun x => 15 - effPrio s x) (·.entered) (coreWaves s c .window) = some v →
      exec (.windowRotate c) s = .next (((s.modWave v fun x => { x with run := .ready, entered := s.cyc }).modWave w fun x =>
        { x with run := .window, entered := s.cyc }).modCore c fun k => { k with rotated := s.cyc }))

/-- 07 R182: a live die with a core that asks and that its distributor can grant nothing takes the upper half of the best
pool range of another die that such a core may receive, or, where no pool has one, of a local range, all of one index; at other
times nothing moves. That the range must be one that such a core may receive, and that a local range is taken where no pool has
one, are the model's choice within R182 (DESIGN CHOICE, log 43; which range may be stolen, log 30). -/
def Sys2Proof.Spec.MasterRequests : Prop :=
  ∀ (s : State) (d : Nat),
    let could (h : Nat) : Bool := (needyCores s d).any fun c => mayReceive s c h
    let pools := s.tasks.filter fun t => (match t.hold with
        | .pool k => decide (k ≠ d)
        | _ => false) && could t.grid
    let moved (t : Task) (mid : Nat) : State := note { s with
        tasks := replaceTask s.tasks t ((if t.lo < mid then [⟨t.grid, t.lo, mid, t.hold, t.since⟩] else []) ++ [⟨t.grid, mid, t.hi, .pool d, s.cyc⟩]) }
      ⟨d, t.grid, 0, mid, t.hi⟩
    (∀ t, dieLive s d = true → bestTask s pools = some t →
      exec (.masterTaskRequest d) s = .next (moved t (if t.hi = t.lo + 1 then t.lo else t.lo + (t.hi - t.lo) / 2))) ∧
    (∀ t, dieLive s d = true → pools = [] → stealFrom s (fun v => decide (coreDie v ≠ d)) could = some t →
      exec (.masterTaskRequest d) s = .next (moved t (if t.hi ≤ t.lo + 1 then t.lo else t.lo + (t.hi - t.lo + 1) / 2))) ∧
    (dieLive s d = false ∨ needyCores s d = [] → exec (.masterTaskRequest d) s = .next s)

/-! ### Faults: the supervisor's side (18 R404 to R413) -/

/-- Steps of the distributors and of grids act when their condition holds (05 R135, 05 R139, 05 R140, 05 R150, 07
R179, 07 R180, 07 R181, 07 R182, 07 R184, 07 R185, 07 R187, 07 R190). Which cores a master may choose and its
fall back to a local range (log 43), and the choice at a window rotation and what a prefetch time-out keeps (log
44), are the model's choice, and proved as such. -/
def Obligations.GridSteps : Prop := Spec.GridStepsOwn ∧ Spec.MasterRequests

/-- 18 R406, R410: MBXPOP takes the oldest message of the supervisor's die into c[d] to c[d+3], or writes zeros. -/
def Sys2Proof.Spec.MailboxPop : Prop :=
  ∀ (s : State) (d : BitVec 6), Admitted (.mbxpop d) s →
    let die := coreDie (waveCore s.curW)
    let put (s : State) (m : FaultMsg) : State :=
      ((((s.setData d.toNat m.m0).setData (d.toNat + 1) m.m1).setData (d.toNat + 2) m.m2).setData (d.toNat + 3) m.m3).advance
    (∀ m ms, (s.die die).mailbox = m :: ms → exec (.mbxpop d) s = .next (put (s.modDie die fun x => { x with mailbox := ms }) m)) ∧
    ((s.die die).mailbox = [] → exec (.mbxpop d) s = .next (put (s.modDie die fun x => { x with mailbox := [] }) ⟨0, 0, 0, 0⟩))

/-- 18 R409, R411 to R413: WRESUME, WKILL and GKILL name a wave by core, slot and tag or a grid by its handle, and
leave {status, count} in SVST: 0 done, 1 not parked on a fault, 2 no such wave, 3 no such grid, 4 a bad action. That a bad
action is answered before a wave that is not parked is the model's reading (log 38, DEDUCED): no rule gives the order. -/
def Sys2Proof.Spec.SupervisorCommands : Prop :=
  ∀ (s : State) (a : BitVec 6),
    let h := s.lo a.toNat
    let act := h.toNat / 2 ^ 62
    let gh := h.toNat % 2 ^ 32
    let done (u : State) (st n : Nat) : State := (u.modCur fun x => { x with svst := BitVec.ofNat 64 (st * 2 ^ 56 + n) }).advance
    (Admitted (.wresume a) s →
      (findWave s h = none → exec (.wresume a) s = .next (done s 2 0)) ∧
      ∀ w, findWave s h = some w →
        (2 ≤ act → exec (.wresume a) s = .next (done s 4 0)) ∧
        (act < 2 → (s.wave w).fault = none ∨ (s.wave w).halt = true → exec (.wresume a) s = .next (done s 1 0)) ∧
        (∀ m, act < 2 → (s.wave w).fault = some m → (s.wave w).halt = false →
          let code := m.m0.toNat / 2 ^ 56
          exec (.wresume a) s = .next (done (s.modWave w fun x => { x with
            fstat := BitVec.ofNat 64 (code * 2 ^ 56 + m.m3.toNat % 2 ^ 55), finfo := m.m2
            pc := if act = 1 ∨ code = 0x10 ∨ code = 0x11 then x.pc.setAddr (x.pc.addr + 4) else x.pc
            fault := none, run := .ready, since := s.cyc, entered := s.cyc }) 0 0))) ∧
    (Admitted (.wkill a) s →
      (findWave s h = none → exec (.wkill a) s = .next (done s 2 0)) ∧
      ∀ w, findWave s h = some w →
        let ws := if h.getLsbD 63 then groupWaves s (s.wave w).group else [w]
        exec (.wkill a) s = .next (ws.foldl endWave (done s 0 ws.length))) ∧
    (Admitted (.gkill a) s →
      let gone := ∀ g, s.grid? gh = some g → g.st = .retired
      (gone → exec (.gkill a) s = .next (done s 3 0)) ∧
      (¬gone → exec (.gkill a) s = .next (killGrid (done s 0 (killGrid s gh).1) gh).2))

/-- MBXPOP, WRESUME, WKILL and GKILL act on the mailbox, the wave or the grid that they name (18 R406, 18 R409, 18
R410, 18 R411, 18 R412, 18 R413). That BAD_ACT is answered before NOT_PARKED is the model's reading (log 38,
DEDUCED). -/
def Obligations.SupervisorInstructions : Prop := Spec.MailboxPop ∧ Spec.SupervisorCommands

/-- 18 R404, R406, R408: messages reach their mailbox, those of one cycle by ascending source coordinate, y then x, or are
refused by a full one and come again 1,024 cycles later; the watchdog faults a wave that has waited past its limit, with the
word of its instruction; slices and links post messages with no wave; a link that goes dead cuts off accesses under way, which
are answered with an error (08 R219), and is told of 1,024 cycles later with the number answered so. That an odd address stands
for a corrected error, and which messages the dead link meets, is the model's choice (log 40); so are the source and the code of
the log entry (log 8). -/
def Sys2Proof.Spec.MessageStepsOwn : Prop :=
  ∀ (s : State) (n w tile pa dir count : Nat),
    let r (i : Instr) (ready : Prop) (t : State) : Prop := (ready → exec i s = .next t) ∧ (¬ready → exec i s = .next s)
    let place (m : FaultMsg) : Nat := coreY (m.m0.toNat / 2 ^ 24 % 2 ^ 20) * 1024 + coreX (m.m0.toNat / 2 ^ 24 % 2 ^ 20)
    (∀ p, s.net.posts[n]? = some p →
      let t := mailboxTake { s with net := { s.net with posts := dropAt s.net.posts n } } p.die p.msg
      let turn := (s.die p.die).took.1 ≠ s.cyc ∨ (s.die p.die).took.2 ≤ place p.msg
      r (.mailboxMessage n) (p.refused = false ∧ turn) t ∧ r (.mailboxRetry n) (p.refused = true ∧ p.cyc + 1024 ≤ s.cyc ∧ turn) t) ∧
    (∀ d m, (s.die d).mailbox.length < 64 → bit m.m0 22 = false → mailboxTake s d m = s.modDie d fun x => { x with mailbox := x.mailbox ++ [m], took := (s.cyc, place m) }) ∧
    (∀ d m, 64 ≤ (s.die d).mailbox.length → mailboxTake s d m =
      (s.modDie d fun x => { x with naks := x.naks + 1 }).modNet fun k => { k with posts := k.posts ++ [⟨d, m, true, s.cyc⟩] }) ∧
    r (.watchdogExpire w) (expired s w = true) (waveFault (abandonWait s w) w ⟨.watchdog, (s.wave w).word.setWidth 64⟩ false) ∧
    r (.sliceEccError tile pa) (paStorage s pa = true ∧ dieLive s (coreDie tile) = true ∧ paHome pa = tile)
      (if pa % 2 = 1 then (let u := s.modSlice tile fun c => { c with ecc := c.ecc + 1 }; if 1024 ∣ (u.slice tile).ecc.toNat then logEvent u 4 0 else u)
      else postMessage { s with badLines := if s.badLines.contains (pa / 128) then s.badLines else s.badLines ++ [pa / 128] } (coreDie tile) { m0 := BitVec.ofNat 64 (0x0E * 2 ^ 56 + 6 * 2 ^ 52 + tile * 2 ^ 24), m1 := 0, m2 := BitVec.ofNat 64 (pa / 128 * 128), m3 := 0 }) ∧
    (s.links = [] → r (.linkDead tile dir count) (dir < 4 ∧ pkgPresent s (corePkg tile) = true ∧ dieLive s (coreDie tile) = true)
      { (cutLink s tile dir count).2 with links := (cutLink s tile dir count).2.links ++ [⟨tile, dir, s.cyc, (cutLink s tile dir count).1, false⟩] }) ∧
    (∀ l, s.links = [l] → l.tile = tile → l.dir = dir → r (.linkDead tile dir count) (l.told = false ∧ l.since + 1024 ≤ s.cyc)
      (postMessage { s with links := [{ l with told := true }] } (coreDie tile)
        { m0 := BitVec.ofNat 64 (0x0E * 2 ^ 56 + 7 * 2 ^ 52 + dir * 2 ^ 44 + tile * 2 ^ 24), m1 := 0, m2 := BitVec.ofNat 64 l.count, m3 := 0 })) ∧
    (s.net.promotes = [] → s.net.promoReps = [] →
      (s.net.reqs = [] → cutLink s tile dir count = (0, s)) ∧
      ∀ q, s.net.reqs = [q] → cutLink s tile dir count =
        if crossesLink tile dir (q.route s).1 (q.route s).2 = true ∧ count ≠ 0 then (1, arriveWrite { s with net := { s.net with reqs := [] } } q 1) else (0, s))

/-! ### Steps of memory, barriers and promotions -/

/-- 08 R194, R204, R219, R220, 10 R251: a request on its way, whose route nothing cuts, reaches its home, where a read leaves
with its data and a write takes effect and is acknowledged; replies and acknowledgements are taken in and counted off. A
multicast response leaves once its time is over. -/
def Sys2Proof.Spec.RequestSteps : Prop :=
  ∀ (s : State) (n err : Nat),
    let rest (r : Req) : Prop := Spec.underway s n r
    let u : State := Spec.taken s n
    (∀ r, rest r → r.kind.isRead = true → r.scratch = false → exec (.mreqRead n) s = .next (arriveRead u r)) ∧
    (∀ r, rest r → r.kind.isWrite = true → r.scratch = false → exec (.mreqWrite n err) s = .next (arriveWrite u r (min err 2))) ∧
    (∀ r, rest r → r.kind.isRead = false → r.kind.isWrite = false → r.scratch = false → r.halfAt = none →
      exec (.mreqAtomic n err) s = .next (arriveWrite u r (min err 2))) ∧
    (∀ r, rest r → r.scratch = true → r.halfAt = none → exec (.scratchRequest n) s = .next (if r.kind.isRead then arriveRead u r else arriveWrite u r 0)) ∧
    (∀ r d k z, r.kind = .load d k z → (r.q ≠ 0 ∨ isScratch k = true) → arriveRead u r = let g := bypassRead u (waveCore r.wave) (some r.wave) k z r.q r.rep
        g.2.modNet fun m => { m with replies := m.replies ++ [({
          wave := r.wave, data := .reg d (.data (BitVec.ofNat 64 (ofBytes g.1.bytes))), keys := [k]
          q := r.q, sid := r.sid, bad := g.1.bad, grants := g.1.grants, id := r.id } : Reply)] }) ∧
    (∀ r k bs, r.kind = .store [(k, bs)] false →
      (homeBad u k = false → arriveWrite u r 0 = let h := homeWrite u (Spec.writer r) r.q k bs none
        Spec.acked h.1 r h.2 (keyHome k) []) ∧
      (arriveWrite u r 1).mem = u.mem ∧ (arriveWrite u r 1).net.acks = u.net.acks ++ [⟨r.wave, r.sid, 0, 1, r.scratch, r.id, r.grid, keyHome k⟩]) ∧
    (∀ r d v, s.net.replies[n]? = some r → r.data = .reg d v → r.bad = none → (s.wave r.wave).run ≠ .ended →
      let t : State := { s with net := { s.net with replies := dropAt s.net.replies n } }
      exec (.loadReply n false false) s = .next (t.modWave r.wave fun x => if morePending t r.wave r.id then x.setReg d v else
        { x.setReg d v with loads := x.loads - 1, pend := x.pend.filter fun p => !decide (p = d) })) ∧
    (∀ a, s.net.acks[n]? = some a →
      let t := ackStore { s with net := { s.net with acks := dropAt s.net.acks n } } a.wave a.grid a.sid a.gwct a.err
      (moreStores t a.wave a.id = true → exec (.storeAck n) s = .next t) ∧
      (moreStores t a.wave a.id = false → a.wave < 2 ^ 40 → exec (.storeAck n) s = .next (t.modWave a.wave fun x => { x with stores := x.stores - 1 }))) ∧
    (∀ m, s.net.mcasts[n]? = some m → s.cyc < m.since + fld (s.die (homeDie (m.line * 128))).mcfg 24 8 → exec (.multicastSend n) s = .next s) ∧
    (∀ m r, s.net.mcasts[n]? = some m → m.since + fld (s.die (homeDie (m.line * 128))).mcfg 24 8 ≤ s.cyc → m.reqs = [r] →
      let t : State := { s with net := { s.net with mcasts := dropAt s.net.mcasts n } }
      let t := if isHbm (m.line * 128) then t.modSlice (paHome (m.line * 128)) fun c => { c with mcsent := c.mcsent + 1 } else t
      let a := serveRead (if m.arrived then t else accessLine t m.line (decide (r.q ≠ 2)) false) { r with q := 2 }
      exec (.multicastSend n) s = .next (a.2.modNet fun k => { k with replies := k.replies ++ [a.1] }))

/-- 08 R200, R214, R215, 09 R244, 10 R251: the store gather buffer drains what has been idle 4,096 cycles and is
told of each drain; walks fill the translation buffers; a wave that waits on the lease clock goes on. -/
def Sys2Proof.Spec.BufferSteps : Prop :=
  ∀ (s : State) (c n err die asid ea w : Nat),
    (∀ e, (s.core c).sgb[n]? = some e →
      (e.closed = false → e.last + 4096 ≤ s.cyc → exec (.sgbIdleDrain c n) s = .next (drainEntry s c e.fgs)) ∧
      (e.closed = true ∨ s.cyc < e.last + 4096 → exec (.sgbIdleDrain c n) s = .next s) ∧
      (e.sent = false → exec (.sgbDrainAck c n err) s = .next s) ∧
      (∀ g k, e.sent = true → e.served = some (g, k) → exec (.sgbDrainAck c n err) s = .next (freed s c (ackDrain s c e g k) e.line)) ∧
      (e.sent = true → e.served = none → err = 0 → exec (.sgbDrainAck c n err) s = .next s)) ∧
    ((s.core c).squeue = [] → ∀ u l, (u.core c).squeue = [] → (u.core c).sgb = [] → freed s c u l = u) ∧
    (∀ l, walk s asid ea = some l → exec (.pageWalkDone die asid ea) s = .next (noteLeaf (tlbAdd (walkReads s asid ea) die asid ea l) ⟨l.pa, some l⟩)) ∧
    (walk s asid ea = none → exec (.pageWalkDone die asid ea) s = .next (walkReads s asid ea)) ∧
    (∀ t, (s.wave w).run = .waiting (.lease t) →
      (t ≤ leaseNow s (coreDie (waveCore w)) → exec (.leaseWaitDone w) s = .next (s.modWave w fun x => { x with run := .ready, since := s.cyc, entered := s.cyc })) ∧
      (leaseNow s (coreDie (waveCore w)) < t → exec (.leaseWaitDone w) s = .next s)) ∧
    (∀ k, (∀ t, (s.wave w).run ≠ .waiting (.lease t)) → s.net.wakes = [k] → k.agent = .wave w → k.time ≠ 0 →
      (k.time ≤ leaseNow s (coreDie (waveCore w)) → exec (.leaseWaitDone w) s = .next (wakeAgent { s with net := { s.net with wakes := [] } } k)) ∧
      (leaseNow s (coreDie (waveCore w)) < k.time → exec (.leaseWaitDone w) s = .next s))

/-- 10 R266, R267, R270: a promotion notes what its core's log covers and drains it, requests that come meanwhile
join it or the next one, and each requester is told the completion time. It keeps the place in the order of writes at which it
was accepted (10 R269, log 12). -/
def Sys2Proof.Spec.PromotionSteps : Prop :=
  ∀ (s : State) (n c w : Nat),
    (∀ t w, s.net.promotes[n]? = some (t, w) → Spec.uncut s →
      let v : State := { s with net := { s.net with promotes := dropAt s.net.promotes n } }
      let u := v.modOwner w fun x => { x with promoAt := s.seq }
      (dieLive s (coreDie t) = false → exec (.promote n) s = .next (v.modNet fun m => { m with promoReps := m.promoReps ++ [⟨w, 0, t, true⟩] })) ∧
      (dieLive s (coreDie t) = true → (s.core t).active = none → exec (.promote n) s = .next (beginPromotion u t [w])) ∧
      (∀ q ws, dieLive s (coreDie t) = true → (s.core t).active = some (some q, ws) → (∀ p, (s.core t).log.getLast? = some p → seqLe p q = true) →
        exec (.promote n) s = .next (u.modCore t fun x => { x with active := some (some q, ws ++ [w]) })) ∧
      (∀ q ws p, dieLive s (coreDie t) = true → (s.core t).active = some (some q, ws) → (s.core t).log.getLast? = some p → seqLe p q = false →
        exec (.promote n) s = .next (u.modCore t fun x => { x with promoWait := some ((x.promoWait.getD []) ++ [w]) }))) ∧
    (∀ ca ws, (s.core c).active = some (ca, ws) → (s.core c).promoWait = none → (s.core c).sgb = [] → exec (.promotionDone c) s = .next
      ((s.modCore c fun x => { x with active := none, promoWait := none }).modNet fun m => { m with promoReps := m.promoReps ++ ws.map fun w => ⟨w, (s.core c).cgw, c, false⟩ })) ∧
    ((s.core c).active = none → exec (.promotionDone c) s = .next s) ∧
    (∀ pct err d b, s.net.promoReps[n]? = some ⟨w, pct, c, err⟩ → (s.wave w).run = .waiting (.reply d b) → exec (.promoteReply n) s = .next
      (({ s with net := { s.net with promoReps := dropAt s.net.promoReps n } } : State).modWave w fun x => { x with promo := some (pct, err), run := .ready, since := s.cyc, entered := s.cyc }))

/-- Requests, buffers and promotions on their way take effect at their homes (08 R194, 08 R200, 08 R204, 08 R214, 08
R215, 08 R219, 08 R220, 09 R244, 10 R251, 10 R266, 10 R267, 10 R270). -/
def Obligations.MemorySteps : Prop := Spec.RequestSteps ∧ Spec.BufferSteps ∧ Spec.PromotionSteps

/-- 09 R236, R237, R241, 05 R144, 16 R386, 21 R446: arrivals and credits on their way count when they reach the
object; wakes, replies, PHASE-STARTs, broadcasts and journal entries are taken in where they arrive. -/
def Sys2Proof.Spec.DeliverySteps : Prop :=
  ∀ (s : State) (n : Nat),
    (∀ k a l, s.net.arrivals[n]? = some ⟨k, 1, .agent (.wave a), l⟩ → a < 2 ^ 40 → exec (.barrierArrival n) s = .next
      ((arriveBar { s with net := { s.net with arrivals := dropAt s.net.arrivals n } } ⟨k, 1, .agent (.wave a), l⟩).modWave a fun x => { x with stores := x.stores - 1 })) ∧
    (∀ c, s.net.credits[n]? = some c → exec (.barrierCredit n) s = .next (creditBar { s with net := { s.net with credits := dropAt s.net.credits n } } c)) ∧
    (∀ k, s.net.wakes[n]? = some k → k.tree = none →
      (k.time = 0 → k.due ≤ s.cyc → exec (.barrierWake n) s = .next (wakeAgent { s with net := { s.net with wakes := dropAt s.net.wakes n } } k)) ∧
      (k.time ≠ 0 ∨ s.cyc < k.due → exec (.barrierWake n) s = .next s)) ∧
    (∀ (k : Wake) w, k.agent = .wave w → k.bad = none →
      ((s.wave w).run = .waiting (.reply k.d) → wakeAgent s k = s.modWave w fun x => { x.setReg k.d ⟨false, 0, k.value⟩ with
        clk := joinClk x.clk k.clk, pc := x.pc.setAddr (x.pc.addr + 4), run := .ready, again := false, since := s.cyc, entered := s.cyc }) ∧
      ((∀ b, (s.wave w).run ≠ .waiting (.reply k.d b)) → wakeAgent s k = s)) ∧
    (∀ m, s.net.phases[n]? = some m → (m.due ≤ s.cyc → exec (.phaseStart n) s = .next (phaseAt { s with net := { s.net with phases := dropAt s.net.phases n } } m)) ∧
      (s.cyc < m.due → exec (.phaseStart n) s = .next s)) ∧
    (∀ m, s.net.bcasts[n]? = some m →
      let earlier := (∃ y ∈ s.net.bcasts.take n, y.core = m.core ∧ y.domain = m.domain) ∨
        ∃ y ∈ s.net.phases, y.core = m.core ∧ y.domain = m.domain ∧ y.due ≤ m.due
      (earlier → exec (.domainBroadcast n) s = .next s) ∧
      (¬earlier → exec (.domainBroadcast n) s = .next (({ s with net := { s.net with bcasts := dropAt s.net.bcasts n } } : State).modCore m.core fun c =>
        { c with port := { c.port with
          owners := Tbl.set c.port.owners m.domain m.value, member := Tbl.set c.port.member m.domain m.member
          seen := Tbl.erase c.port.seen m.domain, stale := c.port.stale || decide (c.port.st = .armed ∧ c.port.domain = m.domain) } }))) ∧
    (∀ k, s.net.replies2[n]? = some k → k.agent ≠ .none → exec (.distributorReply n) s = .next (wakeAgent { s with net := { s.net with replies2 := dropAt s.net.replies2 n } } k)) ∧
    (∀ k, s.net.replies2[n]? = some k → k.agent = .none → exec (.distributorReply n) s = .next { s with
      net := { s.net with replies2 := dropAt s.net.replies2 n }
      bar0 := { s.bar0 with lres := Tbl.set s.bar0.lres k.d k.value, slotst := s.bar0.slotst &&& ~~~(BitVec.ofNat 64 (2 ^ k.d)) } }) ∧
    (∀ j, s.net.journal[n]? = some j → exec (.journalEntry n) s = .next { s with net := { s.net with journal := dropAt s.net.journal n }, journal := s.journal ++ [j] })

/-- Messages are taken in where they arrive (18 R404, 18 R406, 18 R408, 09 R236, 09 R237, 09 R241, 05 R144, 16 R386,
21 R446). That an odd address is a corrected error and what a dead link counts (log 40), and the source and code
numbers of log entries (log 8), are the model's choice, and proved as such. -/
def Obligations.MessageSteps : Prop := Spec.MessageStepsOwn ∧ Spec.DeliverySteps

/-! ### Events, the ladle and streams (chapter 12) -/

/-- 12 R302 to R304: EVSET and EVCLR set and clear bits of a row, EVRD reads a row, or a sink's count with its
overflow bit, which it clears, taking one count if asked; EVSIG fires a source, which reaches the sinks 2 cycles later and adds
one to each sink of its row, up to 255 and then an overflow. A row is changed after the firings of its cycle: an EVSET or
EVCLR that finds one already in waits for the next cycle (log 47). -/
def Sys2Proof.Spec.EventMatrix : Prop :=
  ∀ (s : State) (d a b : BitVec 6) (n : Nat),
    let x := (s.lo a.toNat).toNat
    let k := x % 64
    let y := s.lo b.toNat
    let v := coreVat s.curCore
    let row (s : State) (w : Word) : State := s.modVat v fun z => { z with rows := Tbl.set z.rows k w }
    let old := Tbl.get 0 (s.vat v).rows k
    let c := Tbl.get 0 (s.vat v).cnt k
    ((s.vat v).fired ≠ some s.cyc → Spec.does (.evset a b) (fun s => (row s (old ||| y)).advance) s ∧
      Spec.does (.evclr a b) (fun s => (row s (old &&& ~~~y)).advance) s) ∧
    ((s.vat v).fired = some s.cyc → Spec.does (.evset a b) stall s ∧ Spec.does (.evclr a b) stall s) ∧
    Spec.does (.evsig a) (fun s => (s.modNet fun m => { m with events := m.events ++ [⟨v, k, s.cyc + 2⟩] }).advance) s ∧
    (x.testBit 6 = false → Spec.does (.evrd d a) (fun s => (s.setData d.toNat old).advance) s) ∧
    (x.testBit 6 = true → Spec.does (.evrd d a) (fun s => ((s.modVat v fun z => { z with
      ovf := Tbl.set z.ovf k false, cnt := if x.testBit 7 ∧ 0 < c then Tbl.set z.cnt k (c - 1) else z.cnt }).setData d.toNat
        (BitVec.ofNat 64 ((if Tbl.get false (s.vat v).ovf k then 256 else 0) + c))).advance) s) ∧
    (∀ src, let t := fireAt s v src
      ∀ j < 64, let hit := (Tbl.get 0 (s.vat v).rows src).getLsbD j
        Tbl.get 0 (t.vat v).cnt j = (if hit ∧ Tbl.get 0 (s.vat v).cnt j ≠ 255 then Tbl.get 0 (s.vat v).cnt j + 1 else Tbl.get 0 (s.vat v).cnt j) ∧
        Tbl.get false (t.vat v).ovf j = (Tbl.get false (s.vat v).ovf j || (hit && decide (Tbl.get 0 (s.vat v).cnt j = 255)))) ∧
    (∀ e, s.net.events[n]? = some e →
      (e.due ≤ s.cyc → exec (.eventArrive n) s = .next
        ((fireAt { s with net := { s.net with events := dropAt s.net.events n } } e.vat e.src).modVat e.vat fun z => { z with fired := some s.cyc })) ∧
      (s.cyc < e.due → exec (.eventArrive n) s = .next s))

/-- 12 R283, R286, R296: a push checks its source, then the request, then its destination, of the length that the
transform makes; it answers 2 for a bad request, 1 when the queue is full (CQTRY), and else 0 with its number, as
the last request of the core, of its channel's command word, and counts as a copy of the wave. -/
def Sys2Proof.Spec.LadlePush : Prop :=
  ∀ (s s1 s2 : State) (n : BitVec 3) (d a b : BitVec 6) (p q : Place),
    let src := s.reg a.toNat
    let dst := s.reg b.toNat
    let len := src.top - src.addr
    let w := Tbl.get 0 (s.core s.curCore).ccmd n.toNat
    let out := outLen w src.fmt len
    let seq := (Tbl.get 0 (s.core s.curCore).pushes n.toNat + 1) % 2 ^ 32
    let r (i : Instr) (try_ : Bool) : Prop := Admitted i s →
      (∀ t s', checkAccess s src src.addr len permES 1 .load = (.error t, s') → exec i s = .next (raise s' t)) ∧
      (checkAccess s src src.addr len permES 1 .load = (.ok p, s1) →
        let u := noteLeaf s1 p
        (requestBad w src len dst = true → Spec.answers i s d u 2 0) ∧
        (requestBad w src len dst = false →
          (∀ t s', checkAccess u dst dst.addr out permED 1 .store = (.error t, s') → exec i s = .next (raise s' t)) ∧
          (checkAccess u dst dst.addr out permED 1 .store = (.ok q, s2) →
            let v := noteLeaf s2 q
            let full := 32 ≤ (v.core v.curCore).fifo.length ∨ 30 ≤ v.curWave.copies
            (full → if try_ then Spec.answers i s d v 1 0 else exec i s = .next (stall v)) ∧
            (¬full → ∃ t, Spec.answers i s d t 0 seq ∧ t.mem = v.mem ∧ t.curWave.copies = v.curWave.copies + 1 ∧
              (t.core s.curCore).fifo = (v.core s.curCore).fifo ++ [{ ch := n.toNat, src := src, dst := dst, ccmd := w, by_ := v.pusher, seq := seq, uid := v.agents + 1, len := out }]))))
    r (.cqpush n d a b) false ∧ r (.cqtry n d a b) true

/-- 12 R285, R293 to R295, R297, R298: CSET takes a command word that keeps its limits, else answers 3; CGETE
reads and clears CSTAT, or reads CWMK, the command word or CSTAT; CCANCEL answers how many it ended. -/
def Sys2Proof.Spec.LadleControl : Prop :=
  ∀ (s : State) (n : BitVec 3) (d a b : BitVec 6),
    let w := s.lo a.toNat
    let k := s.curCore
    let c := s.core k
    let ch := n.toNat
    let put (s : State) (v : Word) : State := (s.setData d.toNat v).advance
    (commandBad w = true → Spec.does (.cset n d a) (fun s => put s (BitVec.ofNat 64 (3 * 2 ^ 56))) s) ∧
    (commandBad w = false → Spec.does (.cset n d a) (fun s => put (s.modCore k fun c => { c with ccmd := Tbl.set c.ccmd ch w }) 0) s) ∧
    (b = 0 → Spec.does (.cgete n d b) (fun s => put (s.modCore k fun c => { c with
      cerr := Tbl.set c.cerr ch 0, cstray := Tbl.set c.cstray ch false, cabort := Tbl.set c.cabort ch false }) (BitVec.ofNat 64 (cstat c ch))) s) ∧
    (b = 1 → Spec.does (.cgete n d b) (fun s => put s (cwmk c ch)) s) ∧
    (b = 2 → Spec.does (.cgete n d b) (fun s => put s (Tbl.get 0 c.ccmd ch)) s) ∧
    (b = 3 → Spec.does (.cgete n d b) (fun s => put s (BitVec.ofNat 64 (cstat c ch))) s) ∧
    ((∀ r ∈ c.fifo, r.ch ≠ ch) → Spec.does (.ccancel n d) (fun s => put s 0) s) ∧
    (∀ r, c.fifo = [r] → r.ch = ch → r.running = false → bit r.ccmd 55 = false → Admitted (.ccancel n d) s →
      ∃ t, exec (.ccancel n d) s = .next (put t 1) ∧ (t.core k).fifo = [] ∧ t.mem = s.mem)

/-- Ladle pushes are checked, queued and answered; command words and status are read and set (12 R283, 12 R285, 12
R286, 12 R293, 12 R294, 12 R295, 12 R296, 12 R297, 12 R298). -/
def Obligations.LadleInstructions : Prop := Spec.LadlePush ∧ Spec.LadleControl

/-- 12 R290 to R292: a channel's oldest request starts when its gate is open; a running one makes output in order,
at most 4,096 bytes past what is credited, and completes when all has landed: bytes credited, the arrival and
the event. Here a plain copy of one aligned word of scratch lands: it reads the source, writes the destination
and no other byte. -/
def Obligations.LadleSteps : Prop :=
  ∀ (s : State) (c ch bytes code info : Nat) (r : LReq), headReq (s.core c) ch = some r → r.ch = ch →
    let v := coreVat c
    let gated := bit r.ccmd 56
    let sink := 8 * coreInVat c + ch
    let open_ := gated = false ∨ Tbl.get 0 (s.vat v).cnt sink ≠ 0
    let want := min bytes (min (r.len - r.landed) (r.credited + 4096 - r.landed))
    (r.running = false → beingSaved s r.by_.group = false → open_ → exec (.ladleRequestStart c ch) s = .next
      (setReq (if gated then s.modVat v fun x => { x with cnt := Tbl.set x.cnt sink (Tbl.get 0 x.cnt sink - 1) } else s) c { r with running := true })) ∧
    (r.running = true ∨ ¬open_ → exec (.ladleRequestStart c ch) s = .next s) ∧
    (r.running = true → want ≠ 0 → exec (.ladleWriteAck c ch bytes) s = .next (landReq s c want r)) ∧
    (r.running = false ∨ want = 0 → exec (.ladleWriteAck c ch bytes) s = .next s) ∧
    (∀ ks kd, r.out = [] → r.word = none → ccXF r.ccmd = 0 → r.landed + 8 ≤ r.len → r.src.addr + r.landed + 8 ≤ r.src.top →
      r.landed + 8 < r.credited + 4096 → s.net.reqs = [] →
      8 ∣ r.src.addr + r.landed → 8 ∣ r.dst.addr + r.landed →
      engineWindow s c r.by_.asid (r.src.addr + r.landed) .load = (some ⟨ks, none⟩, s) → isScratch ks = true → homeLost s ks = false →
      engineWindow s c r.by_.asid (r.dst.addr + r.landed) .store = (some ⟨kd, none⟩, s) → isScratch kd = true → homeLost s kd = false →
      (∀ j < 8, extentHolds s c r.by_.asid r.src.addr r.inLen (kd + j) = false) →
      landReq s c 8 r = setReq (homeWrite s { uid := r.uid, grid := r.by_.grid } 1 kd (readBytes s.mem ks 8) none).1 c
        { r with landed := r.landed + 8, word := some ((r.src.addr + r.landed) / 8, readBytes s.mem ks 8) }) ∧
    (r.running = true → r.len ≤ r.landed → exec (.ladleComplete c ch) s = .next (
      let s := creditReq s c r
      let s := if bit r.ccmd 36 then sendArrival s ⟨barrierKey v (fld r.ccmd 53 2) (fld r.ccmd 37 16), 1, .ladle c ch, [(r.uid, s.seq)]⟩ else s
      endReq (if bit r.ccmd 63 then fire s v (fld r.ccmd 57 6) else s) c r false)) ∧
    (r.running = false ∨ r.landed < r.len → exec (.ladleComplete c ch) s = .next s) ∧
    (r.running = true → r.landed < r.len → code = 0x0E → exec (.ladleAbort c ch code info) s = .next (abortReq s c r ⟨.ecc, BitVec.ofNat 64 info⟩)) ∧
    (r.running = false ∨ r.len ≤ r.landed → exec (.ladleAbort c ch code info) s = .next s) ∧
    (∀ t u, r.running = true → code ≠ 0x0E → r.landed + r.out.length < r.len → makeOutput s c r = (.error t, u) →
      exec (.ladleAbort c ch code info) s = .next (abortReq u c r t))

/-- 12 R299 to R301: CBIND gives a free stream register, or one of its own, to the wave; CUNBIND frees it; SPOP
takes the next element once it has landed, as a number; a stream of another wave raises ILLEGAL. A pop waits, like a
load, for an unfinished request that writes its bytes (R293) and for the wave's own stores to them (01 R39). -/
def Sys2Proof.Spec.Streams : Prop :=
  ∀ (s : State) (n : BitVec 3) (d a : BitVec 6),
    let k := s.curCore
    let t := Tbl.get {} (s.core k).streams a.toNat
    let own := t.owner = some s.curW
    let bad (i : Instr) : Prop := Spec.does i (fun s => raise s ⟨.illegal, i.code.setWidth 64⟩) s
    (own ∨ t.owner = none → Spec.does (.cbind n a) (fun s => (s.modCore k fun c => { c with
      streams := Tbl.set c.streams a.toNat { owner := some s.curW, ch := n.toNat } }).advance) s) ∧
    (¬own → t.owner ≠ none → bad (.cbind n a)) ∧
    (own → Spec.does (.cunbind a) (fun s => (s.modCore k fun c => { c with streams := Tbl.erase c.streams a.toNat }).advance) s) ∧
    (¬own → bad (.cunbind a) ∧ bad (.spop d a) ∧ bad (.vspop d a)) ∧
    (own → Admitted (.spop d a) s →
      (popOne (s.core k) t = none → exec (.spop d a) s = .next (park s .timed)) ∧
      (∀ z ea m t' key, popOne (s.core k) t = some ((z, some (ea, m)), t') → m ≠ 0 → ea % 128 + m ≤ 128 →
        window s k s.curAsid ea .load = (some ⟨key, none⟩, s) → isScratch key = true → homeLost s key = false →
        (watermarkHeld s ea m = true → exec (.spop d a) s = .next (park s .timed)) ∧
        (watermarkHeld s ea m = false → ownHeld s s.curW true [(key, m)] = true → exec (.spop d a) s = .next (stall s)) ∧
        (watermarkHeld s ea m = false → ownHeld s s.curW true [(key, m)] = false →
        exec (.spop d a) s = .next (((s.modCore k fun c => { c with streams := Tbl.set c.streams a.toNat t' }).setData d.toNat
          (BitVec.ofNat 64 (readNat s.mem key m))).advance))) ∧
      (∀ z t', popOne (s.core k) t = some ((z, none), t') →
        exec (.spop d a) s = .next (((s.modCore k fun c => { c with streams := Tbl.set c.streams a.toNat t' }).setData d.toNat 0).advance))) ∧
    (own → Admitted (.vspop d a) s →
      (Spec.lanesOn s = [] → t.spans = [] → exec (.vspop d a) s = .next (s.modCore k fun c => { c with streams := Tbl.set c.streams a.toNat t }).advance) ∧
      (popMany (s.core k) (Spec.lanesOn s).length t = none → wideStream t = false → exec (.vspop d a) s = .next (park s .timed)) ∧
      (∀ l t' ea key, Spec.lanesOn s = [l] → popOne (s.core k) t = some ((4, some (ea, 4)), t') → wideStream t = false → ea % 128 ≤ 124 →
        window s k s.curAsid ea .load = (some ⟨key, none⟩, s) → isScratch key = true → homeLost s key = false →
        watermarkHeld s ea 4 = false → ownHeld s s.curW true [(key, 4)] = false →
        exec (.vspop d a) s = .next (((s.modCore k fun c => { c with streams := Tbl.set c.streams a.toNat t' }).modCur fun x =>
          x.setLane d.toNat l (BitVec.ofNat 32 (readNat s.mem key 4))).advance)))

/-- The event matrix counts and overflows as stated; streams are bound, popped and unbound (12 R299, 12 R300, 12
R301, 12 R302, 12 R303, 12 R304). -/
def Obligations.EventsAndStreams : Prop := Spec.EventMatrix ∧ Spec.Streams

/-! ### The press (chapters 13 and 14) -/

/-- 13 R314, R325, 14 R331: PSET writes a context's press register whole when its reserved bits are 0 and raises
ILLEGAL otherwise; PSTAT only clears NONFINITE (bit 62) and halts the context (bit 63); PJST is only cleared;
PGET reads PSTAT to PNPROD. -/
def Sys2Proof.Spec.PressRegisters : Prop :=
  ∀ (s : State) (v n : Nat) (d a b : BitVec 6), s.cur = .ctx v n →
    let x := s.ctx v n
    let y := s.lo b.toNat
    let bad (i : Instr) : Prop := Spec.does i (fun s => raise s ⟨.illegal, i.code.setWidth 64⟩) s
    let set (k : Nat) (mask : Word) : Prop := a.toNat = k →
      (y &&& ~~~mask = 0 → Spec.does (.pset a b) (fun s => (s.setCtx v n { x with regs := Tbl.set x.regs k y }).advance) s) ∧
      (y &&& ~~~mask ≠ 0 → bad (.pset a b))
    set 1 0x0000FFFF1FFF1F1F ∧ set 2 0xFFFFFFFFFFFFFFFF ∧ set 3 0x0000FFFFFFFFFFFF ∧ set 4 0x0000FFFFFFFFFFFF ∧ set 5 0x000000000007FFFF ∧
    set 6 0x00000000000080BF ∧ set 8 0xFFFFFFFFFFFFFFFF ∧ set 9 0x3F3F001F00000000 ∧ set 10 0x80000000FFFFFFFF ∧ set 11 0x00000000FFFFFFFF ∧
    set 12 0x0000000000000003 ∧ set 13 0 ∧
    (a.toNat = 0 → y.toNat % 2 ^ 62 = 0 → Spec.does (.pset a b) (fun s => (s.setCtx v n { x with
      regs := if y.getLsbD 62 then Tbl.set x.regs 0 (setFld (Tbl.get 0 x.regs 0) 39 1 0) else x.regs,
      st := if y.getLsbD 63 then .halted else x.st }).advance) s) ∧
    (a.toNat = 0 → y.toNat % 2 ^ 62 ≠ 0 → bad (.pset a b)) ∧
    (a.toNat = 7 ∨ 14 ≤ a.toNat → bad (.pset a b)) ∧
    (a.toNat < 15 → Spec.does (.pget d a) (fun s => (s.setData d.toNat (Tbl.get 0 x.regs a.toNat)).advance) s) ∧
    (15 ≤ a.toNat → bad (.pget d a))

/-- 13 R307, R326: PRES makes a window of units that no other has, or joins one of the same shape, and answers
{status, holders}: 0 made, 1 joined, 2 in conflict, 3 bad word, 4 held already; PREL waits for the context's posted
operations and gives a held window up. -/
def Sys2Proof.Spec.PressWindows : Prop :=
  ∀ (s : State) (v n : Nat) (d a : BitVec 6), s.cur = .ctx v n →
    let w := (s.lo a.toNat).toNat
    let size := w % 2 ^ 10
    let base := w / 2 ^ 16 % 2 ^ 9
    let wn := w / 2 ^ 48 % 8
    let hash := w.testBit 51
    let good := w / 2 ^ 10 % 2 ^ 6 = 0 ∧ w / 2 ^ 25 % 2 ^ 23 = 0 ∧ w / 2 ^ 52 = 0 ∧ size ≠ 0 ∧ base + size ≤ 512
    let wins := (s.vat v).wins
    let ends (st count : Nat) (ws : Tbl Window) : Prop := Spec.does (.pres d a) (fun s =>
      ((s.modVat v fun y => { y with wins := ws }).setData d.toNat (BitVec.ofNat 64 (st * 2 ^ 56 + count))).advance) s
    (∀ o, Tbl.get? wins wn = some o →
      (¬good → ends 3 o.holders.length wins) ∧
      (good → o.holders.contains n = true → ends 4 o.holders.length wins) ∧
      (good → o.holders.contains n = false → o.hash = hash → o.baseu = base → o.sizeu = size →
        ends 1 (o.holders.length + 1) (Tbl.set wins wn { o with holders := o.holders ++ [n] })) ∧
      (good → o.holders.contains n = false → ¬(o.hash = hash ∧ o.baseu = base ∧ o.sizeu = size) → ends 2 o.holders.length wins)) ∧
    (Tbl.get? wins wn = none →
      (¬good → ends 3 0 wins) ∧
      (good → (∃ o ∈ wins, o.2.baseu < base + size ∧ base < o.2.baseu + o.2.sizeu) → ends 2 0 wins) ∧
      (good → (∀ o ∈ wins, ¬(o.2.baseu < base + size ∧ base < o.2.baseu + o.2.sizeu)) → ends 0 1 (Tbl.set wins wn ⟨hash, base, size, [n]⟩))) ∧
    (holdsWin s v n wn = false → (∀ e ∈ (s.vat v).rtab, e.ctx ≠ n) → Spec.does (.prel a) (fun s => raise s ⟨.illegal, (Instr.prel a).code.setWidth 64⟩) s) ∧
    (holdsWin s v n wn = true → (∀ e ∈ (s.vat v).rtab, e.ctx ≠ n) → Spec.does (.prel a) (fun s => (s.modVat v fun y => { y with
      wins := (y.wins.map fun w => if w.1 = wn then (w.1, { w.2 with holders := w.2.holders.filter (· ≠ n) }) else w).filter fun w => !w.2.holders.isEmpty }).advance) s) ∧
    ((∃ e ∈ (s.vat v).rtab, e.ctx = n) → Spec.does (.prel a) (fun s => stall s) s)

/-- PSET and PGET reach the press registers; PRES and PREL make, join and give up windows (13 R307, 13 R314, 13
R325, 13 R326, 14 R331). -/
def Obligations.PressRegistersAndWindows : Prop := Spec.PressRegisters ∧ Spec.PressWindows

/-- Bytes that an engine reaches from an arena's base: none through a capability that no instruction makes (01 R15). -/
def Sys2Proof.Spec.reach (c : Cap) : Nat := if c.z55 = true ∨ 30 < c.exp then 0 else min c.top (2 ^ 55) - c.base

/-- 13 R315: a posted operation joins the vat's reservation table with the operands and press registers as they
then are, and the context goes on; with 16 entries there, or 8 of the context, it waits. -/
def Sys2Proof.Spec.posts (i : Instr) (s : State) (v n : Nat) (op : PressOp) (ma mb : Word) (cap : Cap) (lg : Nat) : Prop :=
  let x := s.ctx v n
  let tab := (s.vat v).rtab
  (tab.length < 16 → (tab.filter fun e => e.ctx = n).length < 8 → exec i s = .next (s.modVat v fun y => { y with
    rtab := y.rtab ++ [{ ctx := n, op := op, fpc := x.pc.addr, word := i.code, ma := ma, mb := mb, regs := x.regs, cap := cap, lg := lg, posted := s.cyc }] }).advance) ∧
  (16 ≤ tab.length ∨ 8 ≤ (tab.filter fun e => e.ctx = n).length → exec i s = .next (stall s))

/-- 13 R315, R319, R328: PPASS is posted when its window is a held dense one, its shape is in range, its operands
are aligned and inside the arena and its tile inside the window; PCLR when its window is held; a check that
fails is the context's fault. -/
def Sys2Proof.Spec.PassesAndClears : Prop :=
  ∀ (s : State) (v n : Nat) (a b : BitVec 6), s.cur = .ctx v n →
    let x := s.ctx v n
    let r (k : Nat) : Nat := (Tbl.get 0 x.regs k).toNat
    let ma := s.lo a.toNat
    let mb := s.lo b.toNat
    let wn := r 5 / 2 ^ 16 % 8
    let nw := r 5 % 2 ^ 16
    let vr := r 1 / 2 ^ 40 % 2 ^ 8
    let vc := r 1 / 2 ^ 32 % 2 ^ 8
    let kb := r 1 / 2 ^ 16 % 2 ^ 13
    let wa := r 1 / 2 ^ 8 % 2 ^ 5
    let wb := r 1 % 2 ^ 5
    let astr := r 2 / 2 ^ 32
    let bstr := r 2 % 2 ^ 32
    let i0 := r 3 / 2 ^ 24 % 2 ^ 24
    let j0 := r 3 % 2 ^ 24
    let r0 := r 4 / 2 ^ 24 % 2 ^ 24
    let c0 := r 4 % 2 ^ 24
    let len := Spec.reach x.arena
    let window := ∃ w, Tbl.get? (s.vat v).wins wn = some w ∧ w.holders.contains n = true ∧ w.hash = false ∧
      (i0 + vr - 1 - r0) * nw + (j0 + vc - 1 - c0) < 64 * w.sizeu
    (Admitted (.ppass a b) s →
      (window → 0 < vr → vr ≤ 128 → 0 < vc → vc ≤ 128 → 0 < kb → kb ≤ 4096 → 0 < wa → wa ≤ 24 → 0 < wb → wb ≤ 24 → 0 < nw → nw ≤ 32768 →
        8 ∣ ma.toNat → 8 ∣ mb.toNat → 8 ∣ astr → 8 ∣ bstr → ma.toNat + (vr - 1) * astr + kb * (8 + 8 * wa) ≤ len →
        mb.toNat + (vc - 1) * bstr + kb * (8 + 8 * wb) ≤ len → r0 ≤ i0 → c0 ≤ j0 → j0 + vc - 1 - c0 < nw →
        Spec.posts (.ppass a b) s v n .pass ma mb ⟨false, 0, 0⟩ 0) ∧
      (holdsWin s v n wn = false → exec (.ppass a b) s = .next (raise s ⟨.illegal, (Instr.ppass a b).code.setWidth 64⟩)) ∧
      (∀ t, passTrap s v n x (Instr.ppass a b).code ma.toNat mb.toNat = some t → exec (.ppass a b) s = .next (raise s t))) ∧
    (Admitted (.pclr a) s →
      (holdsWin s v n (ma.toNat / 2 ^ 48 % 8) = true → Spec.posts (.pclr a) s v n .clear ma 0 ⟨false, 0, 0⟩ 0) ∧
      (holdsWin s v n (ma.toNat / 2 ^ 48 % 8) = false → exec (.pclr a) s = .next (raise s ⟨.illegal, (Instr.pclr a).code.setWidth 64⟩)))

/-- 14 R335, R339, R342: a join is posted when its window is a held hash one, its formats and probe limit are in
range and its streams are aligned and inside the arena, with its spill port if it has one; a drain when its
window is held, with its port; a check that fails is the context's fault. -/
def Sys2Proof.Spec.JoinsAndDrains : Prop :=
  ∀ (s : State) (v n : Nat) (a b : BitVec 6), s.cur = .ctx v n →
    let x := s.ctx v n
    let r (k : Nat) : Nat := (Tbl.get 0 x.regs k).toNat
    let ma := s.lo a.toNat
    let mb := s.lo b.toNat
    let wn := r 5 / 2 ^ 16 % 8
    let fa := r 9 / 2 ^ 56 % 2 ^ 6
    let fb := r 9 / 2 ^ 48 % 2 ^ 6
    let pl := r 9 / 2 ^ 32 % 2 ^ 5
    let len := Spec.reach x.arena
    let drain (i : Instr) (o : Bool) : Prop := Admitted i s →
      let wd := ma.toNat / 2 ^ 48 % 8
      (holdsWin s v n wd = false → exec i s = .next (raise s ⟨.illegal, i.code.setWidth 64⟩)) ∧
      (holdsWin s v n wd = true →
        (∀ t s', portCheck s x i.code (r 11 % 2 ^ 32) false = (.error t, s') → exec i s = .next (raise s' t)) ∧
        (∀ c lg, portCheck s x i.code (r 11 % 2 ^ 32) false = (.ok (c, lg), s) → Spec.posts i s v n (.drain o) ma 0 c lg))
    (Admitted (.pjoin a b) s →
      (∀ w, Tbl.get? (s.vat v).wins wn = some w → w.holders.contains n = true → w.hash = true → 1 ≤ fa → fa ≤ 5 → 1 ≤ fb → fb ≤ 5 → 1 ≤ pl → pl ≤ 16 →
        16 ∣ ma.toNat → 16 ∣ mb.toNat → ma.toNat + 16 * (r 8 / 2 ^ 32) ≤ len → mb.toNat + 16 * (r 8 % 2 ^ 32) ≤ len →
        ((r 10).testBit 63 = false → Spec.posts (.pjoin a b) s v n .join ma mb ⟨false, 0, 0⟩ 0) ∧
        ((r 10).testBit 63 = true →
          (∀ t s', portCheck s x (Instr.pjoin a b).code (r 10 % 2 ^ 32) true = (.error t, s') → exec (.pjoin a b) s = .next (raise s' t)) ∧
          (∀ c lg, portCheck s x (Instr.pjoin a b).code (r 10 % 2 ^ 32) true = (.ok (c, lg), s) → Spec.posts (.pjoin a b) s v n .join ma mb c lg))) ∧
      (∀ t, joinTrap s v n x (Instr.pjoin a b).code ma.toNat mb.toNat = some t → exec (.pjoin a b) s = .next (raise s t))) ∧
    drain (.pdrainO a) true ∧ drain (.pdrainU a) false

/-- Press operations are posted when their checks pass; a failing check is the context's fault (13 R315, 13 R319, 13
R328, 14 R335, 14 R339, 14 R342). -/
def Obligations.PressOperations : Prop := Spec.PassesAndClears ∧ Spec.JoinsAndDrains

/-- 13 R309 to R311, R323, R324: MSTART gives the group the lowest free context, running at the stream with m1 the
group's index and the arena as the vat's window names it, or answers 1 none free, 2 the group has one, 3 a bad arena; MSTOP of a group with none answers 3,
of a halted or faulted context, or one it aborts, ends it and waits for its operations. A new context knows what its wave knows
(10 R257, log 12). That m1 is the group's index for a shading wave too, and that an MSTOP of a context that another one is
stopping waits, are the model's choice (log 23). -/
def Obligations.ContextStartAndStop : Prop :=
  ∀ (s : State) (d a b : BitVec 6),
    let stream := s.reg a.toNat
    let arena := s.reg b.toNat
    let x := s.curWave
    let v := coreVat s.curCore
    let ends (i : Instr) (u : State) (st k : Nat) : Prop := Spec.answers i s d u st k
    let win := arena.base / 2 ^ 48
    let inside := (win = 0x7E ∨ win = 0x7F) ∧ 0 < arena.top ∧ (arena.top - 1) / 2 ^ 48 = win
    let i : Instr := .mstart d a b
    let stop (code k : Nat) (wd : Bool) : State :=
      stopCtx (park (s.modCur fun x => { x with passes := x.passes + 1 }) (.reply d.toNat wd)) v k (some (s.curW, d.toNat, code))
    (Admitted i s →
      (stream.tag = false → exec i s = .next (raise s ⟨.capTag, BitVec.ofNat 64 stream.addr⟩)) ∧
      (∀ t, startTrap stream arena = some t → exec i s = .next (raise s t)) ∧
      (startTrap stream arena = none → ¬inside → ends i s 3 0) ∧
      (startTrap stream arena = none → inside → (groupCtx s s.curCore x.group).isSome = true → ends i s 2 0) ∧
      (startTrap stream arena = none → inside → groupCtx s s.curCore x.group = none → (∀ k < 4, (s.ctx v k).st ≠ .free) → ends i s 1 0) ∧
      (∀ k < 4, startTrap stream arena = none → inside → groupCtx s s.curCore x.group = none → (s.ctx v k).st = .free → (∀ j < k, (s.ctx v j).st ≠ .free) →
        let u : State := { s.release with agents := s.agents + 1 }
        ends i (u.setCtx v k
          { st := .run, group := x.group, grid := x.grid, wave := s.curW, uid := s.agents + 1, clk := u.curClk, wtag := Tbl.get 0 (s.core s.curCore).wtag (waveSlot s.curW),
            m := [(1, BitVec.ofNat 64 x.gidx)], pc := stream, arena := startArena arena (coreInVat s.curCore) }) 0 k) ∧
      (win = 0x7E → startArena arena (coreInVat s.curCore) = arena) ∧
      (∀ o p civ, o < 2 ^ 21 → p < 2 ^ 21 → civ < 4 → arena.exp = 0 → arena.base = 0x7F * 2 ^ 48 + o → arena.addr = 0x7F * 2 ^ 48 + p →
        let z := startArena arena civ
        z.base = 0x7E * 2 ^ 48 + civ * 2 ^ 21 + o ∧ z.top - z.base = arena.top - arena.base ∧ z.perm = arena.perm ∧ z.tag = arena.tag ∧
          z.addr = 0x7E * 2 ^ 48 + civ * 2 ^ 21 + p)) ∧
    (Admitted (.mstop d a) s →
      (groupCtx s s.curCore x.group = none → ends (.mstop d a) s 3 0) ∧
      ∀ k, groupCtx s s.curCore x.group = some k →
        let abort := (s.lo a.toNat).getLsbD 0
        ((s.ctx v k).st = .halted → exec (.mstop d a) s = .next (stop 0 k (!abort))) ∧
        ((s.ctx v k).st = .faulted → exec (.mstop d a) s = .next (stop 2 k (!abort))) ∧
        ((s.ctx v k).st = .run → abort = true → exec (.mstop d a) s = .next (stop 1 k false)) ∧
        ((s.ctx v k).st = .run → abort = false → exec (.mstop d a) s = .next (park s .timed)) ∧
        ((s.ctx v k).st = .stopping → exec (.mstop d a) s = .next (if abort then stall s else park s .timed)))

/-- 03 R91, R92: one block pair of a dense pass adds the exact sum of products, scaled and rounded once to FP32, to
the slot; a zero block adds nothing and a block with scale 0xFF gives NaN. -/
def Sys2Proof.Spec.DenseArithmetic : Prop :=
  ∀ (wa wb val : Nat) (nf : Bool) (a b : PlaneBlock),
    let t := passStep wa wb (val, nf) (a, b)
    let d : Int := ((a.ms.zip b.ms).map fun p => p.1 * p.2).sum
    let inf (x : Nat) : Bool := decide (x / 2 ^ 23 % 256 = 255)
    (a.sc = 255 ∨ b.sc = 255 → t = (0x7FC00000, true)) ∧
    (a.sc ≠ 255 → b.sc ≠ 255 → a.sc = 0 ∨ b.sc = 0 → t = (val, nf || inf val)) ∧
    (a.sc ≠ 255 → b.sc ≠ 255 → a.sc ≠ 0 → b.sc ≠ 0 →
      t.1 = addFP32 val (roundFP32 (.scaled (decide (d < 0)) d.natAbs (a.sc + b.sc - 250 - wa - wb))) ∧ t.2 = (nf || inf t.1))

/-- 13 R308, R316 to R318, R328, 14 R334, R340: the press grants one operation at a time, of those that are the oldest of
their context and whose gate is open; here a clear, which empties its window's slots. A finished one leaves the
table, counts as done with its flags and cycles, and fires its event; while a ring is full the operation waits. -/
def Obligations.PressSteps : Prop :=
  ∀ (s : State) (v n : Nat),
    let tab := (s.vat v).rtab
    ((∃ e ∈ tab, e.granted = true) → exec (.pressGrant v) s = .next s) ∧
    (tab = [] → exec (.pressGrant v) s = .next s) ∧
    (∀ e w, tab = [e] → e.op = .clear → e.ctx < 4 → e.granted = false → gateOpen s v e.gated e.sink = true → beingSaved s (s.ctx v e.ctx).group = false →
      winAt s v (e.ma.toNat / 2 ^ 48 % 8) = some w → ∃ t, exec (.pressGrant v) s = .next t ∧
        (t.vat v).rtab = [{ e with granted := true, finished := true, hold := w.sizeu + 8 }] ∧
        (∀ g, acfAt t v g = if 64 * w.baseu ≤ g ∧ g < 64 * (w.baseu + w.sizeu) then {} else acfAt s v g) ∧ t.mem = s.mem) ∧
    ((∀ e ∈ tab, e.granted = false ∨ e.finished = false) → exec (.pressOpComplete v) s = .next s) ∧
    (∀ e, tab = [e] → e.granted = true → e.finished = true → bit (Tbl.get 0 e.regs 6) 7 = false → exec (.pressOpComplete v) s = .next
      (freeCtx ((s.modVat v fun y => { y with rtab := [] }).modCtx v e.ctx fun x =>
        let p := setFld (Tbl.get 0 x.regs 0) 0 32 (fld (Tbl.get 0 x.regs 0) 0 32 + 1)
        (x.setPr 0 (if e.nonfin then setFld p 39 1 1 else p)).setPr 7 (x.pr 7 + BitVec.ofNat 64 e.hold)) v e.ctx)) ∧
    ((∀ e ∈ tab, e.granted = false ∨ e.finished = true) → exec (.spillTailReread v) s = .next s) ∧
    (∀ e, tab = [e] → e.granted = true → e.finished = false → s.cyc < e.since + 64 → exec (.spillTailReread v) s = .next s) ∧
    (∀ e w o, tab = [e] → e.granted = true → e.finished = false → e.since + 64 ≤ s.cyc → e.op = .drain o → winAt s v (fld e.ma 48 3) = some w →
      exec (.spillTailReread v) s = .next (let f := runDrain s v w e.slots.length { e with waited := e.waited + (s.cyc - e.since) }; setGranted f.2 v f.1)) ∧
    ((s.ctx v n).st ≠ .stopping ∨ (∃ e ∈ tab, e.ctx = n) → exec (.contextFree v n) s = .next s) ∧
    ((s.ctx v n).st = .stopping → (∀ e ∈ tab, e.ctx ≠ n) → (s.ctx v n).stopper = none → exec (.contextFree v n) s = .next
      (let x := s.ctx v n
       (passOn s x.grid x.uid x.clk).modVat v fun y => { y with wins := dropHolder y.wins n, ctxs := Tbl.erase y.ctxs n }))
/-! ### The harp (14 R346 to R353) -/

/-- The access passes its checks, and `t` is the state after it. -/
def Sys2Proof.Spec.passes (s : State) (c : Cap) (size need align : Nat) (u : Use) (t : State) : Prop :=
  ∃ p s', checkAccess s c c.addr size need align u = (.ok p, s') ∧ t = noteLeaf s' p

/-- 14 R347, R353: HGATH, HCSR and HSCAT read the request block, all of which must be mapped and readable, check the
tags, permissions and formats of its capabilities and then the extents of IDX and AUX, answer 1 for a bad request, check the
extent of DST or TBL that the request names, and answer 0 with the request last in the vat's queue, which counts as a pass of
the wave; a full queue of 16 holds the wave. A capability that fails its check is the wave's fault. -/
def Sys2Proof.Spec.HarpRequests : Prop :=
  ∀ (s s0 s1 u1 u2 u3 : State) (d a : BitVec 6) (p0 : Place), Spec.still s →
    let cap := s.reg a.toNat
    let r (i : Instr) (op : Nat) : Prop := Admitted i s →
      (∀ t s', checkAccess s cap cap.addr 128 (permLD + permLC) 64 .load = (.error t, s') → exec i s = .next (raise s' t)) ∧
      (checkAccess s cap cap.addr 128 (permLD + permLC) 64 .load = (.ok p0, s0) →
        (mapAcross (noteLeaf s0 p0) cap.addr 8 = (none, s1) → exec i s = .next (raise s1 ⟨.xlate, BitVec.ofNat 64 cap.addr⟩)) ∧
        (∀ ks, mapAcross (noteLeaf s0 p0) cap.addr 8 = (some ks, s1) →
        let g := readKeys s1 (ks.take 5)
        let v : State := { g.2.2 with agents := g.2.2.agents + 1 }
        (∀ pa, g.2.1 = some pa → exec i s = .next (raise g.2.2 ⟨.ecc, BitVec.ofNat 64 pa⟩)) ∧
        (g.2.1 = none →
        let at_ (n : Nat) : Cap := g.1.getD n ⟨false, 0, 0⟩
        let q : HReq := { op := op, block := cap, tbl := at_ 0, idx := at_ 1, aux := at_ 2, dst := at_ 3, h0 := (at_ 4).lo, h1 := (at_ 4).hi,
                          core := v.curCore, by_ := v.pusher, uid := v.agents }
        let bad := ((blockTrap q.tbl permES).or (blockTrap q.idx permES)).or ((blockTrap q.dst permED).or (if op = 1 then blockTrap q.aux permES else none))
        let fails (u : State) (c : Cap) (n need : Nat) (use : Use) : Prop :=
          ∀ t s', checkAccess u c c.addr n need 1 use = (.error t, s') → exec i s = .next (raise s' t)
        (∀ t, bad = some t → exec i s = .next (raise v t)) ∧
        (bad = none →
        fails v q.idx (q.idx.top - q.idx.addr) permES .load ∧ (Spec.passes v q.idx (q.idx.top - q.idx.addr) permES 1 .load u1 →
        (op = 1 → fails u1 q.aux (q.aux.top - q.aux.addr) permES .load) ∧
        ((op = 1 → Spec.passes u1 q.aux (q.aux.top - q.aux.addr) permES 1 .load u2) → (op ≠ 1 → u2 = u1) →
        (harpBad q = true → Spec.answers i s d u2 1 0) ∧
        (harpBad q = false →
          (op = 0 → fails u2 q.dst (q.count * q.outRow) permED .store) ∧ (op = 2 → fails u2 q.tbl (q.count * q.rb) permES .load) ∧
          ((op = 0 → Spec.passes u2 q.dst (q.count * q.outRow) permED 1 .store u3) →
          (op = 2 → Spec.passes u2 q.tbl (q.count * q.rb) permES 1 .load u3) → (op = 1 → u3 = u2) →
          let v := coreVat u3.curCore
          (16 ≤ (u3.vat v).harp.length → exec i s = .next (stall u3)) ∧
          ((u3.vat v).harp.length < 16 → Spec.answers i s d ((u3.modVat v fun x => { x with harp := x.harp ++ [q] }).modCur fun x => { x with passes := x.passes + 1 }) 0 0)))))))))
    r (.hgath d a) 0 ∧ r (.hcsr d a) 1 ∧ r (.hscat d a) 2

/-- 14 R346, R350 to R352: the harp starts the oldest request when its gate is open, reads its index list, ships the
rows of other dies, and ends it when they have landed and all other output is made: bytes credited, the arrival, the
event; an error aborts it at its position. -/
def Sys2Proof.Spec.HarpSteps : Prop :=
  ∀ (s : State) (v code info : Nat) (ok : Bool),
    let q := (s.vat v).harp
    (q = [] → exec (.harpStart v) s = .next s ∧ exec (.harpComplete v) s = .next s ∧ exec (.harpAbort v code info) s = .next s ∧ exec (.harpShip v ok) s = .next s) ∧
    ∀ r t, q = r :: t →
      let gated := bit r.h1 56
      let sink := 40 + fld r.h1 53 3
      let open_ := gated = false ∨ Tbl.get 0 (s.vat v).cnt sink ≠ 0
      let x := (harpIndexed s v r).1
      let w := (harpIndexed s v r).2
      (r.running = false → beingSaved s r.by_.group = false → open_ → exec (.harpStart v) s = .next
        ((if gated then s.modVat v fun x => { x with cnt := Tbl.set x.cnt sink (Tbl.get 0 x.cnt sink - 1) } else s).modVat v fun x => { x with harp := match x.harp with
          | [] => []
          | r :: t => { r with running := true } :: t })) ∧
      (r.running = true ∨ beingSaved s r.by_.group = true ∨ ¬open_ → exec (.harpStart v) s = .next s) ∧
      (r.running = false → exec (.harpComplete v) s = .next s ∧ exec (.harpAbort v code info) s = .next s ∧ exec (.harpShip v ok) s = .next s) ∧
      (∀ p, r.running = true → nextShip w v x = some p → exec (.harpComplete v) s = .next w) ∧
      (∀ b e u, r.running = true → nextShip w v x = none → harpRun w v x none true = (b, some e, u) → exec (.harpComplete v) s = .next (abortHarp u v x e)) ∧
      (∀ b u, r.running = true → nextShip w v x = none → harpRun w v x none true = (b, none, u) → exec (.harpComplete v) s = .next (
        let u := creditHarp u v x.count true
        let u := if bit x.h1 33 then sendArrival u ⟨barrierKey v (fld x.h1 50 2) (fld x.h1 34 16), 1, .harp v x.by_ x.count, [(x.uid, u.seq)]⟩ else u
        endHarp (if bit x.h1 63 then fire u v (fld x.h1 57 6) else u) v x)) ∧
      (r.running = true → code = 0x0E → exec (.harpAbort v code info) s = .next (match harpRun w v x (some info) false with
        | (_, some e, u) => abortHarp u v x e
        | (true, none, u) => abortHarp u v x ⟨.ecc, BitVec.ofNat 64 info⟩
        | (false, none, _) => w)) ∧
      (r.running = true → code ≠ 0x0E → exec (.harpAbort v code info) s = .next s) ∧
      (r.running = true → nextShip w v x = none → exec (.harpShip v ok) s = .next w) ∧
      (∀ n d, r.running = true → nextShip w v x = some (n, d) →
        let rows := x.unshipped.filter fun p => shipTo w v x p = some d
        (ok = false ∨ dieLive w d = false → exec (.harpShip v ok) s = .next (abortHarp w v x ⟨.xlate, BitVec.ofNat 64 n⟩)) ∧
        (ok = true → dieLive w d = true →
          (∀ e u, moveRows w v x rows = (some e, u) → exec (.harpShip v ok) s = .next (abortHarp u v x e)) ∧
          (∀ u, moveRows w v x rows = (none, u) → exec (.harpShip v ok) s = .next (modHarp u v fun x => { x with shipped := x.shipped ++ rows }))))

/-! ### Rays and treelets (chapter 15) -/

/-- Harp requests are checked, queued, run and completed or aborted (14 R346, 14 R347, 14 R350, 14 R351, 14 R352, 14
R353). -/
def Obligations.Harp : Prop := Spec.HarpRequests ∧ Spec.HarpSteps

/-- 15 R374: a ray buffer: 64 aligned bytes of the wave's own core's scratch. -/
def Sys2Proof.Spec.buffer (s : State) (a : BitVec 6) (need : Nat) (u : Use) (k : Nat) : Prop :=
  let cap := s.reg a.toNat
  Spec.inScratch s cap cap.addr 64 need 1 u k ∧ 64 ∣ cap.addr ∧ cap.addr / 2 ^ 48 = 0x7F

/-- 15 R375 to R377: RRECV takes the oldest ray of the inbox into the buffer and answers its TID, or answers 1 or
waits when there is none for it: the ray leaves for the buffer as a store of the wave; RSEND sends the buffer's ray on, to treelet c[b] with one more hop (15 R367), or
spills it to the core's ring, and waits where there is no room; RHIT sends the record to its origin, and waits where
there is no room. Whether an injection queue has room is free (log 26). -/
def Sys2Proof.Spec.RayQueues : Prop :=
  ∀ (s : State) (d a b : BitVec 6) (k : Nat), Spec.still s →
    let c := s.curCore
    let ray : Ray := BitVec.ofNat 512 (readNat s.mem k 64)
    (Spec.buffer s a permST .store k → Admitted (.rrecv d a b) s → Spec.ungathered s k 64 →
      let i := inboxPlace (s.core c) s.curW
      (∀ r, (s.core c).inbox[i]? = some r → exec (.rrecv d a b) s = .next
        (send ((s.modCore c fun x => { x with inbox := dropAt x.inbox i, rrecv := x.rrecv.filter (· ≠ s.curW) }).setData d.toNat (BitVec.ofNat 64 r.tid)) (Spec.asks s 0 1 false (.store [(k, bytesOf 64 r.toNat)] false))).advance) ∧
      ((s.core c).inbox[i]? = none → (s.lo b.toNat).getLsbD 0 = true → Spec.answers (.rrecv d a b) s d s 1 0) ∧
      ((s.core c).inbox[i]? = none → (s.lo b.toNat).getLsbD 0 = false → exec (.rrecv d a b) s = .next (park (s.modCore c fun x => { x with
        rrecv := if x.rrecv.contains s.curW then x.rrecv else x.rrecv ++ [s.curW] }) .timed))) ∧
    (Spec.buffer s a permLD .load k → Admitted (.rsend d a b) s →
      let r := setFld (setFld ray 288 24 ((s.lo b.toNat).toNat % 2 ^ 24)) 340 8 (min (ray.hops + 1) 255)
      let room := (drawBit s).1
      let u := (drawBit s).2
      (room = true → Spec.answers (.rsend d a b) s d (routeRay u c r) 0 0) ∧
      (room = false → ringHasRoom (s.core c) = true → Spec.answers (.rsend d a b) s d (spillRay u c r) 2 0) ∧
      (room = false → ringHasRoom (s.core c) = false → exec (.rsend d a b) s = .next (stall u))) ∧
    (Spec.buffer s a permLD .load k → Admitted (.rhit d a) s →
      let room := (drawBit s).1
      let u := (drawBit s).2
      (room = false → exec (.rhit d a) s = .next (stall u)) ∧
      (room = true → corePresent s ray.org = true → Spec.answers (.rhit d a) s d { u with net := { u.net with hits := u.net.hits ++ [(ray.org, ray)] } } 0 0) ∧
      (room = true → corePresent s ray.org = false → Spec.answers (.rhit d a) s d (postMessage u (coreDie c)
        { m0 := BitVec.ofNat 64 (7 * 2 ^ 56 + 4 * 2 ^ 52 + c * 2 ^ 24), m1 := 0, m2 := BitVec.ofNat 64 (fld ray 320 32), m3 := 0 }) 0 0))

/-- 15 R378 to R380: RBOX4, RTRI and RROUTE answer 3 where the ray's treelet is not in the core and 4 for an index
past its part; RBOX4 gives the children that the ray meets, nearest first, RTRI tests a run of triangles and
sends the ray of an accepted hit back to the buffer, RROUTE says where a port leads. -/
def Sys2Proof.Spec.Traversal : Prop :=
  ∀ (s : State) (d a b : BitVec 6) (k : Nat), Spec.still s →
    let c := s.curCore
    let ray : Ray := BitVec.ofNat 512 (readNat s.mem k 64)
    let y := (s.lo b.toNat).toNat
    let absent (i : Instr) : Prop := slotOf s c ray.tid = none → Spec.answers i s d s 3 0
    (Spec.buffer s a permLD .load k → Admitted (.rbox4 d a b) s → absent (.rbox4 d a b) ∧
      ∀ n, slotOf s c ray.tid = some n →
        let img := slotKey c n
        let h := Header.read s img
        let node := img + h.nodeoff + 128 * (y % 512)
        let hs := (hitChildren s node ray).map (·.1)
        (h.nnode ≤ y % 512 → Spec.answers (.rbox4 d a b) s d s 4 0) ∧
        (y % 512 < h.nnode → Spec.answers (.rbox4 d a b) s d s 0 ((match hs with
          | [] => 0
          | x :: _ => readNat s.mem (node + 96 + 4 * x) 4) * 2 ^ 16 + ((hs.zipIdx).map fun x => x.1 * 4 ^ x.2).sum * 2 ^ 8 + hs.length * 2 ^ 4 + (hs.map fun x => 2 ^ x).sum))) ∧
    (Spec.buffer s a (permLD + permST) .store k → Admitted (.rtri d a b) s → Spec.ungathered s k 64 → absent (.rtri d a b) ∧
      ∀ n, slotOf s c ray.tid = some n →
        let img := slotKey c n
        let h := Header.read s img
        let ref := y % 2 ^ 32
        let first := ref / 2 ^ 6 % 2 ^ 12
        let good := ref / 2 ^ 30 = 2 ∧ ref / 2 ^ 18 % 2 ^ 12 = 0 ∧ first + ref % 64 + 1 ≤ h.ntri
        let t := testTris s img h (ref % 64 + 1) first ray false
        (¬good → Spec.answers (.rtri d a b) s d s 4 0) ∧
        (good → t.2 = false → Spec.answers (.rtri d a b) s d s 0 (fld t.1 224 32)) ∧
        (good → t.2 = true → exec (.rtri d a b) s = .next (send (s.setData d.toNat (BitVec.ofNat 64 (2 ^ 32 + fld t.1 224 32))) (Spec.asks s 0 1 false (.store [(k, bytesOf 64 t.1.toNat)] false))).advance)) ∧
    (Spec.buffer s a permLD .load k → Admitted (.rroute d a b) s → absent (.rroute d a b) ∧
      ∀ n, slotOf s c ray.tid = some n →
        let img := slotKey c n
        let h := Header.read s img
        let tid := readNat s.mem (img + h.portoff + 4 * (y % 2 ^ 12)) 4 % 2 ^ 24
        (h.nport ≤ y % 2 ^ 12 → Spec.answers (.rroute d a b) s d s 4 0) ∧
        (y % 2 ^ 12 < h.nport →
          (routeTo s c tid = .here → Spec.answers (.rroute d a b) s d s 0 (2 ^ 44 + c * 2 ^ 24 + tid)) ∧
          (∀ x, routeTo s c tid = .holder x → Spec.answers (.rroute d a b) s d s 0 (2 * 2 ^ 44 + x * 2 ^ 24 + tid)) ∧
          (routeTo s c tid = .dir → Spec.answers (.rroute d a b) s d (if (routeOf s c tid).isSome then s else queryRoute s c tid) 0 tid)))

/-- 15 R378: the box test: a ray meets a box when some parameter of its interval puts it inside, and its entry is
the least such parameter. -/
def Sys2Proof.Spec.BoxTest : Prop :=
  ∀ (ox oy oz dx dy dz t0 t1 lx ly lz hx hy hz e : ℚ),
    let inside (t : ℚ) : Prop := t0 ≤ t ∧ t ≤ t1 ∧ (lx ≤ ox + t * dx ∧ ox + t * dx ≤ hx) ∧ (ly ≤ oy + t * dy ∧ oy + t * dy ≤ hy) ∧ (lz ≤ oz + t * dz ∧ oz + t * dz ≤ hz)
    boxEntry [ox, oy, oz, dx, dy, dz, t0, t1] [lx, ly, lz, hx, hy, hz] = some e ↔ inside e ∧ ∀ t, inside t → e ≤ t

/-- 15 R379: the triangle test accepts t, u, v just where the ray's point is that of the triangle's plane with those
weights, inside the triangle and the interval; a ray in a plane parallel to the triangle hits nothing. -/
def Sys2Proof.Spec.TriangleTest : Prop :=
  ∀ (ox oy oz dx dy dz t0 t1 ax ay az bx by_ bz cx cy cz t u v : ℚ) (ds : Bool),
    let on (o d a b c : ℚ) : Prop := o + t * d = a + u * (b - a) + v * (c - a)
    let det := (bx - ax) * (dy * (cz - az) - dz * (cy - ay)) + (by_ - ay) * (dz * (cx - ax) - dx * (cz - az)) + (bz - az) * (dx * (cy - ay) - dy * (cx - ax))
    triHit [ox, oy, oz, dx, dy, dz, t0, t1] [ax, ay, az, bx, by_, bz, cx, cy, cz] false ds = some (t, u, v) ↔
      det ≠ 0 ∧ on ox dx ax bx cx ∧ on oy dy ay by_ cy ∧ on oz dz az bz cz ∧ 0 ≤ u ∧ 0 ≤ v ∧ u + v ≤ 1 ∧ t0 ≤ t ∧ t < t1

/-- Dense blocks add exact sums rounded once; box and triangle tests are those of exact reals (03 R91, 03 R92, 15
R378, 15 R379). -/
def Obligations.UnitArithmetic : Prop := Spec.DenseArithmetic ∧ Spec.BoxTest ∧ Spec.TriangleTest

/-- 15 R381, R382: TLREQ answers 0 for a treelet that the core holds and else asks the directory; TLEVICT answers 3
for one it does not hold and else tells the directory; HQBIND of a zero capability unbinds the core's program,
or answers 0x0E with none, and of a record binds it, or answers why not. -/
def Sys2Proof.Spec.TreeletRequests : Prop :=
  ∀ (s : State) (d a b : BitVec 6), Spec.still s →
    let t := (s.lo a.toNat).toNat % 2 ^ 24
    let m := s.lo b.toNat
    let c := s.curCore
    let cap := s.reg a.toNat
    (Admitted (.tlreq d a b) s →
      ((slotOf s c t).isSome = true → m.getLsbD 1 = false → Spec.answers (.tlreq d a b) s d (touchEntry s t) 0 0) ∧
      ((slotOf s c t).isSome = true → m.getLsbD 1 = true → dirState (touchEntry s t) t = 3 → dirOwner (touchEntry s t) t = c →
        Spec.answers (.tlreq d a b) s d (setDe1 (touchEntry s t) t 24 1 1) 0 0) ∧
      (slotOf s c t = none → exec (.tlreq d a b) s = .next ((park s (.reply d.toNat true)).modNet fun n =>
        { n with tlreqs := n.tlreqs ++ [⟨t, c, s.curW, d.toNat, m.getLsbD 0, m.getLsbD 1⟩] }))) ∧
    (Admitted (.tlevict d a) s →
      (slotOf s c t = none → Spec.answers (.tlevict d a) s d s 3 0) ∧
      ((slotOf s c t).isSome = true → exec (.tlevict d a) s = .next ((park s (.reply d.toNat true)).modNet fun n =>
        { n with evicts := n.evicts ++ [⟨t, c, some (s.curW, d.toNat)⟩] }))) ∧
    (Admitted (.hqbind d a b) s →
      (cap = ⟨false, 0, 0⟩ → Spec.joinable s 6 (fun _ => true) →
        let u := Spec.joined s 6 fun _ => true
        (programBound (u.core c) = true → Spec.replies (.hqbind d a b) s d (unbindProgram u c) 0 0) ∧
        (programBound (u.core c) = false → Spec.replies (.hqbind d a b) s d u 0x0E 0)) ∧
      (cap ≠ ⟨false, 0, 0⟩ →
        (∀ t s', checkAccess s cap cap.addr 64 permLD 64 .load = (.error t, s') → exec (.hqbind d a b) s = .next (raise s' t)) ∧
        ∀ p s', checkAccess s cap cap.addr 64 permLD 64 .load = (.ok p, s') → Spec.joinable (noteLeaf s' p) 6 (fun _ => true) →
        let l := readKeys (Spec.joined (noteLeaf s' p) 6 fun _ => true) [p.key, p.key + 16, p.key + 32, p.key + 48]
        let w := l.2.2
        let r := wordsOf l.1
        let g := (w.grid? w.curWave.grid).getD { record := [] }
        let good := recordBad w r = false ∧ recKind r = 2
        let ends (st v : Nat) : Prop := Spec.replies (.hqbind d a b) s d w st v
        (∀ pa, l.2.1 = some pa → exec (.hqbind d a b) s = .next (raise w ⟨.ecc, BitVec.ofNat 64 pa⟩)) ∧
        (l.2.1 = none → ¬good → ends 9 0) ∧ (l.2.1 = none → good → g.depth = 10 → ends 0x0A 0) ∧
        (l.2.1 = none → good → g.depth ≠ 10 → fitsNow w r c = false → ends 0x0C 0) ∧
        (l.2.1 = none → good → g.depth ≠ 10 → fitsNow w r c = true → 4096 ≤ w.grids.length → ends 0x0B 0) ∧
        (l.2.1 = none → good → g.depth ≠ 10 → fitsNow w r c = true → w.grids.length < 4096 →
          ((w.core c).hprog ≠ none → ends 0x0D 0) ∧
          ((w.core c).hprog = none → ∃ v h p, Spec.replies (.hqbind d a b) s d v 0 h ∧ (v.core c).hprog = some p ∧ p.grid = h ∧
            p.hqt = m.toNat % 2 ^ 32 ∧ ∃ y, v.grid? h = some y ∧ y.record = r))))

/-- RRECV, RSEND, RHIT, RBOX4, RTRI, RROUTE, TLREQ, TLEVICT and HQBIND act and answer their status (15 R367, 15
R374, 15 R375, 15 R376, 15 R377, 15 R378, 15 R379, 15 R380, 15 R381, 15 R382). -/
def Obligations.RayAndTreeletInstructions : Prop := Spec.RayQueues ∧ Spec.TreeletRequests ∧ Spec.Traversal

/-- 15 R361, R368, R372, R373: rays reach inboxes, come back from a ring, and vanish where a core is gone; hit
records queue at their core, are dropped without a program, and start a shading wave when 32 are there, or fewer
after the queue's time. -/
def Sys2Proof.Spec.RaySteps : Prop :=
  ∀ (s : State) (n c : Nat),
    (∀ e r, s.net.rays[n]? = some (e, r) →
      let u : State := { s with net := { s.net with rays := dropAt s.net.rays n } }
      (corePresent s e = false → exec (.rayArrive n) s = .next u) ∧
      (corePresent s e = true → rayReady s e r = false → exec (.rayArrive n) s = .next s) ∧
      (corePresent s e = true → slotOf s e r.tid = none → exec (.rayArrive n) s = .next (u.modNet fun m => { m with dirRays := m.dirRays ++ [r] })) ∧
      (∀ k t, corePresent s e = true → slotOf s e r.tid = some k → (s.core e).inbox.length < fld (s.core e).raycfg 0 9 →
        Tbl.get? (s.core e).tslots k = some t → t.accepted + 1 < 2 ^ fld (s.core e).raycfg 37 3 →
        exec (.rayArrive n) s = .next (u.modCore e fun x => { x with inbox := x.inbox ++ [r], tslots := Tbl.set x.tslots k { t with accepted := t.accepted + 1 } }))) ∧
    ((s.core c).ovfN = 0 → exec (.rayReinject c) s = .next s) ∧
    ((s.core c).ovfN ≠ 0 → let x := s.core c
      exec (.rayReinject c) s = .next (routeRay (s.modCore c fun x => { x with ovfHead := (x.ovfHead + 1) % 2 ^ ovfLg x, ovfN := x.ovfN - 1 }) c
        (BitVec.ofNat 512 (readNat s.mem (fld x.rayovf 0 48 + 64 * (x.ovfHead % 2 ^ fld x.rayovf 51 5)) 64)))) ∧
    (∀ e r, s.net.hits[n]? = some (e, r) →
      let u : State := { s with net := { s.net with hits := dropAt s.net.hits n } }
      (programBound (s.core e) = false → exec (.hitRecordArrive n) s = .next (u.modCore e fun x => { x with hdrop := true })) ∧
      (programBound (s.core e) = true → 256 ≤ (s.core e).hits.length → exec (.hitRecordArrive n) s = .next s) ∧
      (programBound (s.core e) = true → (s.core e).hits.length < 256 → exec (.hitRecordArrive n) s = .next (u.modCore e fun x => { x with hits := x.hits ++ [(r, s.cyc)] }))) ∧
    (∀ h, (s.core c).hprog = some h → h.unbound = false →
      ((s.core c).hits.length < 32 → exec (.shadingWaveLaunch c) s = .next s) ∧
      (32 ≤ (s.core c).hits.length → exec (.shadingWaveLaunch c) s = .next (launchShading s c)) ∧
      (∀ r t l, (s.core c).hits = (r, t) :: l →
        (h.hqt ≠ 0 ∧ t + h.hqt ≤ s.cyc → exec (.hqtTimeout c) s = .next (launchShading s c)) ∧
        (h.hqt = 0 ∨ s.cyc < t + h.hqt → exec (.hqtTimeout c) s = .next s)))

/-- 15 R362 to R369: the directory's controllers take rays, heat reports, requests and evictions; pages and copies
land; queries are answered. Each step is that of the message it takes, and a controller's step is a whole row: it
handles afresh the requests that waited in the entry. -/
def Sys2Proof.Spec.DirectorySteps : Prop :=
  ∀ (s : State) (n t : Nat),
    let net (f : Net → Net) : State := { s with net := f s.net }
    ((∀ d ∈ s.dirs, d.2.redo = []) → dirRow s = s) ∧
    (∀ r, s.net.dirRays[n]? = some r →
      let u := touchEntry (net fun m => { m with dirRays := dropAt m.dirRays n }) r.tid
      (dirState u r.tid = 0 → exec (.dirRay n) s = .next (dirRow (sendHit u (dirTile u r.tid) (setFld r 316 1 1)))) ∧
      (dirState u r.tid = 3 → exec (.dirRay n) s = .next (dirRow (u.modNet fun m => { m with rays := m.rays ++ [(dirOwner u r.tid, r)] }))) ∧
      (dirState u r.tid = 2 ∨ dirState u r.tid = 4 → pendCount u (dirTile u r.tid) < 64 →
        exec (.dirRay n) s = .next (dirRow (u.modDir r.tid fun y => { y with pend := y.pend ++ [r] }))) ∧
      (dirState u r.tid = 1 → pendCount u (dirTile u r.tid) < 64 →
        exec (.dirRay n) s = .next (dirRow (coldRays (u.modDir r.tid fun y => { y with pend := y.pend ++ [r] }) r.tid)))) ∧
    (∀ t k o, s.net.heats[n]? = some (t, k, o) → exec (.dirHeatReport n) s = .next (dirRow (dirTakeHeat (net fun m => { m with heats := dropAt m.heats n }) t k o))) ∧
    (∀ q, s.net.tlreqs[n]? = some q →
      let u := touchEntry (net fun m => { m with tlreqs := dropAt m.tlreqs n }) q.tid
      let tells (st : Nat) : Prop := exec (.dirTlreq n) s = .next (dirRow (u.modNet fun m => { m with tlreps := m.tlreps ++ [{ agent := .wave q.wave, d := q.d, value := BitVec.ofNat 64 (st * 2 ^ 56) }] }))
      let may := (rhtHosts u q.tid).contains q.core && hostFits u q.tid q.core
      (dirState u q.tid = 0 → tells 5) ∧
      (dirState u q.tid = 1 → may = true → exec (.dirTlreq n) s = .next (dirRow (beginPageIn u q.tid q.core (some q)))) ∧
      (dirState u q.tid = 1 → may = false → tells 6) ∧
      (dirState u q.tid = 3 → (slotOf u q.core q.tid).isSome = true → q.pin = false → tells 0) ∧
      (dirState u q.tid = 3 → slotOf u q.core q.tid = none → q.replica = false → tells 8) ∧
      (dirState u q.tid = 2 ∨ dirState u q.tid = 4 → exec (.dirTlreq n) s = .next (dirRow (u.modDir q.tid fun y => { y with waiting := y.waiting ++ [q] })))) ∧
    (∀ e, s.net.evicts[n]? = some e → exec (.dirTlevict n) s = .next (dirRow (evictCopy (net fun m => { m with evicts := dropAt m.evicts n }) e.core e.tid e.waiter))) ∧
    (∀ u c t w d, slotOf u c t = none → evictCopy u c t (some (w, d)) = u.modNet fun m => { m with tlreps := m.tlreps ++ [{ agent := .wave w, d := d, value := BitVec.ofNat 64 (3 * 2 ^ 56) }] }) ∧
    (dirState s t ≠ 2 → exec (.pageInDone t) s = .next (dirRow s) ∧ exec (.pageInFail t) s = .next (dirRow s)) ∧
    (dirState s t = 2 → transferDone s t (dirOwner s t) = true → (s.dir t).starter = none → ∃ x, exec (.pageInDone t) s = .next (dirRow x) ∧
      dirState x t = 3 ∧ (x.dir t).pend = [] ∧ x.net.rays = s.net.rays ++ (s.dir t).pend.map (dirOwner s t, ·)) ∧
    (dirState s t = 2 → (s.core (dirOwner s t)).tslots.any (fun x => decide (x.2.tid = t ∧ x.2.total = 0) && !x.2.landed) = true → ∃ x, exec (.pageInFail t) s = .next (dirRow x) ∧
      (∀ e ∈ (x.core (dirOwner s t)).tslots, e.2.tid ≠ t)) ∧
    ((s.dir t).copyTo = none → exec (.replicaCopyDone t) s = .next (dirRow s)) ∧
    (∀ h, (s.dir t).copyTo = some h → dirState s t = 3 → transferDone s t h = true → ∃ x, exec (.replicaCopyDone t) s = .next (dirRow x) ∧ (x.dir t).copyTo = none) ∧
    (dirState s t = 3 → exec (.evictConfirm t) s = .next (dirRow s)) ∧
    (dirState s t = 4 → (s.dir t).evicting = none → (s.dir t).pend = [] → ∃ x, exec (.evictConfirm t) s = .next (dirRow x) ∧ (x.dir t).evicting = none ∧ (x.dir t).confirm = false ∧
      (x.dir t).redo = (s.dir t).redo ++ (s.dir t).waiting ∧ x.net = s.net) ∧
    (∀ k c, s.net.queries[n]? = some (k, c) →
      let u := touchEntry (net fun m => { m with queries := dropAt m.queries n }) k
      exec (.routeQuery n) s = .next (u.modNet fun m => { m with routeReps := m.routeReps ++ [⟨c, k, decide (dirState u k ≠ 3),
        if dirState u k = 3 then dirOwner u k :: (replicas u k).map (·.2) else []⟩] })) ∧
    (∀ r, s.net.routeReps[n]? = some r → exec (.routeReply n) s = .next ((net fun m => { m with routeReps := dropAt m.routeReps n }).modCore r.core fun x => { x with
      queries := x.queries.filter (· ≠ r.tid),
      routes := ((⟨r.tid, r.viaDir, r.holders, leaseNow s (coreDie r.core) + 256 * fld (s.core r.core).raycfg 40 8⟩ : Route) :: x.routes.filter fun e => e.tid ≠ r.tid).take 256 })) ∧
    (∀ p, s.net.pages[n]? = some p → (∀ e ∈ (s.core p.host).tslots, e.2.tid ≠ p.tid ∨ e.2.landed = true) → exec (.pageTransfer n) s = .next (net fun m => { m with pages := dropAt m.pages n })) ∧
    (∀ p k x, s.net.pages[n]? = some p → (s.core p.host).tslots = [(k, x)] → x.tid = p.tid → x.landed = false → exec (.pageTransfer n) s = .next (
      let u := readLines (net fun m => { m with pages := dropAt m.pages n }) (p.src + p.off) 8
      poke u.2 (slotKey p.host k + p.off) (u.1.take (min 1024 (p.total - p.off))))) ∧
    (∀ k, s.net.tlreps[n]? = some k → exec (.tlreqReply n) s = .next (wakeAgent (net fun m => { m with tlreps := dropAt m.tlreps n }) k))

/-- Rays, hit records and the directory's messages take effect where they arrive (15 R361, 15 R362, 15 R364, 15
R365, 15 R366, 15 R367, 15 R368, 15 R369, 15 R372, 15 R373). -/
def Obligations.RayAndDirectorySteps : Prop := Spec.RaySteps ∧ Spec.DirectorySteps

/-! ### Rounding, exact arithmetic and the transcendental functions (chapter 3, 04 R114, 06 R163) -/

/-- The formats whose rounding chapter 3 gives in full. -/
def Sys2Proof.Spec.fmts : List Fmt := [fmtFP32, fmtFP16, fmtBF16, fmtE5M2, fmtE4M3]
/-- 03 R74: the value of a magnitude code. -/
def Sys2Proof.Spec.codeValue (f : Fmt) (c : Nat) : ℚ :=
  if c / 2 ^ f.tw = 0 then (c % 2 ^ f.tw : Nat) * 2 ^ (1 - (f.bias : ℤ) - f.tw)
  else (2 ^ f.tw + c % 2 ^ f.tw : Nat) * 2 ^ (((c / 2 ^ f.tw : Nat) : ℤ) - f.bias - f.tw)
/-- A directed mode that takes a magnitude of this sign down, or up (03 R79). -/
abbrev Sys2Proof.Spec.inward (mode : Nat) (neg : Bool) : Prop := mode = 1 ∨ (mode = 2 ∧ neg = true) ∨ (mode = 3 ∧ neg = false)
abbrev Sys2Proof.Spec.outward (mode : Nat) (neg : Bool) : Prop := (mode = 2 ∧ neg = false) ∨ (mode = 3 ∧ neg = true)
/-- 03 R79: `c` is the code that a mode other than the stochastic one gives a magnitude `x`. -/
def Sys2Proof.Spec.rounds (f : Fmt) (mode : Nat) (neg : Bool) (x : ℝ) (c : Nat) : Prop :=
  let g (n : Nat) : ℝ := (Spec.codeValue f n : ℚ)
  (mode = 0 → ∀ e ≤ f.maxBits, |g c - x| ≤ |g e - x| ∧ (|g c - x| = |g e - x| → e ≠ c → c % 2 = 0)) ∧
  (mode = 4 → ∀ e ≤ f.maxBits, |g c - x| ≤ |g e - x| ∧ (|g c - x| = |g e - x| → e ≤ c)) ∧
  (Spec.inward mode neg → g c ≤ x ∧ ∀ e ≤ f.maxBits, g e ≤ x → e ≤ c) ∧
  (Spec.outward mode neg → x ≤ g c ∧ ∀ e ≤ f.maxBits, x ≤ g e → c ≤ e)

/-- 03 R74, R79 to R83, R86: the code of a format stands for its value. A magnitude no greater than the largest finite one
becomes the code that the mode gives it, with NX when that is inexact and UF when it is tiny too; in the stochastic mode it
goes up when the random value is below its fraction. A greater one overflows once it is rounded past the largest: to an
infinity, the largest or the default NaN, with OF and NX. FTZ writes a tiny result as a zero of its sign, with UF and NX. An
infinity without a code and a NaN become what R82 gives them. That a tiny result is rounded from the exact value is the
model's reading (log 24). -/
def Sys2Proof.Spec.RoundingRules : Prop :=
  ∀ (f : Fmt) (mode : Nat) (sat ftz neg : Bool) (r : Nat → Nat) (b n d : Nat), f ∈ Spec.fmts → d ≠ 0 →
    let g := Spec.codeValue f
    let x : ℚ := (n : ℚ) / d
    let out := roundFmt f mode sat ftz r (.fin neg n d)
    let top := g f.maxBits
    let ulp := top - g (f.maxBits - 1)
    let least := g (2 ^ f.tw)
    let code (c fl : Nat) : Prop := out = (f.signBits neg + c, fl)
    let past : Prop := out = (if sat then f.signBits neg + f.maxBits else if f.hasInf then f.signBits neg + f.infBits else f.dnan, flOF + flNX)
    (let c := b % 2 ^ (f.ew + f.tw)
     (c ≤ f.maxBits → ∃ n d, f.decode b = .fin (b.testBit (f.ew + f.tw)) n d ∧ d ≠ 0 ∧ (n : ℚ) / d = g c) ∧
     (f.hasInf = true → c = f.infBits → f.decode b = .inf (b.testBit (f.ew + f.tw))) ∧
     (f.maxBits < c → (f.hasInf = true → c ≠ f.infBits) → ∃ q, f.decode b = .nan q)) ∧
    (mode ≤ 4 → ftz = false ∨ f.flush = false ∨ n = 0 ∨ least ≤ x → x ≤ top → ∃ c fl, code c fl ∧ c ≤ f.maxBits ∧ Spec.rounds f mode neg (x : ℝ) c ∧
      (g c = x → fl = 0) ∧ (g c ≠ x → fl = flNX ∨ (fl = flUF + flNX ∧ x < least)) ∧ (g c ≠ x → c < 2 ^ f.tw → fl = flUF + flNX)) ∧
    (mode = 5 → least ≤ x → x ≤ top → ∃ c, c ≤ f.maxBits ∧ g c ≤ x ∧ x < g (c + 1) ∧
      (let part := (x - g c) / (g (c + 1) - g c)
       code (if (r 0 : ℤ) < ⌊part * 2 ^ 16⌋ then c + 1 else c) (if part = 0 then 0 else flNX))) ∧
    (mode = 0 ∨ mode = 4 → (top < x → x < top + ulp / 2 → code f.maxBits flNX) ∧ (top + ulp / 2 < x → past)) ∧
    (Spec.inward mode neg → top < x → code f.maxBits (if x < top + ulp then flNX else flOF + flNX)) ∧
    (Spec.outward mode neg → top < x → past) ∧
    (ftz = true → f.flush = true → n ≠ 0 → x ≤ least - least / 2 ^ (f.tw + 1) → code 0 (flUF + flNX)) ∧
    (∀ q, roundFmt f mode sat ftz r (.nan q) = (f.dnan, if q then flNV else 0)) ∧
    roundFmt f mode sat ftz r (.inf neg) = if f.hasInf then (f.signBits neg + f.infBits, 0) else if sat then (f.signBits neg + f.maxBits, flNX) else (f.dnan, flNV)

/-- The number that a finite value stands for. -/
def Sys2Proof.Spec.number (v : Val) : ℚ := (v.snum : ℚ) / v.den

/-- 04 R114: the sum, product, quotient and fused product and sum of finite operands are exact, with the stated zeros,
infinities and flags, and are rounded once; a square root is rounded as the real root is. With FTZ a subnormal operand is read
as a zero of its sign (03 R83). -/
def Sys2Proof.Spec.ExactArithmetic : Prop :=
  ∀ (f : Fmt) (mode : Nat) (ftz a b c : Bool) (r : Nat → Nat) (x y z n d m e k l : Nat), f ∈ Spec.fmts → d ≠ 0 → e ≠ 0 → l ≠ 0 →
    let u : Val := .fin a n d
    let v : Val := .fin b m e
    let w : Val := .fin c k l
    let is (o : Val × Nat) (q : ℚ) (zero : Bool) : Prop := ∃ s i j, o = (.fin s i j, 0) ∧ j ≠ 0 ∧ Spec.number o.1 = q ∧ (i = 0 → s = zero)
    let p := Spec.number
    is (Val.add mode u v) (p u + p v) (if n = 0 ∧ m = 0 ∧ a = b then a else decide (mode = 3)) ∧
    is (Val.mul u v) (p u * p v) (a != b) ∧
    (m ≠ 0 → is (Val.div u v) (p u / p v) (a != b)) ∧
    (m = 0 → n ≠ 0 → Val.div u v = (.inf (a != b), flDZ)) ∧
    (m = 0 → n = 0 → Val.div u v = (.nan false, flNV)) ∧
    (∃ s i j, Val.fma mode u v w = (.fin s i j, 0) ∧ j ≠ 0 ∧ p (.fin s i j) = p u * p v + p w) ∧
    (let once (o : Nat × Nat) (q : Val × Nat) : Prop := let t := roundFmt f mode false ftz r q.1
       o = (t.1, t.2 ||| q.2)
     let i := f.read ftz
     once (fpAdd f mode ftz r x y) (Val.add mode (i x) (i y)) ∧ once (fpSub f mode ftz r x y) (Val.add mode (i x) (i y).negate) ∧
      once (fpMul f mode ftz r x y) (Val.mul (i x) (i y)) ∧ once (fpDiv f mode ftz r x y) (Val.div (i x) (i y)) ∧
      once (fpFma f mode ftz r x y z) (Val.fma mode (i x) (i y) (i z)) ∧ once (fpSqrt f mode ftz r x) (Val.sqrt (i x))) ∧
    (ftz = true → f.flush = true → 0 < x % 2 ^ (f.ew + f.tw) → x % 2 ^ (f.ew + f.tw) < 2 ^ f.tw → f.read ftz x = .fin (x.testBit (f.ew + f.tw)) 0 1) ∧
    (ftz = false ∨ f.flush = false ∨ x % 2 ^ (f.ew + f.tw) = 0 ∨ 2 ^ f.tw ≤ x % 2 ^ (f.ew + f.tw) → f.read ftz x = f.decode x) ∧
    (n ≠ 0 → a = true → Val.sqrt u = (.nan false, flNV)) ∧
    (n = 0 → Val.sqrt u = (.fin a 0 1, 0)) ∧
    (let root := Real.sqrt ((n : ℝ) / d)
     n ≠ 0 → a = false → mode ≤ 4 → ((Spec.codeValue f (2 ^ f.tw) : ℚ) : ℝ) ≤ root → root ≤ ((Spec.codeValue f f.maxBits : ℚ) : ℝ) →
      ∃ i, roundFmt f mode false ftz r (Val.sqrt u).1 = (i, if ((Spec.codeValue f i : ℚ) : ℝ) = root then 0 else flNX) ∧ i ≤ f.maxBits ∧ Spec.rounds f mode false root i)

/-- Values are rounded once by mode, overflow, tininess and FTZ as chapter 3 has it; arithmetic is exact (03 R74, 03
R79, 03 R80, 03 R81, 03 R82, 03 R83, 03 R85, 03 R86, 04 R114). -/
def Obligations.RoundingAndArithmetic : Prop := Spec.RoundingRules ∧ Spec.ExactArithmetic

/-- 06 R163: the special cases of the transcendental instructions are those of the table. A reciprocal is exact, and a
reciprocal root is that of the exact reciprocal. Of the others the model's value is exact at the points of the table and elsewhere
within 2^-400 of the real function's, relatively for a power; that its rounding is the function's is the model's inference
(log 11, DEDUCED). A power of 2^200 or more overflows, and one below 2^-200 is flushed or underflows to zero. Each value is
rounded once to FP32, to nearest even. -/
def Sys2Proof.Spec.TranscendentalRules : Prop :=
  ∀ (neg ftz : Bool) (b n d : Nat), d ≠ 0 →
    let v : Val := .fin neg n d
    let x := Spec.number v
    let near (o : Val × Nat) (y e : ℝ) : Prop := o.1.finite = true ∧ o.2 = 0 ∧ |((Spec.number o.1 : ℚ) : ℝ) - y| ≤ e
    let exact (o : Val × Nat) (q : ℚ) : Prop := o.1.finite = true ∧ o.2 = 0 ∧ Spec.number o.1 = q ∧ (q = 0 → o.1.neg = false)
    (∀ f ∈ [valRcp, valRsq, valExp2, valLog2, valSin, valCos], (∀ q, f (.nan q) = (.nan false, if q then flNV else 0)) ∧
      (let t := roundFmt fmtFP32 0 false ftz (fun _ => 0) (f (fmtFP32.read ftz b)).1
       transcend f ftz b = (t.1, t.2 ||| (f (fmtFP32.read ftz b)).2))) ∧
    (valRcp v = if n = 0 then (.inf neg, flDZ) else (.fin neg d n, 0)) ∧ valRcp (.inf neg) = (.fin neg 0 1, 0) ∧
    (valRsq v = if n = 0 then (.inf neg, flDZ) else if neg then (.nan false, flNV) else Val.sqrt (.fin false d n)) ∧
    valRsq (.inf true) = (.nan false, flNV) ∧ valRsq (.inf false) = (.fin false 0 1, 0) ∧
    valExp2 (.inf true) = (.fin false 0 1, 0) ∧ valExp2 (.inf false) = (.inf false, 0) ∧
    (∀ i : ℤ, -200 ≤ i → i < 200 → x = i → exact (valExp2 v) (2 ^ i)) ∧
    (-200 ≤ x → x < 200 → near (valExp2 v) ((2 : ℝ) ^ (x : ℝ)) ((2 : ℝ) ^ (-400 : ℤ) * (2 : ℝ) ^ (x : ℝ))) ∧
    (fmtFP32.read ftz b = v → 200 ≤ x → transcend valExp2 ftz b = (0x7F80_0000, flOF + flNX)) ∧
    (fmtFP32.read ftz b = v → x < -200 → transcend valExp2 ftz b = (0, flUF + flNX)) ∧
    (n = 0 → valLog2 v = (.inf true, flDZ)) ∧ (n ≠ 0 → neg = true → valLog2 v = (.nan false, flNV)) ∧
    valLog2 (.inf true) = (.nan false, flNV) ∧ valLog2 (.inf false) = (.inf false, 0) ∧
    (∀ i : ℤ, x = 2 ^ i → exact (valLog2 v) i) ∧
    (0 < x → near (valLog2 v) (Real.logb 2 (x : ℝ)) ((2 : ℝ) ^ (-400 : ℤ))) ∧
    (n = 0 → valSin v = (.fin neg 0 1, 0)) ∧ valSin (.inf neg) = (.nan false, flNV) ∧ valCos (.inf neg) = (.nan false, flNV) ∧
    (∀ i : ℤ, (n ≠ 0 → 2 * x = i → exact (valSin v) 0) ∧ (x = i + 1 / 4 → exact (valSin v) 1) ∧ (x = i + 3 / 4 → exact (valSin v) (-1)) ∧
      (x = i → exact (valCos v) 1) ∧ (x = i + 1 / 2 → exact (valCos v) (-1)) ∧ (x = i + 1 / 4 ∨ x = i + 3 / 4 → exact (valCos v) 0)) ∧
    near (valSin v) (Real.sin (2 * Real.pi * (x : ℝ))) ((2 : ℝ) ^ (-400 : ℤ)) ∧
    near (valCos v) (Real.cos (2 * Real.pi * (x : ℝ))) ((2 : ℝ) ^ (-400 : ℤ))

/-- The transcendental functions have the table's special cases, and the model's values are the real functions' to
2^-400 (06 R163, 03 R81, 03 R83, 03 R85). -/
def Obligations.TranscendentalFunctions : Prop := Spec.TranscendentalRules

/-! ### Scheduled exchange (chapter 16) -/

/-- 16 R384, R386, R389, R390: a queued slot sends one beat a cycle from its first cycle on, the earliest first; of two
beats that want one link the straight one goes on; a beat that is not dropped lands in the cycle of its arrival where a
landing is set for the slot of its cycle, with a credit where the slot has one, and else is counted; a phase at its
length is DONE, its missing sends and landings counted; a collision is reported 8 cycles later. That a landing's credit is
counted in the cycle of the landing is the model's choice (log 47). -/
def Sys2Proof.Spec.ExchangePlane : Prop :=
  ∀ (s : State) (n c : Nat),
    (∀ c t, s.net.colls[n]? = some (c, t) →
      (s.cyc < t + 8 → exec (.exchCollReport n) s = .next s) ∧
      (t + 8 ≤ s.cyc → exec (.exchCollReport n) s = .next (({ s with net := { s.net with colls := dropAt s.net.colls n } } : State).modCore c
        fun x => { x with port := { x.port with coll := true } }))) ∧
    (let p := (s.core c).port
     (p.st ≠ .run → exec (.exchBeatSend c) s = .next s ∧ exec (.exchPhaseEnd c) s = .next s) ∧
      (∀ k t, p.nextSend = some (k, t) → p.st = .run →
        (s.cyc < p.start + t → exec (.exchBeatSend c) s = .next s) ∧
        (p.start + t ≤ s.cyc →
          let r := beatData s c ((Tbl.get ⟨false, 0, 0⟩ p.sends k).addr + 32 * (t - (tableEntry p.table k).start))
          exec (.exchBeatSend c) s = .next ((r.2.modCore c fun x => { x with port := { x.port with next := t + 1 } }).modNet fun m =>
            { m with beats := m.beats ++ [⟨c, (tableEntry p.table k).peer, r.1, p.start + t⟩] }))) ∧
      (p.st = .run → s.cyc - p.start < tablePlen p.table → exec (.exchPhaseEnd c) s = .next s) ∧
      (p.st = .run → tablePlen p.table ≤ s.cyc - p.start → ∃ t, exec (.exchPhaseEnd c) s = .next t ∧ t.mem = s.mem ∧
        (p.orphan = true → (t.core c).port.st = .idle) ∧
        (p.orphan = false → (t.core c).port.st = .done ∧
          (t.core c).port.unsent = ((tableEntries p.table).filter fun e => e.2.rx == false && (Tbl.get? p.sends e.1).isNone).length ∧
          (t.core c).port.unbound = ((tableEntries p.table).filter fun e => e.2.rx && (Tbl.get? p.lands e.1).isNone).length))) ∧
    (∀ b, s.net.beats[n]? = some b →
      let t := b.sent + hops b.src b.dst
      let r := resolveBeats s t
      let u : State := { r with net := { r.net with beats := r.net.beats.erase b } }
      let p := (s.core b.dst).port
      let count (u : State) : State := u.modCore b.dst fun x => { x with port := { x.port with drop := min (x.port.drop + 1) 0xFFFF } }
      let counted := count u
      (s.cyc < t → exec (.exchBeatArrive n) s = .next s) ∧
      (t ≤ s.cyc → b ∉ r.net.beats → exec (.exchBeatArrive n) s = .next r) ∧
      (t ≤ s.cyc → b ∈ r.net.beats →
        (p.st = .idle → exec (.exchBeatArrive n) s = .next u) ∧
        (p.st = .armed ∨ p.st = .done → exec (.exchBeatArrive n) s = .next counted) ∧
        (p.st = .run → (∀ e ∈ tableEntries p.table, e.2.rx = true → ¬(p.start + e.2.start ≤ t ∧ t < p.start + e.2.start + e.2.beats)) →
          exec (.exchBeatArrive n) s = .next counted) ∧
        (∀ k e, p.st = .run → (k, e) ∈ tableEntries p.table → e.rx = true → p.start + e.start ≤ t → t < p.start + e.start + e.beats →
          (∀ f ∈ tableEntries p.table, f.2.rx = true → p.start + f.2.start ≤ t → t < p.start + f.2.start + f.2.beats → f = (k, e)) →
          (Tbl.get? p.lands k = none → exec (.exchBeatArrive n) s = .next counted) ∧
          (∀ cap, Tbl.get? p.lands k = some cap →
            let w := engineWrite u {} b.dst 0 (cap.addr + 32 * (t - p.start - e.start)) b.data
            (w.2.1 ≠ none → exec (.exchBeatArrive n) s = .next (count w.2.2)) ∧
            (w.2.1 = none → e.be = false → exec (.exchBeatArrive n) s = .next w.2.2) ∧
            (w.2.1 = none → e.be = true → exec (.exchBeatArrive n) s = .next (creditBar w.2.2 ⟨scratchKey b.dst (32 * e.bidx), 32, .port b.dst, []⟩)))))) ∧
    (∀ (p : Port) (k t : Nat), (∀ e ∈ tableEntries p.table, e.2.beats ≠ 0) → p.nextSend = some (k, t) →
      (tableEntry p.table k).rx = false ∧ (Tbl.get? p.sends k).isSome = true ∧ p.next ≤ t ∧ (tableEntry p.table k).start ≤ t ∧
      t < (tableEntry p.table k).start + (tableEntry p.table k).beats ∧
      ∀ e u, e ∈ tableEntries p.table → e.2.rx = false → (Tbl.get? p.sends e.1).isSome = true → p.next ≤ u → e.2.start ≤ u → u < e.2.start + e.2.beats → t ≤ u) ∧
    (∀ (x y : Beat) (t : Nat), x.link t = y.link t → x.straight t = true → y.straight t = false → y.yields x t = true ∧ x.yields y t = false)

/-- 16 R388, R393 to R396: XSLOTS reads a table from the core's scratch and answers 7 for a bad one, 1 for a bank in use,
else it is in the bank; XSEL answers the length and the number of slots; XPH arms the port or answers why not; XMIT
and XRECV bind a slot to bytes of scratch; XEND of the owner answers the counts of a phase that is DONE. -/
def Sys2Proof.Spec.ExchangePort : Prop :=
  ∀ (s : State) (d a b : BitVec 6), Spec.still s →
    let c := s.curCore
    let p := (s.core c).port
    let cap := s.reg a.toNat
    let own (n need align : Nat) (u : Use) (k : Nat) : Prop := Spec.inScratch s cap cap.addr n need align u k ∧ cap.addr / 2 ^ 48 = 0x7F
    let setPort (f : Port → Port) : State := s.modCore c fun x => { x with port := f x.port }
    let bank (m : Nat) : List Word := Tbl.get [] p.banks m
    let mine := (p.st = .armed ∨ p.st = .run) ∧ p.owner = s.curW ∧ p.orphan = false
    (Admitted (.xslots d a b) s → ∀ k, own 16 permLD 16 .load k →
      let h := memWord s k
      let n := h.toNat % 2 ^ 6
      let t := h :: (List.range (2 * n)).map fun i => memWord s (k + 16 + 8 * i)
      let m := (s.lo b.toNat).toNat % 4
      (headerBad h (memWord s (k + 8)) = true → Spec.answers (.xslots d a b) s d s 7 0) ∧
      (headerBad h (memWord s (k + 8)) = false → own (16 + 16 * n) permLD 16 .load k →
        (tableBad c t = true → Spec.answers (.xslots d a b) s d s 7 0) ∧
        (tableBad c t = false → (p.st = .armed ∨ p.st = .run) → p.bank = m → Spec.answers (.xslots d a b) s d s 1 0) ∧
        (tableBad c t = false → ¬((p.st = .armed ∨ p.st = .run) ∧ p.bank = m) →
          Spec.answers (.xslots d a b) s d (setPort fun x => { x with banks := Tbl.set x.banks m t }) 0 0))) ∧
    (Admitted (.xsel d a) s →
      let m := (s.lo a.toNat).toNat % 4
      Spec.answers (.xsel d a) s d (setPort fun x => { x with sel := m }) 0 (tablePlen (bank m) * 2 ^ 32 + tableNent (bank m))) ∧
    (Admitted (.xph d a b) s →
      let n := (s.lo a.toNat).toNat % 8
      let ph := (s.lo b.toNat).toNat % 2 ^ 32
      let ends := Spec.answers (.xph d a b) s d s
      let grid := s.curWave.grid
      let owner := Tbl.get 0 p.owners n
      let member := Tbl.get false p.member n
      let late := ∃ q, ((Tbl.get? p.seen n).bind fun (x : Seen) => if x.cyc = s.cyc then x.prev else some x.phase) = some q ∧ (q + 2 ^ 32 - ph) % 2 ^ 32 < 2 ^ 31
      (p.st ≠ .idle → ends 8 0) ∧
      (p.st = .idle → owner = 0 → ends 5 0) ∧
      (p.st = .idle → owner ≠ 0 → owner ≠ grid → ends 3 0) ∧
      (p.st = .idle → owner ≠ 0 → owner = grid →
        (member = false → ends 2 0) ∧
        (member = true → tableNent (bank p.sel) = 0 → ends 7 0) ∧
        (member = true → tableNent (bank p.sel) ≠ 0 → late → ends 6 0) ∧
        (member = true → tableNent (bank p.sel) ≠ 0 → ¬late → Spec.answers (.xph d a b) s d
          (setPort fun x => { x with
            st := if (Tbl.get? p.seen n).any fun (x : Seen) => decide (x.cyc = s.cyc ∧ x.phase = ph) then .run else .armed
            owner := s.curW, domain := n, phase := ph, bank := x.sel, start := s.cyc, next := 0, orphan := false, stale := false }) 0 0))) ∧
    (let k := (s.lo b.toNat).toNat % 2 ^ 6
     let e := tableEntry p.table k
     let xc := p.xc s.cyc
     let trap (why : Nat) : Prop := exec (.xmit d a b) s = .next (raise s ⟨.exchSlot, BitVec.ofNat 64 (why * 2 ^ 56 + k * 2 ^ 48 + xc % 2 ^ 32)⟩)
     (Admitted (.xmit d a b) s →
        (¬mine → trap 1) ∧
        (mine → tableNent p.table ≤ k ∨ e.rx = true → trap 2) ∧
        (∀ j, mine → k < tableNent p.table → e.rx = false → own (32 * e.beats) permES 32 .load j →
          (p.st = .run → e.start ≤ xc + 8 → trap 3) ∧
          (¬(p.st = .run ∧ e.start ≤ xc + 8) → (Tbl.get? p.sends k).isSome = true → trap 4) ∧
          (¬(p.st = .run ∧ e.start ≤ xc + 8) → Tbl.get? p.sends k = none →
            Spec.answers (.xmit d a b) s d (setPort fun x => { x with sends := Tbl.set x.sends k cap }) 0 0))) ∧
      (Admitted (.xrecv d a b) s →
        let ends := Spec.answers (.xrecv d a b) s d s
        (¬mine → ends 9 0) ∧
        (mine → tableNent p.table ≤ k ∨ e.rx = false → ends 0x0B 0) ∧
        (∀ j, mine → k < tableNent p.table → e.rx = true → own (32 * e.beats) permED 32 .store j →
          (p.st = .run → e.start ≤ xc → ends 6 0) ∧
          (¬(p.st = .run ∧ e.start ≤ xc) → Spec.answers (.xrecv d a b) s d (setPort fun x => { x with lands := Tbl.set x.lands k cap }) 0 0)))) ∧
    (Admitted (.xend d a) s →
      let v := p.unsent * 2 ^ 40 + p.unbound * 2 ^ 32 + p.drop * 2 ^ 16 + (if p.stray then 2 else 0) + (if p.coll then 1 else 0)
      let abort := (s.lo a.toNat).getLsbD 0
      (p.st = .idle ∨ p.owner ≠ s.curW ∨ p.orphan = true → Spec.answers (.xend d a) s d s 9 0) ∧
      (p.owner = s.curW → p.orphan = false → p.st = .done ∨ (p.st = .armed ∧ abort = true) →
        Spec.answers (.xend d a) s d (setPort Port.idle) (if v = 0 then 0 else 0x0A) v) ∧
      (p.owner = s.curW → p.orphan = false → p.st = .run ∨ (p.st = .armed ∧ abort = false) →
        exec (.xend d a) s = .next (park s (if abort then .retry else .timed))))

/-- 16 R385, R392: DBAR claims a domain, with its members' mask and arrivals, and tells every tile of the die within 40
cycles; it arrives for a member, once the wave's stores to scratch are acknowledged, and answers the phase; and it frees a
domain that nobody waits for and no port is busy for. The home's answer follows the broadcast. A table that cannot be read
raises ECC. -/
def Sys2Proof.Spec.Domains : Prop :=
  ∀ (s s' : State) (d a b : BitVec 6) (p : Place), Spec.still s → Admitted (.dbar d a b) s →
    let die := coreDie s.curCore
    let n := (s.lo a.toNat).toNat % 8
    let op := (s.lo a.toNat).toNat / 2 ^ 8 % 4
    let grid := s.curWave.grid
    let k := domainKey die n
    let mask := readNat s.mem (k + 32) 24
    let ends (u : State) (st v : Nat) : Prop := exec (.dbar d a b) s = .next ((park u (.reply d.toNat)).modNet fun m =>
      { m with wakes := m.wakes ++ [{ agent := u.cur, d := d.toNat, value := BitVec.ofNat 64 (st * 2 ^ 56 + v), tree := some (die, n) }] })
    let told (u t : State) (owner : Nat) (m : Nat → Bool) : Prop :=
      t.net.bcasts = u.net.bcasts ++ (dieCores die).map fun c => ⟨c, n, owner, m (tileOf c), u.cyc + 40⟩
    (op = 0 →
      (domainOwner s die n = 0 → ends s 5 0) ∧
      (domainOwner s die n ≠ 0 → domainOwner s die n ≠ grid → ends s 3 0) ∧
      (domainOwner s die n ≠ 0 → domainOwner s die n = grid →
        (mask.testBit (tileOf s.curCore) = false → ends s 2 0) ∧
        (mask.testBit (tileOf s.curCore) = true → arrivalHeld s = true → exec (.dbar d a b) s = .next (stall s)) ∧
        (mask.testBit (tileOf s.curCore) = true → arrivalHeld s = false →
          let u := s.release
          ends (arriveBar u ⟨k, 1, .agent u.cur, u.curClk⟩) 0 (Bar.read s k).phase))) ∧
    (op = 1 →
      let cap := s.reg b.toNat
      (∀ t s', checkAccess s cap cap.addr 32 permLD 32 .load = (.error t, s') → exec (.dbar d a b) s = .next (raise s' t)) ∧
      (checkAccess s cap cap.addr 32 permLD 32 .load = (.ok p, s') →
        let l := readKeys (noteLeaf s' p) [p.key, p.key + 16]
        let w := wordsOf l.1
        let v := l.2.2
        let mask := (w.getD 0 0).toNat + (w.getD 1 0).toNat * 2 ^ 64 + (w.getD 2 0).toNat * 2 ^ 128
        let arrn := (w.getD 3 0).toNat
        let bad := mask = 0 ∨ (∃ t < 192, mask.testBit t = true ∧ corePresent v (dieTile die t) = false) ∨ arrn = 0 ∨ 16 < arrn
        (∀ pa, l.2.1 = some pa → exec (.dbar d a b) s = .next (raise v ⟨.ecc, BitVec.ofNat 64 pa⟩)) ∧
        (l.2.1 = none → domainOwner v die n ≠ 0 → ends v 1 0) ∧
        (l.2.1 = none → domainOwner v die n = 0 → bad → ends v 4 0) ∧
        (l.2.1 = none → domainOwner v die n = 0 → ¬bad → ∃ t, ends t 0 0 ∧ domainOwner t die n = grid % 2 ^ 32 ∧ readNat t.mem (k + 32) 24 = mask ∧
          (let o := Bar.read t k
           o.v = true ∧ o.phase = 0 ∧ o.wcnt = 0 ∧ o.arra = 0 ∧ o.expa = ((List.range 192).filter mask.testBit).length * arrn) ∧
          told v t grid mask.testBit))) ∧
    (op = 2 →
      (domainOwner s die n = 0 → ends s 5 0) ∧
      (domainOwner s die n ≠ 0 → domainOwner s die n ≠ grid → ends s 3 0) ∧
      (domainOwner s die n ≠ 0 → domainOwner s die n = grid →
        let busy := (Bar.read s k).wcnt ≠ 0 ∨ ∃ t < 192, mask.testBit t = true ∧
          (let p := (s.core (dieTile die t)).port
           (p.st = .armed ∨ p.st = .run) ∧ p.domain = n)
        (busy → ends s 1 0) ∧
        (¬busy → ∃ t, ends t 0 0 ∧ domainOwner t die n = 0 ∧ (Bar.read t k).v = false ∧ told s t 0 fun _ => false))) ∧
    (op = 3 → exec (.dbar d a b) s = .next (raise s ⟨.illegal, (Instr.dbar d a b).code.setWidth 64⟩))

/-! ### Pre-emption and debug (chapter 19) -/

/-- Slot tables, ports, domains and beats act and answer their status (16 R384, 16 R385, 16 R386, 16 R388, 16 R389,
16 R390, 16 R392, 16 R393, 16 R394, 16 R395, 16 R396). -/
def Obligations.ScheduledExchange : Prop := Spec.ExchangePort ∧ Spec.Domains ∧ Spec.ExchangePlane

/-- 18 R409, 19 R425, R426: DBGHALT halts and DBGRUN sets free the wave that a handle names; SVST is 2 for a handle that
names none. GPREEMPT answers 1 for such a handle, 3 for the wave's own or a supervisor's group and 2 for one that is
being saved; else it waits, and the group's save begins. -/
def Sys2Proof.Spec.PreemptionAndDebug : Prop :=
  ∀ (s : State) (d a : BitVec 6),
    let h := s.lo a.toNat
    let told (st : Nat) : State := (s.modCur fun x => { x with svst := BitVec.ofNat 64 (st * 2 ^ 56) }).advance
    (Admitted (.dbghalt a) s →
      (findWave s h = none → exec (.dbghalt a) s = .next (told 2)) ∧
      (∀ w, findWave s h = some w → exec (.dbghalt a) s = .next ((told 0).modWave w fun x => { x with halt := true }))) ∧
    (Admitted (.dbgrun a) s →
      (findWave s h = none → exec (.dbgrun a) s = .next (told 2)) ∧
      (∀ w, findWave s h = some w → exec (.dbgrun a) s = .next ((told 0).modWave w fun x => if x.halt = false then x
        else { x with halt := false, run := if x.run = .window then .ready else x.run, since := s.cyc, entered := s.cyc }))) ∧
    (Admitted (.gpreempt d a) s →
      (findWave s h = none → Spec.answers (.gpreempt d a) s d s 1 0) ∧
      ∀ w, findWave s h = some w →
        let g := (s.wave w).group
        let guarded := ∃ v ∈ groupWaves s g, v = s.curW ∨ (s.wave v).sup = true
        (guarded → Spec.answers (.gpreempt d a) s d s 3 0) ∧
        (¬guarded → beingSaved s g = true → Spec.answers (.gpreempt d a) s d s 2 0) ∧
        (¬guarded → beingSaved s g = false →
          let cap := s.reg (a.toNat + 1)
          (∀ t u, checkAccess s cap cap.addr (groupMap s g).len permST 64 .store = (.error t, u) → exec (.gpreempt d a) s = .next (raise u t)) ∧
          (∀ u, Spec.passes s cap (groupMap s g).len permST 64 .store u →
            exec (.gpreempt d a) s = .next (beginSave (park u (.reply d.toNat)) g cap s.curW d.toNat)))) ∧
    (∀ x w, findWave s x = some w → w = x.toNat % 2 ^ 20 * 32 + x.toNat / 2 ^ 20 % 32 ∧ (s.wave w).live = true ∧ (s.wave w).run ≠ .ended ∧
      (Tbl.get 0 (s.core (x.toNat % 2 ^ 20)).wtag (x.toNat / 2 ^ 20 % 32)).toNat = x.toNat / 2 ^ 32 % 2 ^ 16)

/-- 19 R417, R418, R423, R424: a save ends when the group is at rest: the image is written, what the group held is free,
and the group waits to be restored; a group whose waves are gone is not saved. A restore of a group whose grid is
gone drops it, and of an image that cannot be read or is not that group's ends its grid. A group that no core can ever hold is
discarded: its grid completes with NO_FIT, and goes on without it. -/
def Sys2Proof.Spec.SavesAndRestores : Prop :=
  ∀ (s : State) (c n : Nat),
    (Tbl.get? s.groups n = none → exec (.saveComplete n) s = .next s) ∧
    (∀ g, Tbl.get? s.groups n = some g → g.saving = none → exec (.saveComplete n) s = .next s) ∧
    (∀ g image w d, Tbl.get? s.groups n = some g → g.saving = some (image, w, d) →
      (groupWaves s n = [] → exec (.saveComplete n) s = .next (wakeAgent { s with groups := Tbl.set s.groups n { g with saving := none } }
        { agent := .wave w, d := d, value := BitVec.ofNat 64 (2 ^ 56) })) ∧
      (groupWaves s n ≠ [] → saveReady s n g = false → exec (.saveComplete n) s = .next s) ∧
      (groupWaves s n ≠ [] → saveReady s n g = true →
        let f := finishSave s n g image w
        exec (.saveComplete n) s = .next (wakeAgent f.2 { agent := .wave w, d := d, value := BitVec.ofNat 64 f.1 }) ∧
        ∃ v, f.2.saved = s.saved ++ [v] ∧ v.grid = g.grid ∧ v.gidx = g.gidx ∧ v.image = image.addr ∧ Tbl.get? f.2.groups n = none)) ∧
    (s.saved[n]? = none → exec (.restore c n) s = .next s) ∧
    (∀ v, s.saved[n]? = some v →
      (s.grid? v.grid = none → exec (.restore c n) s = .next { s with saved := s.saved.erase v }) ∧
      (∀ g, s.grid? v.grid = some g →
        (∀ u, readImage s v 64 = (none, u) → exec (.restore c n) s = .next (killGrid u v.grid).2) ∧
        (∀ b u, readImage s v 64 = (some b, u) → imageBad b g.record = true → exec (.restore c n) s = .next (killGrid u v.grid).2) ∧
        (∀ b b1 bs u u1 u2, readImage s v 64 = (some b, u) → imageBad b g.record = false →
          readImage u v (if imgNwin b = 0 then imgWins b g.record else imgWins b g.record + 64) = (some b1, u1) →
          let ws := (List.range (imgNwin b)).map fun i => imgWindow (imgWord b1 (imgWins b g.record + 8 * i))
          let ever := (liveDies u1).any fun d => (dieCores d).any (restoreEver u1 g.record (imgSoff b))
          (ever = false → exec (.restore c n) s = .next
            (endGroup (({ u1 with saved := u1.saved.erase v } : State).modGrid v.grid fun y => { y with nofit := true }) v.grid v.gidx)) ∧
          (ever = true → restoreNow u1 v g.record b ws c = false → exec (.restore c n) s = .next u1) ∧
          (ever = true → restoreNow u1 v g.record b ws c = true →
            readImage u1 v (imageMap g.record (recScratchLen g.record) (imgCtx b) (ws.map (·.2.sizeu))).len = (some bs, u2) →
            ∃ t, exec (.restore c n) s = .next t ∧ t = rebuild u2 v g c bs ws ∧ t.saved = u2.saved.erase v ∧
              ∃ x, Tbl.get? t.groups u2.groupNo = some x ∧ x.grid = v.grid ∧ x.gidx = v.gidx ∧ x.core = c))))

/-! ### Dies (chapter 21) -/

/-- GPREEMPT, DBGHALT and DBGRUN act on the wave or group named; saves and restores complete (18 R409, 19 R417, 19
R418, 19 R423, 19 R424, 19 R425, 19 R426). -/
def Obligations.PreemptionSavesAndDebug : Prop := Spec.PreemptionAndDebug ∧ Spec.SavesAndRestores

/-- The standby of a master: the lowest live die of another package, else the lowest other live die (21 R445). -/
def Sys2Proof.Spec.standbyOf (s : State) (m : Nat) : Option Nat :=
  ((liveDies s).find? fun d => decide (d / 4 ≠ m / 4)).or ((liveDies s).find? fun d => decide (d ≠ m))

/-- 21 R441, R443 to R445, R447: the lease clocks of a die that is not the reference move by a tick as long as every two stay
within their bounds; a fence of dies that are gone does nothing; of live ones, none is live after it and the others are as
before. A master that survives stays; when it is lost the standby becomes master, or the lowest live die when both are lost;
when either is lost a new standby is chosen and every package's EPOCH counts one more. -/
def Obligations.DiesAndFences : Prop :=
  ∀ (s : State) (d : Nat) (cut ahead : Bool) (ds : List Nat),
    (let k := (s.die d).skew + (if ahead then -1 else 1)
     let ok := dieLive s d = true ∧ pkgPresent s (d / 4) = true ∧ d ≠ referenceDie s ∧ skewHeld s d k = true
     (¬ok → exec (.leaseSync d ahead) s = .next s) ∧
      (ok → exec (.leaseSync d ahead) s = .next (({ s with ahead := s.ahead + if ahead then 1 else 0 } : State).modDie d fun x => { x with skew := k }))) ∧
    exec (.leaseBoundTimeout d) s = exec (.dieFence [d] false) s ∧
    ((∀ e ∈ ds, e ∉ liveDies s) → exec (.dieFence ds cut) s = .next s) ∧
    ((∃ e ∈ ds, e ∈ liveDies s) → ∃ t, exec (.dieFence ds cut) s = .next t ∧ (∀ e ∈ ds, e ∈ liveDies s → dieLive t e = false) ∧
      (∀ e, e ∉ ds → dieLive t e = dieLive s e) ∧
      (dieLive t s.master = true → t.master = s.master) ∧
      (∀ b, dieLive t s.master = false → s.standby = some b → dieLive t b = true → t.master = b) ∧
      (dieLive t s.master = false → (∀ b, s.standby = some b → dieLive t b = false) → t.master = (liveDies t).headD 0) ∧
      (let lost := dieLive t s.master = false ∨ ∃ b, s.standby = some b ∧ dieLive t b = false
       (¬lost → t.standby = s.standby ∧ t.packages = s.packages) ∧
       (lost → t.standby = Spec.standbyOf t t.master ∧
         ∀ p, pkgPresent s p = true → (t.package p).epoch = ((s.package p).epoch + 1) % 256)) ∧
      (liveDies t ≠ [] → dieLive t t.master = true))

/-! ### The host (chapter 22) -/

/-- 22 R453, R454: a launch slot takes a record of 8 words, handles it as LAUNCH does with depth 1 and no parent, and the
distributor answers: LRES is written, and then the slot's bit clears; a busy slot, or a record that is not whole, sets the
slot's error bit; error bits clear by writing ones. Before bring-up nothing of it acts. -/
def Sys2Proof.Spec.LaunchSlots : Prop :=
  ∀ (s : State) (n : Nat) (r : List Word) (v : Word),
    (s.up = false → exec (.launchSlotSubmit n r) s = .next s ∧ exec (.sloterrClear v) s = .next s) ∧
    (s.up = true → n < 64 → r.length ≠ 8 ∨ s.bar0.slotst.getLsbD n = true → exec (.launchSlotSubmit n r) s = .next
      { s with bar0 := { s.bar0 with sloterr := s.bar0.sloterr ||| BitVec.ofNat 64 (2 ^ n) } }) ∧
    (s.up = true → n < 64 → r.length = 8 → s.bar0.slotst.getLsbD n = false →
      let ends (u : State) (st h : Nat) (made : Option (Nat × Option Nat)) : Prop := exec (.launchSlotSubmit n r) s = .next
        { u with bar0 := { u.bar0 with slotst := u.bar0.slotst ||| BitVec.ofNat 64 (2 ^ n) }
                 net := { u.net with replies2 := u.net.replies2 ++
                   [{ agent := .none, d := n, value := BitVec.ofNat 64 (st * 2 ^ 56 + h), made := made }] } }
      let asid := (Tbl.get 0 s.bar0.slotctl n).toNat % 2 ^ 12
      let good := recordBad s r = false ∧ recKind r ≠ 2
      let place := if recKind r = 1 then queuePlace s r 0 asid else (some 0, s)
      let u := place.2
      (recordBad s r = true ∨ recKind r = 2 → ends s 1 0 none) ∧
      (good → place.1 = none → ends u 1 0 none) ∧
      ∀ q, good → place.1 = some q →
        (someCoreFits u r = false → ends u 5 0 none) ∧
        (someCoreFits u r = true → 4096 ≤ u.grids.length → ends u 3 0 none) ∧
        (someCoreFits u r = true → u.grids.length < 4096 → ∃ h t, ends t 0 h (some (h, none)) ∧ h ≠ 0 ∧ h < 2 ^ 32 ∧
          (u.grid? h = none → ∃ y, t.grid? h = some y ∧ y.record = r ∧ y.depth = 1 ∧ y.parent = 0 ∧ y.asid = asid ∧
            y.groups = recGroups r ∧ y.st = .pending ∧ (recKind r = 1 → y.qkey = q)) ∧
          (recKind r = 0 → ∃ new, t.tasks = u.tasks ++ new ∧ (∀ k ∈ new, k.grid = h) ∧ ∀ j, (∃ k ∈ new, k.lo ≤ j ∧ j < k.hi) ↔ j < recGroups r) ∧
          (recKind r = 1 → t.tasks = u.tasks))) ∧
    (∀ k, s.net.replies2[n]? = some k → k.agent = .none → exec (.distributorReply n) s = .next
      { s with net := { s.net with replies2 := dropAt s.net.replies2 n }
               bar0 := { s.bar0 with lres := Tbl.set s.bar0.lres k.d k.value, slotst := s.bar0.slotst &&& ~~~(BitVec.ofNat 64 (2 ^ k.d)) } }) ∧
    (s.up = true → exec (.sloterrClear v) s = .next { s with bar0 := { s.bar0 with sloterr := s.bar0.sloterr &&& ~~~v } })

/-- 22 R453, R455, R456, R460, R461: a tagged write goes to its home with its tag; an invalidation drops the translations it
names; a register of BAR0 or of the management map takes the bits that are its own, and reads as it stands. Before bring-up
BAR0 takes no write. That the place after BAR0's 64 KiB stands for HDMB is the model's choice (log 48). -/
def Sys2Proof.Spec.HostRegisters : Prop :=
  ∀ (s : State) (off : Nat) (v : Word) (tag : Bool),
    (s.up = false → exec (.taggedWrite tag) s = .next s ∧ exec (.tlbInvalidate v) s = .next s ∧
      (off ≠ 0x1_0000 → exec (.registerWrite false off v) s = .next s) ∧ exec .warmReset s = .next s) ∧
    (s.up = true → s.bar0.tgbusy ≠ none → exec (.taggedWrite tag) s = .next s) ∧
    (s.up = true → s.bar0.tgbusy = none → exec (.taggedWrite tag) s = .next { s with bar0 :=
      { s.bar0 with tgtag := tag, tgbusy := some (s.bar0.tgaddr.toNat / 2 ^ 4 % 2 ^ 44 * 16, ⟨tag, s.bar0.tghi, s.bar0.tglo⟩) } }) ∧
    (s.bar0.tgbusy = none → exec .taggedWriteDone s = .next s) ∧
    (∀ k c, s.bar0.tgbusy = some (k, c) → ∃ t, exec .taggedWriteDone s = .next t ∧ t.bar0.tgbusy = none ∧ t.bar0.tgerr = !paStorage s k ∧
      (paStorage s k = false ∨ homeBad s k = true → t.mem = s.mem ∧ t.tags = s.tags) ∧
      (paStorage s k = true → homeBad s k = false → 16 ∣ k → Spec.plain s → Spec.noDeque s →
        readTag t k = c.tag ∧ readNat t.mem k 8 = c.lo.toNat ∧ readNat t.mem (k + 8) 8 = c.hi.toNat)) ∧
    (s.up = true → exec (.tlbInvalidate v) s = .next (if s.bar0.tlbinv.getLsbD 63 then s else { s with bar0 := { s.bar0 with tlbinv := v &&& tlbinvMask } })) ∧
    (s.bar0.tlbinv.getLsbD 63 = false → exec .tlbInvalidateDone s = .next s) ∧
    (s.bar0.tlbinv.getLsbD 63 = true → ∃ t, exec .tlbInvalidateDone s = .next t ∧ t.bar0.tlbinv.getLsbD 63 = false ∧ t.mem = s.mem ∧
      (s.bar0.tlbinv.getLsbD 62 = true → s.bar0.tlbinv.getLsbD 61 = true → ∀ d, (t.die d).tlb = [] ∧ (t.vat d).tlb = [] ∧ (t.core d).utlb = [])) ∧
    (let w (o : Nat) (t : State) : Prop := s.up = true → exec (.registerWrite false o v) s = .next t
     let bar (f : Bar0 → Bar0) : State := { s with bar0 := f s.bar0 }
     (∀ j < 4096, w j (bar fun b => { b with sloterr := b.sloterr ||| BitVec.ofNat 64 (2 ^ (j / 64)) })) ∧
      w 0x1008 (bar fun b => { b with sloterr := b.sloterr &&& ~~~v }) ∧
      (∀ j < 64, w (0x1100 + 8 * j) (bar fun b => { b with slotctl := Tbl.set b.slotctl j (v &&& 0xF_0FFF) })) ∧
      w 0x2000 (if s.bar0.ercfg.getLsbD 5 then s else bar fun b => { b with erbase := v &&& 0xFFFF_FFFF_FFFF }) ∧
      w 0x2008 (bar fun b => { b with ercfg := BitVec.ofNat 64 ((if v.getLsbD 5 then 32 else 0) +
        if b.ercfg.getLsbD 5 then b.ercfg.toNat % 32 else max 4 (min 20 (v.toNat % 32))) }) ∧
      w 0x2018 (bar fun b => { b with ertail := v.toNat % 2 ^ 32 }) ∧
      (let counted : Word := if v.toNat / 2 ^ 32 % 2 ^ 16 = 0 then (v &&& 0x8000_FFFF_FFFF_FFFF) ||| 0x1_0000_0000 else v &&& 0x8000_FFFF_FFFF_FFFF
       ∀ j < 16, w (0x2100 + 8 * j) (bar fun b => { b with icoal := Tbl.set b.icoal j counted })) ∧
      w 0x3000 (bar fun b => { b with tgaddr := v &&& 0xFFFF_FFFF_FFF0 }) ∧
      w 0x3008 (bar fun b => { b with tglo := v }) ∧ w 0x3010 (bar fun b => { b with tghi := v }) ∧
      (v.getLsbD 1 = false → w 0x3018 (bar fun b => { b with tgtag := v.getLsbD 0 })) ∧
      (s.up = true → v.getLsbD 1 = true → exec (.registerWrite false 0x3018 v) s = exec (.taggedWrite (v.getLsbD 0)) s) ∧
      exec (.registerWrite false 0x3100 v) s = exec (.tlbInvalidate v) s ∧
      w 0x3108 (bar fun b => { b with asidbase := v &&& 0xFFFF_FFFF_0000 }) ∧
      (v.getLsbD 0 = false → w 0x3200 (bar fun b => { b with devctl := 0 })) ∧
      (s.up = true → v.getLsbD 0 = true → exec (.registerWrite false 0x3200 v) s = exec .warmReset (bar fun b => { b with devctl := 1 })) ∧
      exec (.registerWrite false 0x1_0000 v) s = .next { s with ctrl := { s.ctrl with hdmb := v.toNat } }) ∧
    (let r (o : Nat) (x : Word) : Prop := readBar0 s o = x
     r 0x1000 s.bar0.slotst ∧ r 0x1008 s.bar0.sloterr ∧ (∀ j < 64, r (0x1100 + 8 * j) (Tbl.get 0 s.bar0.slotctl j) ∧ r (0x1400 + 8 * j) (Tbl.get 0 s.bar0.lres j)) ∧
      (∀ j < 4096, r j 0) ∧ r 0x2000 s.bar0.erbase ∧ r 0x2008 s.bar0.ercfg ∧ r 0x2010 (BitVec.ofNat 64 s.bar0.erhead) ∧ r 0x2018 (BitVec.ofNat 64 s.bar0.ertail) ∧
      r 0x3000 s.bar0.tgaddr ∧ r 0x3008 s.bar0.tglo ∧ r 0x3010 s.bar0.tghi ∧ r 0x3100 s.bar0.tlbinv ∧ r 0x3108 s.bar0.asidbase ∧ r 0x3200 s.bar0.devctl ∧
      r 0x3018 (BitVec.ofNat 64 ((if s.bar0.tgerr then 8 else 0) + (if s.bar0.tgbusy = none then 0 else 4) + (if s.bar0.tgtag then 1 else 0)))) ∧
    (∀ e, pkgPresent s (e / 4) = true →
      let w (o : Nat) (t : State) : Prop := exec (.registerWrite true (e * 0x10_0000 + o) v) s = .next t
      (let mcfg := v.toNat / 2 ^ 24 % 2 ^ 8 * 2 ^ 24 + max 16 (min 1000 (v.toNat / 2 ^ 11 % 2 ^ 10)) * 2 ^ 11 + v.toNat % 2
       w 0x0 (s.modDie e fun x => { x with mcfg := BitVec.ofNat 64 mcfg })) ∧
      w 0x8 (if e % 4 = 0 then { s with packages := Tbl.set s.packages (e / 4) { s.package (e / 4) with dircfg := v &&& 0xFFFF_FFFF_FFF8_0000 } } else s) ∧
      (∃ t, w 0x10 t ∧ (t.die e).dbud.toNat % 2 ^ 40 = v.toNat % 2 ^ 40 ∧ t.mem = s.mem ∧
        (t.die e).dbud.toNat / 2 ^ 40 = ((refillOf s (dieCore e 0 0)).die e).dbud.toNat / 2 ^ 40) ∧
      w 0x18 (s.modDie e fun x => { x with ecost := v }) ∧
      ∀ n < 48, let i := dieCore e (2 * (n % 8)) (2 * (n / 8))
        (∃ t, w (0x4000 + 16 * n) t ∧ (t.vat i).vbud.toNat % 2 ^ 40 = v.toNat % 2 ^ 40 ∧ t.mem = s.mem ∧
          (t.vat i).vbud.toNat / 2 ^ 40 = ((refillOf s i).vat i).vbud.toNat / 2 ^ 40) ∧
        (let psl := if v.toNat % 32 = 0 ∨ 16 < v.toNat % 32 then 16 else v.toNat % 32
         w (0x4008 + 16 * n) (s.modVat i fun x => { x with vpol := BitVec.ofNat 64 (v.toNat / 2 ^ 8 % 2 ^ 8 * 2 ^ 8 + psl) })))

/-- 10 R274, 22 R451: the host reads and writes package storage, at its address less HDMB, once the decoder is on, line by
line; what it writes loses its tags. -/
def Sys2Proof.Spec.HostMemory : Prop :=
  ∀ (s : State) (pa n : Nat) (bs : List Byte),
    let k := pa - s.ctrl.hdmb
    let stored := Spec.plain s ∧ s.up = true ∧ s.ctrl.hdmb ≤ pa ∧ k / 2 ^ 40 ≠ 0xFF ∧ paStorage s k = true ∧ homeBad s k = false
    (s.up = false ∨ pa < s.ctrl.hdmb → exec (.hostMemWrite pa bs) s = .next s) ∧
    (∃ l t, exec (.hostMemRead pa n) s = .next t ∧ t.ctrl = { s.ctrl with reads := s.ctrl.reads ++ [l] } ∧
      (stored → k % 128 + n ≤ 128 → l = readBytes s.mem k n)) ∧
    (stored → Spec.noDeque s → 0 < bs.length → k % 128 + bs.length ≤ 128 →
      ∃ t, exec (.hostMemWrite pa bs) s = .next t ∧ t.mem = writeBytes s.mem k bs ∧ t.tags = clearTags s.tags k bs.length)

/-- The host's registers, launch slots and memory accesses act once the machine is up (22 R451, 22 R453, 22 R454, 22
R455, 22 R456, 22 R460, 22 R461, 10 R274). Where HDMB stands is the model's choice (log 48). -/
def Obligations.HostAccess : Prop := Spec.LaunchSlots ∧ Spec.HostRegisters ∧ Spec.HostMemory

/-- 22 R455, R459, R462, R465: a vector fires ITIME after its oldest record; the limits: a droop stretches a vat's clock until
it recovers; currents over 3,500 A and 4,000 A cap and halve a package; 105 degrees makes a vat hot and 115 fences its die; a
sample sets TEMP and the rails of its package, the core rail's current as the limit was told it, and nothing that a program
reads but those. The source and code numbers of the log's entries are the model's choice (log 8). -/
def Sys2Proof.Spec.Limits : Prop :=
  ∀ (s : State) (v p n : Nat) (k : Int),
    ((s.vat v).stretched = true → exec (.droopDetect v) s = .next s) ∧
    ((s.vat v).stretched = false → exec (.droopDetect v) s = .next (logEvent (s.modVat v fun x => { x with stretched := true }) 2 1) ∧ exec (.droopRecover v) s = .next s) ∧
    ((s.vat v).stretched = true → exec (.droopRecover v) s = .next (logEvent (s.modVat v fun x => { x with stretched := false }) 2 0)) ∧
    (∃ t, exec (.currentLimit p n) s = .next t ∧ ((t.package p).capped = true ↔ 3500 < n) ∧
      (∀ d, d / 4 = p → ((s.die (4 * p)).halved = (s.die d).halved) → ((t.die d).halved = true ↔ 4000 < n)) ∧ t.mem = s.mem ∧ t.waves = s.waves) ∧
    (k < 920 → ∃ t, exec (.thermalLimit v k) s = .next t ∧ ((t.vat v).hot = true ↔ 840 ≤ k) ∧ (t.vat v).temp = k ∧ t.waves = s.waves) ∧
    (920 ≤ k → coreDie v ∈ liveDies s → ∃ t, exec (.thermalLimit v k) s = .next t ∧ dieLive t (coreDie v) = false) ∧
    (∃ t, exec (.sensorSample v k) s = .next t ∧ (t.vat v).temp = k ∧ t.mem = s.mem ∧ t.waves = s.waves ∧
      ∀ a, Tbl.get? s.ctrl.sensors (corePkg v) = some a → Tbl.get 0 t.ctrl.rails (256 * corePkg v + 1) = a) ∧
    (let due := ∃ o, Tbl.get? s.bar0.oldest n = some o ∧ (icoal s n).getLsbD 63 = true ∧ (icoal s n).toNat % 2 ^ 32 ≠ 0 ∧ o + (icoal s n).toNat % 2 ^ 32 ≤ leaseNow s 0
     (due → exec (.vectorTimeFire n) s = .next (fireVector s n)) ∧ (¬due → exec (.vectorTimeFire n) s = .next s))

/-- 07 R183, 22 R463 to R469: an image goes to the inactive bank and boots next if the certificate over its digest and its
version pass; an attestation sends the measurements and the nonce, signed; a machine that is up ignores power on and a boot
time-out; else it boots the bank, finds the rectangle of packages and comes up, or does not; a warm reset boots the marked
bank; a repair only takes away, and leaves the core's waves as they are, which is the model's choice (log 5). How a
certificate is checked and signed is left open (log 8). -/
def Sys2Proof.Spec.Management : Prop :=
  ∀ (s : State) (bs : List Byte) (n c : Nat) (w : Word),
    (∃ t, exec (.firmwareUpdate bs n) s = .next t ∧ Tbl.get [] t.ctrl.banks (1 - s.ctrl.active) = Config.images bs ∧ t.ctrl.active = s.ctrl.active ∧
      t.ctrl.next = (if Config.signatureOk bs (shake256 bs) = true ∧ s.ctrl.minVersion ≤ n then 1 - s.ctrl.active else s.ctrl.active) ∧ t.waves = s.waves) ∧
    (bs.length ≠ 32 → exec (.attestation bs) s = .next s) ∧
    (bs.length = 32 → exec (.attestation bs) s = .next { s with ctrl := { s.ctrl with sent :=
      s.ctrl.sent ++ [measurements s.ctrl ++ bs ++ Config.sign (measurements s.ctrl ++ bs)] } }) ∧
    (s.up = true → exec .standbyPowerOn s = .next s ∧ exec .bootTimeout s = .next s) ∧
    (s.up = false → Tbl.get? s.ctrl.records s.ctrl.next = none → ∃ t, exec .standbyPowerOn s = .next t ∧ t.up = true ∧ t.mem = s.mem ∧ t.tags = s.tags ∧ t.waves = s.waves ∧
      t.ctrl.active = s.ctrl.next ∧ (t.nx, t.ny) = rectangle ∧ t.master = (liveDies t).headD 0 ∧ t.standby = Spec.standbyOf t t.master ∧ t.bar0.slotst = 0) ∧
    (s.up = false → Tbl.get? s.ctrl.records (1 - s.ctrl.active) = none → ∃ t, exec .bootTimeout s = .next t ∧ t.up = true ∧ t.ctrl.active = 1 - s.ctrl.active ∧ (t.nx, t.ny) = rectangle) ∧
    (s.up = true → s.grids = [] → s.groups = [] → Tbl.get? s.ctrl.records s.ctrl.next = none →
      ∃ t, exec .warmReset s = .next t ∧ t.up = true ∧ t.mem = s.mem ∧ t.tags = s.tags ∧ t.ctrl.active = s.ctrl.next) ∧
    (∃ t, exec (.fieldRepair c w) s = .next t ∧ t = s.modCore c (fun _ => t.core c) ∧
      let old := (s.core c).capw.toNat
      let new := (t.core c).capw.toNat
      new / 2 ^ 37 % 2 ^ 6 = min (old / 2 ^ 37 % 2 ^ 6) (w.toNat / 2 ^ 37 % 2 ^ 6) ∧ new / 2 ^ 27 % 2 ^ 10 = min (old / 2 ^ 27 % 2 ^ 10) (w.toNat / 2 ^ 27 % 2 ^ 10) ∧
      new / 2 ^ 16 % 2 ^ 11 = min (old / 2 ^ 16 % 2 ^ 11) (w.toNat / 2 ^ 16 % 2 ^ 11) ∧
      ((t.core c).capw.getLsbD 47 = ((s.core c).capw.getLsbD 47 && w.getLsbD 47)))

/-- Limits, firmware, attestation, bring-up and repair act as stated (07 R183, 22 R459, 22 R462, 22 R463, 22 R464,
22 R465, 22 R467, 22 R469). The source and code numbers of log entries (log 8) and that a repair leaves the
waves as they are (log 5) are the model's choice, and proved as such. -/
def Obligations.PlatformManagement : Prop := Spec.Limits ∧ Spec.Management

/-! ### Registers, reset, steps and words -/

/-- 01 R8, R9, 02 R65: c0 reads as zero bits without a tag whatever was written to it, and m0 of a context as 0; another
register holds what was written last; no other register, wave or byte changes; data has tag 0 and a high half of 0. -/
def Obligations.RegistersHoldWhatWasWritten : Prop :=
  ∀ (s : State) (w v n : Nat) (c : Cap) (x : Word),
    (s.cur = .wave w →
      (∀ k, (s.setReg n c).reg k = if k = 0 then ⟨false, 0, 0⟩ else if k = n then c else s.reg k) ∧
      (∀ k, (s.setData n x).reg k = if k = 0 then ⟨false, 0, 0⟩ else if k = n then ⟨false, 0, x⟩ else s.reg k) ∧
      (∀ u, u ≠ w → (s.setReg n c).wave u = s.wave u) ∧ (s.setReg n c).pc = s.pc ∧ (s.setReg n c).mem = s.mem ∧ (s.setReg n c).tags = s.tags) ∧
    (s.cur = .ctx v w →
      (∀ k, (s.setReg n c).reg k = if k = 0 then ⟨false, 0, 0⟩ else if k = n then ⟨false, 0, c.lo⟩ else s.reg k) ∧ (s.setReg n c).mem = s.mem)

/-- The values that the spec gives for reset: 15 R359, R361 (RAYCFG, RAYOVF), 08 R211 (MCFG), 12 R284, R302 (command
words, event matrix), 13 R306, R309 (accumulators, contexts), 15 R363 (DIRCFG), 18 R406, R407 (mailboxes, WDOG), 22 R455, R467
(BAR0, not up). Registers of which no rule gives a value are not named here. -/
def Obligations.ResetValues : Prop :=
  let s := State.reset
  (∀ c, (s.core c).raycfg.toNat % 2 ^ 9 = 256 ∧ (s.core c).raycfg.toNat / 2 ^ 32 % 2 ^ 5 = 16 ∧ (s.core c).raycfg.toNat / 2 ^ 37 % 2 ^ 3 = 6 ∧
    (s.core c).raycfg.toNat / 2 ^ 40 % 2 ^ 8 = 16 ∧ (s.core c).rayovf = 0 ∧ (s.core c).inbox = [] ∧ (s.core c).fifo = [] ∧ (s.core c).sgb = [] ∧
    (s.core c).hprog = none ∧ (∀ n, Tbl.get 0 (s.core c).ccmd n = 0) ∧ (s.core c).port.st = .idle) ∧
  (∀ v, (∀ n, Tbl.get 0 (s.vat v).rows n = 0 ∧ Tbl.get 0 (s.vat v).cnt n = 0 ∧ Tbl.get false (s.vat v).ovf n = false) ∧
    (∀ n, (s.ctx v n).st = .free) ∧ (∀ i, acfAt s v i = ⟨0, 0, 0⟩) ∧ (s.vat v).wins = [] ∧ (s.vat v).vpol.toNat % 2 ^ 5 = 16) ∧
  (∀ d, (s.die d).mcfg.toNat / 2 ^ 24 % 2 ^ 8 = 16 ∧ (s.die d).mcfg.toNat / 2 ^ 11 % 2 ^ 10 = 128 ∧ (s.die d).mcfg.getLsbD 0 = true ∧
    (s.die d).mailbox = [] ∧ (s.die d).naks = 0 ∧ (s.die d).wdog = 0 ∧ (s.die d).tlb = []) ∧ (∀ v, (s.vat v).tlb = []) ∧ (∀ c, (s.core c).utlb = [] ∧ (s.core c).icache = []) ∧
  (∀ p, (s.package p).dircfg = 0 ∧ (s.package p).epoch = 0) ∧
  (∀ w, (s.wave w).live = false) ∧ s.grids = [] ∧ s.groups = [] ∧ s.tasks = [] ∧ s.up = false ∧ s.bar0.ercfg = 0 ∧ s.bar0.sloterr = 0

/-- Log 3: memory and tags list nothing at reset, which is their canonical form. -/
def Obligations.ResetMemoryForm : Prop := State.reset.MemOk ∧ State.reset.mem = [] ∧ State.reset.tags = []

/-- 01 R32, R35: the step of an agent fetches the word at its PC, by the checks of an access, and executes the
instruction that the word decodes to, or raises what the word or the fetch raises. What the model's step adds (log 1):
an agent chosen from outside moves when nothing is urgent and it is its turn; `settle` marks a wave or context that must
try again and notes what it has taken of the cycle; where nothing moves, `tick` ends the cycle. From scratch the word is
the four bytes at the PC. -/
def Obligations.StepRunsTheDecodedInstruction : Prop :=
  ∀ (s v : State) (a : Agent) (w : W32),
    let s0 : State := { s with agenda := s.agenda.drop 1 }
    let u := begin_ s0 a
    (∀ r, s.agenda = .agent a :: r → (urgentSteps s).find? (acts s) = none → allowed s a = true → pick s = .agent a) ∧
    (∀ i, pick s = .agent a → fetchAt u u.pc u.pc.addr = (.ok w, v) → decode w = .ok i → step s = onNext (exec i v) (settle s0 a)) ∧
    (∀ e, pick s = .agent a → fetchAt u u.pc u.pc.addr = (.ok w, v) → decode w = .error e → step s = onNext (exec (.illegalInstruction w) v) (settle s0 a)) ∧
    (∀ t, pick s = .agent a → fetchAt u u.pc u.pc.addr = (.error t, v) → step s = .next (settle s0 a (raise v t))) ∧
    (pick s = .idle → step s = .next (tick s0)) ∧
    (∀ k, checkCap u.pc u.pc.addr 4 permEX 4 = none → window u u.curCore u.curAsid u.pc.addr .fetch = (some ⟨k, none⟩, u) → isScratch k = true →
      homeLost u k = false →
      ∃ v, fetchAt u u.pc u.pc.addr = (.ok (BitVec.ofNat 32 (readNat u.mem k 4)), v) ∧ v.mem = u.mem ∧ v.waves = u.waves)

/-- 02 R63, 04 R103, R106 and the encodings of chapters 2 to 19: some words, written out in hexadecimal, and the
instructions they are. -/
def Obligations.WordsOfTheSpec : Prop :=
  decode 0x2C948D16 = .ok (.lui 9 0x48D16) ∧ decode 0x08926789 = .ok (.addi 9 9 0x2789) ∧ decode 0x3C004000 = .ok (.jalr 0 1) ∧
  decode 0xDC9000C8 = .ok (.fence 9 0 6) ∧ decode 0xF4124005 = .ok (.gets 9 5) ∧ decode 0xF4307FFF = .ok (.cwait 0 31 31 31) ∧
  (∃ e, decode 0x00000000 = .error e) ∧ (∃ e, decode 0xFFFFFFFF = .error e)

/-- 02 R45 to R62: decoding the word of a well-formed instruction gives it back, with every operand. -/
def Obligations.DecodingAnEncodedInstruction : Prop :=
  ∀ (i : Instr) (w : W32), wellFormed i = true → encode i = some w → decode w = .ok i

/-- 02 R63: a word has one meaning: what it decodes to is well formed and is encoded as that word and no other. -/
def Obligations.EncodingADecodedWord : Prop :=
  ∀ (i : Instr) (w : W32), decode w = .ok i → wellFormed i = true ∧ encode i = some w

/-- The model's own promise (log 1): an instruction that an agent executes has a next state, whatever its operands
and the state: no data ends a run. -/
def Obligations.EveryInstructionAnswers : Prop :=
  ∀ (i : Instr) (s : State), s.cur ≠ .none → ∃ t, exec i s = .next t

/-- The model's own promise (log 1): where nothing is chosen from outside, every state has a next one. -/
def Obligations.TheMachineGoesOn : Prop := ∀ s : State, s.alone → GoesOn s

/-- Log 3: every step keeps memory and tags in their canonical form. -/
def Obligations.StepsKeepMemoryForm : Prop := ∀ s t : State, s.MemOk → step s = .next t → t.MemOk

/-- The data register that a scalar instruction of these families writes. -/
def Sys2Proof.Spec.scalarDest : Instr → Option (BitVec 6)
  | .add d _ _ _ | .sub d _ _ _ | .mul d _ _ _ | .mulh d _ _ _ | .mulhu d _ _ _ | .div d _ _ _ | .divu d _ _ _ | .rem d _ _ _ | .remu d _ _ _
  | .and d _ _ _ | .or d _ _ _ | .xor d _ _ _ | .andn d _ _ _ | .sll d _ _ _ | .srl d _ _ _ | .sra d _ _ _ | .ror d _ _ _ | .min d _ _ _
  | .max d _ _ _ | .minu d _ _ _ | .maxu d _ _ _ | .slt d _ _ _ | .sltu d _ _ _ | .seq d _ _ _ | .sne d _ _ _ => some d
  | .clz d _ _ | .ctz d _ _ | .popc d _ _ | .brev d _ _ | .addi d _ _ | .andi d _ _ | .ori d _ _ | .xori d _ _ | .slti d _ _ | .sltiu d _ _ => some d
  | .slli d _ _ _ | .srli d _ _ _ | .srai d _ _ _ => some d
  | .lui d _ | .auipc d _ => some d
  | .cinc d _ _ | .cinci d _ _ | .cperm d _ _ | .cfmt d _ _ | .cfld d _ _ | .csubc d _ _ => some d
  | .cclrt d _ | .ctest d _ => some d
  | .fadd d _ _ _ | .fsub d _ _ _ | .fmul d _ _ _ | .fdiv d _ _ _ | .ffma d _ _ _ | .fcmp d _ _ _ | .fsgn d _ _ _ => some d
  | .fsqrt d _ _ | .fmin d _ _ | .fmax d _ _ => some d
  | .fcvt d _ _ _ => some d
  | .fclass d _ => some d
  | _ => none

/-- 04 R97, R99 to R118: the frame of the scalar instructions: when one of a wave takes its own effect, every other register
of the wave, every vector lane, NC, BK and FMODE, every other wave, every byte of memory and every tag, every core and vat
stand as before. -/
def Obligations.ScalarFrame : Prop :=
  ∀ (s t : State) (i : Instr) (d : BitVec 6) (w : Nat), Spec.scalarDest i = some d → s.cur = .wave w → Admitted i s → exec i s = .next t →
    (∀ n, n ≠ d.toNat → t.reg n = s.reg n) ∧ (t.wave w).v = (s.wave w).v ∧ (t.wave w).nc = (s.wave w).nc ∧ (t.wave w).bk = (s.wave w).bk ∧
    (t.wave w).fmode = (s.wave w).fmode ∧ (∀ u, u ≠ w → t.wave u = s.wave u) ∧ (∀ k, readByte t.mem k = readByte s.mem k) ∧ t.tags = s.tags ∧ t.cores = s.cores ∧ t.vats = s.vats

/-! ### Forms that complete -/

/-- 12 R299 to R304, 04 R127, 05 R143, R144, 19 R425, R426: where these instructions take their own effect: events are
set, cleared, read and fired; a stream is bound, unbound, and popped once what it names has landed and nothing holds the
bytes back; EXIT ends the wave once its loads have come in (log 46); LAUNCH of a good record of KIND 0 makes its grid; GPREEMPT begins a save; DBGHALT and
DBGRUN act on the wave named. -/
def Sys2Proof.Spec.InstructionsComplete : Prop :=
  ∀ (s : State) (n : BitVec 3) (d a b : BitVec 6),
    let c := s.curCore
    let v := coreVat c
    let x := s.lo a.toNat
    let row := x.toNat % 64
    let t := Tbl.get {} (s.core c).streams a.toNat
    let popped (u : State) (t : Stream) : State := u.modCore u.curCore fun k => { k with streams := Tbl.set k.streams a.toNat t }
    ((s.vat v).fired ≠ some s.cyc → Admitted (.evset a b) s → exec (.evset a b) s = .next (s.modVat v fun y => { y with rows := Tbl.set y.rows row (Tbl.get 0 y.rows row ||| s.lo b.toNat) }).advance) ∧
    ((s.vat v).fired ≠ some s.cyc → Admitted (.evclr a b) s → exec (.evclr a b) s = .next (s.modVat v fun y => { y with rows := Tbl.set y.rows row (Tbl.get 0 y.rows row &&& ~~~(s.lo b.toNat)) }).advance) ∧
    (Admitted (.evrd d a) s → x.getLsbD 6 = false → exec (.evrd d a) s = .next (s.setData d.toNat (Tbl.get 0 (s.vat v).rows row)).advance) ∧
    (Admitted (.evsig a) s → exec (.evsig a) s = .next (fire s v row).advance) ∧
    (Admitted (.cbind n a) s → t.owner = none ∨ t.owner = some s.curW →
      exec (.cbind n a) s = .next (popped s { owner := some s.curW, ch := n.toNat }).advance) ∧
    (Admitted (.cunbind a) s → t.owner = some s.curW →
      exec (.cunbind a) s = .next (s.modCore c fun k => { k with streams := Tbl.erase k.streams a.toNat }).advance) ∧
    (∀ e t' l u, Admitted (.spop d a) s → t.owner = some s.curW → popOne (s.core c) t = some (e, t') → allPlaces s [e] = (.ok [l], u) →
      (e.2.any fun p => watermarkHeld u p.1 p.2) = false → ownHeld u u.curW true l = false →
      let r := popRead u l
      exec (.spop d a) s = .next (((popped r.2.2 t').setData d.toNat (BitVec.ofNat 64 r.1)).markReg d.toNat r.2.1).advance) ∧
    (∀ es t' gs u, Admitted (.vspop d a) s → t.owner = some s.curW → popMany (s.core c) s.curWave.lanes.length t = some (es, t') →
      (wideStream t || es.any fun e => decide (e.1 = 8)) = false → allPlaces s es = (.ok gs, u) →
      (es.any fun e => e.2.any fun p => watermarkHeld u p.1 p.2) = false → ownHeld u u.curW true gs.flatten = false →
      let ls := s.curWave.lanes
      let r := gs.foldl (fun (q : List Nat × Option Nat × State) l => (q.1 ++ [(popRead q.2.2 l).1], q.2.1.or (popRead q.2.2 l).2.1, (popRead q.2.2 l).2.2)) ([], none, u)
      exec (.vspop d a) s = .next ((popped r.2.2 t').modCur fun x =>
        ((ls.zip (es.zip r.1)).foldl (fun x e => putPop x d.toNat e.1 e.2.1.1 e.2.2) (x.freshen [64 + d.toNat] ls.length)).mark (64 + d.toNat) r.2.1).advance) ∧
    (Admitted .exit s → s.curWave.loads = 0 → ∃ t, exec .exit s = .next t ∧ (t.wave s.curW).run = .ended) ∧
    (∀ p s', Spec.still s → Admitted (.launch d a) s → checkAccess s (s.reg a.toNat) (s.reg a.toNat).addr 64 permLD 64 .load = (.ok p, s') →
      Spec.joinable (noteLeaf s' p) 6 (fun _ => true) →
      let l := readKeys (Spec.joined (noteLeaf s' p) 6 fun _ => true) [p.key, p.key + 16, p.key + 32, p.key + 48]
      let w := l.2.2
      let r := wordsOf l.1
      let g := (w.grid? w.curWave.grid).getD { record := [] }
      (l.2.1 = none → w.curWave.widx = 0 → recordBad w r = false → recKind r = 0 → g.depth ≠ 10 → someCoreFits w r = true → w.grids.length < 4096 →
        let m := acceptGrid w r (g.depth + 1) w.curWave.grid g.asid g.vec 0
        Spec.replies (.launch d a) s d m.2 0 m.1 (some (m.1, none)))) ∧
    (∀ w u, Admitted (.gpreempt d a) s → findWave s x = some w →
      (∀ y ∈ groupWaves s (s.wave w).group, y ≠ s.curW ∧ (s.wave y).sup = false) → beingSaved s (s.wave w).group = false →
      Spec.passes s (s.reg (a.toNat + 1)) (groupMap s (s.wave w).group).len permST 64 .store u →
      exec (.gpreempt d a) s = .next (beginSave (park u (.reply d.toNat)) (s.wave w).group (s.reg (a.toNat + 1)) u.curW d.toNat)) ∧
    (∀ w, Admitted (.dbghalt a) s → findWave s x = some w →
      exec (.dbghalt a) s = .next ((s.modCur fun y => { y with svst := 0 }).advance.modWave w fun y => { y with halt := true })) ∧
    (∀ w, Admitted (.dbgrun a) s → findWave s x = some w → (s.wave w).halt = true → w ≠ s.curW →
      ∃ t, exec (.dbgrun a) s = .next t ∧ (t.wave w).halt = false ∧ (t.wave w).run = if (s.wave w).run = .window then .ready else (s.wave w).run)

/-- 09 R236, R241, 12 R303, 05 R144, 16 R386, 18 R404, R406, R408, 19 R418, R424, 21 R446: where these steps of the machine take
their own effect: a message that stands in flight and may arrive is taken in, a wave whose limit has passed is faulted, a
slice or a link tells its die's mailbox, a group at rest is saved, and a saved one is rebuilt on a core that takes it. That an
odd address stands for a corrected error, and what a dead link counts, is the model's choice (log 40); so are the source and the
code of a log entry (log 8). -/
def Sys2Proof.Spec.StepsComplete : Prop :=
  ∀ (s : State) (n w tile pa dir count c : Nat),
    let net (f : Net → Net) : State := { s with net := f s.net }
    (∀ e, s.net.events[n]? = some e → e.due ≤ s.cyc → exec (.eventArrive n) s = .next
      ((fireAt (net fun m => { m with events := dropAt m.events n }) e.vat e.src).modVat e.vat fun z => { z with fired := some s.cyc })) ∧
    (∀ p, s.net.posts[n]? = some p →
      let t := mailboxTake (net fun m => { m with posts := dropAt m.posts n }) p.die p.msg
      ((s.die p.die).took.1 ≠ s.cyc → p.refused = false → exec (.mailboxMessage n) s = .next t) ∧
      ((s.die p.die).took.1 ≠ s.cyc → p.refused = true → p.cyc + 1024 ≤ s.cyc → exec (.mailboxRetry n) s = .next t)) ∧
    (expired s w = true → exec (.watchdogExpire w) s = .next (waveFault (abandonWait s w) w ⟨.watchdog, (s.wave w).word.setWidth 64⟩ false)) ∧
    (paStorage s pa = true → dieLive s (coreDie tile) = true → paHome pa = tile →
      (pa % 2 = 1 → exec (.sliceEccError tile pa) s = .next (let u := s.modSlice tile fun k => { k with ecc := k.ecc + 1 }; if 1024 ∣ (u.slice tile).ecc.toNat then logEvent u 4 0 else u)) ∧
      (pa % 2 = 0 → ∃ t, exec (.sliceEccError tile pa) s = .next t ∧ (∀ k, pa / 128 * 128 ≤ k → k < pa / 128 * 128 + 128 → t.badLines.contains (lineOf k) = true))) ∧
    (dir < 4 → pkgPresent s (corePkg tile) = true → dieLive s (coreDie tile) = true → s.links = [] → exec (.linkDead tile dir count) s = .next
      (let m := cutLink s tile dir count
       { m.2 with links := m.2.links ++ [⟨tile, dir, s.cyc, m.1, false⟩] })) ∧
    (∀ l, s.links = [l] → l.tile = tile → l.dir = dir → l.told = false → l.since + 1024 ≤ s.cyc → exec (.linkDead tile dir count) s = .next
      (postMessage { s with links := [{ l with told := true }] } (coreDie tile)
        { m0 := BitVec.ofNat 64 (0x0E * 2 ^ 56 + 7 * 2 ^ 52 + dir * 2 ^ 44 + tile * 2 ^ 24), m1 := 0, m2 := BitVec.ofNat 64 l.count, m3 := 0 })) ∧
    (∀ k, s.net.arrivals[n]? = some k → exec (.barrierArrival n) s = .next (arrivalDone (arriveBar (net fun m => { m with arrivals := dropAt m.arrivals n }) k) k)) ∧
    (∀ k, s.net.credits[n]? = some k → exec (.barrierCredit n) s = .next (creditBar (net fun m => { m with credits := dropAt m.credits n }) k)) ∧
    (∀ k, s.net.wakes[n]? = some k → k.tree = none → k.time = 0 → k.due ≤ s.cyc → exec (.barrierWake n) s = .next (wakeAgent (net fun m => { m with wakes := dropAt m.wakes n }) k)) ∧
    (∀ m, s.net.phases[n]? = some m → m.due ≤ s.cyc → exec (.phaseStart n) s = .next (phaseAt (net fun x => { x with phases := dropAt x.phases n }) m)) ∧
    (∀ m, s.net.bcasts = [m] → s.net.phases = [] → exec (.domainBroadcast 0) s = .next (broadcastAt (net fun x => { x with bcasts := [] }) m)) ∧
    (∀ k, s.net.replies2[n]? = some k → k.agent ≠ .none → exec (.distributorReply n) s = .next (wakeAgent (net fun m => { m with replies2 := dropAt m.replies2 n }) k)) ∧
    (∀ j, s.net.journal[n]? = some j → exec (.journalEntry n) s = .next { s with net := { s.net with journal := dropAt s.net.journal n }, journal := s.journal ++ [j] }) ∧
    (∀ g image y d, Tbl.get? s.groups n = some g → g.saving = some (image, y, d) → groupWaves s n ≠ [] → saveReady s n g = true →
      let f := finishSave s n g image y
      exec (.saveComplete n) s = .next (wakeAgent f.2 { agent := .wave y, d := d, value := BitVec.ofNat 64 f.1 })) ∧
    (∀ v g b b1 bs u u1 u2, s.saved[n]? = some v → s.grid? v.grid = some g → readImage s v 64 = (some b, u) → imageBad b g.record = false →
      readImage u v (if imgNwin b = 0 then imgWins b g.record else imgWins b g.record + 64) = (some b1, u1) →
      let ws := (List.range (imgNwin b)).map fun i => imgWindow (imgWord b1 (imgWins b g.record + 8 * i))
      ((liveDies u1).any fun d => (dieCores d).any (restoreEver u1 g.record (imgSoff b))) = true →
      restoreNow u1 v g.record b ws c = true →
      readImage u1 v (imageMap g.record (recScratchLen g.record) (imgCtx b) (ws.map (·.2.sizeu))).len = (some bs, u2) →
      exec (.restore c n) s = .next (rebuild u2 v g c bs ws))

/-- Streams, events, EXIT, LAUNCH, GPREEMPT, debug and the machine's own steps complete (12 R299, 12 R300, 12 R301,
12 R303, 12 R304, 04 R127, 05 R144, 18 R404, 18 R406, 19 R424, 19 R425, 19 R426). That an odd address is a
corrected error and what a dead link counts (log 40), and the source and code numbers of log entries (log 8),
are the model's choice, and proved as such. -/
def Obligations.FormsThatComplete : Prop := Spec.InstructionsComplete ∧ Spec.StepsComplete
end

