-- ==== Sys2Proof/Laws/Checks.lean ====
section
/-! SUPPORT. The checks written out for an instruction are those of the instruction. -/

namespace Sys2Proof.Machine

/-! ### What `checked` can do -/

/-- Every check passes: the instruction's own effect. -/
theorem checked_of_admitted {i : Instr} {s : State} (h : Admitted i s) (k : State → State) : checked i s k = .next (k s) := by
  unfold Admitted at h
  unfold checked checkedWith
  split at h
  · exact absurd h id
  · simp only [waveVerdict] at h; simp [h]
  · simp only [ctxVerdict] at h; simp [h]

/-- An agent moves: a next state, whatever the checks say. -/
theorem checkedWith_next {u : RegUse} {code : W32} {s : State} (h : s.cur ≠ .none) (k : State → State) :
    ∃ t, checkedWith u code s k = .next t := by
  unfold checkedWith
  split
  · exact absurd ‹_› h
  · exact ⟨_, rfl⟩
  · exact ⟨_, rfl⟩

/-- A check of a wave fails: the fault of the check, and no effect. -/
theorem checked_of_trap {i : Instr} {s : State} {w : Nat} {t : Trap} (hc : s.cur = .wave w)
    (h : waveVerdict i (s.wave w) = .trap t false) (k : State → State) : checked i s k = .next (waveFault s w t false) := by
  unfold checked checkedWith; simp only [waveVerdict] at h; simp [hc, h]

/-- An instruction meets deferred errors: the fault, and their marks are gone (18 R403). -/
theorem checked_of_deferred {i : Instr} {s : State} {w : Nat} {t : Trap} (hc : s.cur = .wave w)
    (h : waveVerdict i (s.wave w) = .trap t true) (k : State → State) :
    checked i s k = .next (waveFault (s.modWave w (·.told (regs i))) w t true) := by
  unfold checked checkedWith; simp only [waveVerdict] at h; simp [hc, h]

/-- A register is still to be written: the wave waits. -/
theorem checked_of_hold {i : Instr} {s : State} {w : Nat} (hc : s.cur = .wave w) (h : waveVerdict i (s.wave w) = .hold)
    (k : State → State) : checked i s k = .next (stall s) := by
  unfold checked checkedWith; simp only [waveVerdict] at h; simp [hc, h]

/-! ### The checks written out -/

theorem checkedVspop_eq (d : BitVec 6) (a : BitVec 6) (st : State) (k : State → State) : checkedVspop d a st k = checked (.vspop d a) st k := rfl
theorem checkedEvset_eq (a : BitVec 6) (b : BitVec 6) (st : State) (k : State → State) : checkedEvset a b st k = checked (.evset a b) st k := rfl
theorem checkedEvclr_eq (a : BitVec 6) (b : BitVec 6) (st : State) (k : State → State) : checkedEvclr a b st k = checked (.evclr a b) st k := rfl
theorem checkedEvrd_eq (d : BitVec 6) (a : BitVec 6) (st : State) (k : State → State) : checkedEvrd d a st k = checked (.evrd d a) st k := rfl
theorem checkedEvsig_eq (a : BitVec 6) (st : State) (k : State → State) : checkedEvsig a st k = checked (.evsig a) st k := rfl
theorem checkedPset_eq (a : BitVec 6) (b : BitVec 6) (st : State) (k : State → State) : checkedPset a b st k = checked (.pset a b) st k := rfl
theorem checkedPget_eq (d : BitVec 6) (a : BitVec 6) (st : State) (k : State → State) : checkedPget d a st k = checked (.pget d a) st k := rfl
theorem checkedPres_eq (d : BitVec 6) (a : BitVec 6) (st : State) (k : State → State) : checkedPres d a st k = checked (.pres d a) st k := rfl
theorem checkedPrel_eq (a : BitVec 6) (st : State) (k : State → State) : checkedPrel a st k = checked (.prel a) st k := rfl
theorem checkedPpass_eq (a : BitVec 6) (b : BitVec 6) (st : State) (k : State → State) : checkedPpass a b st k = checked (.ppass a b) st k := rfl
theorem checkedPjoin_eq (a : BitVec 6) (b : BitVec 6) (st : State) (k : State → State) : checkedPjoin a b st k = checked (.pjoin a b) st k := rfl
theorem checkedPdrainO_eq (a : BitVec 6) (st : State) (k : State → State) : checkedPdrainO a st k = checked (.pdrainO a) st k := rfl
theorem checkedPdrainU_eq (a : BitVec 6) (st : State) (k : State → State) : checkedPdrainU a st k = checked (.pdrainU a) st k := rfl
theorem checkedPclr_eq (a : BitVec 6) (st : State) (k : State → State) : checkedPclr a st k = checked (.pclr a) st k := rfl
theorem checkedMstart_eq (d : BitVec 6) (a : BitVec 6) (b : BitVec 6) (st : State) (k : State → State) : checkedMstart d a b st k = checked (.mstart d a b) st k := rfl
theorem checkedMstop_eq (d : BitVec 6) (a : BitVec 6) (st : State) (k : State → State) : checkedMstop d a st k = checked (.mstop d a) st k := rfl
theorem checkedHgath_eq (d : BitVec 6) (a : BitVec 6) (st : State) (k : State → State) : checkedHgath d a st k = checked (.hgath d a) st k := rfl
theorem checkedHcsr_eq (d : BitVec 6) (a : BitVec 6) (st : State) (k : State → State) : checkedHcsr d a st k = checked (.hcsr d a) st k := rfl
theorem checkedHscat_eq (d : BitVec 6) (a : BitVec 6) (st : State) (k : State → State) : checkedHscat d a st k = checked (.hscat d a) st k := rfl
theorem checkedRrecv_eq (d : BitVec 6) (a : BitVec 6) (b : BitVec 6) (st : State) (k : State → State) : checkedRrecv d a b st k = checked (.rrecv d a b) st k := rfl
theorem checkedRsend_eq (d : BitVec 6) (a : BitVec 6) (b : BitVec 6) (st : State) (k : State → State) : checkedRsend d a b st k = checked (.rsend d a b) st k := rfl
theorem checkedRhit_eq (d : BitVec 6) (a : BitVec 6) (st : State) (k : State → State) : checkedRhit d a st k = checked (.rhit d a) st k := rfl
theorem checkedRbox4_eq (d : BitVec 6) (a : BitVec 6) (b : BitVec 6) (st : State) (k : State → State) : checkedRbox4 d a b st k = checked (.rbox4 d a b) st k := rfl
theorem checkedRtri_eq (d : BitVec 6) (a : BitVec 6) (b : BitVec 6) (st : State) (k : State → State) : checkedRtri d a b st k = checked (.rtri d a b) st k := rfl
theorem checkedRroute_eq (d : BitVec 6) (a : BitVec 6) (b : BitVec 6) (st : State) (k : State → State) : checkedRroute d a b st k = checked (.rroute d a b) st k := rfl
theorem checkedTlreq_eq (d : BitVec 6) (a : BitVec 6) (b : BitVec 6) (st : State) (k : State → State) : checkedTlreq d a b st k = checked (.tlreq d a b) st k := rfl
theorem checkedTlevict_eq (d : BitVec 6) (a : BitVec 6) (st : State) (k : State → State) : checkedTlevict d a st k = checked (.tlevict d a) st k := rfl
theorem checkedHqbind_eq (d : BitVec 6) (a : BitVec 6) (b : BitVec 6) (st : State) (k : State → State) : checkedHqbind d a b st k = checked (.hqbind d a b) st k := rfl
theorem checkedDbar_eq (d : BitVec 6) (a : BitVec 6) (b : BitVec 6) (st : State) (k : State → State) : checkedDbar d a b st k = checked (.dbar d a b) st k := rfl
theorem checkedXph_eq (d : BitVec 6) (a : BitVec 6) (b : BitVec 6) (st : State) (k : State → State) : checkedXph d a b st k = checked (.xph d a b) st k := rfl
theorem checkedXmit_eq (d : BitVec 6) (a : BitVec 6) (b : BitVec 6) (st : State) (k : State → State) : checkedXmit d a b st k = checked (.xmit d a b) st k := rfl
theorem checkedXsel_eq (d : BitVec 6) (a : BitVec 6) (st : State) (k : State → State) : checkedXsel d a st k = checked (.xsel d a) st k := rfl
theorem checkedXrecv_eq (d : BitVec 6) (a : BitVec 6) (b : BitVec 6) (st : State) (k : State → State) : checkedXrecv d a b st k = checked (.xrecv d a b) st k := rfl
theorem checkedXend_eq (d : BitVec 6) (a : BitVec 6) (st : State) (k : State → State) : checkedXend d a st k = checked (.xend d a) st k := rfl
theorem checkedXslots_eq (d : BitVec 6) (a : BitVec 6) (b : BitVec 6) (st : State) (k : State → State) : checkedXslots d a b st k = checked (.xslots d a b) st k := rfl
theorem checkedGets_eq (d : BitVec 6) (n : BitVec 12) (st : State) (k : State → State) : checkedGets d n st k = checked (.gets d n) st k := rfl
theorem checkedSets_eq (a : BitVec 6) (n : BitVec 12) (st : State) (k : State → State) : checkedSets a n st k = checked (.sets a n) st k := rfl
theorem checkedCwait_eq (l : BitVec 5) (s : BitVec 5) (c : BitVec 5) (p : BitVec 5) (st : State) (k : State → State) : checkedCwait l s c p st k = checked (.cwait l s c p) st k := rfl
theorem checkedTrap_eq (c : BitVec 20) (st : State) (k : State → State) : checkedTrap c st k = checked (.trap c) st k := rfl
theorem checkedBkpt_eq (c : BitVec 20) (st : State) (k : State → State) : checkedBkpt c st k = checked (.bkpt c) st k := rfl
theorem checkedLaunch_eq (d : BitVec 6) (a : BitVec 6) (st : State) (k : State → State) : checkedLaunch d a st k = checked (.launch d a) st k := rfl
theorem checkedGrow_eq (d : BitVec 6) (a : BitVec 6) (b : BitVec 6) (st : State) (k : State → State) : checkedGrow d a b st k = checked (.grow d a b) st k := rfl
theorem checkedEmit_eq (d : BitVec 6) (a : BitVec 6) (b : BitVec 6) (st : State) (k : State → State) : checkedEmit d a b st k = checked (.emit d a b) st k := rfl
theorem checkedMbxpop_eq (d : BitVec 6) (st : State) (k : State → State) : checkedMbxpop d st k = checked (.mbxpop d) st k := rfl
theorem checkedWresume_eq (a : BitVec 6) (st : State) (k : State → State) : checkedWresume a st k = checked (.wresume a) st k := rfl
theorem checkedWkill_eq (a : BitVec 6) (st : State) (k : State → State) : checkedWkill a st k = checked (.wkill a) st k := rfl
theorem checkedGkill_eq (a : BitVec 6) (st : State) (k : State → State) : checkedGkill a st k = checked (.gkill a) st k := rfl
theorem checkedGpreempt_eq (d : BitVec 6) (a : BitVec 6) (st : State) (k : State → State) : checkedGpreempt d a st k = checked (.gpreempt d a) st k := rfl
theorem checkedDbghalt_eq (a : BitVec 6) (st : State) (k : State → State) : checkedDbghalt a st k = checked (.dbghalt a) st k := rfl
theorem checkedDbgrun_eq (a : BitVec 6) (st : State) (k : State → State) : checkedDbgrun a st k = checked (.dbgrun a) st k := rfl

end Sys2Proof.Machine
end

