-- ==== Sys2Proof/Laws/Tables.lean ====
section
/-! SUPPORT. Reading a sparse table after a write, and the canonical form of a table. -/

namespace Sys2Proof

variable {α : Type}

@[simp] theorem Tbl.get_set_same (d : α) (t : Tbl α) (n : Nat) (x : α) : Tbl.get d (Tbl.set t n x) n = x := by
  induction t with
  | nil => simp [Tbl.set, Tbl.get]
  | cons e t ih =>
    obtain ⟨k, v⟩ := e
    simp only [Tbl.set]
    split
    · simp [Tbl.get]
    · split
      · simp [Tbl.get]
      · simp [Tbl.get, *]

@[simp] theorem Tbl.get_set_other (d : α) (t : Tbl α) (n m : Nat) (x : α) (h : m ≠ n) :
    Tbl.get d (Tbl.set t n x) m = Tbl.get d t m := by
  induction t with
  | nil => simp [Tbl.set, Tbl.get, h]
  | cons e t ih =>
    obtain ⟨k, v⟩ := e
    simp only [Tbl.set]
    split
    · simp [Tbl.get, h]
    · split
      · subst_vars; simp [Tbl.get, h]
      · simp [Tbl.get, ih]

/-- The keys of a table. -/
theorem Tbl.get_of_low (d : α) (t : Tbl α) (n : Nat) (h : t.all fun e => decide (n < e.1)) : Tbl.get d t n = d := by
  induction t with
  | nil => rfl
  | cons e t ih =>
    simp only [List.all_cons, Bool.and_eq_true, decide_eq_true_eq] at h
    rw [Tbl.get, if_neg (by omega), ih h.2]

theorem Tbl.get_erase_same (d : α) (t : Tbl α) (n : Nat) : Tbl.get d (Tbl.erase t n) n = d := by
  induction t with
  | nil => rfl
  | cons e t ih =>
    simp only [Tbl.erase]
    split
    · exact ih
    · simp [Tbl.get, *]

theorem Tbl.get_erase_other (d : α) (t : Tbl α) (n m : Nat) (h : m ≠ n) : Tbl.get d (Tbl.erase t n) m = Tbl.get d t m := by
  induction t with
  | nil => rfl
  | cons e t ih =>
    simp only [Tbl.erase]
    split
    · subst_vars; rw [ih, Tbl.get, if_neg h]
    · simp [Tbl.get, ih]

/-- Reading what `put` wrote. -/
theorem Tbl.get_put_same [DecidableEq α] (d : α) (t : Tbl α) (n : Nat) (x : α) : Tbl.get d (Tbl.put d t n x) n = x := by
  unfold Tbl.put
  split
  · rw [Tbl.get_erase_same]; exact Eq.symm ‹x = d›
  · simp

/-- `put` changes nothing elsewhere. -/
theorem Tbl.get_put_other [DecidableEq α] (d : α) (t : Tbl α) (n m : Nat) (x : α) (h : m ≠ n) :
    Tbl.get d (Tbl.put d t n x) m = Tbl.get d t m := by
  unfold Tbl.put
  split
  · exact Tbl.get_erase_other d t n m h
  · exact Tbl.get_set_other d t n m x h

/-! ### The canonical form -/

theorem Tbl.all_erase (p : Nat × α → Bool) (t : Tbl α) (n : Nat) (h : t.all p = true) : (Tbl.erase t n).all p = true := by
  induction t with
  | nil => rfl
  | cons e t ih =>
    simp only [List.all_cons, Bool.and_eq_true] at h
    simp only [Tbl.erase]
    split
    · exact ih h.2
    · simp [h.1, ih h.2]

theorem Tbl.all_set (p : Nat × α → Bool) (t : Tbl α) (n : Nat) (x : α) (h : t.all p = true) (hx : p (n, x) = true) :
    (Tbl.set t n x).all p = true := by
  induction t with
  | nil => simp [Tbl.set, hx]
  | cons e t ih =>
    simp only [List.all_cons, Bool.and_eq_true] at h
    simp only [Tbl.set]
    split
    · simp [hx, h.1, h.2]
    · split
      · simp [hx, h.2]
      · simp [h.1, ih h.2]

theorem Tbl.rising_erase (t : Tbl α) (n : Nat) (h : Tbl.rising t = true) : Tbl.rising (Tbl.erase t n) = true := by
  induction t with
  | nil => rfl
  | cons e t ih =>
    simp only [Tbl.rising, Bool.and_eq_true] at h
    simp only [Tbl.erase]
    split
    · exact ih h.2
    · simp only [Tbl.rising, Bool.and_eq_true]; exact ⟨Tbl.all_erase _ _ _ h.1, ih h.2⟩

theorem Tbl.rising_set (t : Tbl α) (n : Nat) (x : α) (h : Tbl.rising t = true) : Tbl.rising (Tbl.set t n x) = true := by
  induction t with
  | nil => rfl
  | cons e t ih =>
    obtain ⟨k, v⟩ := e
    have h0 := h
    simp only [Tbl.rising, Bool.and_eq_true] at h
    simp only [Tbl.set]
    split
    · rename_i hlt
      simp only [Tbl.rising, Bool.and_eq_true, List.all_cons, decide_eq_true_eq]
      refine ⟨⟨hlt, ?_⟩, h.1, h.2⟩
      refine List.all_eq_true.mpr fun e he => ?_
      have := List.all_eq_true.mp h.1 e he
      simp only [decide_eq_true_eq] at this ⊢
      omega
    · split
      · subst_vars; exact h0
      · simp only [Tbl.rising, Bool.and_eq_true]
        exact ⟨Tbl.all_set _ _ _ _ h.1 (by simp only [decide_eq_true_eq]; omega), ih h.2⟩

theorem Tbl.wf_erase [DecidableEq α] (d : α) (t : Tbl α) (n : Nat) (h : Tbl.wf d t = true) : Tbl.wf d (Tbl.erase t n) = true := by
  simp only [Tbl.wf, Bool.and_eq_true] at h ⊢
  exact ⟨Tbl.rising_erase _ _ h.1, Tbl.all_erase _ _ _ h.2⟩

theorem Tbl.wf_put [DecidableEq α] (d : α) (t : Tbl α) (n : Nat) (x : α) (h : Tbl.wf d t = true) : Tbl.wf d (Tbl.put d t n x) = true := by
  unfold Tbl.put
  split
  · exact Tbl.wf_erase _ _ _ h
  · simp only [Tbl.wf, Bool.and_eq_true] at h ⊢
    exact ⟨Tbl.rising_set _ _ _ h.1, Tbl.all_set _ _ _ _ h.2 (by simpa using ‹¬ x = d›)⟩

theorem Tbl.wf_filter [DecidableEq α] (d : α) (t : Tbl α) (p : Nat × α → Bool) (h : Tbl.wf d t = true) :
    Tbl.wf d (t.filter p) = true := by
  simp only [Tbl.wf, Bool.and_eq_true] at h ⊢
  obtain ⟨h1, h2⟩ := h
  induction t with
  | nil => exact ⟨rfl, rfl⟩
  | cons e t ih =>
    simp only [Tbl.rising, List.all_cons, Bool.and_eq_true] at h1 h2
    obtain ⟨a, b⟩ := ih h1.2 h2.2
    rw [List.filter_cons]
    split
    · refine ⟨?_, ?_⟩
      · simp only [Tbl.rising, Bool.and_eq_true]
        refine ⟨List.all_eq_true.mpr fun x hx => List.all_eq_true.mp h1.1 x (List.mem_filter.mp hx).1, a⟩
      · simp only [List.all_cons, Bool.and_eq_true]; exact ⟨h2.1, b⟩
    · exact ⟨a, b⟩

/-- Two tables one after the other. -/
theorem Tbl.wf_append [DecidableEq α] (d : α) (t u : Tbl α) (h : Tbl.wf d t = true) (k : Tbl.wf d u = true)
    (hk : ∀ x ∈ t, ∀ y ∈ u, x.1 < y.1) : Tbl.wf d (t ++ u) = true := by
  simp only [Tbl.wf, Bool.and_eq_true] at h k ⊢
  induction t with
  | nil => exact k
  | cons e t ih =>
    simp only [Tbl.rising, List.all_cons, Bool.and_eq_true] at h
    obtain ⟨a, b⟩ := ih (fun x hx => hk x (List.mem_cons_of_mem _ hx)) ⟨h.1.2, h.2.2⟩
    refine ⟨?_, by simp only [List.cons_append, List.all_cons, Bool.and_eq_true]; exact ⟨h.2.1, b⟩⟩
    simp only [List.cons_append, Tbl.rising, List.all_append, Bool.and_eq_true]
    exact ⟨⟨h.1.1, List.all_eq_true.mpr fun y hy => by simpa using hk e (by simp) y hy⟩, a⟩

end Sys2Proof
end

