-- ==== Sys2Proof/Laws/State.lean ====
section
/-! SUPPORT. What each update of the state leaves as it was, field by field, and what it writes. -/

namespace Sys2Proof.Machine

variable (s : State)

/-! ### setWave -/

@[simp] theorem State.setWave_cur (w : Nat) (x : Wave) : (s.setWave w x).cur = s.cur := rfl
@[simp] theorem State.setWave_agenda (w : Nat) (x : Wave) : (s.setWave w x).agenda = s.agenda := rfl
@[simp] theorem State.setWave_fresh (w : Nat) (x : Wave) : (s.setWave w x).fresh = s.fresh := rfl
@[simp] theorem State.setWave_rnd (w : Nat) (x : Wave) : (s.setWave w x).rnd = s.rnd := rfl
@[simp] theorem State.setWave_reqNo (w : Nat) (x : Wave) : (s.setWave w x).reqNo = s.reqNo := rfl
@[simp] theorem State.setWave_agents (w : Nat) (x : Wave) : (s.setWave w x).agents = s.agents := rfl
@[simp] theorem State.setWave_seq (w : Nat) (x : Wave) : (s.setWave w x).seq = s.seq := rfl
@[simp] theorem State.setWave_moved (w : Nat) (x : Wave) : (s.setWave w x).moved = s.moved := rfl
@[simp] theorem State.setWave_cyc (w : Nat) (x : Wave) : (s.setWave w x).cyc = s.cyc := rfl
@[simp] theorem State.setWave_ahead (w : Nat) (x : Wave) : (s.setWave w x).ahead = s.ahead := rfl
@[simp] theorem State.setWave_mem (w : Nat) (x : Wave) : (s.setWave w x).mem = s.mem := rfl
@[simp] theorem State.setWave_tags (w : Nat) (x : Wave) : (s.setWave w x).tags = s.tags := rfl
@[simp] theorem State.setWave_zeroed (w : Nat) (x : Wave) : (s.setWave w x).zeroed = s.zeroed := rfl
@[simp] theorem State.setWave_zpages (w : Nat) (x : Wave) : (s.setWave w x).zpages = s.zpages := rfl
@[simp] theorem State.setWave_lx (w : Nat) (x : Wave) : (s.setWave w x).lx = s.lx := rfl
@[simp] theorem State.setWave_wrote (w : Nat) (x : Wave) : (s.setWave w x).wrote = s.wrote := rfl
@[simp] theorem State.setWave_hosted (w : Nat) (x : Wave) : (s.setWave w x).hosted = s.hosted := rfl
@[simp] theorem State.setWave_flags (w : Nat) (x : Wave) : (s.setWave w x).flags = s.flags := rfl
@[simp] theorem State.setWave_bars (w : Nat) (x : Wave) : (s.setWave w x).bars = s.bars := rfl
@[simp] theorem State.setWave_olds (w : Nat) (x : Wave) : (s.setWave w x).olds = s.olds := rfl
@[simp] theorem State.setWave_invis (w : Nat) (x : Wave) : (s.setWave w x).invis = s.invis := rfl
@[simp] theorem State.setWave_ringed (w : Nat) (x : Wave) : (s.setWave w x).ringed = s.ringed := rfl
@[simp] theorem State.setWave_hollow (w : Nat) (x : Wave) : (s.setWave w x).hollow = s.hollow := rfl
@[simp] theorem State.setWave_links (w : Nat) (x : Wave) : (s.setWave w x).links = s.links := rfl
@[simp] theorem State.setWave_badLines (w : Nat) (x : Wave) : (s.setWave w x).badLines = s.badLines := rfl
@[simp] theorem State.setWave_cores (w : Nat) (x : Wave) : (s.setWave w x).cores = s.cores := rfl
@[simp] theorem State.setWave_vats (w : Nat) (x : Wave) : (s.setWave w x).vats = s.vats := rfl
@[simp] theorem State.setWave_dies (w : Nat) (x : Wave) : (s.setWave w x).dies = s.dies := rfl
@[simp] theorem State.setWave_slices (w : Nat) (x : Wave) : (s.setWave w x).slices = s.slices := rfl
@[simp] theorem State.setWave_packages (w : Nat) (x : Wave) : (s.setWave w x).packages = s.packages := rfl
@[simp] theorem State.setWave_nx (w : Nat) (x : Wave) : (s.setWave w x).nx = s.nx := rfl
@[simp] theorem State.setWave_ny (w : Nat) (x : Wave) : (s.setWave w x).ny = s.ny := rfl
@[simp] theorem State.setWave_master (w : Nat) (x : Wave) : (s.setWave w x).master = s.master := rfl
@[simp] theorem State.setWave_standby (w : Nat) (x : Wave) : (s.setWave w x).standby = s.standby := rfl
@[simp] theorem State.setWave_grids (w : Nat) (x : Wave) : (s.setWave w x).grids = s.grids := rfl
@[simp] theorem State.setWave_handle (w : Nat) (x : Wave) : (s.setWave w x).handle = s.handle := rfl
@[simp] theorem State.setWave_groups (w : Nat) (x : Wave) : (s.setWave w x).groups = s.groups := rfl
@[simp] theorem State.setWave_groupNo (w : Nat) (x : Wave) : (s.setWave w x).groupNo = s.groupNo := rfl
@[simp] theorem State.setWave_saved (w : Nat) (x : Wave) : (s.setWave w x).saved = s.saved := rfl
@[simp] theorem State.setWave_tasks (w : Nat) (x : Wave) : (s.setWave w x).tasks = s.tasks := rfl
@[simp] theorem State.setWave_waiters (w : Nat) (x : Wave) : (s.setWave w x).waiters = s.waiters := rfl
@[simp] theorem State.setWave_dirs (w : Nat) (x : Wave) : (s.setWave w x).dirs = s.dirs := rfl
@[simp] theorem State.setWave_net (w : Nat) (x : Wave) : (s.setWave w x).net = s.net := rfl
@[simp] theorem State.setWave_bar0 (w : Nat) (x : Wave) : (s.setWave w x).bar0 = s.bar0 := rfl
@[simp] theorem State.setWave_ctrl (w : Nat) (x : Wave) : (s.setWave w x).ctrl = s.ctrl := rfl
@[simp] theorem State.setWave_up (w : Nat) (x : Wave) : (s.setWave w x).up = s.up := rfl
@[simp] theorem State.setWave_unnumbered (w : Nat) (x : Wave) : (s.setWave w x).unnumbered = s.unnumbered := rfl
@[simp] theorem State.setWave_journal (w : Nat) (x : Wave) : (s.setWave w x).journal = s.journal := rfl

/-! ### setCore -/

@[simp] theorem State.setCore_cur (c : Nat) (x : Core) : (s.setCore c x).cur = s.cur := rfl
@[simp] theorem State.setCore_agenda (c : Nat) (x : Core) : (s.setCore c x).agenda = s.agenda := rfl
@[simp] theorem State.setCore_fresh (c : Nat) (x : Core) : (s.setCore c x).fresh = s.fresh := rfl
@[simp] theorem State.setCore_rnd (c : Nat) (x : Core) : (s.setCore c x).rnd = s.rnd := rfl
@[simp] theorem State.setCore_reqNo (c : Nat) (x : Core) : (s.setCore c x).reqNo = s.reqNo := rfl
@[simp] theorem State.setCore_agents (c : Nat) (x : Core) : (s.setCore c x).agents = s.agents := rfl
@[simp] theorem State.setCore_seq (c : Nat) (x : Core) : (s.setCore c x).seq = s.seq := rfl
@[simp] theorem State.setCore_moved (c : Nat) (x : Core) : (s.setCore c x).moved = s.moved := rfl
@[simp] theorem State.setCore_cyc (c : Nat) (x : Core) : (s.setCore c x).cyc = s.cyc := rfl
@[simp] theorem State.setCore_ahead (c : Nat) (x : Core) : (s.setCore c x).ahead = s.ahead := rfl
@[simp] theorem State.setCore_mem (c : Nat) (x : Core) : (s.setCore c x).mem = s.mem := rfl
@[simp] theorem State.setCore_tags (c : Nat) (x : Core) : (s.setCore c x).tags = s.tags := rfl
@[simp] theorem State.setCore_zeroed (c : Nat) (x : Core) : (s.setCore c x).zeroed = s.zeroed := rfl
@[simp] theorem State.setCore_zpages (c : Nat) (x : Core) : (s.setCore c x).zpages = s.zpages := rfl
@[simp] theorem State.setCore_lx (c : Nat) (x : Core) : (s.setCore c x).lx = s.lx := rfl
@[simp] theorem State.setCore_wrote (c : Nat) (x : Core) : (s.setCore c x).wrote = s.wrote := rfl
@[simp] theorem State.setCore_hosted (c : Nat) (x : Core) : (s.setCore c x).hosted = s.hosted := rfl
@[simp] theorem State.setCore_flags (c : Nat) (x : Core) : (s.setCore c x).flags = s.flags := rfl
@[simp] theorem State.setCore_bars (c : Nat) (x : Core) : (s.setCore c x).bars = s.bars := rfl
@[simp] theorem State.setCore_olds (c : Nat) (x : Core) : (s.setCore c x).olds = s.olds := rfl
@[simp] theorem State.setCore_invis (c : Nat) (x : Core) : (s.setCore c x).invis = s.invis := rfl
@[simp] theorem State.setCore_ringed (c : Nat) (x : Core) : (s.setCore c x).ringed = s.ringed := rfl
@[simp] theorem State.setCore_hollow (c : Nat) (x : Core) : (s.setCore c x).hollow = s.hollow := rfl
@[simp] theorem State.setCore_links (c : Nat) (x : Core) : (s.setCore c x).links = s.links := rfl
@[simp] theorem State.setCore_badLines (c : Nat) (x : Core) : (s.setCore c x).badLines = s.badLines := rfl
@[simp] theorem State.setCore_waves (c : Nat) (x : Core) : (s.setCore c x).waves = s.waves := rfl
@[simp] theorem State.setCore_vats (c : Nat) (x : Core) : (s.setCore c x).vats = s.vats := rfl
@[simp] theorem State.setCore_dies (c : Nat) (x : Core) : (s.setCore c x).dies = s.dies := rfl
@[simp] theorem State.setCore_slices (c : Nat) (x : Core) : (s.setCore c x).slices = s.slices := rfl
@[simp] theorem State.setCore_packages (c : Nat) (x : Core) : (s.setCore c x).packages = s.packages := rfl
@[simp] theorem State.setCore_nx (c : Nat) (x : Core) : (s.setCore c x).nx = s.nx := rfl
@[simp] theorem State.setCore_ny (c : Nat) (x : Core) : (s.setCore c x).ny = s.ny := rfl
@[simp] theorem State.setCore_master (c : Nat) (x : Core) : (s.setCore c x).master = s.master := rfl
@[simp] theorem State.setCore_standby (c : Nat) (x : Core) : (s.setCore c x).standby = s.standby := rfl
@[simp] theorem State.setCore_grids (c : Nat) (x : Core) : (s.setCore c x).grids = s.grids := rfl
@[simp] theorem State.setCore_handle (c : Nat) (x : Core) : (s.setCore c x).handle = s.handle := rfl
@[simp] theorem State.setCore_groups (c : Nat) (x : Core) : (s.setCore c x).groups = s.groups := rfl
@[simp] theorem State.setCore_groupNo (c : Nat) (x : Core) : (s.setCore c x).groupNo = s.groupNo := rfl
@[simp] theorem State.setCore_saved (c : Nat) (x : Core) : (s.setCore c x).saved = s.saved := rfl
@[simp] theorem State.setCore_tasks (c : Nat) (x : Core) : (s.setCore c x).tasks = s.tasks := rfl
@[simp] theorem State.setCore_waiters (c : Nat) (x : Core) : (s.setCore c x).waiters = s.waiters := rfl
@[simp] theorem State.setCore_dirs (c : Nat) (x : Core) : (s.setCore c x).dirs = s.dirs := rfl
@[simp] theorem State.setCore_net (c : Nat) (x : Core) : (s.setCore c x).net = s.net := rfl
@[simp] theorem State.setCore_bar0 (c : Nat) (x : Core) : (s.setCore c x).bar0 = s.bar0 := rfl
@[simp] theorem State.setCore_ctrl (c : Nat) (x : Core) : (s.setCore c x).ctrl = s.ctrl := rfl
@[simp] theorem State.setCore_up (c : Nat) (x : Core) : (s.setCore c x).up = s.up := rfl
@[simp] theorem State.setCore_unnumbered (c : Nat) (x : Core) : (s.setCore c x).unnumbered = s.unnumbered := rfl
@[simp] theorem State.setCore_journal (c : Nat) (x : Core) : (s.setCore c x).journal = s.journal := rfl

/-! ### setVat -/

@[simp] theorem State.setVat_cur (v : Nat) (x : Vat) : (s.setVat v x).cur = s.cur := rfl
@[simp] theorem State.setVat_agenda (v : Nat) (x : Vat) : (s.setVat v x).agenda = s.agenda := rfl
@[simp] theorem State.setVat_fresh (v : Nat) (x : Vat) : (s.setVat v x).fresh = s.fresh := rfl
@[simp] theorem State.setVat_rnd (v : Nat) (x : Vat) : (s.setVat v x).rnd = s.rnd := rfl
@[simp] theorem State.setVat_reqNo (v : Nat) (x : Vat) : (s.setVat v x).reqNo = s.reqNo := rfl
@[simp] theorem State.setVat_agents (v : Nat) (x : Vat) : (s.setVat v x).agents = s.agents := rfl
@[simp] theorem State.setVat_seq (v : Nat) (x : Vat) : (s.setVat v x).seq = s.seq := rfl
@[simp] theorem State.setVat_moved (v : Nat) (x : Vat) : (s.setVat v x).moved = s.moved := rfl
@[simp] theorem State.setVat_cyc (v : Nat) (x : Vat) : (s.setVat v x).cyc = s.cyc := rfl
@[simp] theorem State.setVat_ahead (v : Nat) (x : Vat) : (s.setVat v x).ahead = s.ahead := rfl
@[simp] theorem State.setVat_mem (v : Nat) (x : Vat) : (s.setVat v x).mem = s.mem := rfl
@[simp] theorem State.setVat_tags (v : Nat) (x : Vat) : (s.setVat v x).tags = s.tags := rfl
@[simp] theorem State.setVat_zeroed (v : Nat) (x : Vat) : (s.setVat v x).zeroed = s.zeroed := rfl
@[simp] theorem State.setVat_zpages (v : Nat) (x : Vat) : (s.setVat v x).zpages = s.zpages := rfl
@[simp] theorem State.setVat_lx (v : Nat) (x : Vat) : (s.setVat v x).lx = s.lx := rfl
@[simp] theorem State.setVat_wrote (v : Nat) (x : Vat) : (s.setVat v x).wrote = s.wrote := rfl
@[simp] theorem State.setVat_hosted (v : Nat) (x : Vat) : (s.setVat v x).hosted = s.hosted := rfl
@[simp] theorem State.setVat_flags (v : Nat) (x : Vat) : (s.setVat v x).flags = s.flags := rfl
@[simp] theorem State.setVat_bars (v : Nat) (x : Vat) : (s.setVat v x).bars = s.bars := rfl
@[simp] theorem State.setVat_olds (v : Nat) (x : Vat) : (s.setVat v x).olds = s.olds := rfl
@[simp] theorem State.setVat_invis (v : Nat) (x : Vat) : (s.setVat v x).invis = s.invis := rfl
@[simp] theorem State.setVat_ringed (v : Nat) (x : Vat) : (s.setVat v x).ringed = s.ringed := rfl
@[simp] theorem State.setVat_hollow (v : Nat) (x : Vat) : (s.setVat v x).hollow = s.hollow := rfl
@[simp] theorem State.setVat_links (v : Nat) (x : Vat) : (s.setVat v x).links = s.links := rfl
@[simp] theorem State.setVat_badLines (v : Nat) (x : Vat) : (s.setVat v x).badLines = s.badLines := rfl
@[simp] theorem State.setVat_waves (v : Nat) (x : Vat) : (s.setVat v x).waves = s.waves := rfl
@[simp] theorem State.setVat_cores (v : Nat) (x : Vat) : (s.setVat v x).cores = s.cores := rfl
@[simp] theorem State.setVat_dies (v : Nat) (x : Vat) : (s.setVat v x).dies = s.dies := rfl
@[simp] theorem State.setVat_slices (v : Nat) (x : Vat) : (s.setVat v x).slices = s.slices := rfl
@[simp] theorem State.setVat_packages (v : Nat) (x : Vat) : (s.setVat v x).packages = s.packages := rfl
@[simp] theorem State.setVat_nx (v : Nat) (x : Vat) : (s.setVat v x).nx = s.nx := rfl
@[simp] theorem State.setVat_ny (v : Nat) (x : Vat) : (s.setVat v x).ny = s.ny := rfl
@[simp] theorem State.setVat_master (v : Nat) (x : Vat) : (s.setVat v x).master = s.master := rfl
@[simp] theorem State.setVat_standby (v : Nat) (x : Vat) : (s.setVat v x).standby = s.standby := rfl
@[simp] theorem State.setVat_grids (v : Nat) (x : Vat) : (s.setVat v x).grids = s.grids := rfl
@[simp] theorem State.setVat_handle (v : Nat) (x : Vat) : (s.setVat v x).handle = s.handle := rfl
@[simp] theorem State.setVat_groups (v : Nat) (x : Vat) : (s.setVat v x).groups = s.groups := rfl
@[simp] theorem State.setVat_groupNo (v : Nat) (x : Vat) : (s.setVat v x).groupNo = s.groupNo := rfl
@[simp] theorem State.setVat_saved (v : Nat) (x : Vat) : (s.setVat v x).saved = s.saved := rfl
@[simp] theorem State.setVat_tasks (v : Nat) (x : Vat) : (s.setVat v x).tasks = s.tasks := rfl
@[simp] theorem State.setVat_waiters (v : Nat) (x : Vat) : (s.setVat v x).waiters = s.waiters := rfl
@[simp] theorem State.setVat_dirs (v : Nat) (x : Vat) : (s.setVat v x).dirs = s.dirs := rfl
@[simp] theorem State.setVat_net (v : Nat) (x : Vat) : (s.setVat v x).net = s.net := rfl
@[simp] theorem State.setVat_bar0 (v : Nat) (x : Vat) : (s.setVat v x).bar0 = s.bar0 := rfl
@[simp] theorem State.setVat_ctrl (v : Nat) (x : Vat) : (s.setVat v x).ctrl = s.ctrl := rfl
@[simp] theorem State.setVat_up (v : Nat) (x : Vat) : (s.setVat v x).up = s.up := rfl
@[simp] theorem State.setVat_unnumbered (v : Nat) (x : Vat) : (s.setVat v x).unnumbered = s.unnumbered := rfl
@[simp] theorem State.setVat_journal (v : Nat) (x : Vat) : (s.setVat v x).journal = s.journal := rfl

/-! ### setDie -/

@[simp] theorem State.setDie_cur (d : Nat) (x : Die) : (s.setDie d x).cur = s.cur := rfl
@[simp] theorem State.setDie_agenda (d : Nat) (x : Die) : (s.setDie d x).agenda = s.agenda := rfl
@[simp] theorem State.setDie_fresh (d : Nat) (x : Die) : (s.setDie d x).fresh = s.fresh := rfl
@[simp] theorem State.setDie_rnd (d : Nat) (x : Die) : (s.setDie d x).rnd = s.rnd := rfl
@[simp] theorem State.setDie_reqNo (d : Nat) (x : Die) : (s.setDie d x).reqNo = s.reqNo := rfl
@[simp] theorem State.setDie_agents (d : Nat) (x : Die) : (s.setDie d x).agents = s.agents := rfl
@[simp] theorem State.setDie_seq (d : Nat) (x : Die) : (s.setDie d x).seq = s.seq := rfl
@[simp] theorem State.setDie_moved (d : Nat) (x : Die) : (s.setDie d x).moved = s.moved := rfl
@[simp] theorem State.setDie_cyc (d : Nat) (x : Die) : (s.setDie d x).cyc = s.cyc := rfl
@[simp] theorem State.setDie_ahead (d : Nat) (x : Die) : (s.setDie d x).ahead = s.ahead := rfl
@[simp] theorem State.setDie_mem (d : Nat) (x : Die) : (s.setDie d x).mem = s.mem := rfl
@[simp] theorem State.setDie_tags (d : Nat) (x : Die) : (s.setDie d x).tags = s.tags := rfl
@[simp] theorem State.setDie_zeroed (d : Nat) (x : Die) : (s.setDie d x).zeroed = s.zeroed := rfl
@[simp] theorem State.setDie_zpages (d : Nat) (x : Die) : (s.setDie d x).zpages = s.zpages := rfl
@[simp] theorem State.setDie_lx (d : Nat) (x : Die) : (s.setDie d x).lx = s.lx := rfl
@[simp] theorem State.setDie_wrote (d : Nat) (x : Die) : (s.setDie d x).wrote = s.wrote := rfl
@[simp] theorem State.setDie_hosted (d : Nat) (x : Die) : (s.setDie d x).hosted = s.hosted := rfl
@[simp] theorem State.setDie_flags (d : Nat) (x : Die) : (s.setDie d x).flags = s.flags := rfl
@[simp] theorem State.setDie_bars (d : Nat) (x : Die) : (s.setDie d x).bars = s.bars := rfl
@[simp] theorem State.setDie_olds (d : Nat) (x : Die) : (s.setDie d x).olds = s.olds := rfl
@[simp] theorem State.setDie_invis (d : Nat) (x : Die) : (s.setDie d x).invis = s.invis := rfl
@[simp] theorem State.setDie_ringed (d : Nat) (x : Die) : (s.setDie d x).ringed = s.ringed := rfl
@[simp] theorem State.setDie_hollow (d : Nat) (x : Die) : (s.setDie d x).hollow = s.hollow := rfl
@[simp] theorem State.setDie_links (d : Nat) (x : Die) : (s.setDie d x).links = s.links := rfl
@[simp] theorem State.setDie_badLines (d : Nat) (x : Die) : (s.setDie d x).badLines = s.badLines := rfl
@[simp] theorem State.setDie_waves (d : Nat) (x : Die) : (s.setDie d x).waves = s.waves := rfl
@[simp] theorem State.setDie_cores (d : Nat) (x : Die) : (s.setDie d x).cores = s.cores := rfl
@[simp] theorem State.setDie_vats (d : Nat) (x : Die) : (s.setDie d x).vats = s.vats := rfl
@[simp] theorem State.setDie_slices (d : Nat) (x : Die) : (s.setDie d x).slices = s.slices := rfl
@[simp] theorem State.setDie_packages (d : Nat) (x : Die) : (s.setDie d x).packages = s.packages := rfl
@[simp] theorem State.setDie_nx (d : Nat) (x : Die) : (s.setDie d x).nx = s.nx := rfl
@[simp] theorem State.setDie_ny (d : Nat) (x : Die) : (s.setDie d x).ny = s.ny := rfl
@[simp] theorem State.setDie_master (d : Nat) (x : Die) : (s.setDie d x).master = s.master := rfl
@[simp] theorem State.setDie_standby (d : Nat) (x : Die) : (s.setDie d x).standby = s.standby := rfl
@[simp] theorem State.setDie_grids (d : Nat) (x : Die) : (s.setDie d x).grids = s.grids := rfl
@[simp] theorem State.setDie_handle (d : Nat) (x : Die) : (s.setDie d x).handle = s.handle := rfl
@[simp] theorem State.setDie_groups (d : Nat) (x : Die) : (s.setDie d x).groups = s.groups := rfl
@[simp] theorem State.setDie_groupNo (d : Nat) (x : Die) : (s.setDie d x).groupNo = s.groupNo := rfl
@[simp] theorem State.setDie_saved (d : Nat) (x : Die) : (s.setDie d x).saved = s.saved := rfl
@[simp] theorem State.setDie_tasks (d : Nat) (x : Die) : (s.setDie d x).tasks = s.tasks := rfl
@[simp] theorem State.setDie_waiters (d : Nat) (x : Die) : (s.setDie d x).waiters = s.waiters := rfl
@[simp] theorem State.setDie_dirs (d : Nat) (x : Die) : (s.setDie d x).dirs = s.dirs := rfl
@[simp] theorem State.setDie_net (d : Nat) (x : Die) : (s.setDie d x).net = s.net := rfl
@[simp] theorem State.setDie_bar0 (d : Nat) (x : Die) : (s.setDie d x).bar0 = s.bar0 := rfl
@[simp] theorem State.setDie_ctrl (d : Nat) (x : Die) : (s.setDie d x).ctrl = s.ctrl := rfl
@[simp] theorem State.setDie_up (d : Nat) (x : Die) : (s.setDie d x).up = s.up := rfl
@[simp] theorem State.setDie_unnumbered (d : Nat) (x : Die) : (s.setDie d x).unnumbered = s.unnumbered := rfl
@[simp] theorem State.setDie_journal (d : Nat) (x : Die) : (s.setDie d x).journal = s.journal := rfl

/-! ### setSlice -/

@[simp] theorem State.setSlice_cur (c : Nat) (x : Slice) : (s.setSlice c x).cur = s.cur := rfl
@[simp] theorem State.setSlice_agenda (c : Nat) (x : Slice) : (s.setSlice c x).agenda = s.agenda := rfl
@[simp] theorem State.setSlice_fresh (c : Nat) (x : Slice) : (s.setSlice c x).fresh = s.fresh := rfl
@[simp] theorem State.setSlice_rnd (c : Nat) (x : Slice) : (s.setSlice c x).rnd = s.rnd := rfl
@[simp] theorem State.setSlice_reqNo (c : Nat) (x : Slice) : (s.setSlice c x).reqNo = s.reqNo := rfl
@[simp] theorem State.setSlice_agents (c : Nat) (x : Slice) : (s.setSlice c x).agents = s.agents := rfl
@[simp] theorem State.setSlice_seq (c : Nat) (x : Slice) : (s.setSlice c x).seq = s.seq := rfl
@[simp] theorem State.setSlice_moved (c : Nat) (x : Slice) : (s.setSlice c x).moved = s.moved := rfl
@[simp] theorem State.setSlice_cyc (c : Nat) (x : Slice) : (s.setSlice c x).cyc = s.cyc := rfl
@[simp] theorem State.setSlice_ahead (c : Nat) (x : Slice) : (s.setSlice c x).ahead = s.ahead := rfl
@[simp] theorem State.setSlice_mem (c : Nat) (x : Slice) : (s.setSlice c x).mem = s.mem := rfl
@[simp] theorem State.setSlice_tags (c : Nat) (x : Slice) : (s.setSlice c x).tags = s.tags := rfl
@[simp] theorem State.setSlice_zeroed (c : Nat) (x : Slice) : (s.setSlice c x).zeroed = s.zeroed := rfl
@[simp] theorem State.setSlice_zpages (c : Nat) (x : Slice) : (s.setSlice c x).zpages = s.zpages := rfl
@[simp] theorem State.setSlice_lx (c : Nat) (x : Slice) : (s.setSlice c x).lx = s.lx := rfl
@[simp] theorem State.setSlice_wrote (c : Nat) (x : Slice) : (s.setSlice c x).wrote = s.wrote := rfl
@[simp] theorem State.setSlice_hosted (c : Nat) (x : Slice) : (s.setSlice c x).hosted = s.hosted := rfl
@[simp] theorem State.setSlice_flags (c : Nat) (x : Slice) : (s.setSlice c x).flags = s.flags := rfl
@[simp] theorem State.setSlice_bars (c : Nat) (x : Slice) : (s.setSlice c x).bars = s.bars := rfl
@[simp] theorem State.setSlice_olds (c : Nat) (x : Slice) : (s.setSlice c x).olds = s.olds := rfl
@[simp] theorem State.setSlice_invis (c : Nat) (x : Slice) : (s.setSlice c x).invis = s.invis := rfl
@[simp] theorem State.setSlice_ringed (c : Nat) (x : Slice) : (s.setSlice c x).ringed = s.ringed := rfl
@[simp] theorem State.setSlice_hollow (c : Nat) (x : Slice) : (s.setSlice c x).hollow = s.hollow := rfl
@[simp] theorem State.setSlice_links (c : Nat) (x : Slice) : (s.setSlice c x).links = s.links := rfl
@[simp] theorem State.setSlice_badLines (c : Nat) (x : Slice) : (s.setSlice c x).badLines = s.badLines := rfl
@[simp] theorem State.setSlice_waves (c : Nat) (x : Slice) : (s.setSlice c x).waves = s.waves := rfl
@[simp] theorem State.setSlice_cores (c : Nat) (x : Slice) : (s.setSlice c x).cores = s.cores := rfl
@[simp] theorem State.setSlice_vats (c : Nat) (x : Slice) : (s.setSlice c x).vats = s.vats := rfl
@[simp] theorem State.setSlice_dies (c : Nat) (x : Slice) : (s.setSlice c x).dies = s.dies := rfl
@[simp] theorem State.setSlice_packages (c : Nat) (x : Slice) : (s.setSlice c x).packages = s.packages := rfl
@[simp] theorem State.setSlice_nx (c : Nat) (x : Slice) : (s.setSlice c x).nx = s.nx := rfl
@[simp] theorem State.setSlice_ny (c : Nat) (x : Slice) : (s.setSlice c x).ny = s.ny := rfl
@[simp] theorem State.setSlice_master (c : Nat) (x : Slice) : (s.setSlice c x).master = s.master := rfl
@[simp] theorem State.setSlice_standby (c : Nat) (x : Slice) : (s.setSlice c x).standby = s.standby := rfl
@[simp] theorem State.setSlice_grids (c : Nat) (x : Slice) : (s.setSlice c x).grids = s.grids := rfl
@[simp] theorem State.setSlice_handle (c : Nat) (x : Slice) : (s.setSlice c x).handle = s.handle := rfl
@[simp] theorem State.setSlice_groups (c : Nat) (x : Slice) : (s.setSlice c x).groups = s.groups := rfl
@[simp] theorem State.setSlice_groupNo (c : Nat) (x : Slice) : (s.setSlice c x).groupNo = s.groupNo := rfl
@[simp] theorem State.setSlice_saved (c : Nat) (x : Slice) : (s.setSlice c x).saved = s.saved := rfl
@[simp] theorem State.setSlice_tasks (c : Nat) (x : Slice) : (s.setSlice c x).tasks = s.tasks := rfl
@[simp] theorem State.setSlice_waiters (c : Nat) (x : Slice) : (s.setSlice c x).waiters = s.waiters := rfl
@[simp] theorem State.setSlice_dirs (c : Nat) (x : Slice) : (s.setSlice c x).dirs = s.dirs := rfl
@[simp] theorem State.setSlice_net (c : Nat) (x : Slice) : (s.setSlice c x).net = s.net := rfl
@[simp] theorem State.setSlice_bar0 (c : Nat) (x : Slice) : (s.setSlice c x).bar0 = s.bar0 := rfl
@[simp] theorem State.setSlice_ctrl (c : Nat) (x : Slice) : (s.setSlice c x).ctrl = s.ctrl := rfl
@[simp] theorem State.setSlice_up (c : Nat) (x : Slice) : (s.setSlice c x).up = s.up := rfl
@[simp] theorem State.setSlice_unnumbered (c : Nat) (x : Slice) : (s.setSlice c x).unnumbered = s.unnumbered := rfl
@[simp] theorem State.setSlice_journal (c : Nat) (x : Slice) : (s.setSlice c x).journal = s.journal := rfl

/-! ### setGrid -/

@[simp] theorem State.setGrid_cur (h : Nat) (g : Grid) : (s.setGrid h g).cur = s.cur := rfl
@[simp] theorem State.setGrid_agenda (h : Nat) (g : Grid) : (s.setGrid h g).agenda = s.agenda := rfl
@[simp] theorem State.setGrid_fresh (h : Nat) (g : Grid) : (s.setGrid h g).fresh = s.fresh := rfl
@[simp] theorem State.setGrid_rnd (h : Nat) (g : Grid) : (s.setGrid h g).rnd = s.rnd := rfl
@[simp] theorem State.setGrid_reqNo (h : Nat) (g : Grid) : (s.setGrid h g).reqNo = s.reqNo := rfl
@[simp] theorem State.setGrid_agents (h : Nat) (g : Grid) : (s.setGrid h g).agents = s.agents := rfl
@[simp] theorem State.setGrid_seq (h : Nat) (g : Grid) : (s.setGrid h g).seq = s.seq := rfl
@[simp] theorem State.setGrid_moved (h : Nat) (g : Grid) : (s.setGrid h g).moved = s.moved := rfl
@[simp] theorem State.setGrid_cyc (h : Nat) (g : Grid) : (s.setGrid h g).cyc = s.cyc := rfl
@[simp] theorem State.setGrid_ahead (h : Nat) (g : Grid) : (s.setGrid h g).ahead = s.ahead := rfl
@[simp] theorem State.setGrid_mem (h : Nat) (g : Grid) : (s.setGrid h g).mem = s.mem := rfl
@[simp] theorem State.setGrid_tags (h : Nat) (g : Grid) : (s.setGrid h g).tags = s.tags := rfl
@[simp] theorem State.setGrid_zeroed (h : Nat) (g : Grid) : (s.setGrid h g).zeroed = s.zeroed := rfl
@[simp] theorem State.setGrid_zpages (h : Nat) (g : Grid) : (s.setGrid h g).zpages = s.zpages := rfl
@[simp] theorem State.setGrid_lx (h : Nat) (g : Grid) : (s.setGrid h g).lx = s.lx := rfl
@[simp] theorem State.setGrid_wrote (h : Nat) (g : Grid) : (s.setGrid h g).wrote = s.wrote := rfl
@[simp] theorem State.setGrid_hosted (h : Nat) (g : Grid) : (s.setGrid h g).hosted = s.hosted := rfl
@[simp] theorem State.setGrid_flags (h : Nat) (g : Grid) : (s.setGrid h g).flags = s.flags := rfl
@[simp] theorem State.setGrid_bars (h : Nat) (g : Grid) : (s.setGrid h g).bars = s.bars := rfl
@[simp] theorem State.setGrid_olds (h : Nat) (g : Grid) : (s.setGrid h g).olds = s.olds := rfl
@[simp] theorem State.setGrid_invis (h : Nat) (g : Grid) : (s.setGrid h g).invis = s.invis := rfl
@[simp] theorem State.setGrid_ringed (h : Nat) (g : Grid) : (s.setGrid h g).ringed = s.ringed := rfl
@[simp] theorem State.setGrid_hollow (h : Nat) (g : Grid) : (s.setGrid h g).hollow = s.hollow := rfl
@[simp] theorem State.setGrid_links (h : Nat) (g : Grid) : (s.setGrid h g).links = s.links := rfl
@[simp] theorem State.setGrid_badLines (h : Nat) (g : Grid) : (s.setGrid h g).badLines = s.badLines := rfl
@[simp] theorem State.setGrid_waves (h : Nat) (g : Grid) : (s.setGrid h g).waves = s.waves := rfl
@[simp] theorem State.setGrid_cores (h : Nat) (g : Grid) : (s.setGrid h g).cores = s.cores := rfl
@[simp] theorem State.setGrid_vats (h : Nat) (g : Grid) : (s.setGrid h g).vats = s.vats := rfl
@[simp] theorem State.setGrid_dies (h : Nat) (g : Grid) : (s.setGrid h g).dies = s.dies := rfl
@[simp] theorem State.setGrid_slices (h : Nat) (g : Grid) : (s.setGrid h g).slices = s.slices := rfl
@[simp] theorem State.setGrid_packages (h : Nat) (g : Grid) : (s.setGrid h g).packages = s.packages := rfl
@[simp] theorem State.setGrid_nx (h : Nat) (g : Grid) : (s.setGrid h g).nx = s.nx := rfl
@[simp] theorem State.setGrid_ny (h : Nat) (g : Grid) : (s.setGrid h g).ny = s.ny := rfl
@[simp] theorem State.setGrid_master (h : Nat) (g : Grid) : (s.setGrid h g).master = s.master := rfl
@[simp] theorem State.setGrid_standby (h : Nat) (g : Grid) : (s.setGrid h g).standby = s.standby := rfl
@[simp] theorem State.setGrid_handle (h : Nat) (g : Grid) : (s.setGrid h g).handle = s.handle := rfl
@[simp] theorem State.setGrid_groups (h : Nat) (g : Grid) : (s.setGrid h g).groups = s.groups := rfl
@[simp] theorem State.setGrid_groupNo (h : Nat) (g : Grid) : (s.setGrid h g).groupNo = s.groupNo := rfl
@[simp] theorem State.setGrid_saved (h : Nat) (g : Grid) : (s.setGrid h g).saved = s.saved := rfl
@[simp] theorem State.setGrid_tasks (h : Nat) (g : Grid) : (s.setGrid h g).tasks = s.tasks := rfl
@[simp] theorem State.setGrid_waiters (h : Nat) (g : Grid) : (s.setGrid h g).waiters = s.waiters := rfl
@[simp] theorem State.setGrid_dirs (h : Nat) (g : Grid) : (s.setGrid h g).dirs = s.dirs := rfl
@[simp] theorem State.setGrid_net (h : Nat) (g : Grid) : (s.setGrid h g).net = s.net := rfl
@[simp] theorem State.setGrid_bar0 (h : Nat) (g : Grid) : (s.setGrid h g).bar0 = s.bar0 := rfl
@[simp] theorem State.setGrid_ctrl (h : Nat) (g : Grid) : (s.setGrid h g).ctrl = s.ctrl := rfl
@[simp] theorem State.setGrid_up (h : Nat) (g : Grid) : (s.setGrid h g).up = s.up := rfl
@[simp] theorem State.setGrid_unnumbered (h : Nat) (g : Grid) : (s.setGrid h g).unnumbered = s.unnumbered := rfl
@[simp] theorem State.setGrid_journal (h : Nat) (g : Grid) : (s.setGrid h g).journal = s.journal := rfl

/-! ### setDir -/

@[simp] theorem State.setDir_cur (t : Nat) (x : DirTid) : (s.setDir t x).cur = s.cur := rfl
@[simp] theorem State.setDir_agenda (t : Nat) (x : DirTid) : (s.setDir t x).agenda = s.agenda := rfl
@[simp] theorem State.setDir_fresh (t : Nat) (x : DirTid) : (s.setDir t x).fresh = s.fresh := rfl
@[simp] theorem State.setDir_rnd (t : Nat) (x : DirTid) : (s.setDir t x).rnd = s.rnd := rfl
@[simp] theorem State.setDir_reqNo (t : Nat) (x : DirTid) : (s.setDir t x).reqNo = s.reqNo := rfl
@[simp] theorem State.setDir_agents (t : Nat) (x : DirTid) : (s.setDir t x).agents = s.agents := rfl
@[simp] theorem State.setDir_seq (t : Nat) (x : DirTid) : (s.setDir t x).seq = s.seq := rfl
@[simp] theorem State.setDir_moved (t : Nat) (x : DirTid) : (s.setDir t x).moved = s.moved := rfl
@[simp] theorem State.setDir_cyc (t : Nat) (x : DirTid) : (s.setDir t x).cyc = s.cyc := rfl
@[simp] theorem State.setDir_ahead (t : Nat) (x : DirTid) : (s.setDir t x).ahead = s.ahead := rfl
@[simp] theorem State.setDir_mem (t : Nat) (x : DirTid) : (s.setDir t x).mem = s.mem := rfl
@[simp] theorem State.setDir_tags (t : Nat) (x : DirTid) : (s.setDir t x).tags = s.tags := rfl
@[simp] theorem State.setDir_zeroed (t : Nat) (x : DirTid) : (s.setDir t x).zeroed = s.zeroed := rfl
@[simp] theorem State.setDir_zpages (t : Nat) (x : DirTid) : (s.setDir t x).zpages = s.zpages := rfl
@[simp] theorem State.setDir_lx (t : Nat) (x : DirTid) : (s.setDir t x).lx = s.lx := rfl
@[simp] theorem State.setDir_wrote (t : Nat) (x : DirTid) : (s.setDir t x).wrote = s.wrote := rfl
@[simp] theorem State.setDir_hosted (t : Nat) (x : DirTid) : (s.setDir t x).hosted = s.hosted := rfl
@[simp] theorem State.setDir_flags (t : Nat) (x : DirTid) : (s.setDir t x).flags = s.flags := rfl
@[simp] theorem State.setDir_bars (t : Nat) (x : DirTid) : (s.setDir t x).bars = s.bars := rfl
@[simp] theorem State.setDir_olds (t : Nat) (x : DirTid) : (s.setDir t x).olds = s.olds := rfl
@[simp] theorem State.setDir_invis (t : Nat) (x : DirTid) : (s.setDir t x).invis = s.invis := rfl
@[simp] theorem State.setDir_ringed (t : Nat) (x : DirTid) : (s.setDir t x).ringed = s.ringed := rfl
@[simp] theorem State.setDir_hollow (t : Nat) (x : DirTid) : (s.setDir t x).hollow = s.hollow := rfl
@[simp] theorem State.setDir_links (t : Nat) (x : DirTid) : (s.setDir t x).links = s.links := rfl
@[simp] theorem State.setDir_badLines (t : Nat) (x : DirTid) : (s.setDir t x).badLines = s.badLines := rfl
@[simp] theorem State.setDir_waves (t : Nat) (x : DirTid) : (s.setDir t x).waves = s.waves := rfl
@[simp] theorem State.setDir_cores (t : Nat) (x : DirTid) : (s.setDir t x).cores = s.cores := rfl
@[simp] theorem State.setDir_vats (t : Nat) (x : DirTid) : (s.setDir t x).vats = s.vats := rfl
@[simp] theorem State.setDir_dies (t : Nat) (x : DirTid) : (s.setDir t x).dies = s.dies := rfl
@[simp] theorem State.setDir_slices (t : Nat) (x : DirTid) : (s.setDir t x).slices = s.slices := rfl
@[simp] theorem State.setDir_packages (t : Nat) (x : DirTid) : (s.setDir t x).packages = s.packages := rfl
@[simp] theorem State.setDir_nx (t : Nat) (x : DirTid) : (s.setDir t x).nx = s.nx := rfl
@[simp] theorem State.setDir_ny (t : Nat) (x : DirTid) : (s.setDir t x).ny = s.ny := rfl
@[simp] theorem State.setDir_master (t : Nat) (x : DirTid) : (s.setDir t x).master = s.master := rfl
@[simp] theorem State.setDir_standby (t : Nat) (x : DirTid) : (s.setDir t x).standby = s.standby := rfl
@[simp] theorem State.setDir_grids (t : Nat) (x : DirTid) : (s.setDir t x).grids = s.grids := rfl
@[simp] theorem State.setDir_handle (t : Nat) (x : DirTid) : (s.setDir t x).handle = s.handle := rfl
@[simp] theorem State.setDir_groups (t : Nat) (x : DirTid) : (s.setDir t x).groups = s.groups := rfl
@[simp] theorem State.setDir_groupNo (t : Nat) (x : DirTid) : (s.setDir t x).groupNo = s.groupNo := rfl
@[simp] theorem State.setDir_saved (t : Nat) (x : DirTid) : (s.setDir t x).saved = s.saved := rfl
@[simp] theorem State.setDir_tasks (t : Nat) (x : DirTid) : (s.setDir t x).tasks = s.tasks := rfl
@[simp] theorem State.setDir_waiters (t : Nat) (x : DirTid) : (s.setDir t x).waiters = s.waiters := rfl
@[simp] theorem State.setDir_net (t : Nat) (x : DirTid) : (s.setDir t x).net = s.net := rfl
@[simp] theorem State.setDir_bar0 (t : Nat) (x : DirTid) : (s.setDir t x).bar0 = s.bar0 := rfl
@[simp] theorem State.setDir_ctrl (t : Nat) (x : DirTid) : (s.setDir t x).ctrl = s.ctrl := rfl
@[simp] theorem State.setDir_up (t : Nat) (x : DirTid) : (s.setDir t x).up = s.up := rfl
@[simp] theorem State.setDir_unnumbered (t : Nat) (x : DirTid) : (s.setDir t x).unnumbered = s.unnumbered := rfl
@[simp] theorem State.setDir_journal (t : Nat) (x : DirTid) : (s.setDir t x).journal = s.journal := rfl

/-! ### modWave -/

@[simp] theorem State.modWave_cur (w : Nat) (f : Wave → Wave) : (s.modWave w f).cur = s.cur := rfl
@[simp] theorem State.modWave_agenda (w : Nat) (f : Wave → Wave) : (s.modWave w f).agenda = s.agenda := rfl
@[simp] theorem State.modWave_fresh (w : Nat) (f : Wave → Wave) : (s.modWave w f).fresh = s.fresh := rfl
@[simp] theorem State.modWave_rnd (w : Nat) (f : Wave → Wave) : (s.modWave w f).rnd = s.rnd := rfl
@[simp] theorem State.modWave_reqNo (w : Nat) (f : Wave → Wave) : (s.modWave w f).reqNo = s.reqNo := rfl
@[simp] theorem State.modWave_agents (w : Nat) (f : Wave → Wave) : (s.modWave w f).agents = s.agents := rfl
@[simp] theorem State.modWave_seq (w : Nat) (f : Wave → Wave) : (s.modWave w f).seq = s.seq := rfl
@[simp] theorem State.modWave_moved (w : Nat) (f : Wave → Wave) : (s.modWave w f).moved = s.moved := rfl
@[simp] theorem State.modWave_cyc (w : Nat) (f : Wave → Wave) : (s.modWave w f).cyc = s.cyc := rfl
@[simp] theorem State.modWave_ahead (w : Nat) (f : Wave → Wave) : (s.modWave w f).ahead = s.ahead := rfl
@[simp] theorem State.modWave_mem (w : Nat) (f : Wave → Wave) : (s.modWave w f).mem = s.mem := rfl
@[simp] theorem State.modWave_tags (w : Nat) (f : Wave → Wave) : (s.modWave w f).tags = s.tags := rfl
@[simp] theorem State.modWave_zeroed (w : Nat) (f : Wave → Wave) : (s.modWave w f).zeroed = s.zeroed := rfl
@[simp] theorem State.modWave_zpages (w : Nat) (f : Wave → Wave) : (s.modWave w f).zpages = s.zpages := rfl
@[simp] theorem State.modWave_lx (w : Nat) (f : Wave → Wave) : (s.modWave w f).lx = s.lx := rfl
@[simp] theorem State.modWave_wrote (w : Nat) (f : Wave → Wave) : (s.modWave w f).wrote = s.wrote := rfl
@[simp] theorem State.modWave_hosted (w : Nat) (f : Wave → Wave) : (s.modWave w f).hosted = s.hosted := rfl
@[simp] theorem State.modWave_flags (w : Nat) (f : Wave → Wave) : (s.modWave w f).flags = s.flags := rfl
@[simp] theorem State.modWave_bars (w : Nat) (f : Wave → Wave) : (s.modWave w f).bars = s.bars := rfl
@[simp] theorem State.modWave_olds (w : Nat) (f : Wave → Wave) : (s.modWave w f).olds = s.olds := rfl
@[simp] theorem State.modWave_invis (w : Nat) (f : Wave → Wave) : (s.modWave w f).invis = s.invis := rfl
@[simp] theorem State.modWave_ringed (w : Nat) (f : Wave → Wave) : (s.modWave w f).ringed = s.ringed := rfl
@[simp] theorem State.modWave_hollow (w : Nat) (f : Wave → Wave) : (s.modWave w f).hollow = s.hollow := rfl
@[simp] theorem State.modWave_links (w : Nat) (f : Wave → Wave) : (s.modWave w f).links = s.links := rfl
@[simp] theorem State.modWave_badLines (w : Nat) (f : Wave → Wave) : (s.modWave w f).badLines = s.badLines := rfl
@[simp] theorem State.modWave_cores (w : Nat) (f : Wave → Wave) : (s.modWave w f).cores = s.cores := rfl
@[simp] theorem State.modWave_vats (w : Nat) (f : Wave → Wave) : (s.modWave w f).vats = s.vats := rfl
@[simp] theorem State.modWave_dies (w : Nat) (f : Wave → Wave) : (s.modWave w f).dies = s.dies := rfl
@[simp] theorem State.modWave_slices (w : Nat) (f : Wave → Wave) : (s.modWave w f).slices = s.slices := rfl
@[simp] theorem State.modWave_packages (w : Nat) (f : Wave → Wave) : (s.modWave w f).packages = s.packages := rfl
@[simp] theorem State.modWave_nx (w : Nat) (f : Wave → Wave) : (s.modWave w f).nx = s.nx := rfl
@[simp] theorem State.modWave_ny (w : Nat) (f : Wave → Wave) : (s.modWave w f).ny = s.ny := rfl
@[simp] theorem State.modWave_master (w : Nat) (f : Wave → Wave) : (s.modWave w f).master = s.master := rfl
@[simp] theorem State.modWave_standby (w : Nat) (f : Wave → Wave) : (s.modWave w f).standby = s.standby := rfl
@[simp] theorem State.modWave_grids (w : Nat) (f : Wave → Wave) : (s.modWave w f).grids = s.grids := rfl
@[simp] theorem State.modWave_handle (w : Nat) (f : Wave → Wave) : (s.modWave w f).handle = s.handle := rfl
@[simp] theorem State.modWave_groups (w : Nat) (f : Wave → Wave) : (s.modWave w f).groups = s.groups := rfl
@[simp] theorem State.modWave_groupNo (w : Nat) (f : Wave → Wave) : (s.modWave w f).groupNo = s.groupNo := rfl
@[simp] theorem State.modWave_saved (w : Nat) (f : Wave → Wave) : (s.modWave w f).saved = s.saved := rfl
@[simp] theorem State.modWave_tasks (w : Nat) (f : Wave → Wave) : (s.modWave w f).tasks = s.tasks := rfl
@[simp] theorem State.modWave_waiters (w : Nat) (f : Wave → Wave) : (s.modWave w f).waiters = s.waiters := rfl
@[simp] theorem State.modWave_dirs (w : Nat) (f : Wave → Wave) : (s.modWave w f).dirs = s.dirs := rfl
@[simp] theorem State.modWave_net (w : Nat) (f : Wave → Wave) : (s.modWave w f).net = s.net := rfl
@[simp] theorem State.modWave_bar0 (w : Nat) (f : Wave → Wave) : (s.modWave w f).bar0 = s.bar0 := rfl
@[simp] theorem State.modWave_ctrl (w : Nat) (f : Wave → Wave) : (s.modWave w f).ctrl = s.ctrl := rfl
@[simp] theorem State.modWave_up (w : Nat) (f : Wave → Wave) : (s.modWave w f).up = s.up := rfl
@[simp] theorem State.modWave_unnumbered (w : Nat) (f : Wave → Wave) : (s.modWave w f).unnumbered = s.unnumbered := rfl
@[simp] theorem State.modWave_journal (w : Nat) (f : Wave → Wave) : (s.modWave w f).journal = s.journal := rfl

/-! ### modCore -/

@[simp] theorem State.modCore_cur (c : Nat) (f : Core → Core) : (s.modCore c f).cur = s.cur := rfl
@[simp] theorem State.modCore_agenda (c : Nat) (f : Core → Core) : (s.modCore c f).agenda = s.agenda := rfl
@[simp] theorem State.modCore_fresh (c : Nat) (f : Core → Core) : (s.modCore c f).fresh = s.fresh := rfl
@[simp] theorem State.modCore_rnd (c : Nat) (f : Core → Core) : (s.modCore c f).rnd = s.rnd := rfl
@[simp] theorem State.modCore_reqNo (c : Nat) (f : Core → Core) : (s.modCore c f).reqNo = s.reqNo := rfl
@[simp] theorem State.modCore_agents (c : Nat) (f : Core → Core) : (s.modCore c f).agents = s.agents := rfl
@[simp] theorem State.modCore_seq (c : Nat) (f : Core → Core) : (s.modCore c f).seq = s.seq := rfl
@[simp] theorem State.modCore_moved (c : Nat) (f : Core → Core) : (s.modCore c f).moved = s.moved := rfl
@[simp] theorem State.modCore_cyc (c : Nat) (f : Core → Core) : (s.modCore c f).cyc = s.cyc := rfl
@[simp] theorem State.modCore_ahead (c : Nat) (f : Core → Core) : (s.modCore c f).ahead = s.ahead := rfl
@[simp] theorem State.modCore_mem (c : Nat) (f : Core → Core) : (s.modCore c f).mem = s.mem := rfl
@[simp] theorem State.modCore_tags (c : Nat) (f : Core → Core) : (s.modCore c f).tags = s.tags := rfl
@[simp] theorem State.modCore_zeroed (c : Nat) (f : Core → Core) : (s.modCore c f).zeroed = s.zeroed := rfl
@[simp] theorem State.modCore_zpages (c : Nat) (f : Core → Core) : (s.modCore c f).zpages = s.zpages := rfl
@[simp] theorem State.modCore_lx (c : Nat) (f : Core → Core) : (s.modCore c f).lx = s.lx := rfl
@[simp] theorem State.modCore_wrote (c : Nat) (f : Core → Core) : (s.modCore c f).wrote = s.wrote := rfl
@[simp] theorem State.modCore_hosted (c : Nat) (f : Core → Core) : (s.modCore c f).hosted = s.hosted := rfl
@[simp] theorem State.modCore_flags (c : Nat) (f : Core → Core) : (s.modCore c f).flags = s.flags := rfl
@[simp] theorem State.modCore_bars (c : Nat) (f : Core → Core) : (s.modCore c f).bars = s.bars := rfl
@[simp] theorem State.modCore_olds (c : Nat) (f : Core → Core) : (s.modCore c f).olds = s.olds := rfl
@[simp] theorem State.modCore_invis (c : Nat) (f : Core → Core) : (s.modCore c f).invis = s.invis := rfl
@[simp] theorem State.modCore_ringed (c : Nat) (f : Core → Core) : (s.modCore c f).ringed = s.ringed := rfl
@[simp] theorem State.modCore_hollow (c : Nat) (f : Core → Core) : (s.modCore c f).hollow = s.hollow := rfl
@[simp] theorem State.modCore_links (c : Nat) (f : Core → Core) : (s.modCore c f).links = s.links := rfl
@[simp] theorem State.modCore_badLines (c : Nat) (f : Core → Core) : (s.modCore c f).badLines = s.badLines := rfl
@[simp] theorem State.modCore_waves (c : Nat) (f : Core → Core) : (s.modCore c f).waves = s.waves := rfl
@[simp] theorem State.modCore_vats (c : Nat) (f : Core → Core) : (s.modCore c f).vats = s.vats := rfl
@[simp] theorem State.modCore_dies (c : Nat) (f : Core → Core) : (s.modCore c f).dies = s.dies := rfl
@[simp] theorem State.modCore_slices (c : Nat) (f : Core → Core) : (s.modCore c f).slices = s.slices := rfl
@[simp] theorem State.modCore_packages (c : Nat) (f : Core → Core) : (s.modCore c f).packages = s.packages := rfl
@[simp] theorem State.modCore_nx (c : Nat) (f : Core → Core) : (s.modCore c f).nx = s.nx := rfl
@[simp] theorem State.modCore_ny (c : Nat) (f : Core → Core) : (s.modCore c f).ny = s.ny := rfl
@[simp] theorem State.modCore_master (c : Nat) (f : Core → Core) : (s.modCore c f).master = s.master := rfl
@[simp] theorem State.modCore_standby (c : Nat) (f : Core → Core) : (s.modCore c f).standby = s.standby := rfl
@[simp] theorem State.modCore_grids (c : Nat) (f : Core → Core) : (s.modCore c f).grids = s.grids := rfl
@[simp] theorem State.modCore_handle (c : Nat) (f : Core → Core) : (s.modCore c f).handle = s.handle := rfl
@[simp] theorem State.modCore_groups (c : Nat) (f : Core → Core) : (s.modCore c f).groups = s.groups := rfl
@[simp] theorem State.modCore_groupNo (c : Nat) (f : Core → Core) : (s.modCore c f).groupNo = s.groupNo := rfl
@[simp] theorem State.modCore_saved (c : Nat) (f : Core → Core) : (s.modCore c f).saved = s.saved := rfl
@[simp] theorem State.modCore_tasks (c : Nat) (f : Core → Core) : (s.modCore c f).tasks = s.tasks := rfl
@[simp] theorem State.modCore_waiters (c : Nat) (f : Core → Core) : (s.modCore c f).waiters = s.waiters := rfl
@[simp] theorem State.modCore_dirs (c : Nat) (f : Core → Core) : (s.modCore c f).dirs = s.dirs := rfl
@[simp] theorem State.modCore_net (c : Nat) (f : Core → Core) : (s.modCore c f).net = s.net := rfl
@[simp] theorem State.modCore_bar0 (c : Nat) (f : Core → Core) : (s.modCore c f).bar0 = s.bar0 := rfl
@[simp] theorem State.modCore_ctrl (c : Nat) (f : Core → Core) : (s.modCore c f).ctrl = s.ctrl := rfl
@[simp] theorem State.modCore_up (c : Nat) (f : Core → Core) : (s.modCore c f).up = s.up := rfl
@[simp] theorem State.modCore_unnumbered (c : Nat) (f : Core → Core) : (s.modCore c f).unnumbered = s.unnumbered := rfl
@[simp] theorem State.modCore_journal (c : Nat) (f : Core → Core) : (s.modCore c f).journal = s.journal := rfl

/-! ### modVat -/

@[simp] theorem State.modVat_cur (v : Nat) (f : Vat → Vat) : (s.modVat v f).cur = s.cur := rfl
@[simp] theorem State.modVat_agenda (v : Nat) (f : Vat → Vat) : (s.modVat v f).agenda = s.agenda := rfl
@[simp] theorem State.modVat_fresh (v : Nat) (f : Vat → Vat) : (s.modVat v f).fresh = s.fresh := rfl
@[simp] theorem State.modVat_rnd (v : Nat) (f : Vat → Vat) : (s.modVat v f).rnd = s.rnd := rfl
@[simp] theorem State.modVat_reqNo (v : Nat) (f : Vat → Vat) : (s.modVat v f).reqNo = s.reqNo := rfl
@[simp] theorem State.modVat_agents (v : Nat) (f : Vat → Vat) : (s.modVat v f).agents = s.agents := rfl
@[simp] theorem State.modVat_seq (v : Nat) (f : Vat → Vat) : (s.modVat v f).seq = s.seq := rfl
@[simp] theorem State.modVat_moved (v : Nat) (f : Vat → Vat) : (s.modVat v f).moved = s.moved := rfl
@[simp] theorem State.modVat_cyc (v : Nat) (f : Vat → Vat) : (s.modVat v f).cyc = s.cyc := rfl
@[simp] theorem State.modVat_ahead (v : Nat) (f : Vat → Vat) : (s.modVat v f).ahead = s.ahead := rfl
@[simp] theorem State.modVat_mem (v : Nat) (f : Vat → Vat) : (s.modVat v f).mem = s.mem := rfl
@[simp] theorem State.modVat_tags (v : Nat) (f : Vat → Vat) : (s.modVat v f).tags = s.tags := rfl
@[simp] theorem State.modVat_zeroed (v : Nat) (f : Vat → Vat) : (s.modVat v f).zeroed = s.zeroed := rfl
@[simp] theorem State.modVat_zpages (v : Nat) (f : Vat → Vat) : (s.modVat v f).zpages = s.zpages := rfl
@[simp] theorem State.modVat_lx (v : Nat) (f : Vat → Vat) : (s.modVat v f).lx = s.lx := rfl
@[simp] theorem State.modVat_wrote (v : Nat) (f : Vat → Vat) : (s.modVat v f).wrote = s.wrote := rfl
@[simp] theorem State.modVat_hosted (v : Nat) (f : Vat → Vat) : (s.modVat v f).hosted = s.hosted := rfl
@[simp] theorem State.modVat_flags (v : Nat) (f : Vat → Vat) : (s.modVat v f).flags = s.flags := rfl
@[simp] theorem State.modVat_bars (v : Nat) (f : Vat → Vat) : (s.modVat v f).bars = s.bars := rfl
@[simp] theorem State.modVat_olds (v : Nat) (f : Vat → Vat) : (s.modVat v f).olds = s.olds := rfl
@[simp] theorem State.modVat_invis (v : Nat) (f : Vat → Vat) : (s.modVat v f).invis = s.invis := rfl
@[simp] theorem State.modVat_ringed (v : Nat) (f : Vat → Vat) : (s.modVat v f).ringed = s.ringed := rfl
@[simp] theorem State.modVat_hollow (v : Nat) (f : Vat → Vat) : (s.modVat v f).hollow = s.hollow := rfl
@[simp] theorem State.modVat_links (v : Nat) (f : Vat → Vat) : (s.modVat v f).links = s.links := rfl
@[simp] theorem State.modVat_badLines (v : Nat) (f : Vat → Vat) : (s.modVat v f).badLines = s.badLines := rfl
@[simp] theorem State.modVat_waves (v : Nat) (f : Vat → Vat) : (s.modVat v f).waves = s.waves := rfl
@[simp] theorem State.modVat_cores (v : Nat) (f : Vat → Vat) : (s.modVat v f).cores = s.cores := rfl
@[simp] theorem State.modVat_dies (v : Nat) (f : Vat → Vat) : (s.modVat v f).dies = s.dies := rfl
@[simp] theorem State.modVat_slices (v : Nat) (f : Vat → Vat) : (s.modVat v f).slices = s.slices := rfl
@[simp] theorem State.modVat_packages (v : Nat) (f : Vat → Vat) : (s.modVat v f).packages = s.packages := rfl
@[simp] theorem State.modVat_nx (v : Nat) (f : Vat → Vat) : (s.modVat v f).nx = s.nx := rfl
@[simp] theorem State.modVat_ny (v : Nat) (f : Vat → Vat) : (s.modVat v f).ny = s.ny := rfl
@[simp] theorem State.modVat_master (v : Nat) (f : Vat → Vat) : (s.modVat v f).master = s.master := rfl
@[simp] theorem State.modVat_standby (v : Nat) (f : Vat → Vat) : (s.modVat v f).standby = s.standby := rfl
@[simp] theorem State.modVat_grids (v : Nat) (f : Vat → Vat) : (s.modVat v f).grids = s.grids := rfl
@[simp] theorem State.modVat_handle (v : Nat) (f : Vat → Vat) : (s.modVat v f).handle = s.handle := rfl
@[simp] theorem State.modVat_groups (v : Nat) (f : Vat → Vat) : (s.modVat v f).groups = s.groups := rfl
@[simp] theorem State.modVat_groupNo (v : Nat) (f : Vat → Vat) : (s.modVat v f).groupNo = s.groupNo := rfl
@[simp] theorem State.modVat_saved (v : Nat) (f : Vat → Vat) : (s.modVat v f).saved = s.saved := rfl
@[simp] theorem State.modVat_tasks (v : Nat) (f : Vat → Vat) : (s.modVat v f).tasks = s.tasks := rfl
@[simp] theorem State.modVat_waiters (v : Nat) (f : Vat → Vat) : (s.modVat v f).waiters = s.waiters := rfl
@[simp] theorem State.modVat_dirs (v : Nat) (f : Vat → Vat) : (s.modVat v f).dirs = s.dirs := rfl
@[simp] theorem State.modVat_net (v : Nat) (f : Vat → Vat) : (s.modVat v f).net = s.net := rfl
@[simp] theorem State.modVat_bar0 (v : Nat) (f : Vat → Vat) : (s.modVat v f).bar0 = s.bar0 := rfl
@[simp] theorem State.modVat_ctrl (v : Nat) (f : Vat → Vat) : (s.modVat v f).ctrl = s.ctrl := rfl
@[simp] theorem State.modVat_up (v : Nat) (f : Vat → Vat) : (s.modVat v f).up = s.up := rfl
@[simp] theorem State.modVat_unnumbered (v : Nat) (f : Vat → Vat) : (s.modVat v f).unnumbered = s.unnumbered := rfl
@[simp] theorem State.modVat_journal (v : Nat) (f : Vat → Vat) : (s.modVat v f).journal = s.journal := rfl

/-! ### modDie -/

@[simp] theorem State.modDie_cur (d : Nat) (f : Die → Die) : (s.modDie d f).cur = s.cur := rfl
@[simp] theorem State.modDie_agenda (d : Nat) (f : Die → Die) : (s.modDie d f).agenda = s.agenda := rfl
@[simp] theorem State.modDie_fresh (d : Nat) (f : Die → Die) : (s.modDie d f).fresh = s.fresh := rfl
@[simp] theorem State.modDie_rnd (d : Nat) (f : Die → Die) : (s.modDie d f).rnd = s.rnd := rfl
@[simp] theorem State.modDie_reqNo (d : Nat) (f : Die → Die) : (s.modDie d f).reqNo = s.reqNo := rfl
@[simp] theorem State.modDie_agents (d : Nat) (f : Die → Die) : (s.modDie d f).agents = s.agents := rfl
@[simp] theorem State.modDie_seq (d : Nat) (f : Die → Die) : (s.modDie d f).seq = s.seq := rfl
@[simp] theorem State.modDie_moved (d : Nat) (f : Die → Die) : (s.modDie d f).moved = s.moved := rfl
@[simp] theorem State.modDie_cyc (d : Nat) (f : Die → Die) : (s.modDie d f).cyc = s.cyc := rfl
@[simp] theorem State.modDie_ahead (d : Nat) (f : Die → Die) : (s.modDie d f).ahead = s.ahead := rfl
@[simp] theorem State.modDie_mem (d : Nat) (f : Die → Die) : (s.modDie d f).mem = s.mem := rfl
@[simp] theorem State.modDie_tags (d : Nat) (f : Die → Die) : (s.modDie d f).tags = s.tags := rfl
@[simp] theorem State.modDie_zeroed (d : Nat) (f : Die → Die) : (s.modDie d f).zeroed = s.zeroed := rfl
@[simp] theorem State.modDie_zpages (d : Nat) (f : Die → Die) : (s.modDie d f).zpages = s.zpages := rfl
@[simp] theorem State.modDie_lx (d : Nat) (f : Die → Die) : (s.modDie d f).lx = s.lx := rfl
@[simp] theorem State.modDie_wrote (d : Nat) (f : Die → Die) : (s.modDie d f).wrote = s.wrote := rfl
@[simp] theorem State.modDie_hosted (d : Nat) (f : Die → Die) : (s.modDie d f).hosted = s.hosted := rfl
@[simp] theorem State.modDie_flags (d : Nat) (f : Die → Die) : (s.modDie d f).flags = s.flags := rfl
@[simp] theorem State.modDie_bars (d : Nat) (f : Die → Die) : (s.modDie d f).bars = s.bars := rfl
@[simp] theorem State.modDie_olds (d : Nat) (f : Die → Die) : (s.modDie d f).olds = s.olds := rfl
@[simp] theorem State.modDie_invis (d : Nat) (f : Die → Die) : (s.modDie d f).invis = s.invis := rfl
@[simp] theorem State.modDie_ringed (d : Nat) (f : Die → Die) : (s.modDie d f).ringed = s.ringed := rfl
@[simp] theorem State.modDie_hollow (d : Nat) (f : Die → Die) : (s.modDie d f).hollow = s.hollow := rfl
@[simp] theorem State.modDie_links (d : Nat) (f : Die → Die) : (s.modDie d f).links = s.links := rfl
@[simp] theorem State.modDie_badLines (d : Nat) (f : Die → Die) : (s.modDie d f).badLines = s.badLines := rfl
@[simp] theorem State.modDie_waves (d : Nat) (f : Die → Die) : (s.modDie d f).waves = s.waves := rfl
@[simp] theorem State.modDie_cores (d : Nat) (f : Die → Die) : (s.modDie d f).cores = s.cores := rfl
@[simp] theorem State.modDie_vats (d : Nat) (f : Die → Die) : (s.modDie d f).vats = s.vats := rfl
@[simp] theorem State.modDie_slices (d : Nat) (f : Die → Die) : (s.modDie d f).slices = s.slices := rfl
@[simp] theorem State.modDie_packages (d : Nat) (f : Die → Die) : (s.modDie d f).packages = s.packages := rfl
@[simp] theorem State.modDie_nx (d : Nat) (f : Die → Die) : (s.modDie d f).nx = s.nx := rfl
@[simp] theorem State.modDie_ny (d : Nat) (f : Die → Die) : (s.modDie d f).ny = s.ny := rfl
@[simp] theorem State.modDie_master (d : Nat) (f : Die → Die) : (s.modDie d f).master = s.master := rfl
@[simp] theorem State.modDie_standby (d : Nat) (f : Die → Die) : (s.modDie d f).standby = s.standby := rfl
@[simp] theorem State.modDie_grids (d : Nat) (f : Die → Die) : (s.modDie d f).grids = s.grids := rfl
@[simp] theorem State.modDie_handle (d : Nat) (f : Die → Die) : (s.modDie d f).handle = s.handle := rfl
@[simp] theorem State.modDie_groups (d : Nat) (f : Die → Die) : (s.modDie d f).groups = s.groups := rfl
@[simp] theorem State.modDie_groupNo (d : Nat) (f : Die → Die) : (s.modDie d f).groupNo = s.groupNo := rfl
@[simp] theorem State.modDie_saved (d : Nat) (f : Die → Die) : (s.modDie d f).saved = s.saved := rfl
@[simp] theorem State.modDie_tasks (d : Nat) (f : Die → Die) : (s.modDie d f).tasks = s.tasks := rfl
@[simp] theorem State.modDie_waiters (d : Nat) (f : Die → Die) : (s.modDie d f).waiters = s.waiters := rfl
@[simp] theorem State.modDie_dirs (d : Nat) (f : Die → Die) : (s.modDie d f).dirs = s.dirs := rfl
@[simp] theorem State.modDie_net (d : Nat) (f : Die → Die) : (s.modDie d f).net = s.net := rfl
@[simp] theorem State.modDie_bar0 (d : Nat) (f : Die → Die) : (s.modDie d f).bar0 = s.bar0 := rfl
@[simp] theorem State.modDie_ctrl (d : Nat) (f : Die → Die) : (s.modDie d f).ctrl = s.ctrl := rfl
@[simp] theorem State.modDie_up (d : Nat) (f : Die → Die) : (s.modDie d f).up = s.up := rfl
@[simp] theorem State.modDie_unnumbered (d : Nat) (f : Die → Die) : (s.modDie d f).unnumbered = s.unnumbered := rfl
@[simp] theorem State.modDie_journal (d : Nat) (f : Die → Die) : (s.modDie d f).journal = s.journal := rfl

/-! ### modSlice -/

@[simp] theorem State.modSlice_cur (c : Nat) (f : Slice → Slice) : (s.modSlice c f).cur = s.cur := rfl
@[simp] theorem State.modSlice_agenda (c : Nat) (f : Slice → Slice) : (s.modSlice c f).agenda = s.agenda := rfl
@[simp] theorem State.modSlice_fresh (c : Nat) (f : Slice → Slice) : (s.modSlice c f).fresh = s.fresh := rfl
@[simp] theorem State.modSlice_rnd (c : Nat) (f : Slice → Slice) : (s.modSlice c f).rnd = s.rnd := rfl
@[simp] theorem State.modSlice_reqNo (c : Nat) (f : Slice → Slice) : (s.modSlice c f).reqNo = s.reqNo := rfl
@[simp] theorem State.modSlice_agents (c : Nat) (f : Slice → Slice) : (s.modSlice c f).agents = s.agents := rfl
@[simp] theorem State.modSlice_seq (c : Nat) (f : Slice → Slice) : (s.modSlice c f).seq = s.seq := rfl
@[simp] theorem State.modSlice_moved (c : Nat) (f : Slice → Slice) : (s.modSlice c f).moved = s.moved := rfl
@[simp] theorem State.modSlice_cyc (c : Nat) (f : Slice → Slice) : (s.modSlice c f).cyc = s.cyc := rfl
@[simp] theorem State.modSlice_ahead (c : Nat) (f : Slice → Slice) : (s.modSlice c f).ahead = s.ahead := rfl
@[simp] theorem State.modSlice_mem (c : Nat) (f : Slice → Slice) : (s.modSlice c f).mem = s.mem := rfl
@[simp] theorem State.modSlice_tags (c : Nat) (f : Slice → Slice) : (s.modSlice c f).tags = s.tags := rfl
@[simp] theorem State.modSlice_zeroed (c : Nat) (f : Slice → Slice) : (s.modSlice c f).zeroed = s.zeroed := rfl
@[simp] theorem State.modSlice_zpages (c : Nat) (f : Slice → Slice) : (s.modSlice c f).zpages = s.zpages := rfl
@[simp] theorem State.modSlice_lx (c : Nat) (f : Slice → Slice) : (s.modSlice c f).lx = s.lx := rfl
@[simp] theorem State.modSlice_wrote (c : Nat) (f : Slice → Slice) : (s.modSlice c f).wrote = s.wrote := rfl
@[simp] theorem State.modSlice_hosted (c : Nat) (f : Slice → Slice) : (s.modSlice c f).hosted = s.hosted := rfl
@[simp] theorem State.modSlice_flags (c : Nat) (f : Slice → Slice) : (s.modSlice c f).flags = s.flags := rfl
@[simp] theorem State.modSlice_bars (c : Nat) (f : Slice → Slice) : (s.modSlice c f).bars = s.bars := rfl
@[simp] theorem State.modSlice_olds (c : Nat) (f : Slice → Slice) : (s.modSlice c f).olds = s.olds := rfl
@[simp] theorem State.modSlice_invis (c : Nat) (f : Slice → Slice) : (s.modSlice c f).invis = s.invis := rfl
@[simp] theorem State.modSlice_ringed (c : Nat) (f : Slice → Slice) : (s.modSlice c f).ringed = s.ringed := rfl
@[simp] theorem State.modSlice_hollow (c : Nat) (f : Slice → Slice) : (s.modSlice c f).hollow = s.hollow := rfl
@[simp] theorem State.modSlice_links (c : Nat) (f : Slice → Slice) : (s.modSlice c f).links = s.links := rfl
@[simp] theorem State.modSlice_badLines (c : Nat) (f : Slice → Slice) : (s.modSlice c f).badLines = s.badLines := rfl
@[simp] theorem State.modSlice_waves (c : Nat) (f : Slice → Slice) : (s.modSlice c f).waves = s.waves := rfl
@[simp] theorem State.modSlice_cores (c : Nat) (f : Slice → Slice) : (s.modSlice c f).cores = s.cores := rfl
@[simp] theorem State.modSlice_vats (c : Nat) (f : Slice → Slice) : (s.modSlice c f).vats = s.vats := rfl
@[simp] theorem State.modSlice_dies (c : Nat) (f : Slice → Slice) : (s.modSlice c f).dies = s.dies := rfl
@[simp] theorem State.modSlice_packages (c : Nat) (f : Slice → Slice) : (s.modSlice c f).packages = s.packages := rfl
@[simp] theorem State.modSlice_nx (c : Nat) (f : Slice → Slice) : (s.modSlice c f).nx = s.nx := rfl
@[simp] theorem State.modSlice_ny (c : Nat) (f : Slice → Slice) : (s.modSlice c f).ny = s.ny := rfl
@[simp] theorem State.modSlice_master (c : Nat) (f : Slice → Slice) : (s.modSlice c f).master = s.master := rfl
@[simp] theorem State.modSlice_standby (c : Nat) (f : Slice → Slice) : (s.modSlice c f).standby = s.standby := rfl
@[simp] theorem State.modSlice_grids (c : Nat) (f : Slice → Slice) : (s.modSlice c f).grids = s.grids := rfl
@[simp] theorem State.modSlice_handle (c : Nat) (f : Slice → Slice) : (s.modSlice c f).handle = s.handle := rfl
@[simp] theorem State.modSlice_groups (c : Nat) (f : Slice → Slice) : (s.modSlice c f).groups = s.groups := rfl
@[simp] theorem State.modSlice_groupNo (c : Nat) (f : Slice → Slice) : (s.modSlice c f).groupNo = s.groupNo := rfl
@[simp] theorem State.modSlice_saved (c : Nat) (f : Slice → Slice) : (s.modSlice c f).saved = s.saved := rfl
@[simp] theorem State.modSlice_tasks (c : Nat) (f : Slice → Slice) : (s.modSlice c f).tasks = s.tasks := rfl
@[simp] theorem State.modSlice_waiters (c : Nat) (f : Slice → Slice) : (s.modSlice c f).waiters = s.waiters := rfl
@[simp] theorem State.modSlice_dirs (c : Nat) (f : Slice → Slice) : (s.modSlice c f).dirs = s.dirs := rfl
@[simp] theorem State.modSlice_net (c : Nat) (f : Slice → Slice) : (s.modSlice c f).net = s.net := rfl
@[simp] theorem State.modSlice_bar0 (c : Nat) (f : Slice → Slice) : (s.modSlice c f).bar0 = s.bar0 := rfl
@[simp] theorem State.modSlice_ctrl (c : Nat) (f : Slice → Slice) : (s.modSlice c f).ctrl = s.ctrl := rfl
@[simp] theorem State.modSlice_up (c : Nat) (f : Slice → Slice) : (s.modSlice c f).up = s.up := rfl
@[simp] theorem State.modSlice_unnumbered (c : Nat) (f : Slice → Slice) : (s.modSlice c f).unnumbered = s.unnumbered := rfl
@[simp] theorem State.modSlice_journal (c : Nat) (f : Slice → Slice) : (s.modSlice c f).journal = s.journal := rfl

/-! ### modNet -/

@[simp] theorem State.modNet_cur (f : Net → Net) : (s.modNet f).cur = s.cur := rfl
@[simp] theorem State.modNet_agenda (f : Net → Net) : (s.modNet f).agenda = s.agenda := rfl
@[simp] theorem State.modNet_fresh (f : Net → Net) : (s.modNet f).fresh = s.fresh := rfl
@[simp] theorem State.modNet_rnd (f : Net → Net) : (s.modNet f).rnd = s.rnd := rfl
@[simp] theorem State.modNet_reqNo (f : Net → Net) : (s.modNet f).reqNo = s.reqNo := rfl
@[simp] theorem State.modNet_agents (f : Net → Net) : (s.modNet f).agents = s.agents := rfl
@[simp] theorem State.modNet_seq (f : Net → Net) : (s.modNet f).seq = s.seq := rfl
@[simp] theorem State.modNet_moved (f : Net → Net) : (s.modNet f).moved = s.moved := rfl
@[simp] theorem State.modNet_cyc (f : Net → Net) : (s.modNet f).cyc = s.cyc := rfl
@[simp] theorem State.modNet_ahead (f : Net → Net) : (s.modNet f).ahead = s.ahead := rfl
@[simp] theorem State.modNet_mem (f : Net → Net) : (s.modNet f).mem = s.mem := rfl
@[simp] theorem State.modNet_tags (f : Net → Net) : (s.modNet f).tags = s.tags := rfl
@[simp] theorem State.modNet_zeroed (f : Net → Net) : (s.modNet f).zeroed = s.zeroed := rfl
@[simp] theorem State.modNet_zpages (f : Net → Net) : (s.modNet f).zpages = s.zpages := rfl
@[simp] theorem State.modNet_lx (f : Net → Net) : (s.modNet f).lx = s.lx := rfl
@[simp] theorem State.modNet_wrote (f : Net → Net) : (s.modNet f).wrote = s.wrote := rfl
@[simp] theorem State.modNet_hosted (f : Net → Net) : (s.modNet f).hosted = s.hosted := rfl
@[simp] theorem State.modNet_flags (f : Net → Net) : (s.modNet f).flags = s.flags := rfl
@[simp] theorem State.modNet_bars (f : Net → Net) : (s.modNet f).bars = s.bars := rfl
@[simp] theorem State.modNet_olds (f : Net → Net) : (s.modNet f).olds = s.olds := rfl
@[simp] theorem State.modNet_invis (f : Net → Net) : (s.modNet f).invis = s.invis := rfl
@[simp] theorem State.modNet_ringed (f : Net → Net) : (s.modNet f).ringed = s.ringed := rfl
@[simp] theorem State.modNet_hollow (f : Net → Net) : (s.modNet f).hollow = s.hollow := rfl
@[simp] theorem State.modNet_links (f : Net → Net) : (s.modNet f).links = s.links := rfl
@[simp] theorem State.modNet_badLines (f : Net → Net) : (s.modNet f).badLines = s.badLines := rfl
@[simp] theorem State.modNet_waves (f : Net → Net) : (s.modNet f).waves = s.waves := rfl
@[simp] theorem State.modNet_cores (f : Net → Net) : (s.modNet f).cores = s.cores := rfl
@[simp] theorem State.modNet_vats (f : Net → Net) : (s.modNet f).vats = s.vats := rfl
@[simp] theorem State.modNet_dies (f : Net → Net) : (s.modNet f).dies = s.dies := rfl
@[simp] theorem State.modNet_slices (f : Net → Net) : (s.modNet f).slices = s.slices := rfl
@[simp] theorem State.modNet_packages (f : Net → Net) : (s.modNet f).packages = s.packages := rfl
@[simp] theorem State.modNet_nx (f : Net → Net) : (s.modNet f).nx = s.nx := rfl
@[simp] theorem State.modNet_ny (f : Net → Net) : (s.modNet f).ny = s.ny := rfl
@[simp] theorem State.modNet_master (f : Net → Net) : (s.modNet f).master = s.master := rfl
@[simp] theorem State.modNet_standby (f : Net → Net) : (s.modNet f).standby = s.standby := rfl
@[simp] theorem State.modNet_grids (f : Net → Net) : (s.modNet f).grids = s.grids := rfl
@[simp] theorem State.modNet_handle (f : Net → Net) : (s.modNet f).handle = s.handle := rfl
@[simp] theorem State.modNet_groups (f : Net → Net) : (s.modNet f).groups = s.groups := rfl
@[simp] theorem State.modNet_groupNo (f : Net → Net) : (s.modNet f).groupNo = s.groupNo := rfl
@[simp] theorem State.modNet_saved (f : Net → Net) : (s.modNet f).saved = s.saved := rfl
@[simp] theorem State.modNet_tasks (f : Net → Net) : (s.modNet f).tasks = s.tasks := rfl
@[simp] theorem State.modNet_waiters (f : Net → Net) : (s.modNet f).waiters = s.waiters := rfl
@[simp] theorem State.modNet_dirs (f : Net → Net) : (s.modNet f).dirs = s.dirs := rfl
@[simp] theorem State.modNet_bar0 (f : Net → Net) : (s.modNet f).bar0 = s.bar0 := rfl
@[simp] theorem State.modNet_ctrl (f : Net → Net) : (s.modNet f).ctrl = s.ctrl := rfl
@[simp] theorem State.modNet_up (f : Net → Net) : (s.modNet f).up = s.up := rfl
@[simp] theorem State.modNet_unnumbered (f : Net → Net) : (s.modNet f).unnumbered = s.unnumbered := rfl
@[simp] theorem State.modNet_journal (f : Net → Net) : (s.modNet f).journal = s.journal := rfl

/-! ### Reading what was written -/

@[simp] theorem State.setWave_wave (n : Nat) (x : Wave) : (s.setWave n x).wave n = x := Tbl.get_set_same ..
theorem State.setWave_wave_other (n m : Nat) (x : Wave) (h : m ≠ n) : (s.setWave n x).wave m = s.wave m := Tbl.get_set_other _ _ _ _ _ h
@[simp] theorem State.modWave_wave (n : Nat) (f : Wave → Wave) : (s.modWave n f).wave n = f (s.wave n) := Tbl.get_set_same ..
theorem State.modWave_wave_other (n m : Nat) (f : Wave → Wave) (h : m ≠ n) : (s.modWave n f).wave m = s.wave m := Tbl.get_set_other _ _ _ _ _ h
@[simp] theorem State.setCore_read_wave (c : Nat) (x : Core) (k : Nat) : (s.setCore c x).wave k = s.wave k := rfl
@[simp] theorem State.setVat_read_wave (v : Nat) (x : Vat) (k : Nat) : (s.setVat v x).wave k = s.wave k := rfl
@[simp] theorem State.setDie_read_wave (d : Nat) (x : Die) (k : Nat) : (s.setDie d x).wave k = s.wave k := rfl
@[simp] theorem State.setSlice_read_wave (c : Nat) (x : Slice) (k : Nat) : (s.setSlice c x).wave k = s.wave k := rfl
@[simp] theorem State.setGrid_read_wave (h : Nat) (g : Grid) (k : Nat) : (s.setGrid h g).wave k = s.wave k := rfl
@[simp] theorem State.setDir_read_wave (t : Nat) (x : DirTid) (k : Nat) : (s.setDir t x).wave k = s.wave k := rfl
@[simp] theorem State.modCore_read_wave (c : Nat) (f : Core → Core) (k : Nat) : (s.modCore c f).wave k = s.wave k := rfl
@[simp] theorem State.modVat_read_wave (v : Nat) (f : Vat → Vat) (k : Nat) : (s.modVat v f).wave k = s.wave k := rfl
@[simp] theorem State.modDie_read_wave (d : Nat) (f : Die → Die) (k : Nat) : (s.modDie d f).wave k = s.wave k := rfl
@[simp] theorem State.modSlice_read_wave (c : Nat) (f : Slice → Slice) (k : Nat) : (s.modSlice c f).wave k = s.wave k := rfl
@[simp] theorem State.modNet_read_wave (f : Net → Net) (k : Nat) : (s.modNet f).wave k = s.wave k := rfl
@[simp] theorem State.setCore_core (n : Nat) (x : Core) : (s.setCore n x).core n = x := Tbl.get_set_same ..
theorem State.setCore_core_other (n m : Nat) (x : Core) (h : m ≠ n) : (s.setCore n x).core m = s.core m := Tbl.get_set_other _ _ _ _ _ h
@[simp] theorem State.modCore_core (n : Nat) (f : Core → Core) : (s.modCore n f).core n = f (s.core n) := Tbl.get_set_same ..
theorem State.modCore_core_other (n m : Nat) (f : Core → Core) (h : m ≠ n) : (s.modCore n f).core m = s.core m := Tbl.get_set_other _ _ _ _ _ h
@[simp] theorem State.setWave_read_core (w : Nat) (x : Wave) (k : Nat) : (s.setWave w x).core k = s.core k := rfl
@[simp] theorem State.setVat_read_core (v : Nat) (x : Vat) (k : Nat) : (s.setVat v x).core k = s.core k := rfl
@[simp] theorem State.setDie_read_core (d : Nat) (x : Die) (k : Nat) : (s.setDie d x).core k = s.core k := rfl
@[simp] theorem State.setSlice_read_core (c : Nat) (x : Slice) (k : Nat) : (s.setSlice c x).core k = s.core k := rfl
@[simp] theorem State.setGrid_read_core (h : Nat) (g : Grid) (k : Nat) : (s.setGrid h g).core k = s.core k := rfl
@[simp] theorem State.setDir_read_core (t : Nat) (x : DirTid) (k : Nat) : (s.setDir t x).core k = s.core k := rfl
@[simp] theorem State.modWave_read_core (w : Nat) (f : Wave → Wave) (k : Nat) : (s.modWave w f).core k = s.core k := rfl
@[simp] theorem State.modVat_read_core (v : Nat) (f : Vat → Vat) (k : Nat) : (s.modVat v f).core k = s.core k := rfl
@[simp] theorem State.modDie_read_core (d : Nat) (f : Die → Die) (k : Nat) : (s.modDie d f).core k = s.core k := rfl
@[simp] theorem State.modSlice_read_core (c : Nat) (f : Slice → Slice) (k : Nat) : (s.modSlice c f).core k = s.core k := rfl
@[simp] theorem State.modNet_read_core (f : Net → Net) (k : Nat) : (s.modNet f).core k = s.core k := rfl
@[simp] theorem State.setVat_vat (n : Nat) (x : Vat) : (s.setVat n x).vat n = x := Tbl.get_set_same ..
theorem State.setVat_vat_other (n m : Nat) (x : Vat) (h : m ≠ n) : (s.setVat n x).vat m = s.vat m := Tbl.get_set_other _ _ _ _ _ h
@[simp] theorem State.modVat_vat (n : Nat) (f : Vat → Vat) : (s.modVat n f).vat n = f (s.vat n) := Tbl.get_set_same ..
theorem State.modVat_vat_other (n m : Nat) (f : Vat → Vat) (h : m ≠ n) : (s.modVat n f).vat m = s.vat m := Tbl.get_set_other _ _ _ _ _ h
@[simp] theorem State.setWave_read_vat (w : Nat) (x : Wave) (k : Nat) : (s.setWave w x).vat k = s.vat k := rfl
@[simp] theorem State.setCore_read_vat (c : Nat) (x : Core) (k : Nat) : (s.setCore c x).vat k = s.vat k := rfl
@[simp] theorem State.setDie_read_vat (d : Nat) (x : Die) (k : Nat) : (s.setDie d x).vat k = s.vat k := rfl
@[simp] theorem State.setSlice_read_vat (c : Nat) (x : Slice) (k : Nat) : (s.setSlice c x).vat k = s.vat k := rfl
@[simp] theorem State.setGrid_read_vat (h : Nat) (g : Grid) (k : Nat) : (s.setGrid h g).vat k = s.vat k := rfl
@[simp] theorem State.setDir_read_vat (t : Nat) (x : DirTid) (k : Nat) : (s.setDir t x).vat k = s.vat k := rfl
@[simp] theorem State.modWave_read_vat (w : Nat) (f : Wave → Wave) (k : Nat) : (s.modWave w f).vat k = s.vat k := rfl
@[simp] theorem State.modCore_read_vat (c : Nat) (f : Core → Core) (k : Nat) : (s.modCore c f).vat k = s.vat k := rfl
@[simp] theorem State.modDie_read_vat (d : Nat) (f : Die → Die) (k : Nat) : (s.modDie d f).vat k = s.vat k := rfl
@[simp] theorem State.modSlice_read_vat (c : Nat) (f : Slice → Slice) (k : Nat) : (s.modSlice c f).vat k = s.vat k := rfl
@[simp] theorem State.modNet_read_vat (f : Net → Net) (k : Nat) : (s.modNet f).vat k = s.vat k := rfl
@[simp] theorem State.setDie_die (n : Nat) (x : Die) : (s.setDie n x).die n = x := Tbl.get_set_same ..
theorem State.setDie_die_other (n m : Nat) (x : Die) (h : m ≠ n) : (s.setDie n x).die m = s.die m := Tbl.get_set_other _ _ _ _ _ h
@[simp] theorem State.modDie_die (n : Nat) (f : Die → Die) : (s.modDie n f).die n = f (s.die n) := Tbl.get_set_same ..
theorem State.modDie_die_other (n m : Nat) (f : Die → Die) (h : m ≠ n) : (s.modDie n f).die m = s.die m := Tbl.get_set_other _ _ _ _ _ h
@[simp] theorem State.setWave_read_die (w : Nat) (x : Wave) (k : Nat) : (s.setWave w x).die k = s.die k := rfl
@[simp] theorem State.setCore_read_die (c : Nat) (x : Core) (k : Nat) : (s.setCore c x).die k = s.die k := rfl
@[simp] theorem State.setVat_read_die (v : Nat) (x : Vat) (k : Nat) : (s.setVat v x).die k = s.die k := rfl
@[simp] theorem State.setSlice_read_die (c : Nat) (x : Slice) (k : Nat) : (s.setSlice c x).die k = s.die k := rfl
@[simp] theorem State.setGrid_read_die (h : Nat) (g : Grid) (k : Nat) : (s.setGrid h g).die k = s.die k := rfl
@[simp] theorem State.setDir_read_die (t : Nat) (x : DirTid) (k : Nat) : (s.setDir t x).die k = s.die k := rfl
@[simp] theorem State.modWave_read_die (w : Nat) (f : Wave → Wave) (k : Nat) : (s.modWave w f).die k = s.die k := rfl
@[simp] theorem State.modCore_read_die (c : Nat) (f : Core → Core) (k : Nat) : (s.modCore c f).die k = s.die k := rfl
@[simp] theorem State.modVat_read_die (v : Nat) (f : Vat → Vat) (k : Nat) : (s.modVat v f).die k = s.die k := rfl
@[simp] theorem State.modSlice_read_die (c : Nat) (f : Slice → Slice) (k : Nat) : (s.modSlice c f).die k = s.die k := rfl
@[simp] theorem State.modNet_read_die (f : Net → Net) (k : Nat) : (s.modNet f).die k = s.die k := rfl
@[simp] theorem State.setSlice_slice (n : Nat) (x : Slice) : (s.setSlice n x).slice n = x := Tbl.get_set_same ..
theorem State.setSlice_slice_other (n m : Nat) (x : Slice) (h : m ≠ n) : (s.setSlice n x).slice m = s.slice m := Tbl.get_set_other _ _ _ _ _ h
@[simp] theorem State.modSlice_slice (n : Nat) (f : Slice → Slice) : (s.modSlice n f).slice n = f (s.slice n) := Tbl.get_set_same ..
theorem State.modSlice_slice_other (n m : Nat) (f : Slice → Slice) (h : m ≠ n) : (s.modSlice n f).slice m = s.slice m := Tbl.get_set_other _ _ _ _ _ h
@[simp] theorem State.setWave_read_slice (w : Nat) (x : Wave) (k : Nat) : (s.setWave w x).slice k = s.slice k := rfl
@[simp] theorem State.setCore_read_slice (c : Nat) (x : Core) (k : Nat) : (s.setCore c x).slice k = s.slice k := rfl
@[simp] theorem State.setVat_read_slice (v : Nat) (x : Vat) (k : Nat) : (s.setVat v x).slice k = s.slice k := rfl
@[simp] theorem State.setDie_read_slice (d : Nat) (x : Die) (k : Nat) : (s.setDie d x).slice k = s.slice k := rfl
@[simp] theorem State.setGrid_read_slice (h : Nat) (g : Grid) (k : Nat) : (s.setGrid h g).slice k = s.slice k := rfl
@[simp] theorem State.setDir_read_slice (t : Nat) (x : DirTid) (k : Nat) : (s.setDir t x).slice k = s.slice k := rfl
@[simp] theorem State.modWave_read_slice (w : Nat) (f : Wave → Wave) (k : Nat) : (s.modWave w f).slice k = s.slice k := rfl
@[simp] theorem State.modCore_read_slice (c : Nat) (f : Core → Core) (k : Nat) : (s.modCore c f).slice k = s.slice k := rfl
@[simp] theorem State.modVat_read_slice (v : Nat) (f : Vat → Vat) (k : Nat) : (s.modVat v f).slice k = s.slice k := rfl
@[simp] theorem State.modDie_read_slice (d : Nat) (f : Die → Die) (k : Nat) : (s.modDie d f).slice k = s.slice k := rfl
@[simp] theorem State.modNet_read_slice (f : Net → Net) (k : Nat) : (s.modNet f).slice k = s.slice k := rfl
@[simp] theorem State.setDir_dir (n : Nat) (x : DirTid) : (s.setDir n x).dir n = x := Tbl.get_set_same ..
theorem State.setDir_dir_other (n m : Nat) (x : DirTid) (h : m ≠ n) : (s.setDir n x).dir m = s.dir m := Tbl.get_set_other _ _ _ _ _ h
@[simp] theorem State.setWave_read_dir (w : Nat) (x : Wave) (k : Nat) : (s.setWave w x).dir k = s.dir k := rfl
@[simp] theorem State.setCore_read_dir (c : Nat) (x : Core) (k : Nat) : (s.setCore c x).dir k = s.dir k := rfl
@[simp] theorem State.setVat_read_dir (v : Nat) (x : Vat) (k : Nat) : (s.setVat v x).dir k = s.dir k := rfl
@[simp] theorem State.setDie_read_dir (d : Nat) (x : Die) (k : Nat) : (s.setDie d x).dir k = s.dir k := rfl
@[simp] theorem State.setSlice_read_dir (c : Nat) (x : Slice) (k : Nat) : (s.setSlice c x).dir k = s.dir k := rfl
@[simp] theorem State.setGrid_read_dir (h : Nat) (g : Grid) (k : Nat) : (s.setGrid h g).dir k = s.dir k := rfl
@[simp] theorem State.modWave_read_dir (w : Nat) (f : Wave → Wave) (k : Nat) : (s.modWave w f).dir k = s.dir k := rfl
@[simp] theorem State.modCore_read_dir (c : Nat) (f : Core → Core) (k : Nat) : (s.modCore c f).dir k = s.dir k := rfl
@[simp] theorem State.modVat_read_dir (v : Nat) (f : Vat → Vat) (k : Nat) : (s.modVat v f).dir k = s.dir k := rfl
@[simp] theorem State.modDie_read_dir (d : Nat) (f : Die → Die) (k : Nat) : (s.modDie d f).dir k = s.dir k := rfl
@[simp] theorem State.modSlice_read_dir (c : Nat) (f : Slice → Slice) (k : Nat) : (s.modSlice c f).dir k = s.dir k := rfl
@[simp] theorem State.modNet_read_dir (f : Net → Net) (k : Nat) : (s.modNet f).dir k = s.dir k := rfl

@[simp] theorem State.modNet_net (f : Net → Net) : (s.modNet f).net = f s.net := rfl

/-! ### The registers and the program counter of the agent that moves -/

theorem State.modGrid_field {α : Type} (p : State → α) (hp : ∀ s h g, p (State.setGrid s h g) = p s) (h : Nat) (f : Grid → Grid) :
    p (s.modGrid h f) = p s := by
  unfold State.modGrid; split <;> simp [hp]

theorem State.setReg_field {α : Type} (p : State → α) (hw : ∀ s w x, p (State.setWave s w x) = p s)
    (hv : ∀ s v x, p (State.setVat s v x) = p s) (n : Nat) (c : Cap) : p (s.setReg n c) = p s := by
  unfold State.setReg; split <;> simp [State.modWave, State.modCtx, State.setCtx, hw, hv]

theorem State.setPc_field {α : Type} (p : State → α) (hw : ∀ s w x, p (State.setWave s w x) = p s)
    (hv : ∀ s v x, p (State.setVat s v x) = p s) (c : Cap) : p (s.setPc c) = p s := by
  unfold State.setPc; split <;> simp [State.modWave, State.modCtx, State.setCtx, hw, hv]

@[simp] theorem State.setReg_cur (n : Nat) (c : Cap) : (s.setReg n c).cur = s.cur := s.setReg_field (·.cur) (fun _ _ _ => rfl) (fun _ _ _ => rfl) n c
@[simp] theorem State.setPc_cur (c : Cap) : (s.setPc c).cur = s.cur := s.setPc_field (·.cur) (fun _ _ _ => rfl) (fun _ _ _ => rfl) c
@[simp] theorem State.advance_cur : s.advance.cur = s.cur := s.setPc_cur _
@[simp] theorem State.setData_cur (n : Nat) (w : Word) : (s.setData n w).cur = s.cur := s.setReg_cur n _
@[simp] theorem State.setReg_agenda (n : Nat) (c : Cap) : (s.setReg n c).agenda = s.agenda := s.setReg_field (·.agenda) (fun _ _ _ => rfl) (fun _ _ _ => rfl) n c
@[simp] theorem State.setPc_agenda (c : Cap) : (s.setPc c).agenda = s.agenda := s.setPc_field (·.agenda) (fun _ _ _ => rfl) (fun _ _ _ => rfl) c
@[simp] theorem State.advance_agenda : s.advance.agenda = s.agenda := s.setPc_agenda _
@[simp] theorem State.setData_agenda (n : Nat) (w : Word) : (s.setData n w).agenda = s.agenda := s.setReg_agenda n _
@[simp] theorem State.setReg_fresh (n : Nat) (c : Cap) : (s.setReg n c).fresh = s.fresh := s.setReg_field (·.fresh) (fun _ _ _ => rfl) (fun _ _ _ => rfl) n c
@[simp] theorem State.setPc_fresh (c : Cap) : (s.setPc c).fresh = s.fresh := s.setPc_field (·.fresh) (fun _ _ _ => rfl) (fun _ _ _ => rfl) c
@[simp] theorem State.advance_fresh : s.advance.fresh = s.fresh := s.setPc_fresh _
@[simp] theorem State.setData_fresh (n : Nat) (w : Word) : (s.setData n w).fresh = s.fresh := s.setReg_fresh n _
@[simp] theorem State.setReg_rnd (n : Nat) (c : Cap) : (s.setReg n c).rnd = s.rnd := s.setReg_field (·.rnd) (fun _ _ _ => rfl) (fun _ _ _ => rfl) n c
@[simp] theorem State.setPc_rnd (c : Cap) : (s.setPc c).rnd = s.rnd := s.setPc_field (·.rnd) (fun _ _ _ => rfl) (fun _ _ _ => rfl) c
@[simp] theorem State.advance_rnd : s.advance.rnd = s.rnd := s.setPc_rnd _
@[simp] theorem State.setData_rnd (n : Nat) (w : Word) : (s.setData n w).rnd = s.rnd := s.setReg_rnd n _
@[simp] theorem State.setReg_reqNo (n : Nat) (c : Cap) : (s.setReg n c).reqNo = s.reqNo := s.setReg_field (·.reqNo) (fun _ _ _ => rfl) (fun _ _ _ => rfl) n c
@[simp] theorem State.setPc_reqNo (c : Cap) : (s.setPc c).reqNo = s.reqNo := s.setPc_field (·.reqNo) (fun _ _ _ => rfl) (fun _ _ _ => rfl) c
@[simp] theorem State.advance_reqNo : s.advance.reqNo = s.reqNo := s.setPc_reqNo _
@[simp] theorem State.setData_reqNo (n : Nat) (w : Word) : (s.setData n w).reqNo = s.reqNo := s.setReg_reqNo n _
@[simp] theorem State.setReg_agents (n : Nat) (c : Cap) : (s.setReg n c).agents = s.agents := s.setReg_field (·.agents) (fun _ _ _ => rfl) (fun _ _ _ => rfl) n c
@[simp] theorem State.setPc_agents (c : Cap) : (s.setPc c).agents = s.agents := s.setPc_field (·.agents) (fun _ _ _ => rfl) (fun _ _ _ => rfl) c
@[simp] theorem State.advance_agents : s.advance.agents = s.agents := s.setPc_agents _
@[simp] theorem State.setData_agents (n : Nat) (w : Word) : (s.setData n w).agents = s.agents := s.setReg_agents n _
@[simp] theorem State.setReg_seq (n : Nat) (c : Cap) : (s.setReg n c).seq = s.seq := s.setReg_field (·.seq) (fun _ _ _ => rfl) (fun _ _ _ => rfl) n c
@[simp] theorem State.setPc_seq (c : Cap) : (s.setPc c).seq = s.seq := s.setPc_field (·.seq) (fun _ _ _ => rfl) (fun _ _ _ => rfl) c
@[simp] theorem State.advance_seq : s.advance.seq = s.seq := s.setPc_seq _
@[simp] theorem State.setData_seq (n : Nat) (w : Word) : (s.setData n w).seq = s.seq := s.setReg_seq n _
@[simp] theorem State.setReg_moved (n : Nat) (c : Cap) : (s.setReg n c).moved = s.moved := s.setReg_field (·.moved) (fun _ _ _ => rfl) (fun _ _ _ => rfl) n c
@[simp] theorem State.setPc_moved (c : Cap) : (s.setPc c).moved = s.moved := s.setPc_field (·.moved) (fun _ _ _ => rfl) (fun _ _ _ => rfl) c
@[simp] theorem State.advance_moved : s.advance.moved = s.moved := s.setPc_moved _
@[simp] theorem State.setData_moved (n : Nat) (w : Word) : (s.setData n w).moved = s.moved := s.setReg_moved n _
@[simp] theorem State.setReg_cyc (n : Nat) (c : Cap) : (s.setReg n c).cyc = s.cyc := s.setReg_field (·.cyc) (fun _ _ _ => rfl) (fun _ _ _ => rfl) n c
@[simp] theorem State.setPc_cyc (c : Cap) : (s.setPc c).cyc = s.cyc := s.setPc_field (·.cyc) (fun _ _ _ => rfl) (fun _ _ _ => rfl) c
@[simp] theorem State.advance_cyc : s.advance.cyc = s.cyc := s.setPc_cyc _
@[simp] theorem State.setData_cyc (n : Nat) (w : Word) : (s.setData n w).cyc = s.cyc := s.setReg_cyc n _
@[simp] theorem State.setReg_ahead (n : Nat) (c : Cap) : (s.setReg n c).ahead = s.ahead := s.setReg_field (·.ahead) (fun _ _ _ => rfl) (fun _ _ _ => rfl) n c
@[simp] theorem State.setPc_ahead (c : Cap) : (s.setPc c).ahead = s.ahead := s.setPc_field (·.ahead) (fun _ _ _ => rfl) (fun _ _ _ => rfl) c
@[simp] theorem State.advance_ahead : s.advance.ahead = s.ahead := s.setPc_ahead _
@[simp] theorem State.setData_ahead (n : Nat) (w : Word) : (s.setData n w).ahead = s.ahead := s.setReg_ahead n _
@[simp] theorem State.setReg_mem (n : Nat) (c : Cap) : (s.setReg n c).mem = s.mem := s.setReg_field (·.mem) (fun _ _ _ => rfl) (fun _ _ _ => rfl) n c
@[simp] theorem State.setPc_mem (c : Cap) : (s.setPc c).mem = s.mem := s.setPc_field (·.mem) (fun _ _ _ => rfl) (fun _ _ _ => rfl) c
@[simp] theorem State.advance_mem : s.advance.mem = s.mem := s.setPc_mem _
@[simp] theorem State.setData_mem (n : Nat) (w : Word) : (s.setData n w).mem = s.mem := s.setReg_mem n _
@[simp] theorem State.setReg_tags (n : Nat) (c : Cap) : (s.setReg n c).tags = s.tags := s.setReg_field (·.tags) (fun _ _ _ => rfl) (fun _ _ _ => rfl) n c
@[simp] theorem State.setPc_tags (c : Cap) : (s.setPc c).tags = s.tags := s.setPc_field (·.tags) (fun _ _ _ => rfl) (fun _ _ _ => rfl) c
@[simp] theorem State.advance_tags : s.advance.tags = s.tags := s.setPc_tags _
@[simp] theorem State.setData_tags (n : Nat) (w : Word) : (s.setData n w).tags = s.tags := s.setReg_tags n _
@[simp] theorem State.setReg_zeroed (n : Nat) (c : Cap) : (s.setReg n c).zeroed = s.zeroed := s.setReg_field (·.zeroed) (fun _ _ _ => rfl) (fun _ _ _ => rfl) n c
@[simp] theorem State.setPc_zeroed (c : Cap) : (s.setPc c).zeroed = s.zeroed := s.setPc_field (·.zeroed) (fun _ _ _ => rfl) (fun _ _ _ => rfl) c
@[simp] theorem State.advance_zeroed : s.advance.zeroed = s.zeroed := s.setPc_zeroed _
@[simp] theorem State.setData_zeroed (n : Nat) (w : Word) : (s.setData n w).zeroed = s.zeroed := s.setReg_zeroed n _
@[simp] theorem State.setReg_zpages (n : Nat) (c : Cap) : (s.setReg n c).zpages = s.zpages := s.setReg_field (·.zpages) (fun _ _ _ => rfl) (fun _ _ _ => rfl) n c
@[simp] theorem State.setPc_zpages (c : Cap) : (s.setPc c).zpages = s.zpages := s.setPc_field (·.zpages) (fun _ _ _ => rfl) (fun _ _ _ => rfl) c
@[simp] theorem State.advance_zpages : s.advance.zpages = s.zpages := s.setPc_zpages _
@[simp] theorem State.setData_zpages (n : Nat) (w : Word) : (s.setData n w).zpages = s.zpages := s.setReg_zpages n _
@[simp] theorem State.setReg_lx (n : Nat) (c : Cap) : (s.setReg n c).lx = s.lx := s.setReg_field (·.lx) (fun _ _ _ => rfl) (fun _ _ _ => rfl) n c
@[simp] theorem State.setPc_lx (c : Cap) : (s.setPc c).lx = s.lx := s.setPc_field (·.lx) (fun _ _ _ => rfl) (fun _ _ _ => rfl) c
@[simp] theorem State.advance_lx : s.advance.lx = s.lx := s.setPc_lx _
@[simp] theorem State.setData_lx (n : Nat) (w : Word) : (s.setData n w).lx = s.lx := s.setReg_lx n _
@[simp] theorem State.setReg_wrote (n : Nat) (c : Cap) : (s.setReg n c).wrote = s.wrote := s.setReg_field (·.wrote) (fun _ _ _ => rfl) (fun _ _ _ => rfl) n c
@[simp] theorem State.setPc_wrote (c : Cap) : (s.setPc c).wrote = s.wrote := s.setPc_field (·.wrote) (fun _ _ _ => rfl) (fun _ _ _ => rfl) c
@[simp] theorem State.advance_wrote : s.advance.wrote = s.wrote := s.setPc_wrote _
@[simp] theorem State.setData_wrote (n : Nat) (w : Word) : (s.setData n w).wrote = s.wrote := s.setReg_wrote n _
@[simp] theorem State.setReg_hosted (n : Nat) (c : Cap) : (s.setReg n c).hosted = s.hosted := s.setReg_field (·.hosted) (fun _ _ _ => rfl) (fun _ _ _ => rfl) n c
@[simp] theorem State.setPc_hosted (c : Cap) : (s.setPc c).hosted = s.hosted := s.setPc_field (·.hosted) (fun _ _ _ => rfl) (fun _ _ _ => rfl) c
@[simp] theorem State.advance_hosted : s.advance.hosted = s.hosted := s.setPc_hosted _
@[simp] theorem State.setData_hosted (n : Nat) (w : Word) : (s.setData n w).hosted = s.hosted := s.setReg_hosted n _
@[simp] theorem State.setReg_flags (n : Nat) (c : Cap) : (s.setReg n c).flags = s.flags := s.setReg_field (·.flags) (fun _ _ _ => rfl) (fun _ _ _ => rfl) n c
@[simp] theorem State.setPc_flags (c : Cap) : (s.setPc c).flags = s.flags := s.setPc_field (·.flags) (fun _ _ _ => rfl) (fun _ _ _ => rfl) c
@[simp] theorem State.advance_flags : s.advance.flags = s.flags := s.setPc_flags _
@[simp] theorem State.setData_flags (n : Nat) (w : Word) : (s.setData n w).flags = s.flags := s.setReg_flags n _
@[simp] theorem State.setReg_bars (n : Nat) (c : Cap) : (s.setReg n c).bars = s.bars := s.setReg_field (·.bars) (fun _ _ _ => rfl) (fun _ _ _ => rfl) n c
@[simp] theorem State.setPc_bars (c : Cap) : (s.setPc c).bars = s.bars := s.setPc_field (·.bars) (fun _ _ _ => rfl) (fun _ _ _ => rfl) c
@[simp] theorem State.advance_bars : s.advance.bars = s.bars := s.setPc_bars _
@[simp] theorem State.setData_bars (n : Nat) (w : Word) : (s.setData n w).bars = s.bars := s.setReg_bars n _
@[simp] theorem State.setReg_olds (n : Nat) (c : Cap) : (s.setReg n c).olds = s.olds := s.setReg_field (·.olds) (fun _ _ _ => rfl) (fun _ _ _ => rfl) n c
@[simp] theorem State.setPc_olds (c : Cap) : (s.setPc c).olds = s.olds := s.setPc_field (·.olds) (fun _ _ _ => rfl) (fun _ _ _ => rfl) c
@[simp] theorem State.advance_olds : s.advance.olds = s.olds := s.setPc_olds _
@[simp] theorem State.setData_olds (n : Nat) (w : Word) : (s.setData n w).olds = s.olds := s.setReg_olds n _
@[simp] theorem State.setReg_invis (n : Nat) (c : Cap) : (s.setReg n c).invis = s.invis := s.setReg_field (·.invis) (fun _ _ _ => rfl) (fun _ _ _ => rfl) n c
@[simp] theorem State.setPc_invis (c : Cap) : (s.setPc c).invis = s.invis := s.setPc_field (·.invis) (fun _ _ _ => rfl) (fun _ _ _ => rfl) c
@[simp] theorem State.advance_invis : s.advance.invis = s.invis := s.setPc_invis _
@[simp] theorem State.setData_invis (n : Nat) (w : Word) : (s.setData n w).invis = s.invis := s.setReg_invis n _
@[simp] theorem State.setReg_ringed (n : Nat) (c : Cap) : (s.setReg n c).ringed = s.ringed := s.setReg_field (·.ringed) (fun _ _ _ => rfl) (fun _ _ _ => rfl) n c
@[simp] theorem State.setPc_ringed (c : Cap) : (s.setPc c).ringed = s.ringed := s.setPc_field (·.ringed) (fun _ _ _ => rfl) (fun _ _ _ => rfl) c
@[simp] theorem State.advance_ringed : s.advance.ringed = s.ringed := s.setPc_ringed _
@[simp] theorem State.setData_ringed (n : Nat) (w : Word) : (s.setData n w).ringed = s.ringed := s.setReg_ringed n _
@[simp] theorem State.setReg_hollow (n : Nat) (c : Cap) : (s.setReg n c).hollow = s.hollow := s.setReg_field (·.hollow) (fun _ _ _ => rfl) (fun _ _ _ => rfl) n c
@[simp] theorem State.setPc_hollow (c : Cap) : (s.setPc c).hollow = s.hollow := s.setPc_field (·.hollow) (fun _ _ _ => rfl) (fun _ _ _ => rfl) c
@[simp] theorem State.advance_hollow : s.advance.hollow = s.hollow := s.setPc_hollow _
@[simp] theorem State.setData_hollow (n : Nat) (w : Word) : (s.setData n w).hollow = s.hollow := s.setReg_hollow n _
@[simp] theorem State.setReg_links (n : Nat) (c : Cap) : (s.setReg n c).links = s.links := s.setReg_field (·.links) (fun _ _ _ => rfl) (fun _ _ _ => rfl) n c
@[simp] theorem State.setPc_links (c : Cap) : (s.setPc c).links = s.links := s.setPc_field (·.links) (fun _ _ _ => rfl) (fun _ _ _ => rfl) c
@[simp] theorem State.advance_links : s.advance.links = s.links := s.setPc_links _
@[simp] theorem State.setData_links (n : Nat) (w : Word) : (s.setData n w).links = s.links := s.setReg_links n _
@[simp] theorem State.setReg_badLines (n : Nat) (c : Cap) : (s.setReg n c).badLines = s.badLines := s.setReg_field (·.badLines) (fun _ _ _ => rfl) (fun _ _ _ => rfl) n c
@[simp] theorem State.setPc_badLines (c : Cap) : (s.setPc c).badLines = s.badLines := s.setPc_field (·.badLines) (fun _ _ _ => rfl) (fun _ _ _ => rfl) c
@[simp] theorem State.advance_badLines : s.advance.badLines = s.badLines := s.setPc_badLines _
@[simp] theorem State.setData_badLines (n : Nat) (w : Word) : (s.setData n w).badLines = s.badLines := s.setReg_badLines n _
@[simp] theorem State.setReg_cores (n : Nat) (c : Cap) : (s.setReg n c).cores = s.cores := s.setReg_field (·.cores) (fun _ _ _ => rfl) (fun _ _ _ => rfl) n c
@[simp] theorem State.setPc_cores (c : Cap) : (s.setPc c).cores = s.cores := s.setPc_field (·.cores) (fun _ _ _ => rfl) (fun _ _ _ => rfl) c
@[simp] theorem State.advance_cores : s.advance.cores = s.cores := s.setPc_cores _
@[simp] theorem State.setData_cores (n : Nat) (w : Word) : (s.setData n w).cores = s.cores := s.setReg_cores n _
@[simp] theorem State.setReg_dies (n : Nat) (c : Cap) : (s.setReg n c).dies = s.dies := s.setReg_field (·.dies) (fun _ _ _ => rfl) (fun _ _ _ => rfl) n c
@[simp] theorem State.setPc_dies (c : Cap) : (s.setPc c).dies = s.dies := s.setPc_field (·.dies) (fun _ _ _ => rfl) (fun _ _ _ => rfl) c
@[simp] theorem State.advance_dies : s.advance.dies = s.dies := s.setPc_dies _
@[simp] theorem State.setData_dies (n : Nat) (w : Word) : (s.setData n w).dies = s.dies := s.setReg_dies n _
@[simp] theorem State.setReg_slices (n : Nat) (c : Cap) : (s.setReg n c).slices = s.slices := s.setReg_field (·.slices) (fun _ _ _ => rfl) (fun _ _ _ => rfl) n c
@[simp] theorem State.setPc_slices (c : Cap) : (s.setPc c).slices = s.slices := s.setPc_field (·.slices) (fun _ _ _ => rfl) (fun _ _ _ => rfl) c
@[simp] theorem State.advance_slices : s.advance.slices = s.slices := s.setPc_slices _
@[simp] theorem State.setData_slices (n : Nat) (w : Word) : (s.setData n w).slices = s.slices := s.setReg_slices n _
@[simp] theorem State.setReg_packages (n : Nat) (c : Cap) : (s.setReg n c).packages = s.packages := s.setReg_field (·.packages) (fun _ _ _ => rfl) (fun _ _ _ => rfl) n c
@[simp] theorem State.setPc_packages (c : Cap) : (s.setPc c).packages = s.packages := s.setPc_field (·.packages) (fun _ _ _ => rfl) (fun _ _ _ => rfl) c
@[simp] theorem State.advance_packages : s.advance.packages = s.packages := s.setPc_packages _
@[simp] theorem State.setData_packages (n : Nat) (w : Word) : (s.setData n w).packages = s.packages := s.setReg_packages n _
@[simp] theorem State.setReg_nx (n : Nat) (c : Cap) : (s.setReg n c).nx = s.nx := s.setReg_field (·.nx) (fun _ _ _ => rfl) (fun _ _ _ => rfl) n c
@[simp] theorem State.setPc_nx (c : Cap) : (s.setPc c).nx = s.nx := s.setPc_field (·.nx) (fun _ _ _ => rfl) (fun _ _ _ => rfl) c
@[simp] theorem State.advance_nx : s.advance.nx = s.nx := s.setPc_nx _
@[simp] theorem State.setData_nx (n : Nat) (w : Word) : (s.setData n w).nx = s.nx := s.setReg_nx n _
@[simp] theorem State.setReg_ny (n : Nat) (c : Cap) : (s.setReg n c).ny = s.ny := s.setReg_field (·.ny) (fun _ _ _ => rfl) (fun _ _ _ => rfl) n c
@[simp] theorem State.setPc_ny (c : Cap) : (s.setPc c).ny = s.ny := s.setPc_field (·.ny) (fun _ _ _ => rfl) (fun _ _ _ => rfl) c
@[simp] theorem State.advance_ny : s.advance.ny = s.ny := s.setPc_ny _
@[simp] theorem State.setData_ny (n : Nat) (w : Word) : (s.setData n w).ny = s.ny := s.setReg_ny n _
@[simp] theorem State.setReg_master (n : Nat) (c : Cap) : (s.setReg n c).master = s.master := s.setReg_field (·.master) (fun _ _ _ => rfl) (fun _ _ _ => rfl) n c
@[simp] theorem State.setPc_master (c : Cap) : (s.setPc c).master = s.master := s.setPc_field (·.master) (fun _ _ _ => rfl) (fun _ _ _ => rfl) c
@[simp] theorem State.advance_master : s.advance.master = s.master := s.setPc_master _
@[simp] theorem State.setData_master (n : Nat) (w : Word) : (s.setData n w).master = s.master := s.setReg_master n _
@[simp] theorem State.setReg_standby (n : Nat) (c : Cap) : (s.setReg n c).standby = s.standby := s.setReg_field (·.standby) (fun _ _ _ => rfl) (fun _ _ _ => rfl) n c
@[simp] theorem State.setPc_standby (c : Cap) : (s.setPc c).standby = s.standby := s.setPc_field (·.standby) (fun _ _ _ => rfl) (fun _ _ _ => rfl) c
@[simp] theorem State.advance_standby : s.advance.standby = s.standby := s.setPc_standby _
@[simp] theorem State.setData_standby (n : Nat) (w : Word) : (s.setData n w).standby = s.standby := s.setReg_standby n _
@[simp] theorem State.setReg_grids (n : Nat) (c : Cap) : (s.setReg n c).grids = s.grids := s.setReg_field (·.grids) (fun _ _ _ => rfl) (fun _ _ _ => rfl) n c
@[simp] theorem State.setPc_grids (c : Cap) : (s.setPc c).grids = s.grids := s.setPc_field (·.grids) (fun _ _ _ => rfl) (fun _ _ _ => rfl) c
@[simp] theorem State.advance_grids : s.advance.grids = s.grids := s.setPc_grids _
@[simp] theorem State.setData_grids (n : Nat) (w : Word) : (s.setData n w).grids = s.grids := s.setReg_grids n _
@[simp] theorem State.setReg_handle (n : Nat) (c : Cap) : (s.setReg n c).handle = s.handle := s.setReg_field (·.handle) (fun _ _ _ => rfl) (fun _ _ _ => rfl) n c
@[simp] theorem State.setPc_handle (c : Cap) : (s.setPc c).handle = s.handle := s.setPc_field (·.handle) (fun _ _ _ => rfl) (fun _ _ _ => rfl) c
@[simp] theorem State.advance_handle : s.advance.handle = s.handle := s.setPc_handle _
@[simp] theorem State.setData_handle (n : Nat) (w : Word) : (s.setData n w).handle = s.handle := s.setReg_handle n _
@[simp] theorem State.setReg_groups (n : Nat) (c : Cap) : (s.setReg n c).groups = s.groups := s.setReg_field (·.groups) (fun _ _ _ => rfl) (fun _ _ _ => rfl) n c
@[simp] theorem State.setPc_groups (c : Cap) : (s.setPc c).groups = s.groups := s.setPc_field (·.groups) (fun _ _ _ => rfl) (fun _ _ _ => rfl) c
@[simp] theorem State.advance_groups : s.advance.groups = s.groups := s.setPc_groups _
@[simp] theorem State.setData_groups (n : Nat) (w : Word) : (s.setData n w).groups = s.groups := s.setReg_groups n _
@[simp] theorem State.setReg_groupNo (n : Nat) (c : Cap) : (s.setReg n c).groupNo = s.groupNo := s.setReg_field (·.groupNo) (fun _ _ _ => rfl) (fun _ _ _ => rfl) n c
@[simp] theorem State.setPc_groupNo (c : Cap) : (s.setPc c).groupNo = s.groupNo := s.setPc_field (·.groupNo) (fun _ _ _ => rfl) (fun _ _ _ => rfl) c
@[simp] theorem State.advance_groupNo : s.advance.groupNo = s.groupNo := s.setPc_groupNo _
@[simp] theorem State.setData_groupNo (n : Nat) (w : Word) : (s.setData n w).groupNo = s.groupNo := s.setReg_groupNo n _
@[simp] theorem State.setReg_saved (n : Nat) (c : Cap) : (s.setReg n c).saved = s.saved := s.setReg_field (·.saved) (fun _ _ _ => rfl) (fun _ _ _ => rfl) n c
@[simp] theorem State.setPc_saved (c : Cap) : (s.setPc c).saved = s.saved := s.setPc_field (·.saved) (fun _ _ _ => rfl) (fun _ _ _ => rfl) c
@[simp] theorem State.advance_saved : s.advance.saved = s.saved := s.setPc_saved _
@[simp] theorem State.setData_saved (n : Nat) (w : Word) : (s.setData n w).saved = s.saved := s.setReg_saved n _
@[simp] theorem State.setReg_tasks (n : Nat) (c : Cap) : (s.setReg n c).tasks = s.tasks := s.setReg_field (·.tasks) (fun _ _ _ => rfl) (fun _ _ _ => rfl) n c
@[simp] theorem State.setPc_tasks (c : Cap) : (s.setPc c).tasks = s.tasks := s.setPc_field (·.tasks) (fun _ _ _ => rfl) (fun _ _ _ => rfl) c
@[simp] theorem State.advance_tasks : s.advance.tasks = s.tasks := s.setPc_tasks _
@[simp] theorem State.setData_tasks (n : Nat) (w : Word) : (s.setData n w).tasks = s.tasks := s.setReg_tasks n _
@[simp] theorem State.setReg_waiters (n : Nat) (c : Cap) : (s.setReg n c).waiters = s.waiters := s.setReg_field (·.waiters) (fun _ _ _ => rfl) (fun _ _ _ => rfl) n c
@[simp] theorem State.setPc_waiters (c : Cap) : (s.setPc c).waiters = s.waiters := s.setPc_field (·.waiters) (fun _ _ _ => rfl) (fun _ _ _ => rfl) c
@[simp] theorem State.advance_waiters : s.advance.waiters = s.waiters := s.setPc_waiters _
@[simp] theorem State.setData_waiters (n : Nat) (w : Word) : (s.setData n w).waiters = s.waiters := s.setReg_waiters n _
@[simp] theorem State.setReg_dirs (n : Nat) (c : Cap) : (s.setReg n c).dirs = s.dirs := s.setReg_field (·.dirs) (fun _ _ _ => rfl) (fun _ _ _ => rfl) n c
@[simp] theorem State.setPc_dirs (c : Cap) : (s.setPc c).dirs = s.dirs := s.setPc_field (·.dirs) (fun _ _ _ => rfl) (fun _ _ _ => rfl) c
@[simp] theorem State.advance_dirs : s.advance.dirs = s.dirs := s.setPc_dirs _
@[simp] theorem State.setData_dirs (n : Nat) (w : Word) : (s.setData n w).dirs = s.dirs := s.setReg_dirs n _
@[simp] theorem State.setReg_net (n : Nat) (c : Cap) : (s.setReg n c).net = s.net := s.setReg_field (·.net) (fun _ _ _ => rfl) (fun _ _ _ => rfl) n c
@[simp] theorem State.setPc_net (c : Cap) : (s.setPc c).net = s.net := s.setPc_field (·.net) (fun _ _ _ => rfl) (fun _ _ _ => rfl) c
@[simp] theorem State.advance_net : s.advance.net = s.net := s.setPc_net _
@[simp] theorem State.setData_net (n : Nat) (w : Word) : (s.setData n w).net = s.net := s.setReg_net n _
@[simp] theorem State.setReg_bar0 (n : Nat) (c : Cap) : (s.setReg n c).bar0 = s.bar0 := s.setReg_field (·.bar0) (fun _ _ _ => rfl) (fun _ _ _ => rfl) n c
@[simp] theorem State.setPc_bar0 (c : Cap) : (s.setPc c).bar0 = s.bar0 := s.setPc_field (·.bar0) (fun _ _ _ => rfl) (fun _ _ _ => rfl) c
@[simp] theorem State.advance_bar0 : s.advance.bar0 = s.bar0 := s.setPc_bar0 _
@[simp] theorem State.setData_bar0 (n : Nat) (w : Word) : (s.setData n w).bar0 = s.bar0 := s.setReg_bar0 n _
@[simp] theorem State.setReg_ctrl (n : Nat) (c : Cap) : (s.setReg n c).ctrl = s.ctrl := s.setReg_field (·.ctrl) (fun _ _ _ => rfl) (fun _ _ _ => rfl) n c
@[simp] theorem State.setPc_ctrl (c : Cap) : (s.setPc c).ctrl = s.ctrl := s.setPc_field (·.ctrl) (fun _ _ _ => rfl) (fun _ _ _ => rfl) c
@[simp] theorem State.advance_ctrl : s.advance.ctrl = s.ctrl := s.setPc_ctrl _
@[simp] theorem State.setData_ctrl (n : Nat) (w : Word) : (s.setData n w).ctrl = s.ctrl := s.setReg_ctrl n _
@[simp] theorem State.setReg_up (n : Nat) (c : Cap) : (s.setReg n c).up = s.up := s.setReg_field (·.up) (fun _ _ _ => rfl) (fun _ _ _ => rfl) n c
@[simp] theorem State.setPc_up (c : Cap) : (s.setPc c).up = s.up := s.setPc_field (·.up) (fun _ _ _ => rfl) (fun _ _ _ => rfl) c
@[simp] theorem State.advance_up : s.advance.up = s.up := s.setPc_up _
@[simp] theorem State.setData_up (n : Nat) (w : Word) : (s.setData n w).up = s.up := s.setReg_up n _
@[simp] theorem State.setReg_unnumbered (n : Nat) (c : Cap) : (s.setReg n c).unnumbered = s.unnumbered := s.setReg_field (·.unnumbered) (fun _ _ _ => rfl) (fun _ _ _ => rfl) n c
@[simp] theorem State.setPc_unnumbered (c : Cap) : (s.setPc c).unnumbered = s.unnumbered := s.setPc_field (·.unnumbered) (fun _ _ _ => rfl) (fun _ _ _ => rfl) c
@[simp] theorem State.advance_unnumbered : s.advance.unnumbered = s.unnumbered := s.setPc_unnumbered _
@[simp] theorem State.setData_unnumbered (n : Nat) (w : Word) : (s.setData n w).unnumbered = s.unnumbered := s.setReg_unnumbered n _
@[simp] theorem State.setReg_journal (n : Nat) (c : Cap) : (s.setReg n c).journal = s.journal := s.setReg_field (·.journal) (fun _ _ _ => rfl) (fun _ _ _ => rfl) n c
@[simp] theorem State.setPc_journal (c : Cap) : (s.setPc c).journal = s.journal := s.setPc_field (·.journal) (fun _ _ _ => rfl) (fun _ _ _ => rfl) c
@[simp] theorem State.advance_journal : s.advance.journal = s.journal := s.setPc_journal _
@[simp] theorem State.setData_journal (n : Nat) (w : Word) : (s.setData n w).journal = s.journal := s.setReg_journal n _

/-! ### What a register write does (01 R9, 02 R65) -/

@[simp] theorem Wave.setReg_zero (x : Wave) (v : Cap) : x.setReg 0 v = x := rfl
@[simp] theorem Wave.reg_zero (x : Wave) : x.reg 0 = {} := rfl
theorem Wave.setReg_reg (x : Wave) (n : Nat) (v : Cap) (h : n ≠ 0) : (x.setReg n v).reg n = v := by
  simp [Wave.setReg, Wave.reg, h]
theorem Wave.setReg_reg_other (x : Wave) (n m : Nat) (v : Cap) (h : m ≠ n) : (x.setReg n v).reg m = x.reg m := by
  unfold Wave.setReg Wave.reg
  by_cases h0 : n = 0 <;> by_cases hm : m = 0 <;> simp [h0, hm]
  exact Tbl.get_set_other _ _ _ _ _ h

theorem State.setReg_of_wave (w n : Nat) (v : Cap) (h : s.cur = .wave w) : s.setReg n v = s.modWave w (·.setReg n v) := by
  simp [State.setReg, h]
theorem State.reg_of_wave (w n : Nat) (h : s.cur = .wave w) : s.reg n = (s.wave w).reg n := by
  simp [State.reg, h]

/-- A written register reads as what was written; c0 as zero. -/
theorem State.setReg_reg (w n : Nat) (v : Cap) (h : s.cur = .wave w) (hn : n ≠ 0) : (s.setReg n v).reg n = v := by
  rw [State.setReg_of_wave s w n v h, State.reg_of_wave _ w n (by simpa using h), State.modWave_wave, Wave.setReg_reg _ _ _ hn]
/-- Every other register keeps its value. -/
theorem State.setReg_reg_other (w n m : Nat) (v : Cap) (h : s.cur = .wave w) (hm : m ≠ n) : (s.setReg n v).reg m = s.reg m := by
  rw [State.setReg_of_wave s w n v h, State.reg_of_wave _ w m (by simpa using h), State.modWave_wave,
    Wave.setReg_reg_other _ _ _ _ hm, State.reg_of_wave s w m h]
/-- The next instruction is the one after. -/
theorem State.advance_pc (h : s.cur ≠ .none) : s.advance.pc = s.pc.setAddr (s.pc.addr + 4) := by
  cases hc : s.cur with
  | none => exact absurd hc h
  | wave w => simp [State.advance, State.setPc, State.pc, hc]
  | ctx v m => simp [State.advance, State.setPc, State.pc, hc, State.modCtx, State.setCtx, State.ctx]
/-- The program counter does not change a register. -/
theorem State.setPc_reg (c : Cap) (n : Nat) : (s.setPc c).reg n = s.reg n := by
  cases hc : s.cur with
  | none => simp [State.setPc, State.reg, hc]
  | wave w => simp [State.setPc, State.reg, hc, Wave.reg]
  | ctx v m => simp [State.setPc, State.reg, hc, State.modCtx, State.setCtx, State.ctx, Ctx.reg]
@[simp] theorem State.advance_reg (n : Nat) : s.advance.reg n = s.reg n := s.setPc_reg _ n

end Sys2Proof.Machine
end

