-- ==== Sys2Proof/Laws/Memory.lean ====
section
/-! SUPPORT. Memory: a read after a write, and that every operation on memory keeps the canonical form
(Memory.wf, and the same of the tags). -/

namespace Sys2Proof.Machine

/-! ### Bytes -/

theorem readByte_writeByte_same (m : List Host.Cell) (k : Nat) (b : Byte) : readByte (writeByte m k b) k = b :=
  Tbl.get_put_same 0 m k b
theorem readByte_writeByte_other (m : List Host.Cell) (k j : Nat) (b : Byte) (h : j ≠ k) : readByte (writeByte m k b) j = readByte m j :=
  Tbl.get_put_other 0 m k j b h
theorem wf_writeByte (m : List Host.Cell) (k : Nat) (b : Byte) (h : Memory.wf m = true) : Memory.wf (writeByte m k b) = true :=
  Tbl.wf_put 0 m k b h

theorem wf_writeBytes (bs : List Byte) : ∀ (m : List Host.Cell) (k : Nat), Memory.wf m = true → Memory.wf (writeBytes m k bs) = true := by
  induction bs with
  | nil => exact fun _ _ h => h
  | cons b t ih => exact fun m k h => ih _ _ (wf_writeByte m k b h)

/-- Outside the bytes written, a byte reads as before. -/
theorem readByte_writeBytes_other (bs : List Byte) : ∀ (m : List Host.Cell) (k j : Nat),
    (j < k ∨ k + bs.length ≤ j) → readByte (writeBytes m k bs) j = readByte m j := by
  induction bs with
  | nil => exact fun _ _ _ _ => rfl
  | cons b t ih =>
    intro m k j h
    simp only [List.length_cons] at h
    rw [writeBytes, ih _ _ _ (by omega), readByte_writeByte_other _ _ _ _ (by omega)]

/-- The bytes written read back. -/
theorem readBytes_writeBytes (bs : List Byte) : ∀ (m : List Host.Cell) (k : Nat), readBytes (writeBytes m k bs) k bs.length = bs := by
  induction bs with
  | nil => exact fun _ _ => rfl
  | cons b t ih =>
    intro m k
    simp only [List.length_cons, readBytes, writeBytes, ih]
    rw [readByte_writeBytes_other _ _ _ _ (by omega), readByte_writeByte_same]

theorem ofBytes_bytesOf (n : Nat) : ∀ x : Nat, ofBytes (bytesOf n x) = x % 256 ^ n := by
  induction n with
  | zero => intro x; simp [bytesOf, ofBytes, Nat.mod_one]
  | succ n ih =>
    intro x
    rw [bytesOf, ofBytes, ih, BitVec.toNat_ofNat, show (256 : Nat) ^ (n + 1) = 256 * 256 ^ n from pow_succ' 256 n, Nat.mod_mul]

theorem length_bytesOf (n : Nat) : ∀ x : Nat, (bytesOf n x).length = n := by
  induction n with
  | zero => exact fun _ => rfl
  | succ n ih => intro x; simp [bytesOf, ih]

/-- A number written as bytes reads back. -/
theorem readNat_writeBytes (m : List Host.Cell) (k n x : Nat) : readNat (writeBytes m k (bytesOf n x)) k n = x % 256 ^ n := by
  have h := readBytes_writeBytes (bytesOf n x) m k
  rw [length_bytesOf] at h
  rw [readNat, h, ofBytes_bytesOf]

/-! ### The canonical form is kept -/

/-- `t` has canonical memory if `s` has. -/
structure Keeps (s t : State) : Prop where
  ok : s.MemOk → t.MemOk

theorem Keeps.rfl' (s : State) : Keeps s s := ⟨id⟩
theorem Keeps.trans {s t u : State} (h : Keeps s t) (k : Keeps t u) : Keeps s u := ⟨k.ok ∘ h.ok⟩
/-- What leaves memory and tags as they were keeps the form. -/
theorem Keeps.of_eq {s t : State} (hm : t.mem = s.mem) (ht : t.tags = s.tags) : Keeps s t :=
  ⟨fun h => by unfold State.MemOk at *; rw [hm, ht]; exact h⟩
theorem Keeps.foldl {α : Type} (f : State → α → State) (hf : ∀ s a, Keeps s (f s a)) (l : List α) : ∀ s, Keeps s (l.foldl f s) := by
  induction l with
  | nil => exact Keeps.rfl'
  | cons a t ih => exact fun s => (hf s a).trans (ih _)

theorem keeps_poke (s : State) (k : Nat) (bs : List Byte) : Keeps s (poke s k bs) := by
  constructor; intro h
  refine ⟨wf_writeBytes _ _ _ h.1, ?_⟩
  show Tbl.wf false (clearTags s.tags k bs.length) = true
  unfold clearTags
  split
  · exact h.2
  · exact Tbl.wf_filter _ _ _ h.2

theorem keeps_pokeCap (s : State) (k : Nat) (c : Cap) : Keeps s (pokeCap s k c) := by
  constructor; intro h
  have := (keeps_poke s k (bytesOf 8 c.lo.toNat ++ bytesOf 8 c.hi.toNat)).ok h
  exact ⟨this.1, Tbl.wf_put _ _ _ _ this.2⟩

theorem keeps_zeroRange (s : State) (k n : Nat) : Keeps s (zeroRange s k n) := by
  constructor; intro h
  refine ⟨Tbl.wf_filter _ _ _ h.1, ?_⟩
  show Tbl.wf false (clearTags s.tags k n) = true
  unfold clearTags
  split
  · exact h.2
  · exact Tbl.wf_filter _ _ _ h.2

/-! ### Undefined bytes (00 R5) -/

/-- What a table of bytes from `k` on holds. -/
theorem cellsOf_mem (bs : List Byte) : ∀ (k : Nat), ∀ e ∈ cellsOf k bs, k ≤ e.1 ∧ e.1 < k + bs.length ∧ e.2 ≠ 0 := by
  induction bs with
  | nil => exact fun _ _ h => absurd h List.not_mem_nil
  | cons b t ih =>
    intro k e he
    simp only [cellsOf] at he
    simp only [List.length_cons]
    split at he
    · obtain ⟨a, b, c⟩ := ih _ e he; exact ⟨by omega, by omega, c⟩
    · rcases List.mem_cons.mp he with rfl | h
      · exact ⟨by simp, by simp, by assumption⟩
      · obtain ⟨a, b, c⟩ := ih _ e h; exact ⟨by omega, by omega, c⟩

theorem cellsOf_wf (bs : List Byte) : ∀ k : Nat, Tbl.wf 0 (cellsOf k bs) = true := by
  induction bs with
  | nil => exact fun _ => rfl
  | cons b t ih =>
    intro k
    unfold cellsOf
    split
    · exact ih _
    · refine Tbl.wf_append 0 [(k, b)] _ (by simpa [Tbl.wf, Tbl.rising] using ‹¬ b = 0›) (ih _) fun x hx y hy => ?_
      have := cellsOf_mem t (k + 1) y hy
      simp only [List.mem_singleton] at hx; subst hx; omega

theorem drawBytes_frame (n : Nat) : ∀ s : State, (drawBytes s n).1.length = 8 * n ∧ (drawBytes s n).2.mem = s.mem ∧ (drawBytes s n).2.tags = s.tags := by
  induction n with
  | zero => exact fun _ => ⟨rfl, rfl, rfl⟩
  | succ n ih =>
    intro s
    obtain ⟨a, b, c⟩ := ih (drawWord s).2
    exact ⟨by simp only [drawBytes, List.length_append, length_bytesOf, a]; omega, b, c⟩

/-- A table with a stretch of keys written over. -/
theorem wf_splice {α : Type} [DecidableEq α] (d : α) (t m : Tbl α) (lo hi : Nat) (h : Tbl.wf d t = true) (k : Tbl.wf d m = true)
    (hm : ∀ e ∈ m, lo ≤ e.1 ∧ e.1 < hi) (hl : lo ≤ hi) :
    Tbl.wf d ((t.filter fun e => decide (e.1 < lo)) ++ m ++ t.filter fun e => decide (hi ≤ e.1)) = true := by
  refine Tbl.wf_append d _ _ (Tbl.wf_append d _ _ (Tbl.wf_filter _ _ _ h) k ?_) (Tbl.wf_filter _ _ _ h) ?_
  · intro x hx y hy
    have := hm y hy
    have := of_decide_eq_true (List.mem_filter.mp hx).2
    omega
  · intro x hx y hy
    have hy := of_decide_eq_true (List.mem_filter.mp hy).2
    rcases List.mem_append.mp hx with hx | hx
    · have := of_decide_eq_true (List.mem_filter.mp hx).2; omega
    · have := hm x hx; omega

theorem keeps_scribble (s : State) (k n : Nat) : Keeps s (scribble s k n) := by
  constructor; intro h
  obtain ⟨a, b, c⟩ := drawBytes_frame (2 * n) s
  refine ⟨?_, ?_⟩
  · show Tbl.wf 0 _ = true
    simp only [scribble, b]
    refine wf_splice 0 _ _ _ _ h.1 (cellsOf_wf _ _) (fun e he => ?_) (by omega)
    have := cellsOf_mem _ _ e he
    rw [a] at this; omega
  · simp only [scribble, c]
    exact Tbl.wf_filter _ _ _ h.2

theorem keeps_freeWordAt (s : State) (k : Nat) : Keeps s (freeWordAt s k) := ⟨fun h => ⟨wf_writeBytes _ _ _ h.1, h.2⟩⟩
theorem keeps_misuse (s : State) (k n : Nat) : Keeps s (misuse s k n) := Keeps.foldl _ keeps_freeWordAt _ _

/-! ### Lines of a slice -/

theorem keeps_clearEntry (s : State) (z : ZPage) (k : Nat) : Keeps s (clearEntry s z k) := by
  unfold clearEntry
  split
  · exact keeps_poke ..
  · exact .rfl' _

theorem keeps_clearZPage (s : State) (z : ZPage) (k : Nat) : Keeps s (clearZPage s z k) := by
  unfold clearZPage keepTlbs
  dsimp only
  generalize hu : ({ s with mem := _, tags := _, hollow := _, zpages := _ } : State) = u
  have h0 : Keeps s u := by rw [← hu]; exact ⟨fun h => ⟨Tbl.wf_filter _ _ _ h.1, Tbl.wf_filter _ _ _ h.2⟩⟩
  exact (h0.trans (Keeps.foldl (fun s k => clearEntry s z k) (fun s k => keeps_clearEntry s z k) z.entries u)).trans (.of_eq rfl rfl)

theorem keeps_notePage (s : State) (k : Nat) : Keeps s (notePage s k) := by
  unfold notePage
  split
  · exact .rfl' _
  · split
    · exact .of_eq rfl rfl
    · exact .rfl' _

theorem keeps_evictLine (s : State) (h l : Nat) : Keeps s (evictLine s h l) := by
  unfold evictLine
  split
  · exact .of_eq rfl rfl
  extract_lets x back s0 s1 gone s2 s3
  have h2 : Keeps s s2 := .of_eq rfl rfl
  clear_value s2
  split
  · exact h2.trans (keeps_zeroRange ..)
  split
  · exact h2
  have h3 : Keeps s s3 := h2.trans (keeps_notePage ..)
  split
  · exact h3.trans (keeps_clearZPage ..)
  · exact h3

theorem keeps_trimSlice (s : State) (h n : Nat) : Keeps s (trimSlice s h n) := by
  unfold trimSlice
  extract_lets c ways s1 full
  have h1 : Keeps s s1 := by
    simp only [s1]
    split
    · split
      · exact keeps_evictLine ..
      · exact .rfl' _
    · exact .rfl' _
  clear_value s1
  split
  · split
    · exact h1.trans (keeps_evictLine ..)
    · exact h1
  · exact h1

theorem keeps_modSlice (s : State) (h : Nat) (f : Slice → Slice) : Keeps s (s.modSlice h f) := .of_eq rfl rfl
theorem keeps_zeroed (s : State) (t : Tbl Bool) : Keeps s { s with zeroed := t } := .of_eq rfl rfl

theorem keeps_touchLine (s : State) (h l : Nat) : Keeps s (touchLine s h l) := by
  unfold touchLine
  exact (keeps_modSlice s h _).trans (keeps_trimSlice _ h _)

theorem keeps_dirtyLine (s : State) (h l : Nat) : Keeps s (dirtyLine s h l) := by
  unfold dirtyLine
  exact ((keeps_zeroed s _).trans (keeps_modSlice _ h _)).trans (keeps_trimSlice _ h _)

theorem keeps_accessLine (s : State) (l : Nat) (a w : Bool) : Keeps s (accessLine s l a w) := by
  unfold accessLine
  extract_lets k h data
  have hd : ∀ s : State, Keeps s (data s) := fun s => by
    simp only [data]
    split
    · exact keeps_dirtyLine ..
    · exact .rfl' _
  split
  · exact .rfl' _
  split
  · exact (keeps_touchLine ..).trans (hd _)
  split
  · exact (((keeps_zeroRange s k 128).trans (keeps_zeroed _ _)).trans (keeps_touchLine _ h l)).trans (hd _)
  split
  · exact (keeps_touchLine ..).trans (hd _)
  · exact .rfl' _

theorem keeps_noteLeaf (s : State) (p : Place) : Keeps s (noteLeaf s p) := by
  unfold noteLeaf
  split
  · dsimp only; split <;> exact .of_eq rfl rfl
  · exact .rfl' _

theorem keeps_keepOld (s : State) (k : Nat) : Keeps s (keepOld s k) := by
  unfold keepOld
  extract_lets
  split
  · exact .rfl' _
  · exact .of_eq rfl rfl

theorem keeps_noteWrite (s : State) (k n : Nat) (w : Writer) (g : Option Nat) : Keeps s (noteWrite s k n w g) := by
  unfold noteWrite
  split <;> exact .of_eq rfl rfl

theorem keeps_flags (s : State) (l : List Rel) : Keeps s { s with flags := l } := .of_eq rfl rfl

theorem keeps_tagPut (s : State) (k : Nat) (t : Option Bool) :
    Keeps s (match t with
      | some t => { s with tags := Tbl.put false s.tags (k / 16) t }
      | none => s) := by
  cases t with
  | none => exact .rfl' _
  | some b => exact ⟨fun h => ⟨h.1, Tbl.wf_put _ _ _ _ h.2⟩⟩

theorem keeps_streamed (s : State) (q k : Nat) (f : Slice → Slice) :
    Keeps s (if q = 3 ∧ isHbm k = true then s.modSlice (paHome k) f else s) := by
  split
  · exact .of_eq rfl rfl
  · exact .rfl' _

theorem keeps_plainWrite (s : State) (w : Writer) (q k : Nat) (bs : List Byte) (t : Option Bool) : Keeps s (plainWrite s w q k bs t).1 := by
  unfold plainWrite
  extract_lets s1 s2 s3 s4 s5
  have h1 : Keeps s s1 := keeps_keepOld s k
  have h2 : Keeps s s2 := h1.trans (keeps_accessLine _ _ _ _)
  have h3 : Keeps s s3 := h2.trans (keeps_poke _ k bs)
  have h4 : Keeps s s4 := h3.trans (keeps_tagPut s3 k t)
  have h5 : Keeps s s5 := h4.trans (keeps_streamed s4 q k _)
  exact (h5.trans (keeps_flags s5 _)).trans (keeps_noteWrite _ _ _ _ _)

theorem keeps_homeWrite (s : State) (w : Writer) (q k : Nat) (bs : List Byte) (t : Option Bool) : Keeps s (homeWrite s w q k bs t).1 :=
  (keeps_plainWrite s w q k bs t).trans (keeps_misuse _ k _)

theorem keeps_badLines (s : State) (l : List Nat) : Keeps s { s with badLines := l } := .of_eq rfl rfl

theorem keeps_homeZero (s : State) (w : Writer) (l : Nat) : Keeps s (homeZero s w l).1 := by
  unfold homeZero
  extract_lets k s2 s3 s0 s4
  have h3 : Keeps s s3 := ((keeps_keepOld s k).trans (keeps_zeroRange _ k 128)).trans (.of_eq rfl rfl)
  have h4 : Keeps s s4 := by
    refine h3.trans ?_
    simp only [s4]
    split
    · exact ((keeps_modSlice s3 (paHome k) _).trans (keeps_zeroed _ _)).trans (keeps_touchLine _ (paHome k) l)
    · exact .rfl' _
  exact (h4.trans (keeps_noteWrite _ _ _ _ _)).trans (keeps_misuse _ _ _)

theorem keeps_atomOne (s : State) (w : Writer) (n : Nat) (op : AtomOp) (l : AtomLane) : Keeps s (atomOne s w n op l).1 := by
  unfold atomOne
  extract_lets s1 old
  have h1 : Keeps s s1 := keeps_accessLine s _ _ _
  split
  · exact h1
  · refine h1.trans ?_
    exact keeps_homeWrite s1 w 1 l.key _ none

end Sys2Proof.Machine
end

