-- ==== Sys2Proof/Laws/Ops.lean ====
section
/-! SUPPORT. What each shared operation can do, said once: accesses, faults, waits and scratch. -/

namespace Sys2Proof.Machine

/-! ### Accesses (01 R17) -/

theorem checkAccess_of_trap {s : State} {c : Cap} {ea : Int} {n need al : Nat} {u : Use} {t : Trap} (h : checkCap c ea n need al = some t) :
    checkAccess s c ea n need al u = (.error t, s) := by simp [checkAccess, checkAccessAt, h]

theorem checkAccess_of_place {s s' : State} {c : Cap} {ea : Int} {n need al : Nat} {u : Use} {p : Place} (h : checkCap c ea n need al = none)
    (hw : window s s.curCore s.curAsid ea.toNat u = (some p, s')) : checkAccess s c ea n need al u = (.ok p, s') := by
  simp [checkAccess, checkAccessAt, h, hw]

theorem checkAccess_of_noPlace {s s' : State} {c : Cap} {ea : Int} {n need al : Nat} {u : Use} (h : checkCap c ea n need al = none)
    (hw : window s s.curCore s.curAsid ea.toNat u = (none, s')) : checkAccess s c ea n need al u = (.error ⟨.xlate, wrap 64 ea⟩, s') := by
  simp [checkAccess, checkAccessAt, h, hw]

/-- A checked access ends in a fault of the agent or goes on with its place. -/
theorem withAccess_cases (s : State) (c : Cap) (ea : Int) (n need al : Nat) (u : Use) (k : Place → State → State) :
    (∃ t s', checkAccess s c ea n need al u = (.error t, s') ∧ withAccess s c ea n need al u k = raise s' t) ∨
    (∃ p s', checkAccess s c ea n need al u = (.ok p, s') ∧ withAccess s c ea n need al u k = k p (noteLeaf s' p)) := by
  unfold withAccess
  rcases h : checkAccess s c ea n need al u with ⟨_ | p, s'⟩
  · exact .inl ⟨_, _, rfl, rfl⟩
  · exact .inr ⟨_, _, rfl, rfl⟩

@[simp] theorem noteLeaf_scratch (s : State) (k : Nat) : noteLeaf s ⟨k, none⟩ = s := rfl

/-! ### Scratch (08 R204) -/

theorem accessLine_scratch {s : State} {l : Nat} {a w : Bool} (h : isHbm (l * 128) = false) : accessLine s l a w = s := by
  simp [accessLine, h]

@[simp] theorem keepOld_mem (s : State) (k : Nat) : (keepOld s k).mem = s.mem := by unfold keepOld; extract_lets; split <;> rfl
@[simp] theorem keepOld_tags (s : State) (k : Nat) : (keepOld s k).tags = s.tags := by unfold keepOld; extract_lets; split <;> rfl
@[simp] theorem noteWrite_mem (s : State) (k n : Nat) (w : Writer) (g : Option Nat) : (noteWrite s k n w g).mem = s.mem := by
  unfold noteWrite; split <;> rfl
@[simp] theorem noteWrite_tags (s : State) (k n : Nat) (w : Writer) (g : Option Nat) : (noteWrite s k n w g).tags = s.tags := by
  unfold noteWrite; split <;> rfl
@[simp] theorem poke_mem (s : State) (k : Nat) (bs : List Byte) : (poke s k bs).mem = writeBytes s.mem k bs := rfl
@[simp] theorem poke_tags (s : State) (k : Nat) (bs : List Byte) : (poke s k bs).tags = clearTags s.tags k bs.length := rfl

/-- A write to a line that is not in a package's storage puts the bytes and clears the tags of their granules; a deque's
words that it touches apart (`misuse`). -/
theorem plainWrite_scratch_mem {s : State} {w : Writer} {q k : Nat} {bs : List Byte} (h : isHbm (lineOf k * 128) = false) :
    (plainWrite s w q k bs none).1.mem = writeBytes s.mem k bs ∧ (plainWrite s w q k bs none).1.tags = clearTags s.tags k bs.length := by
  unfold plainWrite
  simp only [accessLine_scratch h, noteWrite_mem, noteWrite_tags]
  split <;> simp
/-- A write that touches no word of a deque is all that it does to memory. -/
theorem misuse_none {s : State} {k n : Nat} (hr : s.ringed = []) (hq : s.net.reqs = []) : misuse s k n = s := by
  simp [misuse, hr, hq]

/-! ### Faults (01 R35, 18 R402) -/

theorem raise_of_wave {s : State} {w : Nat} (h : s.cur = .wave w) (t : Trap) : raise s t = waveFault s w t false := by simp [raise, h]
theorem raise_of_ctx {s : State} {v n : Nat} (h : s.cur = .ctx v n) (t : Trap) : raise s t = ctxFault s v n t (s.ctx v n).pc.addr := by
  simp [raise, h]

/-- What a posted message may touch: grids, dies, messages on their way. -/
theorem postMessage_field {α : Type} (p : State → α) (hg : ∀ s h g, p (State.setGrid s h g) = p s) (hd : ∀ s d x, p (State.setDie s d x) = p s)
    (hn : ∀ (s : State) n, p { s with net := n } = p s) (s : State) (d : Nat) (m : FaultMsg) : p (postMessage s d m) = p s := by
  unfold postMessage
  split
  · exact hd s _ _
  · refine (hn _ _).trans ?_
    unfold State.modGrid; split
    · rfl
    · exact hg s _ _

@[simp] theorem postMessage_mem (s : State) (d : Nat) (m : FaultMsg) : (postMessage s d m).mem = s.mem :=
  postMessage_field (·.mem) (fun _ _ _ => rfl) (fun _ _ _ => rfl) (fun _ _ => rfl) s d m
@[simp] theorem postMessage_tags (s : State) (d : Nat) (m : FaultMsg) : (postMessage s d m).tags = s.tags :=
  postMessage_field (·.tags) (fun _ _ _ => rfl) (fun _ _ _ => rfl) (fun _ _ => rfl) s d m
@[simp] theorem postMessage_cur (s : State) (d : Nat) (m : FaultMsg) : (postMessage s d m).cur = s.cur :=
  postMessage_field (·.cur) (fun _ _ _ => rfl) (fun _ _ _ => rfl) (fun _ _ => rfl) s d m
@[simp] theorem postMessage_waves (s : State) (d : Nat) (m : FaultMsg) : (postMessage s d m).waves = s.waves :=
  postMessage_field (·.waves) (fun _ _ _ => rfl) (fun _ _ _ => rfl) (fun _ _ => rfl) s d m
@[simp] theorem postMessage_cores (s : State) (d : Nat) (m : FaultMsg) : (postMessage s d m).cores = s.cores :=
  postMessage_field (·.cores) (fun _ _ _ => rfl) (fun _ _ _ => rfl) (fun _ _ => rfl) s d m
@[simp] theorem postMessage_vats (s : State) (d : Nat) (m : FaultMsg) : (postMessage s d m).vats = s.vats :=
  postMessage_field (·.vats) (fun _ _ _ => rfl) (fun _ _ _ => rfl) (fun _ _ => rfl) s d m

/-- A fault of a wave changes no byte, no tag, no vat and no other wave, of no core anything but the waits for its log, and
parks the wave. -/
theorem waveFault_frame (s : State) (w : Nat) (t : Trap) (d : Bool) :
    (waveFault s w t d).mem = s.mem ∧ (waveFault s w t d).tags = s.tags ∧
    (waveFault s w t d).cores = (s.modCore (waveCore w) fun c => { c with relq := c.relq.filter (· ≠ w) }).cores ∧ (waveFault s w t d).vats = s.vats ∧
    (∀ u, u ≠ w → (waveFault s w t d).wave u = s.wave u) ∧ ((waveFault s w t d).wave w).run = .waiting .fault := by
  simp only [waveFault, postMessage_mem, postMessage_tags, postMessage_cores, postMessage_vats, State.wave, postMessage_waves]
  refine ⟨rfl, rfl, rfl, rfl, fun u h => ?_, ?_⟩
  · exact Tbl.get_set_other _ _ _ _ _ h
  · simp [State.modWave, State.setWave]

/-! ### Waits (07 R189) -/

/-- An agent that waits changes no byte, no core and no other wave. -/
theorem park_frame (s : State) (why : Wait) :
    (park s why).mem = s.mem ∧ (park s why).tags = s.tags ∧ (park s why).cores = s.cores ∧ (park s why).cur = s.cur ∧
    ∀ u, s.cur ≠ .wave u → (park s why).wave u = s.wave u := by
  unfold park
  split
  · rename_i w h
    refine ⟨rfl, rfl, rfl, rfl, fun u hu => ?_⟩
    exact Tbl.get_set_other _ _ _ _ _ (by rintro rfl; exact hu h)
  · exact ⟨rfl, rfl, rfl, rfl, fun _ _ => rfl⟩
  · exact ⟨rfl, rfl, rfl, rfl, fun _ _ => rfl⟩

/-- A reply parks the agent, and is on its way from then on. -/
theorem reply_eq (s : State) (d : Nat) (v : Word) :
    reply s d v = { park s (.reply d) with net := { (park s (.reply d)).net with wakes := (park s (.reply d)).net.wakes ++ [{ agent := s.cur, d := d, value := v }] } } := rfl

/-! ### Registers (01 R8, R9) -/

theorem Wave.reg_setReg (x : Wave) (n k : Nat) (c : Cap) : (x.setReg n c).reg k = if k = 0 then {} else if k = n then c else x.reg k := by
  unfold Wave.reg Wave.setReg
  by_cases hk : k = 0
  · simp [hk]
  · by_cases hn : n = 0
    · subst hn; simp [hk]
    · by_cases e : k = n
      · subst e; simp [hk]
      · simp [hk, hn, e]

end Sys2Proof.Machine
end

