-- ==== Sys2Proof/Laws/PerInstr.lean ====
section
/-! SUPPORT. What holds of each instruction as syntax: the major opcode of its word is one that 02 R45 assigns. -/

namespace Sys2Proof.Laws

/-- The major opcodes that 02 R45 assigns. -/
def assignedMajors : List Nat := List.range' 0x01 29 ++ List.range' 0x20 9 ++ List.range' 0x2C 16 ++ [0x3D, 0x3E]

/-- The word of an instruction, if it has one, has an assigned major opcode; so no well-formed instruction's word
is one that 02 R63 always refuses for its major. -/
def Encode.Statement (i : Instr) : Prop := ∀ w, encode i = some w → fld w 26 6 ∈ assignedMajors

/-- A field of a word: its width, its value, and the bit it starts at. -/
abbrev Field := (n : Nat) × BitVec n × Nat

/-- The greatest sum that fields of these widths, from these bits, can make. -/
def mostOf (ws : List (Nat × Nat)) : Nat := ws.foldr (fun x n => 2 ^ x.1 * 2 ^ x.2 - 2 ^ x.2 + n) 0

theorem Field.sum_le (fs : List Field) : ∀ base : Nat,
    base ≤ (fs.map fun x => (x.2.1.toNat, x.2.2)).foldl (fun acc f => acc + f.1 * 2 ^ f.2) base ∧
    (fs.map fun x => (x.2.1.toNat, x.2.2)).foldl (fun acc f => acc + f.1 * 2 ^ f.2) base ≤ base + mostOf (fs.map fun x => (x.1, x.2.2)) := by
  induction fs with
  | nil => exact fun b => ⟨Nat.le_refl b, Nat.le_refl b⟩
  | cons x t ih =>
    intro b
    obtain ⟨n, v, lo⟩ := x
    have h := ih (b + v.toNat * 2 ^ lo)
    have hv : v.toNat * 2 ^ lo ≤ 2 ^ n * 2 ^ lo - 2 ^ lo := by
      have := Nat.mul_le_mul_right (2 ^ lo) (Nat.le_sub_one_of_lt v.isLt)
      rwa [Nat.sub_mul, Nat.one_mul] at this
    simp only [List.map_cons, List.foldl_cons, mostOf, List.foldr_cons] at *
    omega

/-- The base of a word with fields of these widths fixes an assigned major opcode. -/
def fixesMajor (k base : Nat) (ws : List (Nat × Nat)) : Bool :=
  assignedMajors.contains k && decide (k * 2 ^ 26 ≤ base ∧ base + mostOf ws < (k + 1) * 2 ^ 26 ∧ k < 64)

theorem Encode.of_fields {k base : Nat} {ws : List (Nat × Nat)} (hk : fixesMajor k base ws = true) (fs : List Field) {w : W32}
    (h : some (word base (fs.map fun x => (x.2.1.toNat, x.2.2))) = some w) (hw : fs.map (fun x => (x.1, x.2.2)) = ws) :
    fld w 26 6 ∈ assignedMajors := by
  simp only [fixesMajor, Bool.and_eq_true, List.contains_iff_mem, decide_eq_true_eq] at hk
  have hs := Field.sum_le fs base
  rw [hw] at hs
  cases h
  have e : fld (word base (fs.map fun x => (x.2.1.toNat, x.2.2))) 26 6 = k := by
    rw [fld, word, BitVec.toNat_ofNat]
    generalize (fs.map fun x => (x.2.1.toNat, x.2.2)).foldl (fun acc f => acc + f.1 * 2 ^ f.2) base = n at hs
    omega
  rw [e]; exact hk.1

theorem Encode.illegalInstruction (word : BitVec 32) : Encode.Statement (.illegalInstruction word) := nofun
theorem Encode.add (d : BitVec 6) (a : BitVec 6) (b : BitVec 6) (w : BitVec 1) : Encode.Statement (.add d a b w) :=
  by intro _ h; exact of_fields (k := 0x1) (base := 0x4000000) (ws := [(6, 20), (6, 14), (6, 8), (1, 6)]) (by decide) [⟨_, d, 20⟩, ⟨_, a, 14⟩, ⟨_, b, 8⟩, ⟨_, w, 6⟩] h rfl
theorem Encode.sub (d : BitVec 6) (a : BitVec 6) (b : BitVec 6) (w : BitVec 1) : Encode.Statement (.sub d a b w) :=
  by intro _ h; exact of_fields (k := 0x1) (base := 0x4000001) (ws := [(6, 20), (6, 14), (6, 8), (1, 6)]) (by decide) [⟨_, d, 20⟩, ⟨_, a, 14⟩, ⟨_, b, 8⟩, ⟨_, w, 6⟩] h rfl
theorem Encode.mul (d : BitVec 6) (a : BitVec 6) (b : BitVec 6) (w : BitVec 1) : Encode.Statement (.mul d a b w) :=
  by intro _ h; exact of_fields (k := 0x1) (base := 0x4000002) (ws := [(6, 20), (6, 14), (6, 8), (1, 6)]) (by decide) [⟨_, d, 20⟩, ⟨_, a, 14⟩, ⟨_, b, 8⟩, ⟨_, w, 6⟩] h rfl
theorem Encode.mulh (d : BitVec 6) (a : BitVec 6) (b : BitVec 6) (w : BitVec 1) : Encode.Statement (.mulh d a b w) :=
  by intro _ h; exact of_fields (k := 0x1) (base := 0x4000003) (ws := [(6, 20), (6, 14), (6, 8), (1, 6)]) (by decide) [⟨_, d, 20⟩, ⟨_, a, 14⟩, ⟨_, b, 8⟩, ⟨_, w, 6⟩] h rfl
theorem Encode.mulhu (d : BitVec 6) (a : BitVec 6) (b : BitVec 6) (w : BitVec 1) : Encode.Statement (.mulhu d a b w) :=
  by intro _ h; exact of_fields (k := 0x1) (base := 0x4000004) (ws := [(6, 20), (6, 14), (6, 8), (1, 6)]) (by decide) [⟨_, d, 20⟩, ⟨_, a, 14⟩, ⟨_, b, 8⟩, ⟨_, w, 6⟩] h rfl
theorem Encode.div (d : BitVec 6) (a : BitVec 6) (b : BitVec 6) (w : BitVec 1) : Encode.Statement (.div d a b w) :=
  by intro _ h; exact of_fields (k := 0x1) (base := 0x4000005) (ws := [(6, 20), (6, 14), (6, 8), (1, 6)]) (by decide) [⟨_, d, 20⟩, ⟨_, a, 14⟩, ⟨_, b, 8⟩, ⟨_, w, 6⟩] h rfl
theorem Encode.divu (d : BitVec 6) (a : BitVec 6) (b : BitVec 6) (w : BitVec 1) : Encode.Statement (.divu d a b w) :=
  by intro _ h; exact of_fields (k := 0x1) (base := 0x4000006) (ws := [(6, 20), (6, 14), (6, 8), (1, 6)]) (by decide) [⟨_, d, 20⟩, ⟨_, a, 14⟩, ⟨_, b, 8⟩, ⟨_, w, 6⟩] h rfl
theorem Encode.rem (d : BitVec 6) (a : BitVec 6) (b : BitVec 6) (w : BitVec 1) : Encode.Statement (.rem d a b w) :=
  by intro _ h; exact of_fields (k := 0x1) (base := 0x4000007) (ws := [(6, 20), (6, 14), (6, 8), (1, 6)]) (by decide) [⟨_, d, 20⟩, ⟨_, a, 14⟩, ⟨_, b, 8⟩, ⟨_, w, 6⟩] h rfl
theorem Encode.remu (d : BitVec 6) (a : BitVec 6) (b : BitVec 6) (w : BitVec 1) : Encode.Statement (.remu d a b w) :=
  by intro _ h; exact of_fields (k := 0x1) (base := 0x4000008) (ws := [(6, 20), (6, 14), (6, 8), (1, 6)]) (by decide) [⟨_, d, 20⟩, ⟨_, a, 14⟩, ⟨_, b, 8⟩, ⟨_, w, 6⟩] h rfl
theorem Encode.and (d : BitVec 6) (a : BitVec 6) (b : BitVec 6) (w : BitVec 1) : Encode.Statement (.and d a b w) :=
  by intro _ h; exact of_fields (k := 0x1) (base := 0x4000009) (ws := [(6, 20), (6, 14), (6, 8), (1, 6)]) (by decide) [⟨_, d, 20⟩, ⟨_, a, 14⟩, ⟨_, b, 8⟩, ⟨_, w, 6⟩] h rfl
theorem Encode.or (d : BitVec 6) (a : BitVec 6) (b : BitVec 6) (w : BitVec 1) : Encode.Statement (.or d a b w) :=
  by intro _ h; exact of_fields (k := 0x1) (base := 0x400000a) (ws := [(6, 20), (6, 14), (6, 8), (1, 6)]) (by decide) [⟨_, d, 20⟩, ⟨_, a, 14⟩, ⟨_, b, 8⟩, ⟨_, w, 6⟩] h rfl
theorem Encode.xor (d : BitVec 6) (a : BitVec 6) (b : BitVec 6) (w : BitVec 1) : Encode.Statement (.xor d a b w) :=
  by intro _ h; exact of_fields (k := 0x1) (base := 0x400000b) (ws := [(6, 20), (6, 14), (6, 8), (1, 6)]) (by decide) [⟨_, d, 20⟩, ⟨_, a, 14⟩, ⟨_, b, 8⟩, ⟨_, w, 6⟩] h rfl
theorem Encode.andn (d : BitVec 6) (a : BitVec 6) (b : BitVec 6) (w : BitVec 1) : Encode.Statement (.andn d a b w) :=
  by intro _ h; exact of_fields (k := 0x1) (base := 0x400000c) (ws := [(6, 20), (6, 14), (6, 8), (1, 6)]) (by decide) [⟨_, d, 20⟩, ⟨_, a, 14⟩, ⟨_, b, 8⟩, ⟨_, w, 6⟩] h rfl
theorem Encode.sll (d : BitVec 6) (a : BitVec 6) (b : BitVec 6) (w : BitVec 1) : Encode.Statement (.sll d a b w) :=
  by intro _ h; exact of_fields (k := 0x1) (base := 0x400000d) (ws := [(6, 20), (6, 14), (6, 8), (1, 6)]) (by decide) [⟨_, d, 20⟩, ⟨_, a, 14⟩, ⟨_, b, 8⟩, ⟨_, w, 6⟩] h rfl
theorem Encode.srl (d : BitVec 6) (a : BitVec 6) (b : BitVec 6) (w : BitVec 1) : Encode.Statement (.srl d a b w) :=
  by intro _ h; exact of_fields (k := 0x1) (base := 0x400000e) (ws := [(6, 20), (6, 14), (6, 8), (1, 6)]) (by decide) [⟨_, d, 20⟩, ⟨_, a, 14⟩, ⟨_, b, 8⟩, ⟨_, w, 6⟩] h rfl
theorem Encode.sra (d : BitVec 6) (a : BitVec 6) (b : BitVec 6) (w : BitVec 1) : Encode.Statement (.sra d a b w) :=
  by intro _ h; exact of_fields (k := 0x1) (base := 0x400000f) (ws := [(6, 20), (6, 14), (6, 8), (1, 6)]) (by decide) [⟨_, d, 20⟩, ⟨_, a, 14⟩, ⟨_, b, 8⟩, ⟨_, w, 6⟩] h rfl
theorem Encode.ror (d : BitVec 6) (a : BitVec 6) (b : BitVec 6) (w : BitVec 1) : Encode.Statement (.ror d a b w) :=
  by intro _ h; exact of_fields (k := 0x1) (base := 0x4000010) (ws := [(6, 20), (6, 14), (6, 8), (1, 6)]) (by decide) [⟨_, d, 20⟩, ⟨_, a, 14⟩, ⟨_, b, 8⟩, ⟨_, w, 6⟩] h rfl
theorem Encode.min (d : BitVec 6) (a : BitVec 6) (b : BitVec 6) (w : BitVec 1) : Encode.Statement (.min d a b w) :=
  by intro _ h; exact of_fields (k := 0x1) (base := 0x4000011) (ws := [(6, 20), (6, 14), (6, 8), (1, 6)]) (by decide) [⟨_, d, 20⟩, ⟨_, a, 14⟩, ⟨_, b, 8⟩, ⟨_, w, 6⟩] h rfl
theorem Encode.max (d : BitVec 6) (a : BitVec 6) (b : BitVec 6) (w : BitVec 1) : Encode.Statement (.max d a b w) :=
  by intro _ h; exact of_fields (k := 0x1) (base := 0x4000012) (ws := [(6, 20), (6, 14), (6, 8), (1, 6)]) (by decide) [⟨_, d, 20⟩, ⟨_, a, 14⟩, ⟨_, b, 8⟩, ⟨_, w, 6⟩] h rfl
theorem Encode.minu (d : BitVec 6) (a : BitVec 6) (b : BitVec 6) (w : BitVec 1) : Encode.Statement (.minu d a b w) :=
  by intro _ h; exact of_fields (k := 0x1) (base := 0x4000014) (ws := [(6, 20), (6, 14), (6, 8), (1, 6)]) (by decide) [⟨_, d, 20⟩, ⟨_, a, 14⟩, ⟨_, b, 8⟩, ⟨_, w, 6⟩] h rfl
theorem Encode.maxu (d : BitVec 6) (a : BitVec 6) (b : BitVec 6) (w : BitVec 1) : Encode.Statement (.maxu d a b w) :=
  by intro _ h; exact of_fields (k := 0x1) (base := 0x4000015) (ws := [(6, 20), (6, 14), (6, 8), (1, 6)]) (by decide) [⟨_, d, 20⟩, ⟨_, a, 14⟩, ⟨_, b, 8⟩, ⟨_, w, 6⟩] h rfl
theorem Encode.slt (d : BitVec 6) (a : BitVec 6) (b : BitVec 6) (w : BitVec 1) : Encode.Statement (.slt d a b w) :=
  by intro _ h; exact of_fields (k := 0x1) (base := 0x4000016) (ws := [(6, 20), (6, 14), (6, 8), (1, 6)]) (by decide) [⟨_, d, 20⟩, ⟨_, a, 14⟩, ⟨_, b, 8⟩, ⟨_, w, 6⟩] h rfl
theorem Encode.sltu (d : BitVec 6) (a : BitVec 6) (b : BitVec 6) (w : BitVec 1) : Encode.Statement (.sltu d a b w) :=
  by intro _ h; exact of_fields (k := 0x1) (base := 0x4000017) (ws := [(6, 20), (6, 14), (6, 8), (1, 6)]) (by decide) [⟨_, d, 20⟩, ⟨_, a, 14⟩, ⟨_, b, 8⟩, ⟨_, w, 6⟩] h rfl
theorem Encode.seq (d : BitVec 6) (a : BitVec 6) (b : BitVec 6) (w : BitVec 1) : Encode.Statement (.seq d a b w) :=
  by intro _ h; exact of_fields (k := 0x1) (base := 0x4000018) (ws := [(6, 20), (6, 14), (6, 8), (1, 6)]) (by decide) [⟨_, d, 20⟩, ⟨_, a, 14⟩, ⟨_, b, 8⟩, ⟨_, w, 6⟩] h rfl
theorem Encode.sne (d : BitVec 6) (a : BitVec 6) (b : BitVec 6) (w : BitVec 1) : Encode.Statement (.sne d a b w) :=
  by intro _ h; exact of_fields (k := 0x1) (base := 0x4000019) (ws := [(6, 20), (6, 14), (6, 8), (1, 6)]) (by decide) [⟨_, d, 20⟩, ⟨_, a, 14⟩, ⟨_, b, 8⟩, ⟨_, w, 6⟩] h rfl
theorem Encode.clz (d : BitVec 6) (a : BitVec 6) (w : BitVec 1) : Encode.Statement (.clz d a w) :=
  by intro _ h; exact of_fields (k := 0x1) (base := 0x400001a) (ws := [(6, 20), (6, 14), (1, 6)]) (by decide) [⟨_, d, 20⟩, ⟨_, a, 14⟩, ⟨_, w, 6⟩] h rfl
theorem Encode.ctz (d : BitVec 6) (a : BitVec 6) (w : BitVec 1) : Encode.Statement (.ctz d a w) :=
  by intro _ h; exact of_fields (k := 0x1) (base := 0x400001b) (ws := [(6, 20), (6, 14), (1, 6)]) (by decide) [⟨_, d, 20⟩, ⟨_, a, 14⟩, ⟨_, w, 6⟩] h rfl
theorem Encode.popc (d : BitVec 6) (a : BitVec 6) (w : BitVec 1) : Encode.Statement (.popc d a w) :=
  by intro _ h; exact of_fields (k := 0x1) (base := 0x400001c) (ws := [(6, 20), (6, 14), (1, 6)]) (by decide) [⟨_, d, 20⟩, ⟨_, a, 14⟩, ⟨_, w, 6⟩] h rfl
theorem Encode.brev (d : BitVec 6) (a : BitVec 6) (w : BitVec 1) : Encode.Statement (.brev d a w) :=
  by intro _ h; exact of_fields (k := 0x1) (base := 0x400001d) (ws := [(6, 20), (6, 14), (1, 6)]) (by decide) [⟨_, d, 20⟩, ⟨_, a, 14⟩, ⟨_, w, 6⟩] h rfl
theorem Encode.addi (d : BitVec 6) (a : BitVec 6) (i : BitVec 14) : Encode.Statement (.addi d a i) :=
  by intro _ h; exact of_fields (k := 0x2) (base := 0x8000000) (ws := [(6, 20), (6, 14), (14, 0)]) (by decide) [⟨_, d, 20⟩, ⟨_, a, 14⟩, ⟨_, i, 0⟩] h rfl
theorem Encode.andi (d : BitVec 6) (a : BitVec 6) (i : BitVec 14) : Encode.Statement (.andi d a i) :=
  by intro _ h; exact of_fields (k := 0x3) (base := 0xc000000) (ws := [(6, 20), (6, 14), (14, 0)]) (by decide) [⟨_, d, 20⟩, ⟨_, a, 14⟩, ⟨_, i, 0⟩] h rfl
theorem Encode.ori (d : BitVec 6) (a : BitVec 6) (i : BitVec 14) : Encode.Statement (.ori d a i) :=
  by intro _ h; exact of_fields (k := 0x4) (base := 0x10000000) (ws := [(6, 20), (6, 14), (14, 0)]) (by decide) [⟨_, d, 20⟩, ⟨_, a, 14⟩, ⟨_, i, 0⟩] h rfl
theorem Encode.xori (d : BitVec 6) (a : BitVec 6) (i : BitVec 14) : Encode.Statement (.xori d a i) :=
  by intro _ h; exact of_fields (k := 0x5) (base := 0x14000000) (ws := [(6, 20), (6, 14), (14, 0)]) (by decide) [⟨_, d, 20⟩, ⟨_, a, 14⟩, ⟨_, i, 0⟩] h rfl
theorem Encode.slli (d : BitVec 6) (a : BitVec 6) (w : BitVec 1) (s : BitVec 6) : Encode.Statement (.slli d a w s) :=
  by intro _ h; exact of_fields (k := 0x6) (base := 0x18000000) (ws := [(6, 20), (6, 14), (1, 6), (6, 0)]) (by decide) [⟨_, d, 20⟩, ⟨_, a, 14⟩, ⟨_, w, 6⟩, ⟨_, s, 0⟩] h rfl
theorem Encode.srli (d : BitVec 6) (a : BitVec 6) (w : BitVec 1) (s : BitVec 6) : Encode.Statement (.srli d a w s) :=
  by intro _ h; exact of_fields (k := 0x7) (base := 0x1c000000) (ws := [(6, 20), (6, 14), (1, 6), (6, 0)]) (by decide) [⟨_, d, 20⟩, ⟨_, a, 14⟩, ⟨_, w, 6⟩, ⟨_, s, 0⟩] h rfl
theorem Encode.srai (d : BitVec 6) (a : BitVec 6) (w : BitVec 1) (s : BitVec 6) : Encode.Statement (.srai d a w s) :=
  by intro _ h; exact of_fields (k := 0x8) (base := 0x20000000) (ws := [(6, 20), (6, 14), (1, 6), (6, 0)]) (by decide) [⟨_, d, 20⟩, ⟨_, a, 14⟩, ⟨_, w, 6⟩, ⟨_, s, 0⟩] h rfl
theorem Encode.slti (d : BitVec 6) (a : BitVec 6) (i : BitVec 14) : Encode.Statement (.slti d a i) :=
  by intro _ h; exact of_fields (k := 0x9) (base := 0x24000000) (ws := [(6, 20), (6, 14), (14, 0)]) (by decide) [⟨_, d, 20⟩, ⟨_, a, 14⟩, ⟨_, i, 0⟩] h rfl
theorem Encode.sltiu (d : BitVec 6) (a : BitVec 6) (i : BitVec 14) : Encode.Statement (.sltiu d a i) :=
  by intro _ h; exact of_fields (k := 0xa) (base := 0x28000000) (ws := [(6, 20), (6, 14), (14, 0)]) (by decide) [⟨_, d, 20⟩, ⟨_, a, 14⟩, ⟨_, i, 0⟩] h rfl
theorem Encode.lui (d : BitVec 6) (i : BitVec 20) : Encode.Statement (.lui d i) :=
  by intro _ h; exact of_fields (k := 0xb) (base := 0x2c000000) (ws := [(6, 20), (20, 0)]) (by decide) [⟨_, d, 20⟩, ⟨_, i, 0⟩] h rfl
theorem Encode.auipc (d : BitVec 6) (i : BitVec 20) : Encode.Statement (.auipc d i) :=
  by intro _ h; exact of_fields (k := 0xc) (base := 0x30000000) (ws := [(6, 20), (20, 0)]) (by decide) [⟨_, d, 20⟩, ⟨_, i, 0⟩] h rfl
theorem Encode.beq (a : BitVec 6) (b : BitVec 6) (o : BitVec 11) : Encode.Statement (.beq a b o) :=
  by intro _ h; exact of_fields (k := 0xd) (base := 0x34000000) (ws := [(6, 20), (6, 14), (11, 0)]) (by decide) [⟨_, a, 20⟩, ⟨_, b, 14⟩, ⟨_, o, 0⟩] h rfl
theorem Encode.bne (a : BitVec 6) (b : BitVec 6) (o : BitVec 11) : Encode.Statement (.bne a b o) :=
  by intro _ h; exact of_fields (k := 0xd) (base := 0x34000800) (ws := [(6, 20), (6, 14), (11, 0)]) (by decide) [⟨_, a, 20⟩, ⟨_, b, 14⟩, ⟨_, o, 0⟩] h rfl
theorem Encode.blt (a : BitVec 6) (b : BitVec 6) (o : BitVec 11) : Encode.Statement (.blt a b o) :=
  by intro _ h; exact of_fields (k := 0xd) (base := 0x34001000) (ws := [(6, 20), (6, 14), (11, 0)]) (by decide) [⟨_, a, 20⟩, ⟨_, b, 14⟩, ⟨_, o, 0⟩] h rfl
theorem Encode.bge (a : BitVec 6) (b : BitVec 6) (o : BitVec 11) : Encode.Statement (.bge a b o) :=
  by intro _ h; exact of_fields (k := 0xd) (base := 0x34001800) (ws := [(6, 20), (6, 14), (11, 0)]) (by decide) [⟨_, a, 20⟩, ⟨_, b, 14⟩, ⟨_, o, 0⟩] h rfl
theorem Encode.bltu (a : BitVec 6) (b : BitVec 6) (o : BitVec 11) : Encode.Statement (.bltu a b o) :=
  by intro _ h; exact of_fields (k := 0xd) (base := 0x34002000) (ws := [(6, 20), (6, 14), (11, 0)]) (by decide) [⟨_, a, 20⟩, ⟨_, b, 14⟩, ⟨_, o, 0⟩] h rfl
theorem Encode.bgeu (a : BitVec 6) (b : BitVec 6) (o : BitVec 11) : Encode.Statement (.bgeu a b o) :=
  by intro _ h; exact of_fields (k := 0xd) (base := 0x34002800) (ws := [(6, 20), (6, 14), (11, 0)]) (by decide) [⟨_, a, 20⟩, ⟨_, b, 14⟩, ⟨_, o, 0⟩] h rfl
theorem Encode.btag (a : BitVec 6) (o : BitVec 11) : Encode.Statement (.btag a o) :=
  by intro _ h; exact of_fields (k := 0xd) (base := 0x34003000) (ws := [(6, 20), (11, 0)]) (by decide) [⟨_, a, 20⟩, ⟨_, o, 0⟩] h rfl
theorem Encode.bntag (a : BitVec 6) (o : BitVec 11) : Encode.Statement (.bntag a o) :=
  by intro _ h; exact of_fields (k := 0xd) (base := 0x34003800) (ws := [(6, 20), (11, 0)]) (by decide) [⟨_, a, 20⟩, ⟨_, o, 0⟩] h rfl
theorem Encode.jal (d : BitVec 6) (i : BitVec 20) : Encode.Statement (.jal d i) :=
  by intro _ h; exact of_fields (k := 0xe) (base := 0x38000000) (ws := [(6, 20), (20, 0)]) (by decide) [⟨_, d, 20⟩, ⟨_, i, 0⟩] h rfl
theorem Encode.jalr (d : BitVec 6) (a : BitVec 6) : Encode.Statement (.jalr d a) :=
  by intro _ h; exact of_fields (k := 0xf) (base := 0x3c000000) (ws := [(6, 20), (6, 14)]) (by decide) [⟨_, d, 20⟩, ⟨_, a, 14⟩] h rfl
theorem Encode.ldB (d : BitVec 6) (a : BitVec 6) (s : BitVec 4) (q : BitVec 2) (o : BitVec 8) : Encode.Statement (.ldB d a s q o) :=
  by intro _ h; exact of_fields (k := 0x10) (base := 0x40000000) (ws := [(6, 20), (6, 14), (4, 10), (2, 8), (8, 0)]) (by decide) [⟨_, d, 20⟩, ⟨_, a, 14⟩, ⟨_, s, 10⟩, ⟨_, q, 8⟩, ⟨_, o, 0⟩] h rfl
theorem Encode.ldH (d : BitVec 6) (a : BitVec 6) (s : BitVec 4) (q : BitVec 2) (o : BitVec 8) : Encode.Statement (.ldH d a s q o) :=
  by intro _ h; exact of_fields (k := 0x11) (base := 0x44000000) (ws := [(6, 20), (6, 14), (4, 10), (2, 8), (8, 0)]) (by decide) [⟨_, d, 20⟩, ⟨_, a, 14⟩, ⟨_, s, 10⟩, ⟨_, q, 8⟩, ⟨_, o, 0⟩] h rfl
theorem Encode.ldW (d : BitVec 6) (a : BitVec 6) (s : BitVec 4) (q : BitVec 2) (o : BitVec 8) : Encode.Statement (.ldW d a s q o) :=
  by intro _ h; exact of_fields (k := 0x12) (base := 0x48000000) (ws := [(6, 20), (6, 14), (4, 10), (2, 8), (8, 0)]) (by decide) [⟨_, d, 20⟩, ⟨_, a, 14⟩, ⟨_, s, 10⟩, ⟨_, q, 8⟩, ⟨_, o, 0⟩] h rfl
theorem Encode.ldD (d : BitVec 6) (a : BitVec 6) (s : BitVec 4) (q : BitVec 2) (o : BitVec 8) : Encode.Statement (.ldD d a s q o) :=
  by intro _ h; exact of_fields (k := 0x13) (base := 0x4c000000) (ws := [(6, 20), (6, 14), (4, 10), (2, 8), (8, 0)]) (by decide) [⟨_, d, 20⟩, ⟨_, a, 14⟩, ⟨_, s, 10⟩, ⟨_, q, 8⟩, ⟨_, o, 0⟩] h rfl
theorem Encode.stB (d : BitVec 6) (a : BitVec 6) (s : BitVec 4) (q : BitVec 2) (o : BitVec 8) : Encode.Statement (.stB d a s q o) :=
  by intro _ h; exact of_fields (k := 0x14) (base := 0x50000000) (ws := [(6, 20), (6, 14), (4, 10), (2, 8), (8, 0)]) (by decide) [⟨_, d, 20⟩, ⟨_, a, 14⟩, ⟨_, s, 10⟩, ⟨_, q, 8⟩, ⟨_, o, 0⟩] h rfl
theorem Encode.stH (d : BitVec 6) (a : BitVec 6) (s : BitVec 4) (q : BitVec 2) (o : BitVec 8) : Encode.Statement (.stH d a s q o) :=
  by intro _ h; exact of_fields (k := 0x15) (base := 0x54000000) (ws := [(6, 20), (6, 14), (4, 10), (2, 8), (8, 0)]) (by decide) [⟨_, d, 20⟩, ⟨_, a, 14⟩, ⟨_, s, 10⟩, ⟨_, q, 8⟩, ⟨_, o, 0⟩] h rfl
theorem Encode.stW (d : BitVec 6) (a : BitVec 6) (s : BitVec 4) (q : BitVec 2) (o : BitVec 8) : Encode.Statement (.stW d a s q o) :=
  by intro _ h; exact of_fields (k := 0x16) (base := 0x58000000) (ws := [(6, 20), (6, 14), (4, 10), (2, 8), (8, 0)]) (by decide) [⟨_, d, 20⟩, ⟨_, a, 14⟩, ⟨_, s, 10⟩, ⟨_, q, 8⟩, ⟨_, o, 0⟩] h rfl
theorem Encode.stD (d : BitVec 6) (a : BitVec 6) (s : BitVec 4) (q : BitVec 2) (o : BitVec 8) : Encode.Statement (.stD d a s q o) :=
  by intro _ h; exact of_fields (k := 0x17) (base := 0x5c000000) (ws := [(6, 20), (6, 14), (4, 10), (2, 8), (8, 0)]) (by decide) [⟨_, d, 20⟩, ⟨_, a, 14⟩, ⟨_, s, 10⟩, ⟨_, q, 8⟩, ⟨_, o, 0⟩] h rfl
theorem Encode.cinc (d : BitVec 6) (a : BitVec 6) (b : BitVec 6) : Encode.Statement (.cinc d a b) :=
  by intro _ h; exact of_fields (k := 0x18) (base := 0x60000000) (ws := [(6, 20), (6, 14), (6, 8)]) (by decide) [⟨_, d, 20⟩, ⟨_, a, 14⟩, ⟨_, b, 8⟩] h rfl
theorem Encode.csetb (d : BitVec 6) (a : BitVec 6) (b : BitVec 6) : Encode.Statement (.csetb d a b) :=
  by intro _ h; exact of_fields (k := 0x18) (base := 0x60000001) (ws := [(6, 20), (6, 14), (6, 8)]) (by decide) [⟨_, d, 20⟩, ⟨_, a, 14⟩, ⟨_, b, 8⟩] h rfl
theorem Encode.cperm (d : BitVec 6) (a : BitVec 6) (b : BitVec 6) : Encode.Statement (.cperm d a b) :=
  by intro _ h; exact of_fields (k := 0x18) (base := 0x60000002) (ws := [(6, 20), (6, 14), (6, 8)]) (by decide) [⟨_, d, 20⟩, ⟨_, a, 14⟩, ⟨_, b, 8⟩] h rfl
theorem Encode.cfmt (d : BitVec 6) (a : BitVec 6) (b : BitVec 6) : Encode.Statement (.cfmt d a b) :=
  by intro _ h; exact of_fields (k := 0x18) (base := 0x60000003) (ws := [(6, 20), (6, 14), (6, 8)]) (by decide) [⟨_, d, 20⟩, ⟨_, a, 14⟩, ⟨_, b, 8⟩] h rfl
theorem Encode.cfld (d : BitVec 6) (a : BitVec 6) (s : BitVec 6) : Encode.Statement (.cfld d a s) :=
  by intro _ h; exact of_fields (k := 0x18) (base := 0x60000004) (ws := [(6, 20), (6, 14), (6, 8)]) (by decide) [⟨_, d, 20⟩, ⟨_, a, 14⟩, ⟨_, s, 8⟩] h rfl
theorem Encode.ctest (d : BitVec 6) (a : BitVec 6) : Encode.Statement (.ctest d a) :=
  by intro _ h; exact of_fields (k := 0x18) (base := 0x60000005) (ws := [(6, 20), (6, 14)]) (by decide) [⟨_, d, 20⟩, ⟨_, a, 14⟩] h rfl
theorem Encode.cclrt (d : BitVec 6) (a : BitVec 6) : Encode.Statement (.cclrt d a) :=
  by intro _ h; exact of_fields (k := 0x18) (base := 0x60000006) (ws := [(6, 20), (6, 14)]) (by decide) [⟨_, d, 20⟩, ⟨_, a, 14⟩] h rfl
theorem Encode.csubc (d : BitVec 6) (a : BitVec 6) (b : BitVec 6) : Encode.Statement (.csubc d a b) :=
  by intro _ h; exact of_fields (k := 0x18) (base := 0x60000007) (ws := [(6, 20), (6, 14), (6, 8)]) (by decide) [⟨_, d, 20⟩, ⟨_, a, 14⟩, ⟨_, b, 8⟩] h rfl
theorem Encode.cinci (d : BitVec 6) (a : BitVec 6) (i : BitVec 14) : Encode.Statement (.cinci d a i) :=
  by intro _ h; exact of_fields (k := 0x19) (base := 0x64000000) (ws := [(6, 20), (6, 14), (14, 0)]) (by decide) [⟨_, d, 20⟩, ⟨_, a, 14⟩, ⟨_, i, 0⟩] h rfl
theorem Encode.csetbi (d : BitVec 6) (a : BitVec 6) (i : BitVec 14) : Encode.Statement (.csetbi d a i) :=
  by intro _ h; exact of_fields (k := 0x1a) (base := 0x68000000) (ws := [(6, 20), (6, 14), (14, 0)]) (by decide) [⟨_, d, 20⟩, ⟨_, a, 14⟩, ⟨_, i, 0⟩] h rfl
theorem Encode.ldc (d : BitVec 6) (a : BitVec 6) (s : BitVec 4) (q : BitVec 2) (o : BitVec 8) : Encode.Statement (.ldc d a s q o) :=
  by intro _ h; exact of_fields (k := 0x1b) (base := 0x6c000000) (ws := [(6, 20), (6, 14), (4, 10), (2, 8), (8, 0)]) (by decide) [⟨_, d, 20⟩, ⟨_, a, 14⟩, ⟨_, s, 10⟩, ⟨_, q, 8⟩, ⟨_, o, 0⟩] h rfl
theorem Encode.stc (d : BitVec 6) (a : BitVec 6) (s : BitVec 4) (q : BitVec 2) (o : BitVec 8) : Encode.Statement (.stc d a s q o) :=
  by intro _ h; exact of_fields (k := 0x1c) (base := 0x70000000) (ws := [(6, 20), (6, 14), (4, 10), (2, 8), (8, 0)]) (by decide) [⟨_, d, 20⟩, ⟨_, a, 14⟩, ⟨_, s, 10⟩, ⟨_, q, 8⟩, ⟨_, o, 0⟩] h rfl
theorem Encode.fadd (d : BitVec 6) (a : BitVec 6) (b : BitVec 6) (m : BitVec 3) : Encode.Statement (.fadd d a b m) :=
  by intro _ h; exact of_fields (k := 0x1d) (base := 0x74000000) (ws := [(6, 20), (6, 14), (6, 8), (3, 5)]) (by decide) [⟨_, d, 20⟩, ⟨_, a, 14⟩, ⟨_, b, 8⟩, ⟨_, m, 5⟩] h rfl
theorem Encode.fsub (d : BitVec 6) (a : BitVec 6) (b : BitVec 6) (m : BitVec 3) : Encode.Statement (.fsub d a b m) :=
  by intro _ h; exact of_fields (k := 0x1d) (base := 0x74000001) (ws := [(6, 20), (6, 14), (6, 8), (3, 5)]) (by decide) [⟨_, d, 20⟩, ⟨_, a, 14⟩, ⟨_, b, 8⟩, ⟨_, m, 5⟩] h rfl
theorem Encode.fmul (d : BitVec 6) (a : BitVec 6) (b : BitVec 6) (m : BitVec 3) : Encode.Statement (.fmul d a b m) :=
  by intro _ h; exact of_fields (k := 0x1d) (base := 0x74000002) (ws := [(6, 20), (6, 14), (6, 8), (3, 5)]) (by decide) [⟨_, d, 20⟩, ⟨_, a, 14⟩, ⟨_, b, 8⟩, ⟨_, m, 5⟩] h rfl
theorem Encode.ffma (d : BitVec 6) (a : BitVec 6) (b : BitVec 6) (m : BitVec 3) : Encode.Statement (.ffma d a b m) :=
  by intro _ h; exact of_fields (k := 0x1d) (base := 0x74000003) (ws := [(6, 20), (6, 14), (6, 8), (3, 5)]) (by decide) [⟨_, d, 20⟩, ⟨_, a, 14⟩, ⟨_, b, 8⟩, ⟨_, m, 5⟩] h rfl
theorem Encode.fdiv (d : BitVec 6) (a : BitVec 6) (b : BitVec 6) (m : BitVec 3) : Encode.Statement (.fdiv d a b m) :=
  by intro _ h; exact of_fields (k := 0x1d) (base := 0x74000004) (ws := [(6, 20), (6, 14), (6, 8), (3, 5)]) (by decide) [⟨_, d, 20⟩, ⟨_, a, 14⟩, ⟨_, b, 8⟩, ⟨_, m, 5⟩] h rfl
theorem Encode.fsqrt (d : BitVec 6) (a : BitVec 6) (m : BitVec 3) : Encode.Statement (.fsqrt d a m) :=
  by intro _ h; exact of_fields (k := 0x1d) (base := 0x74000005) (ws := [(6, 20), (6, 14), (3, 5)]) (by decide) [⟨_, d, 20⟩, ⟨_, a, 14⟩, ⟨_, m, 5⟩] h rfl
theorem Encode.fmin (d : BitVec 6) (a : BitVec 6) (b : BitVec 6) : Encode.Statement (.fmin d a b) :=
  by intro _ h; exact of_fields (k := 0x1d) (base := 0x74000006) (ws := [(6, 20), (6, 14), (6, 8)]) (by decide) [⟨_, d, 20⟩, ⟨_, a, 14⟩, ⟨_, b, 8⟩] h rfl
theorem Encode.fmax (d : BitVec 6) (a : BitVec 6) (b : BitVec 6) : Encode.Statement (.fmax d a b) :=
  by intro _ h; exact of_fields (k := 0x1d) (base := 0x74000007) (ws := [(6, 20), (6, 14), (6, 8)]) (by decide) [⟨_, d, 20⟩, ⟨_, a, 14⟩, ⟨_, b, 8⟩] h rfl
theorem Encode.fcmp (d : BitVec 6) (a : BitVec 6) (b : BitVec 6) (p : BitVec 3) : Encode.Statement (.fcmp d a b p) :=
  by intro _ h; exact of_fields (k := 0x1d) (base := 0x74000008) (ws := [(6, 20), (6, 14), (6, 8), (3, 5)]) (by decide) [⟨_, d, 20⟩, ⟨_, a, 14⟩, ⟨_, b, 8⟩, ⟨_, p, 5⟩] h rfl
theorem Encode.fcvt (d : BitVec 6) (a : BitVec 6) (c : BitVec 6) (m : BitVec 3) : Encode.Statement (.fcvt d a c m) :=
  by intro _ h; exact of_fields (k := 0x1d) (base := 0x74000009) (ws := [(6, 20), (6, 14), (6, 8), (3, 5)]) (by decide) [⟨_, d, 20⟩, ⟨_, a, 14⟩, ⟨_, c, 8⟩, ⟨_, m, 5⟩] h rfl
theorem Encode.fclass (d : BitVec 6) (a : BitVec 6) : Encode.Statement (.fclass d a) :=
  by intro _ h; exact of_fields (k := 0x1d) (base := 0x7400000a) (ws := [(6, 20), (6, 14)]) (by decide) [⟨_, d, 20⟩, ⟨_, a, 14⟩] h rfl
theorem Encode.fsgn (d : BitVec 6) (a : BitVec 6) (b : BitVec 6) (p : BitVec 3) : Encode.Statement (.fsgn d a b p) :=
  by intro _ h; exact of_fields (k := 0x1d) (base := 0x7400000b) (ws := [(6, 20), (6, 14), (6, 8), (3, 5)]) (by decide) [⟨_, d, 20⟩, ⟨_, a, 14⟩, ⟨_, b, 8⟩, ⟨_, p, 5⟩] h rfl
theorem Encode.vadd (d : BitVec 7) (a : BitVec 7) (b : BitVec 7) : Encode.Statement (.vadd d a b) :=
  by intro _ h; exact of_fields (k := 0x20) (base := 0x80000000) (ws := [(7, 19), (7, 12), (7, 5)]) (by decide) [⟨_, d, 19⟩, ⟨_, a, 12⟩, ⟨_, b, 5⟩] h rfl
theorem Encode.vsub (d : BitVec 7) (a : BitVec 7) (b : BitVec 7) : Encode.Statement (.vsub d a b) :=
  by intro _ h; exact of_fields (k := 0x20) (base := 0x80000001) (ws := [(7, 19), (7, 12), (7, 5)]) (by decide) [⟨_, d, 19⟩, ⟨_, a, 12⟩, ⟨_, b, 5⟩] h rfl
theorem Encode.vmul (d : BitVec 7) (a : BitVec 7) (b : BitVec 7) : Encode.Statement (.vmul d a b) :=
  by intro _ h; exact of_fields (k := 0x20) (base := 0x80000002) (ws := [(7, 19), (7, 12), (7, 5)]) (by decide) [⟨_, d, 19⟩, ⟨_, a, 12⟩, ⟨_, b, 5⟩] h rfl
theorem Encode.vmulh (d : BitVec 7) (a : BitVec 7) (b : BitVec 7) : Encode.Statement (.vmulh d a b) :=
  by intro _ h; exact of_fields (k := 0x20) (base := 0x80000003) (ws := [(7, 19), (7, 12), (7, 5)]) (by decide) [⟨_, d, 19⟩, ⟨_, a, 12⟩, ⟨_, b, 5⟩] h rfl
theorem Encode.vmad (d : BitVec 7) (a : BitVec 7) (b : BitVec 7) : Encode.Statement (.vmad d a b) :=
  by intro _ h; exact of_fields (k := 0x20) (base := 0x80000004) (ws := [(7, 19), (7, 12), (7, 5)]) (by decide) [⟨_, d, 19⟩, ⟨_, a, 12⟩, ⟨_, b, 5⟩] h rfl
theorem Encode.vand (d : BitVec 7) (a : BitVec 7) (b : BitVec 7) : Encode.Statement (.vand d a b) :=
  by intro _ h; exact of_fields (k := 0x20) (base := 0x80000005) (ws := [(7, 19), (7, 12), (7, 5)]) (by decide) [⟨_, d, 19⟩, ⟨_, a, 12⟩, ⟨_, b, 5⟩] h rfl
theorem Encode.vor (d : BitVec 7) (a : BitVec 7) (b : BitVec 7) : Encode.Statement (.vor d a b) :=
  by intro _ h; exact of_fields (k := 0x20) (base := 0x80000006) (ws := [(7, 19), (7, 12), (7, 5)]) (by decide) [⟨_, d, 19⟩, ⟨_, a, 12⟩, ⟨_, b, 5⟩] h rfl
theorem Encode.vxor (d : BitVec 7) (a : BitVec 7) (b : BitVec 7) : Encode.Statement (.vxor d a b) :=
  by intro _ h; exact of_fields (k := 0x20) (base := 0x80000007) (ws := [(7, 19), (7, 12), (7, 5)]) (by decide) [⟨_, d, 19⟩, ⟨_, a, 12⟩, ⟨_, b, 5⟩] h rfl
theorem Encode.vandn (d : BitVec 7) (a : BitVec 7) (b : BitVec 7) : Encode.Statement (.vandn d a b) :=
  by intro _ h; exact of_fields (k := 0x20) (base := 0x80000008) (ws := [(7, 19), (7, 12), (7, 5)]) (by decide) [⟨_, d, 19⟩, ⟨_, a, 12⟩, ⟨_, b, 5⟩] h rfl
theorem Encode.vshl (d : BitVec 7) (a : BitVec 7) (b : BitVec 7) : Encode.Statement (.vshl d a b) :=
  by intro _ h; exact of_fields (k := 0x20) (base := 0x80000009) (ws := [(7, 19), (7, 12), (7, 5)]) (by decide) [⟨_, d, 19⟩, ⟨_, a, 12⟩, ⟨_, b, 5⟩] h rfl
theorem Encode.vshr (d : BitVec 7) (a : BitVec 7) (b : BitVec 7) : Encode.Statement (.vshr d a b) :=
  by intro _ h; exact of_fields (k := 0x20) (base := 0x8000000a) (ws := [(7, 19), (7, 12), (7, 5)]) (by decide) [⟨_, d, 19⟩, ⟨_, a, 12⟩, ⟨_, b, 5⟩] h rfl
theorem Encode.vsra (d : BitVec 7) (a : BitVec 7) (b : BitVec 7) : Encode.Statement (.vsra d a b) :=
  by intro _ h; exact of_fields (k := 0x20) (base := 0x8000000b) (ws := [(7, 19), (7, 12), (7, 5)]) (by decide) [⟨_, d, 19⟩, ⟨_, a, 12⟩, ⟨_, b, 5⟩] h rfl
theorem Encode.vmin (d : BitVec 7) (a : BitVec 7) (b : BitVec 7) : Encode.Statement (.vmin d a b) :=
  by intro _ h; exact of_fields (k := 0x20) (base := 0x8000000c) (ws := [(7, 19), (7, 12), (7, 5)]) (by decide) [⟨_, d, 19⟩, ⟨_, a, 12⟩, ⟨_, b, 5⟩] h rfl
theorem Encode.vmax (d : BitVec 7) (a : BitVec 7) (b : BitVec 7) : Encode.Statement (.vmax d a b) :=
  by intro _ h; exact of_fields (k := 0x20) (base := 0x8000000d) (ws := [(7, 19), (7, 12), (7, 5)]) (by decide) [⟨_, d, 19⟩, ⟨_, a, 12⟩, ⟨_, b, 5⟩] h rfl
theorem Encode.vminu (d : BitVec 7) (a : BitVec 7) (b : BitVec 7) : Encode.Statement (.vminu d a b) :=
  by intro _ h; exact of_fields (k := 0x20) (base := 0x8000000e) (ws := [(7, 19), (7, 12), (7, 5)]) (by decide) [⟨_, d, 19⟩, ⟨_, a, 12⟩, ⟨_, b, 5⟩] h rfl
theorem Encode.vmaxu (d : BitVec 7) (a : BitVec 7) (b : BitVec 7) : Encode.Statement (.vmaxu d a b) :=
  by intro _ h; exact of_fields (k := 0x20) (base := 0x8000000f) (ws := [(7, 19), (7, 12), (7, 5)]) (by decide) [⟨_, d, 19⟩, ⟨_, a, 12⟩, ⟨_, b, 5⟩] h rfl
theorem Encode.vabs (d : BitVec 7) (a : BitVec 7) : Encode.Statement (.vabs d a) :=
  by intro _ h; exact of_fields (k := 0x20) (base := 0x80000010) (ws := [(7, 19), (7, 12)]) (by decide) [⟨_, d, 19⟩, ⟨_, a, 12⟩] h rfl
theorem Encode.vsel (d : BitVec 7) (a : BitVec 7) (b : BitVec 7) : Encode.Statement (.vsel d a b) :=
  by intro _ h; exact of_fields (k := 0x20) (base := 0x80000011) (ws := [(7, 19), (7, 12), (7, 5)]) (by decide) [⟨_, d, 19⟩, ⟨_, a, 12⟩, ⟨_, b, 5⟩] h rfl
theorem Encode.vmov (d : BitVec 7) (a : BitVec 7) : Encode.Statement (.vmov d a) :=
  by intro _ h; exact of_fields (k := 0x20) (base := 0x80000012) (ws := [(7, 19), (7, 12)]) (by decide) [⟨_, d, 19⟩, ⟨_, a, 12⟩] h rfl
theorem Encode.vcmpEq (d : BitVec 7) (a : BitVec 7) (b : BitVec 7) : Encode.Statement (.vcmpEq d a b) :=
  by intro _ h; exact of_fields (k := 0x20) (base := 0x80000014) (ws := [(7, 19), (7, 12), (7, 5)]) (by decide) [⟨_, d, 19⟩, ⟨_, a, 12⟩, ⟨_, b, 5⟩] h rfl
theorem Encode.vcmpNe (d : BitVec 7) (a : BitVec 7) (b : BitVec 7) : Encode.Statement (.vcmpNe d a b) :=
  by intro _ h; exact of_fields (k := 0x20) (base := 0x80000015) (ws := [(7, 19), (7, 12), (7, 5)]) (by decide) [⟨_, d, 19⟩, ⟨_, a, 12⟩, ⟨_, b, 5⟩] h rfl
theorem Encode.vcmpLt (d : BitVec 7) (a : BitVec 7) (b : BitVec 7) : Encode.Statement (.vcmpLt d a b) :=
  by intro _ h; exact of_fields (k := 0x20) (base := 0x80000016) (ws := [(7, 19), (7, 12), (7, 5)]) (by decide) [⟨_, d, 19⟩, ⟨_, a, 12⟩, ⟨_, b, 5⟩] h rfl
theorem Encode.vcmpGe (d : BitVec 7) (a : BitVec 7) (b : BitVec 7) : Encode.Statement (.vcmpGe d a b) :=
  by intro _ h; exact of_fields (k := 0x20) (base := 0x80000017) (ws := [(7, 19), (7, 12), (7, 5)]) (by decide) [⟨_, d, 19⟩, ⟨_, a, 12⟩, ⟨_, b, 5⟩] h rfl
theorem Encode.vcmpLtu (d : BitVec 7) (a : BitVec 7) (b : BitVec 7) : Encode.Statement (.vcmpLtu d a b) :=
  by intro _ h; exact of_fields (k := 0x20) (base := 0x80000018) (ws := [(7, 19), (7, 12), (7, 5)]) (by decide) [⟨_, d, 19⟩, ⟨_, a, 12⟩, ⟨_, b, 5⟩] h rfl
theorem Encode.vcmpGeu (d : BitVec 7) (a : BitVec 7) (b : BitVec 7) : Encode.Statement (.vcmpGeu d a b) :=
  by intro _ h; exact of_fields (k := 0x20) (base := 0x80000019) (ws := [(7, 19), (7, 12), (7, 5)]) (by decide) [⟨_, d, 19⟩, ⟨_, a, 12⟩, ⟨_, b, 5⟩] h rfl
theorem Encode.vaddi (d : BitVec 7) (a : BitVec 7) (i : BitVec 12) : Encode.Statement (.vaddi d a i) :=
  by intro _ h; exact of_fields (k := 0x21) (base := 0x84000000) (ws := [(7, 19), (7, 12), (12, 0)]) (by decide) [⟨_, d, 19⟩, ⟨_, a, 12⟩, ⟨_, i, 0⟩] h rfl
theorem Encode.vshli (d : BitVec 7) (a : BitVec 7) (s : BitVec 5) : Encode.Statement (.vshli d a s) :=
  by intro _ h; exact of_fields (k := 0x22) (base := 0x88000000) (ws := [(7, 19), (7, 12), (5, 0)]) (by decide) [⟨_, d, 19⟩, ⟨_, a, 12⟩, ⟨_, s, 0⟩] h rfl
theorem Encode.vshri (d : BitVec 7) (a : BitVec 7) (s : BitVec 5) : Encode.Statement (.vshri d a s) :=
  by intro _ h; exact of_fields (k := 0x22) (base := 0x88000200) (ws := [(7, 19), (7, 12), (5, 0)]) (by decide) [⟨_, d, 19⟩, ⟨_, a, 12⟩, ⟨_, s, 0⟩] h rfl
theorem Encode.vsrai (d : BitVec 7) (a : BitVec 7) (s : BitVec 5) : Encode.Statement (.vsrai d a s) :=
  by intro _ h; exact of_fields (k := 0x22) (base := 0x88000400) (ws := [(7, 19), (7, 12), (5, 0)]) (by decide) [⟨_, d, 19⟩, ⟨_, a, 12⟩, ⟨_, s, 0⟩] h rfl
theorem Encode.vandi (d : BitVec 7) (a : BitVec 7) (i : BitVec 9) : Encode.Statement (.vandi d a i) :=
  by intro _ h; exact of_fields (k := 0x22) (base := 0x88000600) (ws := [(7, 19), (7, 12), (9, 0)]) (by decide) [⟨_, d, 19⟩, ⟨_, a, 12⟩, ⟨_, i, 0⟩] h rfl
theorem Encode.vori (d : BitVec 7) (a : BitVec 7) (i : BitVec 9) : Encode.Statement (.vori d a i) :=
  by intro _ h; exact of_fields (k := 0x22) (base := 0x88000800) (ws := [(7, 19), (7, 12), (9, 0)]) (by decide) [⟨_, d, 19⟩, ⟨_, a, 12⟩, ⟨_, i, 0⟩] h rfl
theorem Encode.vxori (d : BitVec 7) (a : BitVec 7) (i : BitVec 9) : Encode.Statement (.vxori d a i) :=
  by intro _ h; exact of_fields (k := 0x22) (base := 0x88000a00) (ws := [(7, 19), (7, 12), (9, 0)]) (by decide) [⟨_, d, 19⟩, ⟨_, a, 12⟩, ⟨_, i, 0⟩] h rfl
theorem Encode.vmovi (d : BitVec 7) (i : BitVec 12) : Encode.Statement (.vmovi d i) :=
  by intro _ h; exact of_fields (k := 0x23) (base := 0x8c000000) (ws := [(7, 19), (12, 0)]) (by decide) [⟨_, d, 19⟩, ⟨_, i, 0⟩] h rfl
theorem Encode.vbcst (d : BitVec 7) (c : BitVec 6) : Encode.Statement (.vbcst d c) :=
  by intro _ h; exact of_fields (k := 0x24) (base := 0x90000000) (ws := [(7, 19), (6, 6)]) (by decide) [⟨_, d, 19⟩, ⟨_, c, 6⟩] h rfl
theorem Encode.vshfl (d : BitVec 7) (a : BitVec 7) (c : BitVec 6) : Encode.Statement (.vshfl d a c) :=
  by intro _ h; exact of_fields (k := 0x24) (base := 0x90000001) (ws := [(7, 19), (7, 12), (6, 6)]) (by decide) [⟨_, d, 19⟩, ⟨_, a, 12⟩, ⟨_, c, 6⟩] h rfl
theorem Encode.vrot (d : BitVec 7) (a : BitVec 7) (c : BitVec 6) : Encode.Statement (.vrot d a c) :=
  by intro _ h; exact of_fields (k := 0x24) (base := 0x90000002) (ws := [(7, 19), (7, 12), (6, 6)]) (by decide) [⟨_, d, 19⟩, ⟨_, a, 12⟩, ⟨_, c, 6⟩] h rfl
theorem Encode.vredAdd (a : BitVec 7) (c : BitVec 6) : Encode.Statement (.vredAdd a c) :=
  by intro _ h; exact of_fields (k := 0x24) (base := 0x90000003) (ws := [(7, 12), (6, 6)]) (by decide) [⟨_, a, 12⟩, ⟨_, c, 6⟩] h rfl
theorem Encode.vredMin (a : BitVec 7) (c : BitVec 6) : Encode.Statement (.vredMin a c) :=
  by intro _ h; exact of_fields (k := 0x24) (base := 0x90000004) (ws := [(7, 12), (6, 6)]) (by decide) [⟨_, a, 12⟩, ⟨_, c, 6⟩] h rfl
theorem Encode.vredMax (a : BitVec 7) (c : BitVec 6) : Encode.Statement (.vredMax a c) :=
  by intro _ h; exact of_fields (k := 0x24) (base := 0x90000005) (ws := [(7, 12), (6, 6)]) (by decide) [⟨_, a, 12⟩, ⟨_, c, 6⟩] h rfl
theorem Encode.vredMinu (a : BitVec 7) (c : BitVec 6) : Encode.Statement (.vredMinu a c) :=
  by intro _ h; exact of_fields (k := 0x24) (base := 0x90000006) (ws := [(7, 12), (6, 6)]) (by decide) [⟨_, a, 12⟩, ⟨_, c, 6⟩] h rfl
theorem Encode.vredMaxu (a : BitVec 7) (c : BitVec 6) : Encode.Statement (.vredMaxu a c) :=
  by intro _ h; exact of_fields (k := 0x24) (base := 0x90000007) (ws := [(7, 12), (6, 6)]) (by decide) [⟨_, a, 12⟩, ⟨_, c, 6⟩] h rfl
theorem Encode.vredAnd (a : BitVec 7) (c : BitVec 6) : Encode.Statement (.vredAnd a c) :=
  by intro _ h; exact of_fields (k := 0x24) (base := 0x90000008) (ws := [(7, 12), (6, 6)]) (by decide) [⟨_, a, 12⟩, ⟨_, c, 6⟩] h rfl
theorem Encode.vredOr (a : BitVec 7) (c : BitVec 6) : Encode.Statement (.vredOr a c) :=
  by intro _ h; exact of_fields (k := 0x24) (base := 0x90000009) (ws := [(7, 12), (6, 6)]) (by decide) [⟨_, a, 12⟩, ⟨_, c, 6⟩] h rfl
theorem Encode.vredXor (a : BitVec 7) (c : BitVec 6) : Encode.Statement (.vredXor a c) :=
  by intro _ h; exact of_fields (k := 0x24) (base := 0x9000000a) (ws := [(7, 12), (6, 6)]) (by decide) [⟨_, a, 12⟩, ⟨_, c, 6⟩] h rfl
theorem Encode.vredFadd (a : BitVec 7) (c : BitVec 6) : Encode.Statement (.vredFadd a c) :=
  by intro _ h; exact of_fields (k := 0x24) (base := 0x9000000b) (ws := [(7, 12), (6, 6)]) (by decide) [⟨_, a, 12⟩, ⟨_, c, 6⟩] h rfl
theorem Encode.vredFmin (a : BitVec 7) (c : BitVec 6) : Encode.Statement (.vredFmin a c) :=
  by intro _ h; exact of_fields (k := 0x24) (base := 0x9000000c) (ws := [(7, 12), (6, 6)]) (by decide) [⟨_, a, 12⟩, ⟨_, c, 6⟩] h rfl
theorem Encode.vredFmax (a : BitVec 7) (c : BitVec 6) : Encode.Statement (.vredFmax a c) :=
  by intro _ h; exact of_fields (k := 0x24) (base := 0x9000000d) (ws := [(7, 12), (6, 6)]) (by decide) [⟨_, a, 12⟩, ⟨_, c, 6⟩] h rfl
theorem Encode.vballot (a : BitVec 7) (c : BitVec 6) : Encode.Statement (.vballot a c) :=
  by intro _ h; exact of_fields (k := 0x24) (base := 0x90000010) (ws := [(7, 12), (6, 6)]) (by decide) [⟨_, a, 12⟩, ⟨_, c, 6⟩] h rfl
theorem Encode.vpopc (a : BitVec 7) (c : BitVec 6) : Encode.Statement (.vpopc a c) :=
  by intro _ h; exact of_fields (k := 0x24) (base := 0x90000011) (ws := [(7, 12), (6, 6)]) (by decide) [⟨_, a, 12⟩, ⟨_, c, 6⟩] h rfl
theorem Encode.vfirst (a : BitVec 7) (c : BitVec 6) : Encode.Statement (.vfirst a c) :=
  by intro _ h; exact of_fields (k := 0x24) (base := 0x90000012) (ws := [(7, 12), (6, 6)]) (by decide) [⟨_, a, 12⟩, ⟨_, c, 6⟩] h rfl
theorem Encode.vextr (l : BitVec 5) (a : BitVec 7) (c : BitVec 6) : Encode.Statement (.vextr l a c) :=
  by intro _ h; exact of_fields (k := 0x24) (base := 0x90000013) (ws := [(5, 19), (7, 12), (6, 6)]) (by decide) [⟨_, l, 19⟩, ⟨_, a, 12⟩, ⟨_, c, 6⟩] h rfl
theorem Encode.vins (d : BitVec 7) (l : BitVec 5) (c : BitVec 6) : Encode.Statement (.vins d l c) :=
  by intro _ h; exact of_fields (k := 0x24) (base := 0x90000014) (ws := [(7, 19), (5, 12), (6, 6)]) (by decide) [⟨_, d, 19⟩, ⟨_, l, 12⟩, ⟨_, c, 6⟩] h rfl
theorem Encode.vperm (d : BitVec 7) (a : BitVec 7) (b : BitVec 7) : Encode.Statement (.vperm d a b) :=
  by intro _ h; exact of_fields (k := 0x25) (base := 0x94000000) (ws := [(7, 19), (7, 12), (7, 5)]) (by decide) [⟨_, d, 19⟩, ⟨_, a, 12⟩, ⟨_, b, 5⟩] h rfl
theorem Encode.vscanAdd (d : BitVec 7) (a : BitVec 7) : Encode.Statement (.vscanAdd d a) :=
  by intro _ h; exact of_fields (k := 0x25) (base := 0x94000001) (ws := [(7, 19), (7, 12)]) (by decide) [⟨_, d, 19⟩, ⟨_, a, 12⟩] h rfl
theorem Encode.vscanFadd (d : BitVec 7) (a : BitVec 7) : Encode.Statement (.vscanFadd d a) :=
  by intro _ h; exact of_fields (k := 0x25) (base := 0x94000002) (ws := [(7, 19), (7, 12)]) (by decide) [⟨_, d, 19⟩, ⟨_, a, 12⟩] h rfl
theorem Encode.vscanMin (d : BitVec 7) (a : BitVec 7) : Encode.Statement (.vscanMin d a) :=
  by intro _ h; exact of_fields (k := 0x25) (base := 0x94000003) (ws := [(7, 19), (7, 12)]) (by decide) [⟨_, d, 19⟩, ⟨_, a, 12⟩] h rfl
theorem Encode.vscanMax (d : BitVec 7) (a : BitVec 7) : Encode.Statement (.vscanMax d a) :=
  by intro _ h; exact of_fields (k := 0x25) (base := 0x94000004) (ws := [(7, 19), (7, 12)]) (by decide) [⟨_, d, 19⟩, ⟨_, a, 12⟩] h rfl
theorem Encode.vlane (d : BitVec 7) : Encode.Statement (.vlane d) :=
  by intro _ h; exact of_fields (k := 0x25) (base := 0x94000005) (ws := [(7, 19)]) (by decide) [⟨_, d, 19⟩] h rfl
theorem Encode.vfadd (d : BitVec 7) (a : BitVec 7) (b : BitVec 7) : Encode.Statement (.vfadd d a b) :=
  by intro _ h; exact of_fields (k := 0x26) (base := 0x98000000) (ws := [(7, 19), (7, 12), (7, 5)]) (by decide) [⟨_, d, 19⟩, ⟨_, a, 12⟩, ⟨_, b, 5⟩] h rfl
theorem Encode.vfsub (d : BitVec 7) (a : BitVec 7) (b : BitVec 7) : Encode.Statement (.vfsub d a b) :=
  by intro _ h; exact of_fields (k := 0x26) (base := 0x98000001) (ws := [(7, 19), (7, 12), (7, 5)]) (by decide) [⟨_, d, 19⟩, ⟨_, a, 12⟩, ⟨_, b, 5⟩] h rfl
theorem Encode.vfmul (d : BitVec 7) (a : BitVec 7) (b : BitVec 7) : Encode.Statement (.vfmul d a b) :=
  by intro _ h; exact of_fields (k := 0x26) (base := 0x98000002) (ws := [(7, 19), (7, 12), (7, 5)]) (by decide) [⟨_, d, 19⟩, ⟨_, a, 12⟩, ⟨_, b, 5⟩] h rfl
theorem Encode.vfma (d : BitVec 7) (a : BitVec 7) (b : BitVec 7) : Encode.Statement (.vfma d a b) :=
  by intro _ h; exact of_fields (k := 0x26) (base := 0x98000003) (ws := [(7, 19), (7, 12), (7, 5)]) (by decide) [⟨_, d, 19⟩, ⟨_, a, 12⟩, ⟨_, b, 5⟩] h rfl
theorem Encode.vfmin (d : BitVec 7) (a : BitVec 7) (b : BitVec 7) : Encode.Statement (.vfmin d a b) :=
  by intro _ h; exact of_fields (k := 0x26) (base := 0x98000004) (ws := [(7, 19), (7, 12), (7, 5)]) (by decide) [⟨_, d, 19⟩, ⟨_, a, 12⟩, ⟨_, b, 5⟩] h rfl
theorem Encode.vfmax (d : BitVec 7) (a : BitVec 7) (b : BitVec 7) : Encode.Statement (.vfmax d a b) :=
  by intro _ h; exact of_fields (k := 0x26) (base := 0x98000005) (ws := [(7, 19), (7, 12), (7, 5)]) (by decide) [⟨_, d, 19⟩, ⟨_, a, 12⟩, ⟨_, b, 5⟩] h rfl
theorem Encode.vfdiv (d : BitVec 7) (a : BitVec 7) (b : BitVec 7) : Encode.Statement (.vfdiv d a b) :=
  by intro _ h; exact of_fields (k := 0x26) (base := 0x98000006) (ws := [(7, 19), (7, 12), (7, 5)]) (by decide) [⟨_, d, 19⟩, ⟨_, a, 12⟩, ⟨_, b, 5⟩] h rfl
theorem Encode.vfsqrt (d : BitVec 7) (a : BitVec 7) : Encode.Statement (.vfsqrt d a) :=
  by intro _ h; exact of_fields (k := 0x26) (base := 0x98000007) (ws := [(7, 19), (7, 12)]) (by decide) [⟨_, d, 19⟩, ⟨_, a, 12⟩] h rfl
theorem Encode.vrcp (d : BitVec 7) (a : BitVec 7) : Encode.Statement (.vrcp d a) :=
  by intro _ h; exact of_fields (k := 0x26) (base := 0x98000008) (ws := [(7, 19), (7, 12)]) (by decide) [⟨_, d, 19⟩, ⟨_, a, 12⟩] h rfl
theorem Encode.vrsq (d : BitVec 7) (a : BitVec 7) : Encode.Statement (.vrsq d a) :=
  by intro _ h; exact of_fields (k := 0x26) (base := 0x98000009) (ws := [(7, 19), (7, 12)]) (by decide) [⟨_, d, 19⟩, ⟨_, a, 12⟩] h rfl
theorem Encode.vexp2 (d : BitVec 7) (a : BitVec 7) : Encode.Statement (.vexp2 d a) :=
  by intro _ h; exact of_fields (k := 0x26) (base := 0x9800000a) (ws := [(7, 19), (7, 12)]) (by decide) [⟨_, d, 19⟩, ⟨_, a, 12⟩] h rfl
theorem Encode.vlog2 (d : BitVec 7) (a : BitVec 7) : Encode.Statement (.vlog2 d a) :=
  by intro _ h; exact of_fields (k := 0x26) (base := 0x9800000b) (ws := [(7, 19), (7, 12)]) (by decide) [⟨_, d, 19⟩, ⟨_, a, 12⟩] h rfl
theorem Encode.vsin (d : BitVec 7) (a : BitVec 7) : Encode.Statement (.vsin d a) :=
  by intro _ h; exact of_fields (k := 0x26) (base := 0x9800000c) (ws := [(7, 19), (7, 12)]) (by decide) [⟨_, d, 19⟩, ⟨_, a, 12⟩] h rfl
theorem Encode.vcos (d : BitVec 7) (a : BitVec 7) : Encode.Statement (.vcos d a) :=
  by intro _ h; exact of_fields (k := 0x26) (base := 0x9800000d) (ws := [(7, 19), (7, 12)]) (by decide) [⟨_, d, 19⟩, ⟨_, a, 12⟩] h rfl
theorem Encode.vfclass (d : BitVec 7) (a : BitVec 7) : Encode.Statement (.vfclass d a) :=
  by intro _ h; exact of_fields (k := 0x26) (base := 0x9800000e) (ws := [(7, 19), (7, 12)]) (by decide) [⟨_, d, 19⟩, ⟨_, a, 12⟩] h rfl
theorem Encode.vfcmpEq (d : BitVec 7) (a : BitVec 7) (b : BitVec 7) : Encode.Statement (.vfcmpEq d a b) :=
  by intro _ h; exact of_fields (k := 0x26) (base := 0x98000010) (ws := [(7, 19), (7, 12), (7, 5)]) (by decide) [⟨_, d, 19⟩, ⟨_, a, 12⟩, ⟨_, b, 5⟩] h rfl
theorem Encode.vfcmpNe (d : BitVec 7) (a : BitVec 7) (b : BitVec 7) : Encode.Statement (.vfcmpNe d a b) :=
  by intro _ h; exact of_fields (k := 0x26) (base := 0x98000011) (ws := [(7, 19), (7, 12), (7, 5)]) (by decide) [⟨_, d, 19⟩, ⟨_, a, 12⟩, ⟨_, b, 5⟩] h rfl
theorem Encode.vfcmpLt (d : BitVec 7) (a : BitVec 7) (b : BitVec 7) : Encode.Statement (.vfcmpLt d a b) :=
  by intro _ h; exact of_fields (k := 0x26) (base := 0x98000012) (ws := [(7, 19), (7, 12), (7, 5)]) (by decide) [⟨_, d, 19⟩, ⟨_, a, 12⟩, ⟨_, b, 5⟩] h rfl
theorem Encode.vfcmpLe (d : BitVec 7) (a : BitVec 7) (b : BitVec 7) : Encode.Statement (.vfcmpLe d a b) :=
  by intro _ h; exact of_fields (k := 0x26) (base := 0x98000013) (ws := [(7, 19), (7, 12), (7, 5)]) (by decide) [⟨_, d, 19⟩, ⟨_, a, 12⟩, ⟨_, b, 5⟩] h rfl
theorem Encode.vfcmpGt (d : BitVec 7) (a : BitVec 7) (b : BitVec 7) : Encode.Statement (.vfcmpGt d a b) :=
  by intro _ h; exact of_fields (k := 0x26) (base := 0x98000014) (ws := [(7, 19), (7, 12), (7, 5)]) (by decide) [⟨_, d, 19⟩, ⟨_, a, 12⟩, ⟨_, b, 5⟩] h rfl
theorem Encode.vfcmpGe (d : BitVec 7) (a : BitVec 7) (b : BitVec 7) : Encode.Statement (.vfcmpGe d a b) :=
  by intro _ h; exact of_fields (k := 0x26) (base := 0x98000015) (ws := [(7, 19), (7, 12), (7, 5)]) (by decide) [⟨_, d, 19⟩, ⟨_, a, 12⟩, ⟨_, b, 5⟩] h rfl
theorem Encode.vfcmpUn (d : BitVec 7) (a : BitVec 7) (b : BitVec 7) : Encode.Statement (.vfcmpUn d a b) :=
  by intro _ h; exact of_fields (k := 0x26) (base := 0x98000016) (ws := [(7, 19), (7, 12), (7, 5)]) (by decide) [⟨_, d, 19⟩, ⟨_, a, 12⟩, ⟨_, b, 5⟩] h rfl
theorem Encode.vfcvt (d : BitVec 7) (a : BitVec 7) (s : BitVec 1) (r : BitVec 3) (c : BitVec 5) : Encode.Statement (.vfcvt d a s r c) :=
  by intro _ h; exact of_fields (k := 0x27) (base := 0x9c000000) (ws := [(7, 19), (7, 12), (1, 8), (3, 5), (5, 0)]) (by decide) [⟨_, d, 19⟩, ⟨_, a, 12⟩, ⟨_, s, 8⟩, ⟨_, r, 5⟩, ⟨_, c, 0⟩] h rfl
theorem Encode.vbadd2 (d : BitVec 7) (a : BitVec 7) (b : BitVec 7) : Encode.Statement (.vbadd2 d a b) :=
  by intro _ h; exact of_fields (k := 0x28) (base := 0xa0000000) (ws := [(7, 19), (7, 12), (7, 5)]) (by decide) [⟨_, d, 19⟩, ⟨_, a, 12⟩, ⟨_, b, 5⟩] h rfl
theorem Encode.vbmul2 (d : BitVec 7) (a : BitVec 7) (b : BitVec 7) : Encode.Statement (.vbmul2 d a b) :=
  by intro _ h; exact of_fields (k := 0x28) (base := 0xa0000001) (ws := [(7, 19), (7, 12), (7, 5)]) (by decide) [⟨_, d, 19⟩, ⟨_, a, 12⟩, ⟨_, b, 5⟩] h rfl
theorem Encode.vbfma2 (d : BitVec 7) (a : BitVec 7) (b : BitVec 7) : Encode.Statement (.vbfma2 d a b) :=
  by intro _ h; exact of_fields (k := 0x28) (base := 0xa0000002) (ws := [(7, 19), (7, 12), (7, 5)]) (by decide) [⟨_, d, 19⟩, ⟨_, a, 12⟩, ⟨_, b, 5⟩] h rfl
theorem Encode.vpk (d : BitVec 7) (a : BitVec 7) (b : BitVec 7) : Encode.Statement (.vpk d a b) :=
  by intro _ h; exact of_fields (k := 0x28) (base := 0xa0000003) (ws := [(7, 19), (7, 12), (7, 5)]) (by decide) [⟨_, d, 19⟩, ⟨_, a, 12⟩, ⟨_, b, 5⟩] h rfl
theorem Encode.vunpkLo (d : BitVec 7) (a : BitVec 7) : Encode.Statement (.vunpkLo d a) :=
  by intro _ h; exact of_fields (k := 0x28) (base := 0xa0000004) (ws := [(7, 19), (7, 12)]) (by decide) [⟨_, d, 19⟩, ⟨_, a, 12⟩] h rfl
theorem Encode.vunpkHi (d : BitVec 7) (a : BitVec 7) : Encode.Statement (.vunpkHi d a) :=
  by intro _ h; exact of_fields (k := 0x28) (base := 0xa0000005) (ws := [(7, 19), (7, 12)]) (by decide) [⟨_, d, 19⟩, ⟨_, a, 12⟩] h rfl
theorem Encode.vdot4I8 (d : BitVec 7) (a : BitVec 7) (b : BitVec 7) : Encode.Statement (.vdot4I8 d a b) :=
  by intro _ h; exact of_fields (k := 0x28) (base := 0xa0000006) (ws := [(7, 19), (7, 12), (7, 5)]) (by decide) [⟨_, d, 19⟩, ⟨_, a, 12⟩, ⟨_, b, 5⟩] h rfl
theorem Encode.vdot4Ui8 (d : BitVec 7) (a : BitVec 7) (b : BitVec 7) : Encode.Statement (.vdot4Ui8 d a b) :=
  by intro _ h; exact of_fields (k := 0x28) (base := 0xa0000007) (ws := [(7, 19), (7, 12), (7, 5)]) (by decide) [⟨_, d, 19⟩, ⟨_, a, 12⟩, ⟨_, b, 5⟩] h rfl
theorem Encode.vdotb (d : BitVec 7) (a : BitVec 7) (b : BitVec 7) : Encode.Statement (.vdotb d a b) :=
  by intro _ h; exact of_fields (k := 0x28) (base := 0xa0000008) (ws := [(7, 19), (7, 12), (7, 5)]) (by decide) [⟨_, d, 19⟩, ⟨_, a, 12⟩, ⟨_, b, 5⟩] h rfl
theorem Encode.vif (a : BitVec 7) : Encode.Statement (.vif a) :=
  by intro _ h; exact of_fields (k := 0x2c) (base := 0xb0000000) (ws := [(7, 12)]) (by decide) [⟨_, a, 12⟩] h rfl
theorem Encode.velse : Encode.Statement (.velse) :=
  by intro _ h; exact of_fields (k := 0x2c) (base := 0xb0000001) (ws := []) (by decide) [] h rfl
theorem Encode.vendif : Encode.Statement (.vendif) :=
  by intro _ h; exact of_fields (k := 0x2c) (base := 0xb0000002) (ws := []) (by decide) [] h rfl
theorem Encode.vloop : Encode.Statement (.vloop) :=
  by intro _ h; exact of_fields (k := 0x2c) (base := 0xb0000003) (ws := []) (by decide) [] h rfl
theorem Encode.vbrk (a : BitVec 7) : Encode.Statement (.vbrk a) :=
  by intro _ h; exact of_fields (k := 0x2c) (base := 0xb0000004) (ws := [(7, 12)]) (by decide) [⟨_, a, 12⟩] h rfl
theorem Encode.vcont (a : BitVec 7) : Encode.Statement (.vcont a) :=
  by intro _ h; exact of_fields (k := 0x2c) (base := 0xb0000005) (ws := [(7, 12)]) (by decide) [⟨_, a, 12⟩] h rfl
theorem Encode.vendl (i : BitVec 12) : Encode.Statement (.vendl i) :=
  by intro _ h; exact of_fields (k := 0x2d) (base := 0xb4000000) (ws := [(12, 0)]) (by decide) [⟨_, i, 0⟩] h rfl
theorem Encode.vany (a : BitVec 7) (i : BitVec 12) : Encode.Statement (.vany a i) :=
  by intro _ h; exact of_fields (k := 0x2d) (base := 0xb4080000) (ws := [(7, 12), (12, 0)]) (by decide) [⟨_, a, 12⟩, ⟨_, i, 0⟩] h rfl
theorem Encode.vnone (a : BitVec 7) (i : BitVec 12) : Encode.Statement (.vnone a i) :=
  by intro _ h; exact of_fields (k := 0x2d) (base := 0xb4100000) (ws := [(7, 12), (12, 0)]) (by decide) [⟨_, a, 12⟩, ⟨_, i, 0⟩] h rfl
theorem Encode.rep (l : BitVec 4) (c : BitVec 7) (x : BitVec 1) (y : BitVec 1) (z : BitVec 1) (s : BitVec 6) : Encode.Statement (.rep l c x y z s) :=
  by intro _ h; exact of_fields (k := 0x2e) (base := 0xb8000000) (ws := [(4, 16), (7, 9), (1, 8), (1, 7), (1, 6), (6, 0)]) (by decide) [⟨_, l, 16⟩, ⟨_, c, 9⟩, ⟨_, x, 8⟩, ⟨_, y, 7⟩, ⟨_, z, 6⟩, ⟨_, s, 0⟩] h rfl
theorem Encode.vrebal (d : BitVec 7) (a : BitVec 7) (c : BitVec 6) : Encode.Statement (.vrebal d a c) :=
  by intro _ h; exact of_fields (k := 0x2f) (base := 0xbc000000) (ws := [(7, 19), (7, 12), (6, 6)]) (by decide) [⟨_, d, 19⟩, ⟨_, a, 12⟩, ⟨_, c, 6⟩] h rfl
theorem Encode.vplane (d : BitVec 7) (a : BitVec 7) (c : BitVec 6) : Encode.Statement (.vplane d a c) :=
  by intro _ h; exact of_fields (k := 0x2f) (base := 0xbc000001) (ws := [(7, 19), (7, 12), (6, 6)]) (by decide) [⟨_, d, 19⟩, ⟨_, a, 12⟩, ⟨_, c, 6⟩] h rfl
theorem Encode.vld (d : BitVec 7) (a : BitVec 7) (c : BitVec 6) (s : BitVec 4) (q : BitVec 2) : Encode.Statement (.vld d a c s q) :=
  by intro _ h; exact of_fields (k := 0x30) (base := 0xc0000000) (ws := [(7, 19), (7, 12), (6, 6), (4, 2), (2, 0)]) (by decide) [⟨_, d, 19⟩, ⟨_, a, 12⟩, ⟨_, c, 6⟩, ⟨_, s, 2⟩, ⟨_, q, 0⟩] h rfl
theorem Encode.vst (d : BitVec 7) (a : BitVec 7) (c : BitVec 6) (s : BitVec 4) (q : BitVec 2) : Encode.Statement (.vst d a c s q) :=
  by intro _ h; exact of_fields (k := 0x31) (base := 0xc4000000) (ws := [(7, 19), (7, 12), (6, 6), (4, 2), (2, 0)]) (by decide) [⟨_, d, 19⟩, ⟨_, a, 12⟩, ⟨_, c, 6⟩, ⟨_, s, 2⟩, ⟨_, q, 0⟩] h rfl
theorem Encode.vldmc (d : BitVec 7) (a : BitVec 7) (c : BitVec 6) (s : BitVec 4) (q : BitVec 2) : Encode.Statement (.vldmc d a c s q) :=
  by intro _ h; exact of_fields (k := 0x32) (base := 0xc8000000) (ws := [(7, 19), (7, 12), (6, 6), (4, 2), (2, 0)]) (by decide) [⟨_, d, 19⟩, ⟨_, a, 12⟩, ⟨_, c, 6⟩, ⟨_, s, 2⟩, ⟨_, q, 0⟩] h rfl
theorem Encode.atomAdd (d : BitVec 6) (a : BitVec 6) (b : BitVec 6) (s : BitVec 4) : Encode.Statement (.atomAdd d a b s) :=
  by intro _ h; exact of_fields (k := 0x33) (base := 0xcc000000) (ws := [(6, 20), (6, 14), (6, 8), (4, 4)]) (by decide) [⟨_, d, 20⟩, ⟨_, a, 14⟩, ⟨_, b, 8⟩, ⟨_, s, 4⟩] h rfl
theorem Encode.atomMin (d : BitVec 6) (a : BitVec 6) (b : BitVec 6) (s : BitVec 4) : Encode.Statement (.atomMin d a b s) :=
  by intro _ h; exact of_fields (k := 0x33) (base := 0xcc000001) (ws := [(6, 20), (6, 14), (6, 8), (4, 4)]) (by decide) [⟨_, d, 20⟩, ⟨_, a, 14⟩, ⟨_, b, 8⟩, ⟨_, s, 4⟩] h rfl
theorem Encode.atomMax (d : BitVec 6) (a : BitVec 6) (b : BitVec 6) (s : BitVec 4) : Encode.Statement (.atomMax d a b s) :=
  by intro _ h; exact of_fields (k := 0x33) (base := 0xcc000002) (ws := [(6, 20), (6, 14), (6, 8), (4, 4)]) (by decide) [⟨_, d, 20⟩, ⟨_, a, 14⟩, ⟨_, b, 8⟩, ⟨_, s, 4⟩] h rfl
theorem Encode.atomMinu (d : BitVec 6) (a : BitVec 6) (b : BitVec 6) (s : BitVec 4) : Encode.Statement (.atomMinu d a b s) :=
  by intro _ h; exact of_fields (k := 0x33) (base := 0xcc000003) (ws := [(6, 20), (6, 14), (6, 8), (4, 4)]) (by decide) [⟨_, d, 20⟩, ⟨_, a, 14⟩, ⟨_, b, 8⟩, ⟨_, s, 4⟩] h rfl
theorem Encode.atomMaxu (d : BitVec 6) (a : BitVec 6) (b : BitVec 6) (s : BitVec 4) : Encode.Statement (.atomMaxu d a b s) :=
  by intro _ h; exact of_fields (k := 0x33) (base := 0xcc000004) (ws := [(6, 20), (6, 14), (6, 8), (4, 4)]) (by decide) [⟨_, d, 20⟩, ⟨_, a, 14⟩, ⟨_, b, 8⟩, ⟨_, s, 4⟩] h rfl
theorem Encode.atomAnd (d : BitVec 6) (a : BitVec 6) (b : BitVec 6) (s : BitVec 4) : Encode.Statement (.atomAnd d a b s) :=
  by intro _ h; exact of_fields (k := 0x33) (base := 0xcc000005) (ws := [(6, 20), (6, 14), (6, 8), (4, 4)]) (by decide) [⟨_, d, 20⟩, ⟨_, a, 14⟩, ⟨_, b, 8⟩, ⟨_, s, 4⟩] h rfl
theorem Encode.atomOr (d : BitVec 6) (a : BitVec 6) (b : BitVec 6) (s : BitVec 4) : Encode.Statement (.atomOr d a b s) :=
  by intro _ h; exact of_fields (k := 0x33) (base := 0xcc000006) (ws := [(6, 20), (6, 14), (6, 8), (4, 4)]) (by decide) [⟨_, d, 20⟩, ⟨_, a, 14⟩, ⟨_, b, 8⟩, ⟨_, s, 4⟩] h rfl
theorem Encode.atomXor (d : BitVec 6) (a : BitVec 6) (b : BitVec 6) (s : BitVec 4) : Encode.Statement (.atomXor d a b s) :=
  by intro _ h; exact of_fields (k := 0x33) (base := 0xcc000007) (ws := [(6, 20), (6, 14), (6, 8), (4, 4)]) (by decide) [⟨_, d, 20⟩, ⟨_, a, 14⟩, ⟨_, b, 8⟩, ⟨_, s, 4⟩] h rfl
theorem Encode.atomSwap (d : BitVec 6) (a : BitVec 6) (b : BitVec 6) (s : BitVec 4) : Encode.Statement (.atomSwap d a b s) :=
  by intro _ h; exact of_fields (k := 0x33) (base := 0xcc000008) (ws := [(6, 20), (6, 14), (6, 8), (4, 4)]) (by decide) [⟨_, d, 20⟩, ⟨_, a, 14⟩, ⟨_, b, 8⟩, ⟨_, s, 4⟩] h rfl
theorem Encode.acas (d : BitVec 6) (a : BitVec 6) (b : BitVec 6) (s : BitVec 4) : Encode.Statement (.acas d a b s) :=
  by intro _ h; exact of_fields (k := 0x33) (base := 0xcc00000b) (ws := [(6, 20), (6, 14), (6, 8), (4, 4)]) (by decide) [⟨_, d, 20⟩, ⟨_, a, 14⟩, ⟨_, b, 8⟩, ⟨_, s, 4⟩] h rfl
theorem Encode.atomAddW (d : BitVec 6) (a : BitVec 6) (b : BitVec 6) (s : BitVec 4) : Encode.Statement (.atomAddW d a b s) :=
  by intro _ h; exact of_fields (k := 0x34) (base := 0xd0000000) (ws := [(6, 20), (6, 14), (6, 8), (4, 4)]) (by decide) [⟨_, d, 20⟩, ⟨_, a, 14⟩, ⟨_, b, 8⟩, ⟨_, s, 4⟩] h rfl
theorem Encode.atomMinW (d : BitVec 6) (a : BitVec 6) (b : BitVec 6) (s : BitVec 4) : Encode.Statement (.atomMinW d a b s) :=
  by intro _ h; exact of_fields (k := 0x34) (base := 0xd0000001) (ws := [(6, 20), (6, 14), (6, 8), (4, 4)]) (by decide) [⟨_, d, 20⟩, ⟨_, a, 14⟩, ⟨_, b, 8⟩, ⟨_, s, 4⟩] h rfl
theorem Encode.atomMaxW (d : BitVec 6) (a : BitVec 6) (b : BitVec 6) (s : BitVec 4) : Encode.Statement (.atomMaxW d a b s) :=
  by intro _ h; exact of_fields (k := 0x34) (base := 0xd0000002) (ws := [(6, 20), (6, 14), (6, 8), (4, 4)]) (by decide) [⟨_, d, 20⟩, ⟨_, a, 14⟩, ⟨_, b, 8⟩, ⟨_, s, 4⟩] h rfl
theorem Encode.atomMinuW (d : BitVec 6) (a : BitVec 6) (b : BitVec 6) (s : BitVec 4) : Encode.Statement (.atomMinuW d a b s) :=
  by intro _ h; exact of_fields (k := 0x34) (base := 0xd0000003) (ws := [(6, 20), (6, 14), (6, 8), (4, 4)]) (by decide) [⟨_, d, 20⟩, ⟨_, a, 14⟩, ⟨_, b, 8⟩, ⟨_, s, 4⟩] h rfl
theorem Encode.atomMaxuW (d : BitVec 6) (a : BitVec 6) (b : BitVec 6) (s : BitVec 4) : Encode.Statement (.atomMaxuW d a b s) :=
  by intro _ h; exact of_fields (k := 0x34) (base := 0xd0000004) (ws := [(6, 20), (6, 14), (6, 8), (4, 4)]) (by decide) [⟨_, d, 20⟩, ⟨_, a, 14⟩, ⟨_, b, 8⟩, ⟨_, s, 4⟩] h rfl
theorem Encode.atomAndW (d : BitVec 6) (a : BitVec 6) (b : BitVec 6) (s : BitVec 4) : Encode.Statement (.atomAndW d a b s) :=
  by intro _ h; exact of_fields (k := 0x34) (base := 0xd0000005) (ws := [(6, 20), (6, 14), (6, 8), (4, 4)]) (by decide) [⟨_, d, 20⟩, ⟨_, a, 14⟩, ⟨_, b, 8⟩, ⟨_, s, 4⟩] h rfl
theorem Encode.atomOrW (d : BitVec 6) (a : BitVec 6) (b : BitVec 6) (s : BitVec 4) : Encode.Statement (.atomOrW d a b s) :=
  by intro _ h; exact of_fields (k := 0x34) (base := 0xd0000006) (ws := [(6, 20), (6, 14), (6, 8), (4, 4)]) (by decide) [⟨_, d, 20⟩, ⟨_, a, 14⟩, ⟨_, b, 8⟩, ⟨_, s, 4⟩] h rfl
theorem Encode.atomXorW (d : BitVec 6) (a : BitVec 6) (b : BitVec 6) (s : BitVec 4) : Encode.Statement (.atomXorW d a b s) :=
  by intro _ h; exact of_fields (k := 0x34) (base := 0xd0000007) (ws := [(6, 20), (6, 14), (6, 8), (4, 4)]) (by decide) [⟨_, d, 20⟩, ⟨_, a, 14⟩, ⟨_, b, 8⟩, ⟨_, s, 4⟩] h rfl
theorem Encode.atomSwapW (d : BitVec 6) (a : BitVec 6) (b : BitVec 6) (s : BitVec 4) : Encode.Statement (.atomSwapW d a b s) :=
  by intro _ h; exact of_fields (k := 0x34) (base := 0xd0000008) (ws := [(6, 20), (6, 14), (6, 8), (4, 4)]) (by decide) [⟨_, d, 20⟩, ⟨_, a, 14⟩, ⟨_, b, 8⟩, ⟨_, s, 4⟩] h rfl
theorem Encode.atomFaddW (d : BitVec 6) (a : BitVec 6) (b : BitVec 6) (s : BitVec 4) : Encode.Statement (.atomFaddW d a b s) :=
  by intro _ h; exact of_fields (k := 0x34) (base := 0xd0000009) (ws := [(6, 20), (6, 14), (6, 8), (4, 4)]) (by decide) [⟨_, d, 20⟩, ⟨_, a, 14⟩, ⟨_, b, 8⟩, ⟨_, s, 4⟩] h rfl
theorem Encode.atomBfadd2W (d : BitVec 6) (a : BitVec 6) (b : BitVec 6) (s : BitVec 4) : Encode.Statement (.atomBfadd2W d a b s) :=
  by intro _ h; exact of_fields (k := 0x34) (base := 0xd000000a) (ws := [(6, 20), (6, 14), (6, 8), (4, 4)]) (by decide) [⟨_, d, 20⟩, ⟨_, a, 14⟩, ⟨_, b, 8⟩, ⟨_, s, 4⟩] h rfl
theorem Encode.acasW (d : BitVec 6) (a : BitVec 6) (b : BitVec 6) (s : BitVec 4) : Encode.Statement (.acasW d a b s) :=
  by intro _ h; exact of_fields (k := 0x34) (base := 0xd000000b) (ws := [(6, 20), (6, 14), (6, 8), (4, 4)]) (by decide) [⟨_, d, 20⟩, ⟨_, a, 14⟩, ⟨_, b, 8⟩, ⟨_, s, 4⟩] h rfl
theorem Encode.dqpush (d : BitVec 6) (a : BitVec 6) (b : BitVec 6) (s : BitVec 4) : Encode.Statement (.dqpush d a b s) :=
  by intro _ h; exact of_fields (k := 0x35) (base := 0xd4000000) (ws := [(6, 20), (6, 14), (6, 8), (4, 4)]) (by decide) [⟨_, d, 20⟩, ⟨_, a, 14⟩, ⟨_, b, 8⟩, ⟨_, s, 4⟩] h rfl
theorem Encode.dqpop (d : BitVec 6) (a : BitVec 6) (s : BitVec 4) : Encode.Statement (.dqpop d a s) :=
  by intro _ h; exact of_fields (k := 0x35) (base := 0xd4000001) (ws := [(6, 20), (6, 14), (4, 4)]) (by decide) [⟨_, d, 20⟩, ⟨_, a, 14⟩, ⟨_, s, 4⟩] h rfl
theorem Encode.dqsteal (d : BitVec 6) (a : BitVec 6) (s : BitVec 4) : Encode.Statement (.dqsteal d a s) :=
  by intro _ h; exact of_fields (k := 0x35) (base := 0xd4000002) (ws := [(6, 20), (6, 14), (4, 4)]) (by decide) [⟨_, d, 20⟩, ⟨_, a, 14⟩, ⟨_, s, 4⟩] h rfl
theorem Encode.vatomAdd (d : BitVec 7) (o : BitVec 4) (w : BitVec 1) (a : BitVec 6) (s : BitVec 4) : Encode.Statement (.vatomAdd d o w a s) :=
  by intro _ h; exact of_fields (k := 0x36) (base := 0xd8000000) (ws := [(7, 19), (4, 15), (1, 14), (6, 6), (4, 2)]) (by decide) [⟨_, d, 19⟩, ⟨_, o, 15⟩, ⟨_, w, 14⟩, ⟨_, a, 6⟩, ⟨_, s, 2⟩] h rfl
theorem Encode.vatomMin (d : BitVec 7) (o : BitVec 4) (w : BitVec 1) (a : BitVec 6) (s : BitVec 4) : Encode.Statement (.vatomMin d o w a s) :=
  by intro _ h; exact of_fields (k := 0x36) (base := 0xd8000001) (ws := [(7, 19), (4, 15), (1, 14), (6, 6), (4, 2)]) (by decide) [⟨_, d, 19⟩, ⟨_, o, 15⟩, ⟨_, w, 14⟩, ⟨_, a, 6⟩, ⟨_, s, 2⟩] h rfl
theorem Encode.vatomMax (d : BitVec 7) (o : BitVec 4) (w : BitVec 1) (a : BitVec 6) (s : BitVec 4) : Encode.Statement (.vatomMax d o w a s) :=
  by intro _ h; exact of_fields (k := 0x36) (base := 0xd8000002) (ws := [(7, 19), (4, 15), (1, 14), (6, 6), (4, 2)]) (by decide) [⟨_, d, 19⟩, ⟨_, o, 15⟩, ⟨_, w, 14⟩, ⟨_, a, 6⟩, ⟨_, s, 2⟩] h rfl
theorem Encode.vatomMinu (d : BitVec 7) (o : BitVec 4) (w : BitVec 1) (a : BitVec 6) (s : BitVec 4) : Encode.Statement (.vatomMinu d o w a s) :=
  by intro _ h; exact of_fields (k := 0x36) (base := 0xd8000003) (ws := [(7, 19), (4, 15), (1, 14), (6, 6), (4, 2)]) (by decide) [⟨_, d, 19⟩, ⟨_, o, 15⟩, ⟨_, w, 14⟩, ⟨_, a, 6⟩, ⟨_, s, 2⟩] h rfl
theorem Encode.vatomMaxu (d : BitVec 7) (o : BitVec 4) (w : BitVec 1) (a : BitVec 6) (s : BitVec 4) : Encode.Statement (.vatomMaxu d o w a s) :=
  by intro _ h; exact of_fields (k := 0x36) (base := 0xd8001000) (ws := [(7, 19), (4, 15), (1, 14), (6, 6), (4, 2)]) (by decide) [⟨_, d, 19⟩, ⟨_, o, 15⟩, ⟨_, w, 14⟩, ⟨_, a, 6⟩, ⟨_, s, 2⟩] h rfl
theorem Encode.vatomAnd (d : BitVec 7) (o : BitVec 4) (w : BitVec 1) (a : BitVec 6) (s : BitVec 4) : Encode.Statement (.vatomAnd d o w a s) :=
  by intro _ h; exact of_fields (k := 0x36) (base := 0xd8001001) (ws := [(7, 19), (4, 15), (1, 14), (6, 6), (4, 2)]) (by decide) [⟨_, d, 19⟩, ⟨_, o, 15⟩, ⟨_, w, 14⟩, ⟨_, a, 6⟩, ⟨_, s, 2⟩] h rfl
theorem Encode.vatomOr (d : BitVec 7) (o : BitVec 4) (w : BitVec 1) (a : BitVec 6) (s : BitVec 4) : Encode.Statement (.vatomOr d o w a s) :=
  by intro _ h; exact of_fields (k := 0x36) (base := 0xd8001002) (ws := [(7, 19), (4, 15), (1, 14), (6, 6), (4, 2)]) (by decide) [⟨_, d, 19⟩, ⟨_, o, 15⟩, ⟨_, w, 14⟩, ⟨_, a, 6⟩, ⟨_, s, 2⟩] h rfl
theorem Encode.vatomXor (d : BitVec 7) (o : BitVec 4) (w : BitVec 1) (a : BitVec 6) (s : BitVec 4) : Encode.Statement (.vatomXor d o w a s) :=
  by intro _ h; exact of_fields (k := 0x36) (base := 0xd8001003) (ws := [(7, 19), (4, 15), (1, 14), (6, 6), (4, 2)]) (by decide) [⟨_, d, 19⟩, ⟨_, o, 15⟩, ⟨_, w, 14⟩, ⟨_, a, 6⟩, ⟨_, s, 2⟩] h rfl
theorem Encode.vatomSwap (d : BitVec 7) (o : BitVec 4) (w : BitVec 1) (a : BitVec 6) (s : BitVec 4) : Encode.Statement (.vatomSwap d o w a s) :=
  by intro _ h; exact of_fields (k := 0x36) (base := 0xd8002000) (ws := [(7, 19), (4, 15), (1, 14), (6, 6), (4, 2)]) (by decide) [⟨_, d, 19⟩, ⟨_, o, 15⟩, ⟨_, w, 14⟩, ⟨_, a, 6⟩, ⟨_, s, 2⟩] h rfl
theorem Encode.vatomFadd (d : BitVec 7) (o : BitVec 4) (a : BitVec 6) (s : BitVec 4) : Encode.Statement (.vatomFadd d o a s) :=
  by intro _ h; exact of_fields (k := 0x36) (base := 0xd8002001) (ws := [(7, 19), (4, 15), (6, 6), (4, 2)]) (by decide) [⟨_, d, 19⟩, ⟨_, o, 15⟩, ⟨_, a, 6⟩, ⟨_, s, 2⟩] h rfl
theorem Encode.vatomBfadd2 (d : BitVec 7) (o : BitVec 4) (a : BitVec 6) (s : BitVec 4) : Encode.Statement (.vatomBfadd2 d o a s) :=
  by intro _ h; exact of_fields (k := 0x36) (base := 0xd8002002) (ws := [(7, 19), (4, 15), (6, 6), (4, 2)]) (by decide) [⟨_, d, 19⟩, ⟨_, o, 15⟩, ⟨_, a, 6⟩, ⟨_, s, 2⟩] h rfl
theorem Encode.vacas (d : BitVec 7) (o : BitVec 4) (w : BitVec 1) (a : BitVec 6) (s : BitVec 4) : Encode.Statement (.vacas d o w a s) :=
  by intro _ h; exact of_fields (k := 0x36) (base := 0xd8002003) (ws := [(7, 19), (4, 15), (1, 14), (6, 6), (4, 2)]) (by decide) [⟨_, d, 19⟩, ⟨_, o, 15⟩, ⟨_, w, 14⟩, ⟨_, a, 6⟩, ⟨_, s, 2⟩] h rfl
theorem Encode.binit (d : BitVec 6) (a : BitVec 6) (b : BitVec 6) : Encode.Statement (.binit d a b) :=
  by intro _ h; exact of_fields (k := 0x37) (base := 0xdc000000) (ws := [(6, 20), (6, 14), (6, 8)]) (by decide) [⟨_, d, 20⟩, ⟨_, a, 14⟩, ⟨_, b, 8⟩] h rfl
theorem Encode.barv (a : BitVec 6) : Encode.Statement (.barv a) :=
  by intro _ h; exact of_fields (k := 0x37) (base := 0xdc000001) (ws := [(6, 14)]) (by decide) [⟨_, a, 14⟩] h rfl
theorem Encode.bexp (a : BitVec 6) (b : BitVec 6) : Encode.Statement (.bexp a b) :=
  by intro _ h; exact of_fields (k := 0x37) (base := 0xdc000002) (ws := [(6, 14), (6, 8)]) (by decide) [⟨_, a, 14⟩, ⟨_, b, 8⟩] h rfl
theorem Encode.bwait (d : BitVec 6) (a : BitVec 6) (b : BitVec 6) : Encode.Statement (.bwait d a b) :=
  by intro _ h; exact of_fields (k := 0x37) (base := 0xdc000003) (ws := [(6, 20), (6, 14), (6, 8)]) (by decide) [⟨_, d, 20⟩, ⟨_, a, 14⟩, ⟨_, b, 8⟩] h rfl
theorem Encode.btry (d : BitVec 6) (a : BitVec 6) (b : BitVec 6) : Encode.Statement (.btry d a b) :=
  by intro _ h; exact of_fields (k := 0x37) (base := 0xdc000004) (ws := [(6, 20), (6, 14), (6, 8)]) (by decide) [⟨_, d, 20⟩, ⟨_, a, 14⟩, ⟨_, b, 8⟩] h rfl
theorem Encode.binv (d : BitVec 6) (a : BitVec 6) : Encode.Statement (.binv d a) :=
  by intro _ h; exact of_fields (k := 0x37) (base := 0xdc000005) (ws := [(6, 20), (6, 14)]) (by decide) [⟨_, d, 20⟩, ⟨_, a, 14⟩] h rfl
theorem Encode.fence (d : BitVec 6) (a : BitVec 6) (s : BitVec 3) : Encode.Statement (.fence d a s) :=
  by intro _ h; exact of_fields (k := 0x37) (base := 0xdc000008) (ws := [(6, 20), (6, 14), (3, 5)]) (by decide) [⟨_, d, 20⟩, ⟨_, a, 14⟩, ⟨_, s, 5⟩] h rfl
theorem Encode.rel (a : BitVec 6) (b : BitVec 6) (s : BitVec 3) : Encode.Statement (.rel a b s) :=
  by intro _ h; exact of_fields (k := 0x37) (base := 0xdc000009) (ws := [(6, 14), (6, 8), (3, 5)]) (by decide) [⟨_, a, 14⟩, ⟨_, b, 8⟩, ⟨_, s, 5⟩] h rfl
theorem Encode.acq (d : BitVec 6) (a : BitVec 6) (s : BitVec 3) : Encode.Statement (.acq d a s) :=
  by intro _ h; exact of_fields (k := 0x37) (base := 0xdc00000a) (ws := [(6, 20), (6, 14), (3, 5)]) (by decide) [⟨_, d, 20⟩, ⟨_, a, 14⟩, ⟨_, s, 5⟩] h rfl
theorem Encode.acqp (d : BitVec 6) (a : BitVec 6) (b : BitVec 6) (s : BitVec 3) : Encode.Statement (.acqp d a b s) :=
  by intro _ h; exact of_fields (k := 0x37) (base := 0xdc00000b) (ws := [(6, 20), (6, 14), (6, 8), (3, 5)]) (by decide) [⟨_, d, 20⟩, ⟨_, a, 14⟩, ⟨_, b, 8⟩, ⟨_, s, 5⟩] h rfl
theorem Encode.zfill (a : BitVec 6) (b : BitVec 6) : Encode.Statement (.zfill a b) :=
  by intro _ h; exact of_fields (k := 0x37) (base := 0xdc00000c) (ws := [(6, 14), (6, 8)]) (by decide) [⟨_, a, 14⟩, ⟨_, b, 8⟩] h rfl
theorem Encode.cqpush (n : BitVec 3) (d : BitVec 6) (a : BitVec 6) (b : BitVec 6) : Encode.Statement (.cqpush n d a b) :=
  by intro _ h; exact of_fields (k := 0x38) (base := 0xe0000000) (ws := [(3, 23), (6, 12), (6, 6), (6, 0)]) (by decide) [⟨_, n, 23⟩, ⟨_, d, 12⟩, ⟨_, a, 6⟩, ⟨_, b, 0⟩] h rfl
theorem Encode.cqtry (n : BitVec 3) (d : BitVec 6) (a : BitVec 6) (b : BitVec 6) : Encode.Statement (.cqtry n d a b) :=
  by intro _ h; exact of_fields (k := 0x38) (base := 0xe0040000) (ws := [(3, 23), (6, 12), (6, 6), (6, 0)]) (by decide) [⟨_, n, 23⟩, ⟨_, d, 12⟩, ⟨_, a, 6⟩, ⟨_, b, 0⟩] h rfl
theorem Encode.cset (n : BitVec 3) (d : BitVec 6) (a : BitVec 6) : Encode.Statement (.cset n d a) :=
  by intro _ h; exact of_fields (k := 0x38) (base := 0xe0080000) (ws := [(3, 23), (6, 12), (6, 6)]) (by decide) [⟨_, n, 23⟩, ⟨_, d, 12⟩, ⟨_, a, 6⟩] h rfl
theorem Encode.cgete (n : BitVec 3) (d : BitVec 6) (b : BitVec 6) : Encode.Statement (.cgete n d b) :=
  by intro _ h; exact of_fields (k := 0x38) (base := 0xe00c0000) (ws := [(3, 23), (6, 12), (6, 0)]) (by decide) [⟨_, n, 23⟩, ⟨_, d, 12⟩, ⟨_, b, 0⟩] h rfl
theorem Encode.cbind (n : BitVec 3) (a : BitVec 6) : Encode.Statement (.cbind n a) :=
  by intro _ h; exact of_fields (k := 0x38) (base := 0xe0100000) (ws := [(3, 23), (6, 6)]) (by decide) [⟨_, n, 23⟩, ⟨_, a, 6⟩] h rfl
theorem Encode.ccancel (n : BitVec 3) (d : BitVec 6) : Encode.Statement (.ccancel n d) :=
  by intro _ h; exact of_fields (k := 0x38) (base := 0xe0200000) (ws := [(3, 23), (6, 12)]) (by decide) [⟨_, n, 23⟩, ⟨_, d, 12⟩] h rfl
theorem Encode.cunbind (a : BitVec 6) : Encode.Statement (.cunbind a) :=
  by intro _ h; exact of_fields (k := 0x38) (base := 0xe0140000) (ws := [(6, 6)]) (by decide) [⟨_, a, 6⟩] h rfl
theorem Encode.spop (d : BitVec 6) (a : BitVec 6) : Encode.Statement (.spop d a) :=
  by intro _ h; exact of_fields (k := 0x38) (base := 0xe0180000) (ws := [(6, 12), (6, 6)]) (by decide) [⟨_, d, 12⟩, ⟨_, a, 6⟩] h rfl
theorem Encode.vspop (d : BitVec 6) (a : BitVec 6) : Encode.Statement (.vspop d a) :=
  by intro _ h; exact of_fields (k := 0x38) (base := 0xe01c0000) (ws := [(6, 12), (6, 6)]) (by decide) [⟨_, d, 12⟩, ⟨_, a, 6⟩] h rfl
theorem Encode.evset (a : BitVec 6) (b : BitVec 6) : Encode.Statement (.evset a b) :=
  by intro _ h; exact of_fields (k := 0x38) (base := 0xe0400000) (ws := [(6, 6), (6, 0)]) (by decide) [⟨_, a, 6⟩, ⟨_, b, 0⟩] h rfl
theorem Encode.evclr (a : BitVec 6) (b : BitVec 6) : Encode.Statement (.evclr a b) :=
  by intro _ h; exact of_fields (k := 0x38) (base := 0xe0440000) (ws := [(6, 6), (6, 0)]) (by decide) [⟨_, a, 6⟩, ⟨_, b, 0⟩] h rfl
theorem Encode.evrd (d : BitVec 6) (a : BitVec 6) : Encode.Statement (.evrd d a) :=
  by intro _ h; exact of_fields (k := 0x38) (base := 0xe0480000) (ws := [(6, 12), (6, 6)]) (by decide) [⟨_, d, 12⟩, ⟨_, a, 6⟩] h rfl
theorem Encode.evsig (a : BitVec 6) : Encode.Statement (.evsig a) :=
  by intro _ h; exact of_fields (k := 0x38) (base := 0xe04c0000) (ws := [(6, 6)]) (by decide) [⟨_, a, 6⟩] h rfl
theorem Encode.pset (a : BitVec 6) (b : BitVec 6) : Encode.Statement (.pset a b) :=
  by intro _ h; exact of_fields (k := 0x39) (base := 0xe4000000) (ws := [(6, 6), (6, 0)]) (by decide) [⟨_, a, 6⟩, ⟨_, b, 0⟩] h rfl
theorem Encode.pget (d : BitVec 6) (a : BitVec 6) : Encode.Statement (.pget d a) :=
  by intro _ h; exact of_fields (k := 0x39) (base := 0xe4040000) (ws := [(6, 12), (6, 6)]) (by decide) [⟨_, d, 12⟩, ⟨_, a, 6⟩] h rfl
theorem Encode.pres (d : BitVec 6) (a : BitVec 6) : Encode.Statement (.pres d a) :=
  by intro _ h; exact of_fields (k := 0x39) (base := 0xe4080000) (ws := [(6, 12), (6, 6)]) (by decide) [⟨_, d, 12⟩, ⟨_, a, 6⟩] h rfl
theorem Encode.prel (a : BitVec 6) : Encode.Statement (.prel a) :=
  by intro _ h; exact of_fields (k := 0x39) (base := 0xe40c0000) (ws := [(6, 6)]) (by decide) [⟨_, a, 6⟩] h rfl
theorem Encode.ppass (a : BitVec 6) (b : BitVec 6) : Encode.Statement (.ppass a b) :=
  by intro _ h; exact of_fields (k := 0x39) (base := 0xe4100000) (ws := [(6, 6), (6, 0)]) (by decide) [⟨_, a, 6⟩, ⟨_, b, 0⟩] h rfl
theorem Encode.pjoin (a : BitVec 6) (b : BitVec 6) : Encode.Statement (.pjoin a b) :=
  by intro _ h; exact of_fields (k := 0x39) (base := 0xe4140000) (ws := [(6, 6), (6, 0)]) (by decide) [⟨_, a, 6⟩, ⟨_, b, 0⟩] h rfl
theorem Encode.pdrainO (a : BitVec 6) : Encode.Statement (.pdrainO a) :=
  by intro _ h; exact of_fields (k := 0x39) (base := 0xe4180000) (ws := [(6, 6)]) (by decide) [⟨_, a, 6⟩] h rfl
theorem Encode.pdrainU (a : BitVec 6) : Encode.Statement (.pdrainU a) :=
  by intro _ h; exact of_fields (k := 0x39) (base := 0xe41c0000) (ws := [(6, 6)]) (by decide) [⟨_, a, 6⟩] h rfl
theorem Encode.pclr (a : BitVec 6) : Encode.Statement (.pclr a) :=
  by intro _ h; exact of_fields (k := 0x39) (base := 0xe4200000) (ws := [(6, 6)]) (by decide) [⟨_, a, 6⟩] h rfl
theorem Encode.mstart (d : BitVec 6) (a : BitVec 6) (b : BitVec 6) : Encode.Statement (.mstart d a b) :=
  by intro _ h; exact of_fields (k := 0x39) (base := 0xe4800000) (ws := [(6, 12), (6, 6), (6, 0)]) (by decide) [⟨_, d, 12⟩, ⟨_, a, 6⟩, ⟨_, b, 0⟩] h rfl
theorem Encode.mstop (d : BitVec 6) (a : BitVec 6) : Encode.Statement (.mstop d a) :=
  by intro _ h; exact of_fields (k := 0x39) (base := 0xe4840000) (ws := [(6, 12), (6, 6)]) (by decide) [⟨_, d, 12⟩, ⟨_, a, 6⟩] h rfl
theorem Encode.hgath (d : BitVec 6) (a : BitVec 6) : Encode.Statement (.hgath d a) :=
  by intro _ h; exact of_fields (k := 0x39) (base := 0xe5000000) (ws := [(6, 12), (6, 6)]) (by decide) [⟨_, d, 12⟩, ⟨_, a, 6⟩] h rfl
theorem Encode.hcsr (d : BitVec 6) (a : BitVec 6) : Encode.Statement (.hcsr d a) :=
  by intro _ h; exact of_fields (k := 0x39) (base := 0xe5040000) (ws := [(6, 12), (6, 6)]) (by decide) [⟨_, d, 12⟩, ⟨_, a, 6⟩] h rfl
theorem Encode.hscat (d : BitVec 6) (a : BitVec 6) : Encode.Statement (.hscat d a) :=
  by intro _ h; exact of_fields (k := 0x39) (base := 0xe5080000) (ws := [(6, 12), (6, 6)]) (by decide) [⟨_, d, 12⟩, ⟨_, a, 6⟩] h rfl
theorem Encode.rrecv (d : BitVec 6) (a : BitVec 6) (b : BitVec 6) : Encode.Statement (.rrecv d a b) :=
  by intro _ h; exact of_fields (k := 0x3a) (base := 0xe8000000) (ws := [(6, 12), (6, 6), (6, 0)]) (by decide) [⟨_, d, 12⟩, ⟨_, a, 6⟩, ⟨_, b, 0⟩] h rfl
theorem Encode.rsend (d : BitVec 6) (a : BitVec 6) (b : BitVec 6) : Encode.Statement (.rsend d a b) :=
  by intro _ h; exact of_fields (k := 0x3a) (base := 0xe8040000) (ws := [(6, 12), (6, 6), (6, 0)]) (by decide) [⟨_, d, 12⟩, ⟨_, a, 6⟩, ⟨_, b, 0⟩] h rfl
theorem Encode.rhit (d : BitVec 6) (a : BitVec 6) : Encode.Statement (.rhit d a) :=
  by intro _ h; exact of_fields (k := 0x3a) (base := 0xe8080000) (ws := [(6, 12), (6, 6)]) (by decide) [⟨_, d, 12⟩, ⟨_, a, 6⟩] h rfl
theorem Encode.rbox4 (d : BitVec 6) (a : BitVec 6) (b : BitVec 6) : Encode.Statement (.rbox4 d a b) :=
  by intro _ h; exact of_fields (k := 0x3a) (base := 0xe80c0000) (ws := [(6, 12), (6, 6), (6, 0)]) (by decide) [⟨_, d, 12⟩, ⟨_, a, 6⟩, ⟨_, b, 0⟩] h rfl
theorem Encode.rtri (d : BitVec 6) (a : BitVec 6) (b : BitVec 6) : Encode.Statement (.rtri d a b) :=
  by intro _ h; exact of_fields (k := 0x3a) (base := 0xe8100000) (ws := [(6, 12), (6, 6), (6, 0)]) (by decide) [⟨_, d, 12⟩, ⟨_, a, 6⟩, ⟨_, b, 0⟩] h rfl
theorem Encode.rroute (d : BitVec 6) (a : BitVec 6) (b : BitVec 6) : Encode.Statement (.rroute d a b) :=
  by intro _ h; exact of_fields (k := 0x3a) (base := 0xe8140000) (ws := [(6, 12), (6, 6), (6, 0)]) (by decide) [⟨_, d, 12⟩, ⟨_, a, 6⟩, ⟨_, b, 0⟩] h rfl
theorem Encode.tlreq (d : BitVec 6) (a : BitVec 6) (b : BitVec 6) : Encode.Statement (.tlreq d a b) :=
  by intro _ h; exact of_fields (k := 0x3a) (base := 0xe8180000) (ws := [(6, 12), (6, 6), (6, 0)]) (by decide) [⟨_, d, 12⟩, ⟨_, a, 6⟩, ⟨_, b, 0⟩] h rfl
theorem Encode.tlevict (d : BitVec 6) (a : BitVec 6) : Encode.Statement (.tlevict d a) :=
  by intro _ h; exact of_fields (k := 0x3a) (base := 0xe81c0000) (ws := [(6, 12), (6, 6)]) (by decide) [⟨_, d, 12⟩, ⟨_, a, 6⟩] h rfl
theorem Encode.hqbind (d : BitVec 6) (a : BitVec 6) (b : BitVec 6) : Encode.Statement (.hqbind d a b) :=
  by intro _ h; exact of_fields (k := 0x3a) (base := 0xe8200000) (ws := [(6, 12), (6, 6), (6, 0)]) (by decide) [⟨_, d, 12⟩, ⟨_, a, 6⟩, ⟨_, b, 0⟩] h rfl
theorem Encode.dbar (d : BitVec 6) (a : BitVec 6) (b : BitVec 6) : Encode.Statement (.dbar d a b) :=
  by intro _ h; exact of_fields (k := 0x3b) (base := 0xec000000) (ws := [(6, 12), (6, 6), (6, 0)]) (by decide) [⟨_, d, 12⟩, ⟨_, a, 6⟩, ⟨_, b, 0⟩] h rfl
theorem Encode.xph (d : BitVec 6) (a : BitVec 6) (b : BitVec 6) : Encode.Statement (.xph d a b) :=
  by intro _ h; exact of_fields (k := 0x3b) (base := 0xec040000) (ws := [(6, 12), (6, 6), (6, 0)]) (by decide) [⟨_, d, 12⟩, ⟨_, a, 6⟩, ⟨_, b, 0⟩] h rfl
theorem Encode.xmit (d : BitVec 6) (a : BitVec 6) (b : BitVec 6) : Encode.Statement (.xmit d a b) :=
  by intro _ h; exact of_fields (k := 0x3b) (base := 0xec080000) (ws := [(6, 12), (6, 6), (6, 0)]) (by decide) [⟨_, d, 12⟩, ⟨_, a, 6⟩, ⟨_, b, 0⟩] h rfl
theorem Encode.xsel (d : BitVec 6) (a : BitVec 6) : Encode.Statement (.xsel d a) :=
  by intro _ h; exact of_fields (k := 0x3b) (base := 0xec0c0000) (ws := [(6, 12), (6, 6)]) (by decide) [⟨_, d, 12⟩, ⟨_, a, 6⟩] h rfl
theorem Encode.xrecv (d : BitVec 6) (a : BitVec 6) (b : BitVec 6) : Encode.Statement (.xrecv d a b) :=
  by intro _ h; exact of_fields (k := 0x3b) (base := 0xec100000) (ws := [(6, 12), (6, 6), (6, 0)]) (by decide) [⟨_, d, 12⟩, ⟨_, a, 6⟩, ⟨_, b, 0⟩] h rfl
theorem Encode.xend (d : BitVec 6) (a : BitVec 6) : Encode.Statement (.xend d a) :=
  by intro _ h; exact of_fields (k := 0x3b) (base := 0xec140000) (ws := [(6, 12), (6, 6)]) (by decide) [⟨_, d, 12⟩, ⟨_, a, 6⟩] h rfl
theorem Encode.xslots (d : BitVec 6) (a : BitVec 6) (b : BitVec 6) : Encode.Statement (.xslots d a b) :=
  by intro _ h; exact of_fields (k := 0x3b) (base := 0xec180000) (ws := [(6, 12), (6, 6), (6, 0)]) (by decide) [⟨_, d, 12⟩, ⟨_, a, 6⟩, ⟨_, b, 0⟩] h rfl
theorem Encode.nop : Encode.Statement (.nop) :=
  by intro _ h; exact of_fields (k := 0x3d) (base := 0xf4000000) (ws := []) (by decide) [] h rfl
theorem Encode.gets (d : BitVec 6) (n : BitVec 12) : Encode.Statement (.gets d n) :=
  by intro _ h; exact of_fields (k := 0x3d) (base := 0xf4100000) (ws := [(6, 14), (12, 0)]) (by decide) [⟨_, d, 14⟩, ⟨_, n, 0⟩] h rfl
theorem Encode.sets (a : BitVec 6) (n : BitVec 12) : Encode.Statement (.sets a n) :=
  by intro _ h; exact of_fields (k := 0x3d) (base := 0xf4200000) (ws := [(6, 14), (12, 0)]) (by decide) [⟨_, a, 14⟩, ⟨_, n, 0⟩] h rfl
theorem Encode.cwait (l : BitVec 5) (s : BitVec 5) (c : BitVec 5) (p : BitVec 5) : Encode.Statement (.cwait l s c p) :=
  by intro _ h; exact of_fields (k := 0x3d) (base := 0xf4300000) (ws := [(5, 15), (5, 10), (5, 5), (5, 0)]) (by decide) [⟨_, l, 15⟩, ⟨_, s, 10⟩, ⟨_, c, 5⟩, ⟨_, p, 0⟩] h rfl
theorem Encode.yield : Encode.Statement (.yield) :=
  by intro _ h; exact of_fields (k := 0x3d) (base := 0xf4400000) (ws := []) (by decide) [] h rfl
theorem Encode.trap (c : BitVec 20) : Encode.Statement (.trap c) :=
  by intro _ h; exact of_fields (k := 0x3d) (base := 0xf4500000) (ws := [(20, 0)]) (by decide) [⟨_, c, 0⟩] h rfl
theorem Encode.bkpt (c : BitVec 20) : Encode.Statement (.bkpt c) :=
  by intro _ h; exact of_fields (k := 0x3d) (base := 0xf4600000) (ws := [(20, 0)]) (by decide) [⟨_, c, 0⟩] h rfl
theorem Encode.exit : Encode.Statement (.exit) :=
  by intro _ h; exact of_fields (k := 0x3d) (base := 0xf4700000) (ws := []) (by decide) [] h rfl
theorem Encode.invl1 : Encode.Statement (.invl1) :=
  by intro _ h; exact of_fields (k := 0x3d) (base := 0xf4800000) (ws := []) (by decide) [] h rfl
theorem Encode.invi : Encode.Statement (.invi) :=
  by intro _ h; exact of_fields (k := 0x3d) (base := 0xf4900000) (ws := []) (by decide) [] h rfl
theorem Encode.launch (d : BitVec 6) (a : BitVec 6) : Encode.Statement (.launch d a) :=
  by intro _ h; exact of_fields (k := 0x3d) (base := 0xf5000000) (ws := [(6, 14), (6, 8)]) (by decide) [⟨_, d, 14⟩, ⟨_, a, 8⟩] h rfl
theorem Encode.grow (d : BitVec 6) (a : BitVec 6) (b : BitVec 6) : Encode.Statement (.grow d a b) :=
  by intro _ h; exact of_fields (k := 0x3d) (base := 0xf5100000) (ws := [(6, 14), (6, 8), (6, 2)]) (by decide) [⟨_, d, 14⟩, ⟨_, a, 8⟩, ⟨_, b, 2⟩] h rfl
theorem Encode.emit (d : BitVec 6) (a : BitVec 6) (b : BitVec 6) : Encode.Statement (.emit d a b) :=
  by intro _ h; exact of_fields (k := 0x3d) (base := 0xf5200000) (ws := [(6, 14), (6, 8), (6, 2)]) (by decide) [⟨_, d, 14⟩, ⟨_, a, 8⟩, ⟨_, b, 2⟩] h rfl
theorem Encode.mbxpop (d : BitVec 6) : Encode.Statement (.mbxpop d) :=
  by intro _ h; exact of_fields (k := 0x3e) (base := 0xf8000000) (ws := [(6, 14)]) (by decide) [⟨_, d, 14⟩] h rfl
theorem Encode.wresume (a : BitVec 6) : Encode.Statement (.wresume a) :=
  by intro _ h; exact of_fields (k := 0x3e) (base := 0xf8100000) (ws := [(6, 14)]) (by decide) [⟨_, a, 14⟩] h rfl
theorem Encode.wkill (a : BitVec 6) : Encode.Statement (.wkill a) :=
  by intro _ h; exact of_fields (k := 0x3e) (base := 0xf8200000) (ws := [(6, 14)]) (by decide) [⟨_, a, 14⟩] h rfl
theorem Encode.gkill (a : BitVec 6) : Encode.Statement (.gkill a) :=
  by intro _ h; exact of_fields (k := 0x3e) (base := 0xf8300000) (ws := [(6, 14)]) (by decide) [⟨_, a, 14⟩] h rfl
theorem Encode.gpreempt (d : BitVec 6) (a : BitVec 6) : Encode.Statement (.gpreempt d a) :=
  by intro _ h; exact of_fields (k := 0x3e) (base := 0xf8400000) (ws := [(6, 14), (6, 8)]) (by decide) [⟨_, d, 14⟩, ⟨_, a, 8⟩] h rfl
theorem Encode.dbghalt (a : BitVec 6) : Encode.Statement (.dbghalt a) :=
  by intro _ h; exact of_fields (k := 0x3e) (base := 0xf8500000) (ws := [(6, 14)]) (by decide) [⟨_, a, 14⟩] h rfl
theorem Encode.dbgrun (a : BitVec 6) : Encode.Statement (.dbgrun a) :=
  by intro _ h; exact of_fields (k := 0x3e) (base := 0xf8600000) (ws := [(6, 14)]) (by decide) [⟨_, a, 14⟩] h rfl
theorem Encode.sgbIdleDrain (core : Nat) (n : Nat) : Encode.Statement (.sgbIdleDrain core n) := nofun
theorem Encode.sgbDrainAck (core : Nat) (n : Nat) (err : Nat) : Encode.Statement (.sgbDrainAck core n err) := nofun
theorem Encode.mreqRead (n : Nat) : Encode.Statement (.mreqRead n) := nofun
theorem Encode.mreqWrite (n : Nat) (err : Nat) : Encode.Statement (.mreqWrite n err) := nofun
theorem Encode.mreqAtomic (n : Nat) (err : Nat) : Encode.Statement (.mreqAtomic n err) := nofun
theorem Encode.scratchRequest (n : Nat) : Encode.Statement (.scratchRequest n) := nofun
theorem Encode.loadReply (n : Nat) (fill : Bool) (ecc : Bool) : Encode.Statement (.loadReply n fill ecc) := nofun
theorem Encode.storeAck (n : Nat) : Encode.Statement (.storeAck n) := nofun
theorem Encode.pageWalkDone (die : Nat) (asid : Nat) (ea : Nat) : Encode.Statement (.pageWalkDone die asid ea) := nofun
theorem Encode.multicastSend (n : Nat) : Encode.Statement (.multicastSend n) := nofun
theorem Encode.leaseWaitDone (wave : Nat) : Encode.Statement (.leaseWaitDone wave) := nofun
theorem Encode.promote (n : Nat) : Encode.Statement (.promote n) := nofun
theorem Encode.promotionDone (core : Nat) : Encode.Statement (.promotionDone core) := nofun
theorem Encode.promoteReply (n : Nat) : Encode.Statement (.promoteReply n) := nofun
theorem Encode.barrierArrival (n : Nat) : Encode.Statement (.barrierArrival n) := nofun
theorem Encode.barrierCredit (n : Nat) : Encode.Statement (.barrierCredit n) := nofun
theorem Encode.barrierWake (n : Nat) : Encode.Statement (.barrierWake n) := nofun
theorem Encode.workRequest (core : Nat) : Encode.Statement (.workRequest core) := nofun
theorem Encode.localSlotFill (core : Nat) : Encode.Statement (.localSlotFill core) := nofun
theorem Encode.masterTaskRequest (die : Nat) : Encode.Statement (.masterTaskRequest die) := nofun
theorem Encode.deferredRangeJoin (grid : Nat) : Encode.Statement (.deferredRangeJoin grid) := nofun
theorem Encode.groupRunnable (core : Nat) (slot : Nat) : Encode.Statement (.groupRunnable core slot) := nofun
theorem Encode.prefetchTimeout (core : Nat) (slot : Nat) : Encode.Statement (.prefetchTimeout core slot) := nofun
theorem Encode.windowRotate (core : Nat) : Encode.Statement (.windowRotate core) := nofun
theorem Encode.distributorReply (n : Nat) : Encode.Statement (.distributorReply n) := nofun
theorem Encode.scratchRelease (group : Nat) : Encode.Statement (.scratchRelease group) := nofun
theorem Encode.gridRetire (grid : Nat) : Encode.Statement (.gridRetire grid) := nofun
theorem Encode.batchTimeout (grid : Nat) : Encode.Statement (.batchTimeout grid) := nofun
theorem Encode.hitRecordArrive (n : Nat) : Encode.Statement (.hitRecordArrive n) := nofun
theorem Encode.hqtTimeout (core : Nat) : Encode.Statement (.hqtTimeout core) := nofun
theorem Encode.shadingWaveLaunch (core : Nat) : Encode.Statement (.shadingWaveLaunch core) := nofun
theorem Encode.ladleRequestStart (core : Nat) (ch : Nat) : Encode.Statement (.ladleRequestStart core ch) := nofun
theorem Encode.ladleWriteAck (core : Nat) (ch : Nat) (bytes : Nat) : Encode.Statement (.ladleWriteAck core ch bytes) := nofun
theorem Encode.ladleComplete (core : Nat) (ch : Nat) : Encode.Statement (.ladleComplete core ch) := nofun
theorem Encode.ladleAbort (core : Nat) (ch : Nat) (code : Nat) (info : Nat) : Encode.Statement (.ladleAbort core ch code info) := nofun
theorem Encode.eventArrive (n : Nat) : Encode.Statement (.eventArrive n) := nofun
theorem Encode.pressGrant (vat : Nat) : Encode.Statement (.pressGrant vat) := nofun
theorem Encode.pressOpComplete (vat : Nat) : Encode.Statement (.pressOpComplete vat) := nofun
theorem Encode.contextFree (vat : Nat) (ctx : Nat) : Encode.Statement (.contextFree vat ctx) := nofun
theorem Encode.spillTailReread (vat : Nat) : Encode.Statement (.spillTailReread vat) := nofun
theorem Encode.harpStart (vat : Nat) : Encode.Statement (.harpStart vat) := nofun
theorem Encode.harpComplete (vat : Nat) : Encode.Statement (.harpComplete vat) := nofun
theorem Encode.harpAbort (vat : Nat) (code : Nat) (info : Nat) : Encode.Statement (.harpAbort vat code info) := nofun
theorem Encode.harpShip (vat : Nat) (ok : Bool) : Encode.Statement (.harpShip vat ok) := nofun
theorem Encode.rayArrive (n : Nat) : Encode.Statement (.rayArrive n) := nofun
theorem Encode.rayReinject (core : Nat) : Encode.Statement (.rayReinject core) := nofun
theorem Encode.dirRay (n : Nat) : Encode.Statement (.dirRay n) := nofun
theorem Encode.dirHeatReport (n : Nat) : Encode.Statement (.dirHeatReport n) := nofun
theorem Encode.dirTlreq (n : Nat) : Encode.Statement (.dirTlreq n) := nofun
theorem Encode.dirTlevict (n : Nat) : Encode.Statement (.dirTlevict n) := nofun
theorem Encode.pageInDone (tid : Nat) : Encode.Statement (.pageInDone tid) := nofun
theorem Encode.pageInFail (tid : Nat) : Encode.Statement (.pageInFail tid) := nofun
theorem Encode.replicaCopyDone (tid : Nat) : Encode.Statement (.replicaCopyDone tid) := nofun
theorem Encode.evictConfirm (tid : Nat) : Encode.Statement (.evictConfirm tid) := nofun
theorem Encode.routeQuery (n : Nat) : Encode.Statement (.routeQuery n) := nofun
theorem Encode.routeReply (n : Nat) : Encode.Statement (.routeReply n) := nofun
theorem Encode.pageTransfer (n : Nat) : Encode.Statement (.pageTransfer n) := nofun
theorem Encode.tlreqReply (n : Nat) : Encode.Statement (.tlreqReply n) := nofun
theorem Encode.phaseStart (n : Nat) : Encode.Statement (.phaseStart n) := nofun
theorem Encode.domainBroadcast (n : Nat) : Encode.Statement (.domainBroadcast n) := nofun
theorem Encode.exchBeatSend (core : Nat) : Encode.Statement (.exchBeatSend core) := nofun
theorem Encode.exchBeatArrive (n : Nat) : Encode.Statement (.exchBeatArrive n) := nofun
theorem Encode.exchCollReport (n : Nat) : Encode.Statement (.exchCollReport n) := nofun
theorem Encode.exchPhaseEnd (core : Nat) : Encode.Statement (.exchPhaseEnd core) := nofun
theorem Encode.mailboxMessage (n : Nat) : Encode.Statement (.mailboxMessage n) := nofun
theorem Encode.mailboxRetry (n : Nat) : Encode.Statement (.mailboxRetry n) := nofun
theorem Encode.watchdogExpire (wave : Nat) : Encode.Statement (.watchdogExpire wave) := nofun
theorem Encode.sliceEccError (tile : Nat) (pa : Nat) : Encode.Statement (.sliceEccError tile pa) := nofun
theorem Encode.linkDead (tile : Nat) (dir : Nat) (count : Nat) : Encode.Statement (.linkDead tile dir count) := nofun
theorem Encode.saveComplete (n : Nat) : Encode.Statement (.saveComplete n) := nofun
theorem Encode.restore (core : Nat) (n : Nat) : Encode.Statement (.restore core n) := nofun
theorem Encode.leaseSync (die : Nat) (ahead : Bool) : Encode.Statement (.leaseSync die ahead) := nofun
theorem Encode.leaseBoundTimeout (die : Nat) : Encode.Statement (.leaseBoundTimeout die) := nofun
theorem Encode.dieFence (dies : List Nat) (cut : Bool) : Encode.Statement (.dieFence dies cut) := nofun
theorem Encode.journalEntry (n : Nat) : Encode.Statement (.journalEntry n) := nofun
theorem Encode.launchSlotSubmit (slot : Nat) (record : List (BitVec 64)) : Encode.Statement (.launchSlotSubmit slot record) := nofun
theorem Encode.sloterrClear (mask : BitVec 64) : Encode.Statement (.sloterrClear mask) := nofun
theorem Encode.taggedWrite (tag : Bool) : Encode.Statement (.taggedWrite tag) := nofun
theorem Encode.taggedWriteDone : Encode.Statement .taggedWriteDone := nofun
theorem Encode.tlbInvalidate (value : BitVec 64) : Encode.Statement (.tlbInvalidate value) := nofun
theorem Encode.tlbInvalidateDone : Encode.Statement .tlbInvalidateDone := nofun
theorem Encode.warmReset : Encode.Statement .warmReset := nofun
theorem Encode.registerWrite (bar2 : Bool) (off : Nat) (value : BitVec 64) : Encode.Statement (.registerWrite bar2 off value) := nofun
theorem Encode.hostMemRead (pa : Nat) (len : Nat) : Encode.Statement (.hostMemRead pa len) := nofun
theorem Encode.hostMemWrite (pa : Nat) (bytes : List (BitVec 8)) : Encode.Statement (.hostMemWrite pa bytes) := nofun
theorem Encode.completionRecordWrite (grid : Nat) : Encode.Statement (.completionRecordWrite grid) := nofun
theorem Encode.vectorTimeFire (v : Nat) : Encode.Statement (.vectorTimeFire v) := nofun
theorem Encode.droopDetect (vat : Nat) : Encode.Statement (.droopDetect vat) := nofun
theorem Encode.droopRecover (vat : Nat) : Encode.Statement (.droopRecover vat) := nofun
theorem Encode.currentLimit (package : Nat) (amps : Nat) : Encode.Statement (.currentLimit package amps) := nofun
theorem Encode.thermalLimit (vat : Nat) (eighths : Int) : Encode.Statement (.thermalLimit vat eighths) := nofun
theorem Encode.sensorSample (vat : Nat) (eighths : Int) : Encode.Statement (.sensorSample vat eighths) := nofun
theorem Encode.firmwareUpdate (image : List (BitVec 8)) (version : Nat) : Encode.Statement (.firmwareUpdate image version) := nofun
theorem Encode.bootTimeout : Encode.Statement .bootTimeout := nofun
theorem Encode.attestation (nonce : List (BitVec 8)) : Encode.Statement (.attestation nonce) := nofun
theorem Encode.standbyPowerOn : Encode.Statement .standbyPowerOn := nofun
theorem Encode.raystatRead (d : BitVec 6) : Encode.Statement (.raystatRead d) := nofun
theorem Encode.fieldRepair (core : Nat) (capacity : BitVec 64) : Encode.Statement (.fieldRepair core capacity) := nofun

end Sys2Proof.Laws
end

