-- ==== Sys2Proof/Tests/Slice0.lean ====
section
/-! SUPPORT. Tests of the model's own: words of the spec and what they decode to, terms that are not well
formed, results of the spec's worked examples, and states that meet the hypotheses of the statements. -/

set_option maxRecDepth 40000
set_option exponentiation.threshold 600

namespace Sys2Proof.Tests

open Sys2Proof.Machine

/-! ### Terms that are not well formed (02 R47, R49 to R51, R60, R61, R63) -/

theorem test_ill_formed_scalar : [Instr.slli 1 2 1 32, .srli 1 2 1 32, .srai 1 2 1 63, .cfld 1 2 8, .fadd 1 2 3 6, .fsub 1 2 3 6,
    .fmul 1 2 3 6, .ffma 1 2 3 6, .fdiv 1 2 3 6, .fsqrt 1 2 6, .fcmp 1 2 3 7, .fcvt 1 2 0 6, .fcvt 1 2 8 0, .fsgn 1 2 3 3].all
    (fun i => !wellFormed i) = true := by decide
theorem test_ill_formed_others : [Instr.vfcvt 1 2 0 6 0, .vfcvt 1 2 0 0 12, .vldmc 1 2 3 0 0, .fence 1 2 7, .rel 1 2 7, .acq 1 2 7,
    .acqp 1 2 3 2, .acqp 1 2 3 7, .cgete 0 1 4, .cbind 0 8, .cunbind 8, .spop 1 8, .vspop 1 8, .pset 16 1, .pget 1 16,
    .mbxpop 0, .mbxpop 61, .gpreempt 1 0, .gpreempt 1 63].all (fun i => !wellFormed i) = true := by decide
theorem test_well_formed_limits : [Instr.slli 1 2 1 31, .slli 1 2 0 63, .cfld 1 2 7, .fadd 1 2 3 7, .fcmp 1 2 3 6, .fcvt 1 2 7 7, .fsgn 1 2 3 2,
    .vfcvt 1 2 1 5 11, .vldmc 1 2 3 0 1, .fence 1 2 6, .acqp 1 2 3 3, .cgete 0 1 3, .cbind 0 7, .pset 15 1, .mbxpop 1, .mbxpop 60,
    .gpreempt 0 1, .gpreempt 0 62].all wellFormed = true := by decide

/-! ### The worked encodings of the spec -/

/-- 02 "Worked encodings", 04 R99, R103 to R106, R114, R119, R122, R124. -/
theorem test_words_scalar : decode 0x04310540 = .ok (.add 3 4 5 1) ∧ decode 0x4C90CD02 = .ok (.ldD 9 3 3 1 2) ∧
    decode 0x34500FFD = .ok (.bne 5 0 0x7FD) ∧ decode 0x34903008 = .ok (.btag 9 8) ∧ decode 0x38100040 = .ok (.jal 1 0x40) ∧
    decode 0x3C004000 = .ok (.jalr 0 1) ∧ decode 0x74A2CC03 = .ok (.ffma 10 11 12 0) ∧ decode 0x58910803 = .ok (.stW 9 4 2 0 3) ∧
    decode 0xF4124005 = .ok (.gets 9 5) ∧ decode 0xF4307FFF = .ok (.cwait 0 31 31 31) := by
  refine ⟨?_, ?_, ?_, ?_, ?_, ?_, ?_, ?_, ?_, ?_⟩ <;> rfl
/-- 05 R143, R147, R149; 11 "scatter" (WID, EXM, LD.W.norep, ST.W). -/
theorem test_words_grids : decode 0xF5024A00 = .ok (.launch 9 10) ∧ decode 0xF5124728 = .ok (.grow 9 7 10) ∧
    decode 0xF5224B30 = .ok (.emit 9 11 12) ∧ decode 0xF4150008 = .ok (.gets 20 8) ∧ decode 0xF4250001 = .ok (.sets 20 1) ∧
    decode 0x48928302 = .ok (.ldW 9 10 0 3 2) ∧ decode 0x58944110 = .ok (.stW 9 17 0 1 16) := by
  refine ⟨?_, ?_, ?_, ?_, ?_, ?_, ?_⟩ <;> rfl
/-- 06 R160, R161, R162, R164, R168, R169, R173, R176, R177. -/
theorem test_words_vector : decode 0x80082060 = .ok (.vadd 1 2 3) ∧ decode 0x88286203 = .ok (.vshri 5 6 3) ∧
    decode 0x84204FFF = .ok (.vaddi 4 4 0xFFF) ∧ decode 0x98410303 = .ok (.vfma 8 16 24) ∧ decode 0x9C103108 = .ok (.vfcvt 2 3 1 0 8) ∧
    decode 0x9000824B = .ok (.vredFadd 8 9) ∧ decode 0xB0003000 = .ok (.vif 3) ∧ decode 0xB8010788 = .ok (.rep 1 3 1 1 0 8) ∧
    decode 0xBC502300 = .ok (.vrebal 10 2 12) ∧ decode 0xBCA08341 = .ok (.vplane 20 8 13) := by
  refine ⟨?_, ?_, ?_, ?_, ?_, ?_, ?_, ?_, ?_, ?_⟩ <;> rfl
/-- 09 R223 to R249, and the programs of chapter 11. -/
theorem test_words_memory : decode 0xC0402105 = .ok (.vld 8 2 4 1 1) ∧ decode 0xC8804281 = .ok (.vldmc 16 4 10 0 1) ∧
    decode 0xC4400441 = .ok (.vst 8 0 17 0 1) ∧ decode 0xCC928B20 = .ok (.atomAdd 9 10 11 2) ∧ decode 0xD8A0A0C2 = .ok (.vatomBfadd2 20 1 3 0) ∧
    decode 0xD4930011 = .ok (.dqpop 9 12 1) ∧ decode 0xDC930A03 = .ok (.bwait 9 12 10) := by
  refine ⟨?_, ?_, ?_, ?_, ?_, ?_, ?_⟩ <;> rfl
theorem test_words_order : decode 0xDC9000C8 = .ok (.fence 9 0 6) ∧ decode 0xDC030D89 = .ok (.rel 12 13 4) ∧ decode 0xDC930ECB = .ok (.acqp 9 12 14 6) ∧
    decode 0xDC030D0C = .ok (.zfill 12 13) ∧ decode 0xDC93408A = .ok (.acq 9 13 4) ∧ decode 0xDC035949 = .ok (.rel 13 25 2) := by
  refine ⟨?_, ?_, ?_, ?_, ?_, ?_⟩ <;> rfl
/-- 12 R296 to R304. -/
theorem test_words_ladle : decode 0xE100928B = .ok (.cqpush 2 9 10 11) ∧ decode 0xE0889500 = .ok (.cset 1 9 20) ∧ decode 0xE01890C0 = .ok (.spop 9 3) ∧
    decode 0xE01C8040 = .ok (.vspop 8 1) ∧ decode 0xE1900080 = .ok (.cbind 3 2) ∧ decode 0xE04C0240 = .ok (.evsig 9) ∧
    decode 0xE04002DE = .ok (.evset 11 30) := by
  refine ⟨?_, ?_, ?_, ?_, ?_, ?_, ?_⟩ <;> rfl
/-- 13 R323 to R328, 14 R339, R342, R353. -/
theorem test_words_press : decode 0xE480928B = .ok (.mstart 9 10 11) ∧ decode 0xE4849300 = .ok (.mstop 9 12) ∧ decode 0xE4000041 = .ok (.pset 1 1) ∧
    decode 0xE4000241 = .ok (.pset 9 1) ∧ decode 0xE4089100 = .ok (.pres 9 4) ∧ decode 0xE40C0100 = .ok (.prel 4) ∧ decode 0xE4100146 = .ok (.ppass 5 6) ∧
    decode 0xE4200100 = .ok (.pclr 4) ∧ decode 0xE4140146 = .ok (.pjoin 5 6) ∧ decode 0xE4180100 = .ok (.pdrainO 4) ∧ decode 0xE41C0100 = .ok (.pdrainU 4) ∧
    decode 0xE5009280 = .ok (.hgath 9 10) ∧ decode 0xE5049280 = .ok (.hcsr 9 10) ∧ decode 0xE5089280 = .ok (.hscat 9 10) := by
  refine ⟨?_, ?_, ?_, ?_, ?_, ?_, ?_, ?_, ?_, ?_, ?_, ?_, ?_, ?_⟩ <;> rfl
/-- 15 R375 to R382. -/
theorem test_words_rays : decode 0xE8009500 = .ok (.rrecv 9 20 0) ∧ decode 0xE804950C = .ok (.rsend 9 20 12) ∧ decode 0xE8089500 = .ok (.rhit 9 20) ∧
    decode 0xE80CA50B = .ok (.rbox4 10 20 11) ∧ decode 0xE810A50B = .ok (.rtri 10 20 11) ∧ decode 0xE814950D = .ok (.rroute 9 20 13) ∧
    decode 0xE818934E = .ok (.tlreq 9 13 14) ∧ decode 0xE81C9340 = .ok (.tlevict 9 13) ∧ decode 0xE820928B = .ok (.hqbind 9 10 11) := by
  refine ⟨?_, ?_, ?_, ?_, ?_, ?_, ?_, ?_, ?_⟩ <;> rfl
/-- 16 R391, 18 R409 to R413, 19 R417, R425, 21 R450. -/
theorem test_words_exchange : decode 0xEC00928B = .ok (.dbar 9 10 11) ∧ decode 0xEC04930D = .ok (.xph 9 12 13) ∧ decode 0xEC08950E = .ok (.xmit 9 20 14) ∧
    decode 0xEC0C93C0 = .ok (.xsel 9 15) ∧ decode 0xEC10954E = .ok (.xrecv 9 21 14) ∧ decode 0xEC149000 = .ok (.xend 9 0) ∧
    decode 0xEC18958F = .ok (.xslots 9 22 15) := by
  refine ⟨?_, ?_, ?_, ?_, ?_, ?_, ?_⟩ <;> rfl
theorem test_words_supervisor : decode 0xF8040000 = .ok (.mbxpop 16) ∧ decode 0xF8150000 = .ok (.wresume 20) ∧ decode 0xF8250000 = .ok (.wkill 20) ∧
    decode 0xF8354000 = .ok (.gkill 21) ∧ decode 0xF8425400 = .ok (.gpreempt 9 20) ∧ decode 0xF8550000 = .ok (.dbghalt 20) ∧
    decode 0xF8650000 = .ok (.dbgrun 20) ∧ decode 0xF4124810 = .ok (.gets 9 0x810) := by
  refine ⟨?_, ?_, ?_, ?_, ?_, ?_, ?_, ?_⟩ <;> rfl
/-- 02 R63: words that are no instruction, one for each reason. -/
theorem test_words_refused : decode 0x00000000 = .error .unassigned ∧ decode 0xFFFFFFFF = .error .unassigned ∧
    decode 0x0431057F = .error .reserved ∧ decode 0x043105C0 = .error .nonzeroField ∧ decode 0x18010060 = .error .outOfRange := by
  refine ⟨?_, ?_, ?_, ?_, ?_⟩ <;> rfl

/-! ### States for the tests -/

/-- A capability with every permission to `len` bytes of its core's own scratch from `off`, of a format. -/
def room (off len : Nat) (f : Nat := 0) : Cap :=
  let c := Cap.make 0xFF (0x7F * 2 ^ 48 + off) len (0x7F * 2 ^ 48 + off)
  { c with lo := setFld c.lo 58 6 f }

/-- A number in a register. -/
def num (n : Nat) : Cap := ⟨false, 0, BitVec.ofNat 64 n⟩

/-- Wave 0, a full supervisor wave on core (0, 0) with the registers given. -/
def wave0 (cs : Tbl Cap) : Wave :=
  { live := true, full := true, vregs := 128, sup := true, grid := 1, group := 1, c := cs,
    pc := Cap.make (permEX + permLD) (0x7F * 2 ^ 48) 4096 (0x7F * 2 ^ 48 + 16) }

/-- Wave 0 moves, with the registers given and 8-byte words at offsets of its core's scratch. -/
def demo (cs : Tbl Cap) (ms : List (Nat × Nat) := []) : State :=
  ms.foldl (fun s m => poke s (scratchKey 0 m.1) (bytesOf 8 m.2)) { cur := .wave 0, cyc := 100, waves := [(0, wave0 cs)] }

/-- Context 0 of vat 0 runs, with the registers m, the press registers and the windows given. -/
def seqr (ms : Tbl Word) (rs : Tbl Word) (ws : Tbl Window) (tab : List REntry := []) : State :=
  { cur := .ctx 0 0, cyc := 100, waves := [(0, wave0 [])],
    vats := [(0, { ctxs := [(0, { st := .run, group := 1, grid := 1, m := ms, arena := room 4096 65536, regs := rs,
                                   pc := Cap.make (permEX + permLD) (0x7F * 2 ^ 48) 4096 (0x7F * 2 ^ 48 + 16) })],
                   wins := ws, rtab := tab })] }

/-- `Admitted`, as a test that can be run. -/
def adm (i : Instr) (s : State) : Bool := match s.cur with
  | .none => false
  | .wave w => decide (waveVerdict i (s.wave w) = .go)
  | .ctx _ _ => decide (ctxVerdict i = .go)

theorem adm_sound {i : Instr} {s : State} (h : adm i s = true) : Admitted i s := by
  unfold adm at h; unfold Admitted
  split at h <;> simp_all

/-- `Spec.inScratch`, as a test that can be run. -/
def inScr (s : State) (cap : Cap) (ea : Int) (size need align : Nat) (u : Use) (k : Nat) : Bool :=
  decide (checkCap cap ea size need align = none) && decide (0x7D ≤ ea.toNat / 2 ^ 48 % 128) &&
    decide ((window s s.curCore s.curAsid ea.toNat u).1 = some ⟨k, none⟩) && isScratch k && !homeLost s k

theorem inScr_sound {s : State} {cap : Cap} {ea : Int} {size need align : Nat} {u : Use} {k : Nat}
    (h : inScr s cap ea size need align u k = true) : Spec.inScratch s cap ea size need align u k := by
  simp only [inScr, Bool.and_eq_true, decide_eq_true_eq, Bool.not_eq_true'] at h
  obtain ⟨⟨⟨⟨h1, h2⟩, h3⟩, h4⟩, h5⟩ := h
  refine ⟨h1, ?_, h4, h5⟩
  have h6 : (window s s.curCore s.curAsid ea.toNat u).2 = s := by simp only [window, h2, if_true]
  exact Prod.ext h3 h6

theorem inScr_access {s : State} {cap : Cap} {ea : Int} {size need align : Nat} {u : Use} {k : Nat}
    (h : inScr s cap ea size need align u k = true) : checkAccess s cap ea size need align u = (.ok ⟨k, none⟩, s) := by
  obtain ⟨h1, h2, -, -⟩ := inScr_sound h
  simp only [checkAccess, checkAccessAt, h1, h2]

/-- `Spec.still`, as a test that can be run: nothing at all is under way. -/
def still (s : State) : Bool :=
  decide (s.net.reqs = [] ∧ s.net.replies = [] ∧ s.net.acks = [] ∧ s.net.mcasts = [] ∧ s.net.arrivals = []) &&
    match s.cur with
    | .wave w => decide ((s.core (waveCore w)).fifo = [] ∧ (s.core (waveCore w)).squeue = [])
    | _ => true

theorem still_sound {s : State} (h : still s = true) : Spec.still s := by
  simp only [still, Bool.and_eq_true, decide_eq_true_eq] at h
  obtain ⟨⟨h2, h3, h4, h5, h6⟩, h7⟩ := h
  refine ⟨by simp [h6], fun w hw => ?_⟩
  rw [hw] at h7
  simpa [h2, h3, h4, h5] using of_decide_eq_true h7

/-! ### Every check passes for some operands of every instruction -/

/-- Registers that the instructions of these tests name. -/
def regs0 : Tbl Cap := [(1, room 4096 4096), (2, num 8), (3, num 3), (4, room 8192 4096)]

theorem test_admitted_scalar : [Instr.add 9 2 3 0, .sub 9 2 3 1, .mul 9 2 3 0, .mulh 9 2 3 0, .mulhu 9 2 3 0, .div 9 2 3 0, .divu 9 2 3 0,
    .rem 9 2 3 0, .remu 9 2 3 0, .and 9 2 3 0, .or 9 2 3 0, .xor 9 2 3 0, .andn 9 2 3 0, .sll 9 2 3 0, .srl 9 2 3 0, .sra 9 2 3 0, .ror 9 2 3 0,
    .min 9 2 3 0, .max 9 2 3 0, .minu 9 2 3 0, .maxu 9 2 3 0, .slt 9 2 3 0, .sltu 9 2 3 0, .seq 9 2 3 0, .sne 9 2 3 0, .clz 9 2 0, .ctz 9 2 0,
    .popc 9 2 0, .brev 9 2 0, .addi 9 2 1, .andi 9 2 1, .ori 9 2 1, .xori 9 2 1, .slli 9 2 1 31, .srli 9 2 0 63, .srai 9 2 0 0, .slti 9 2 1,
    .sltiu 9 2 1, .lui 9 1, .auipc 9 1, .beq 2 3 1, .bne 2 3 1, .blt 2 3 1, .bge 2 3 1, .bltu 2 3 1, .bgeu 2 3 1, .btag 1 1, .bntag 1 1,
    .jal 9 1, .jalr 9 1, .cinc 9 1 2, .csetb 9 1 2, .cperm 9 1 2, .cfmt 9 1 2, .cfld 9 1 7, .ctest 9 1, .cclrt 9 1, .csubc 9 1 1, .cinci 9 1 8,
    .csetbi 9 1 8, .fadd 9 2 3 0, .fsub 9 2 3 7, .fmul 9 2 3 5, .ffma 9 2 3 0, .fdiv 9 2 3 0, .fsqrt 9 2 0, .fmin 9 2 3, .fmax 9 2 3, .fcmp 9 2 3 6,
    .fcvt 9 2 7 0, .fclass 9 2, .fsgn 9 2 3 2].all (fun i => adm i (demo regs0)) = true := by decide
theorem test_admitted_vector : [Instr.vadd 9 2 3, .vsub 9 2 3, .vmul 9 2 3, .vmulh 9 2 3, .vmad 9 2 3, .vand 9 2 3, .vor 9 2 3, .vxor 9 2 3,
    .vandn 9 2 3, .vshl 9 2 3, .vshr 9 2 3, .vsra 9 2 3, .vmin 9 2 3, .vmax 9 2 3, .vminu 9 2 3, .vmaxu 9 2 3, .vabs 9 2, .vsel 9 2 3, .vmov 9 2,
    .vcmpEq 9 2 3, .vcmpNe 9 2 3, .vcmpLt 9 2 3, .vcmpGe 9 2 3, .vcmpLtu 9 2 3, .vcmpGeu 9 2 3, .vaddi 9 2 1, .vshli 9 2 31, .vshri 9 2 1,
    .vsrai 9 2 1, .vandi 9 2 1, .vori 9 2 1, .vxori 9 2 1, .vmovi 9 1, .vbcst 9 2, .vshfl 9 2 3, .vrot 9 2 3, .vredAdd 2 9, .vredMin 2 9,
    .vredMax 2 9, .vredMinu 2 9, .vredMaxu 2 9, .vredAnd 2 9, .vredOr 2 9, .vredXor 2 9, .vredFadd 2 9, .vredFmin 2 9, .vredFmax 2 9, .vballot 2 9,
    .vpopc 2 9, .vfirst 2 9, .vextr 31 2 9, .vins 9 0 2, .vperm 9 2 3, .vscanAdd 9 2, .vscanFadd 9 2, .vscanMin 9 2, .vscanMax 9 2, .vlane 127,
    .vfadd 9 2 3, .vfsub 9 2 3, .vfmul 9 2 3, .vfma 9 2 3, .vfmin 9 2 3, .vfmax 9 2 3, .vfdiv 9 2 3, .vfsqrt 9 2, .vrcp 9 2, .vrsq 9 2, .vexp2 9 2,
    .vlog2 9 2, .vsin 9 2, .vcos 9 2, .vfclass 9 2, .vfcmpEq 9 2 3, .vfcmpNe 9 2 3, .vfcmpLt 9 2 3, .vfcmpLe 9 2 3, .vfcmpGt 9 2 3, .vfcmpGe 9 2 3,
    .vfcmpUn 9 2 3, .vfcvt 9 2 1 0 11, .vbadd2 9 2 3, .vbmul2 9 2 3, .vbfma2 9 2 3, .vpk 9 2 3, .vunpkLo 9 2, .vunpkHi 9 2, .vdot4I8 9 2 3,
    .vdot4Ui8 9 2 3, .vdotb 9 2 3, .vif 2, .velse, .vendif, .vloop, .vbrk 2, .vcont 2, .vendl 1, .vany 2 1, .vnone 2 1, .rep 0 0 0 0 0 0,
    .vrebal 10 2 3, .vplane 9 2 3].all (fun i => adm i (demo regs0)) = true := by decide
theorem test_admitted_memory : [Instr.ldB 9 1 0 0 0, .ldH 9 1 1 1 1, .ldW 9 1 0 2 2, .ldD 9 1 15 3 255, .stB 2 1 0 0 0, .stH 2 1 0 1 0, .stW 2 1 0 2 0,
    .stD 2 1 0 3 0, .ldc 9 1 0 0 0, .stc 2 1 0 0 0, .vld 9 2 1 0 0, .vst 9 2 1 0 0, .vldmc 9 2 1 0 1, .atomAdd 9 1 2 0, .atomMin 9 1 2 0,
    .atomMax 9 1 2 0, .atomMinu 9 1 2 0, .atomMaxu 9 1 2 0, .atomAnd 9 1 2 0, .atomOr 9 1 2 0, .atomXor 9 1 2 0, .atomSwap 9 1 2 0, .acas 9 1 2 0,
    .atomAddW 9 1 2 0, .atomMinW 9 1 2 0, .atomMaxW 9 1 2 0, .atomMinuW 9 1 2 0, .atomMaxuW 9 1 2 0, .atomAndW 9 1 2 0, .atomOrW 9 1 2 0,
    .atomXorW 9 1 2 0, .atomSwapW 9 1 2 0, .atomFaddW 9 1 2 0, .atomBfadd2W 9 1 2 0, .acasW 9 1 2 0, .dqpush 9 1 2 0, .dqpop 9 1 0, .dqsteal 9 1 0,
    .vatomAdd 8 0 1 1 0, .vatomMin 8 0 0 1 0, .vatomMax 8 0 0 1 0, .vatomMinu 8 0 0 1 0, .vatomMaxu 8 0 0 1 0, .vatomAnd 8 0 0 1 0, .vatomOr 8 0 0 1 0,
    .vatomXor 8 0 0 1 0, .vatomSwap 8 0 0 1 0, .vatomFadd 8 0 1 0, .vatomBfadd2 8 0 1 0, .vacas 8 0 1 1 0, .binit 9 1 2, .barv 1, .bexp 1 2,
    .bwait 9 1 2, .btry 9 1 2, .binv 9 1, .fence 9 0 6, .rel 1 2 0, .acq 9 1 6, .acqp 9 1 2 3, .zfill 1 2].all (fun i => adm i (demo regs0)) = true := by decide
theorem test_admitted_units : [Instr.cqpush 0 9 1 4, .cqtry 7 9 1 4, .cset 0 9 2, .cgete 0 9 3, .cbind 0 7, .ccancel 0 9, .cunbind 0, .spop 9 0,
    .vspop 9 0, .evset 2 3, .evclr 2 3, .evrd 9 2, .evsig 2, .mstart 9 1 4, .mstop 9 2, .hgath 9 1, .hcsr 9 1, .hscat 9 1, .rrecv 9 1 2, .rsend 9 1 2,
    .rhit 9 1, .rbox4 9 1 2, .rtri 9 1 2, .rroute 9 1 2, .tlreq 9 2 3, .tlevict 9 2, .hqbind 9 1 2, .dbar 9 2 1, .xph 9 2 3, .xmit 9 1 2, .xsel 9 2,
    .xrecv 9 1 2, .xend 9 2, .xslots 9 1 2, .nop, .gets 9 0x8A2, .sets 2 0x803, .cwait 31 0 0 0, .yield, .trap 0xFFFFF, .bkpt 0, .exit, .invl1, .invi,
    .launch 9 1, .grow 9 2 3, .emit 9 1 2, .mbxpop 60, .wresume 2, .wkill 2, .gkill 2, .gpreempt 9 1, .dbghalt 2, .dbgrun 2].all
    (fun i => adm i (demo regs0)) = true := by decide
theorem test_admitted_context : [Instr.pset 1 2, .pget 3 14, .pres 3 2, .prel 2, .ppass 1 2, .pjoin 1 2, .pdrainO 1, .pdrainU 1, .pclr 1,
    .barv 1, .bwait 3 1 2, .add 15 1 2 0, .lui 15 1, .beq 1 2 4].all (fun i => adm i (seqr [] [] [])) = true := by decide
theorem test_not_admitted : adm (.add 16 1 2 0) (seqr [] [] []) = false ∧ adm (.binit 3 1 2) (seqr [] [] []) = false ∧
    adm (.btag 1 1) (seqr [] [] []) = false ∧ adm (.pset 1 2) (demo []) = false := by decide

/-! ### States that meet the hypotheses of the statements, clause by clause -/

theorem witness_IntegerArithmetic : adm (.add 9 2 3 0) (demo regs0) = true ∧ adm (.addi 9 2 0x3FFF) (demo regs0) = true ∧
    adm (.slli 9 2 1 31) (demo regs0) = true ∧ (1 = (1 : BitVec 1) → (31 : BitVec 6).toNat < 32) := by decide
theorem witness_ControlTransfers : (demo regs0).cur ≠ .none ∧ adm (.beq 2 3 1) (demo regs0) = true ∧ adm (.jalr 9 1) (demo regs0) = true ∧
    (demo regs0).lo 2 = (demo regs0).lo 2 ∧ (demo regs0).lo 2 ≠ (demo regs0).lo 3 ∧ ¬((demo regs0).lo 2).toInt < ((demo regs0).lo 3).toInt ∧
    ((demo regs0).lo 3).toNat < ((demo regs0).lo 2).toNat ∧ ((demo regs0).reg 1).tag = true ∧ ((demo regs0).reg 2).tag = false := by decide
theorem witness_CapabilityForms : adm (.cfld 9 1 7) (demo regs0) = true ∧ (7 : BitVec 6).toNat < 8 := by decide
/-- c1 has 4,096 bytes: 4,097 pass them; c5 stands at an odd byte of a region that needs an exponent of 1. -/
theorem witness_CapabilityBounds :
    let s := demo [(1, room 4096 4096), (2, num 4097), (3, num 4096), (5, ⟨true, BitVec.ofNat 64 (0xFF * 2 ^ 56 + 2 ^ 50 + 0x1FFFFFF), 1⟩), (6, num 0x2000001)]
    adm (.csetb 9 2 3) s = true ∧ (s.reg 2).tag = false ∧ (s.reg 1).tag = true ∧ (s.reg 1).top < (s.reg 1).addr + 4097 ∧
      (s.reg 1).z55 = false ∧ (s.reg 1).exp ≤ 30 ∧ (s.reg 1).base ≤ (s.reg 1).addr ∧ (s.reg 1).addr + 4096 ≤ (s.reg 1).top ∧
      (s.reg 5).base ≤ 0 ∧ (s.reg 5).addr = 1 ∧ 1 + 0x2000001 ≤ (s.reg 5).top ∧ (s.reg 5).exp = 1 := by decide
theorem witness_ScalarFloat : adm (.fadd 9 2 3 5) (demo regs0) = true ∧ adm (.fcvt 9 2 0 7) (demo regs0) = true ∧ adm (.fsgn 9 2 3 0) (demo regs0) = true := by decide
theorem witness_VectorIntegers : adm (.vadd 127 0 127) (demo regs0) = true ∧ adm (.vins 9 31 2) (demo regs0) = true := by decide
theorem witness_VectorFloatingPoint : adm (.vfma 127 0 127) (demo regs0) = true ∧ adm (.vcos 9 2) (demo regs0) = true ∧ adm (.vdotb 9 2 3) (demo regs0) = true := by decide
theorem witness_VectorReductionsAndScans : adm (.vredFadd 0 9) (demo regs0) = true ∧ adm (.vscanFadd 9 2) (demo regs0) = true ∧
    adm (.vrebal 126 2 3) (demo regs0) = true ∧ adm (.vplane 9 2 3) (demo regs0) = true := by decide
/-- A lane at 127 levels: VIF and VLOOP of an idle lane pass 127, the others do not. -/
theorem witness_StructuredControlFlow :
    let s := (demo regs0).modCur fun x => { x with nc := [(0, 127)] }
    adm (.vif 2) (demo regs0) = true ∧ adm (.vif 2) s = true ∧ adm .vloop s = true ∧ adm (.vendl 1) s = true ∧
      (∀ l < 32, (Spec.nest (demo regs0).curWave l).1 + 1 ≤ 127) ∧ 127 < (Spec.nest s.curWave 0).1 + 1 ∧ (∃ l < 32, Spec.nest s.curWave l = (0, false)) ∧
      (let t := (demo regs0).modCur fun x => { x with nc := (List.range 32).map (·, 2) }
       adm (.vendl 1) t = true ∧ ∀ l < 32, Spec.nest t.curWave l = (2, false)) := by decide
/-- `REP` of one VADD (0x8008_2060, the spec's word) that stands in scratch. -/
theorem witness_Repetition : adm (.rep 0 1 0 0 0 0) (demo regs0 [(16, 0x80082060 * 2 ^ 32)]) = true ∧
    (let s := demo regs0 [(16, 0x80082060 * 2 ^ 32)]
     match fetchBody s s.pc (s.pc.addr + 4) 1 with
     | (.ok body, t) => (match repPlan false false false 0 t.curWave body 2 with
       | some is => decide (is = [.vadd 1 2 3, .vadd 1 2 3]) && is.all fun i => decide (waveVerdict i t.curWave = .go)
       | none => false)
     | _ => false) = true := by decide

/-- Wave 0 with c10 a capability to 64 KiB that the page table at 0 maps from 0x1_0000 to 0x4_0000. -/
def paged : State :=
  [(0, 2 ^ 63 + 0x10000), (0x10000, 2 ^ 63 + 0x20000), (0x20000, 2 ^ 63 + 0x30000), (0x30008, 15 * 2 ^ 60 + 0x40000)].foldl
    (fun s m => poke s m.1 (bytesOf 8 m.2)) (demo [(1, room 4096 4096), (2, num 8), (10, Cap.make 0xFF 0x10000 0x10000 0x10000)])

theorem witness_ScalarMemory :
    let s := demo regs0
    still s = true ∧ adm (.ldD 9 1 0 0 1) s = true ∧ adm (.stD 2 1 0 0 1) s = true ∧ (checkAccess s (s.reg 2) 8 8 permLD 8 .load).1 = .error ⟨.capTag, 8⟩ ∧
      inScr s (s.reg 1) ((s.reg 1).addr + 8) 8 permLD 8 .load (scratchKey 0 4104) = true ∧ inScr s (s.reg 1) ((s.reg 1).addr + 4095) 1 permST 1 .store (scratchKey 0 8191) = true ∧
      (s.core (waveCore s.curW)).sgb = [] ∧ s.zpages = [] ∧ s.zeroed = [] := by decide
/-- A gathered store to a page: its place is no scratch. -/
theorem witness_ScalarMemory_page : still paged = true ∧ adm (.stD 2 10 0 0 0) paged = true ∧
    (match checkAccess paged (paged.reg 10) (paged.reg 10).addr 8 permST 8 .store with
     | (.ok p, t) => decide (p.key = 0x40000) && !isScratch p.key && !homeLost t p.key
     | _ => false) = true := by decide
theorem witness_CapabilityMemory :
    let s := demo regs0
    still s = true ∧ adm (.ldc 9 1 0 0 0) s = true ∧ adm (.stc 1 1 0 1 0) s = true ∧ (checkAccess s (s.reg 2) 8 16 permLD 16 .load).1 = .error ⟨.capTag, 8⟩ ∧
      inScr s (s.reg 1) (s.reg 1).addr 16 permLD 16 .load (scratchKey 0 4096) = true ∧
      inScr s (s.reg 1) (s.reg 1).addr 16 (permST + permSC) 16 .store (scratchKey 0 4096) = true ∧ (s.reg 1).tag = true ∧ (s.reg 2).tag = false := by decide
/-- A deque of 4 entries whose ring is at 0x1_0000 of the page table: empty, full, and with a descriptor out of form. -/
def dequeAt (top bot lg : Nat) : State :=
  [(0, 2 ^ 63 + 0x10000), (0x10000, 2 ^ 63 + 0x20000), (0x20000, 2 ^ 63 + 0x30000), (0x30008, 15 * 2 ^ 60 + 0x40000),
   (scratchKey 0 4096, 0x10000), (scratchKey 0 4104, top + bot * 2 ^ 32), (scratchKey 0 4112, lg)].foldl
    (fun s m => poke s m.1 (bytesOf 8 m.2)) (demo [(1, room 4096 4096), (2, num 8)])

theorem witness_ScalarAtomicsAndDeques :
    let s := dequeAt 0 4 2
    let k := scratchKey 0 4096
    still s = true ∧ adm (.atomAdd 9 1 2 0) s = true ∧ adm (.acasW 9 1 2 0) s = true ∧ adm (.dqpush 9 1 2 0) s = true ∧
      (checkAccess s (s.reg 2) 8 8 0 8 .store).1 = .error ⟨.capTag, 8⟩ ∧
      inScr s (s.reg 1) (s.reg 1).addr 8 (permLD + permST + permAT) 8 .store k = true ∧
      inScr s (s.reg 1) (s.reg 1).addr 32 (permLD + permST + permAT) 32 .store k = true ∧ (s.core (waveCore s.curW)).sgb = [] ∧
      readNat s.mem k 8 = 0x10000 ∧ readNat s.mem (k + 16) 8 = 2 ∧ readNat s.mem (k + 24) 8 = 0 ∧ (readNat s.mem (k + 12) 4 + 2 ^ 32 - readNat s.mem (k + 8) 4) % 2 ^ 32 = 4 ∧
      readNat (dequeAt 1 1 2).mem (k + 8) 4 = readNat (dequeAt 1 1 2).mem (k + 12) 4 ∧ readNat (dequeAt 1 1 25).mem (k + 16) 8 = 25 := by decide
theorem witness_ScalarAtomicsAndDeques_entry :
    (match window (dequeAt 0 2 2) (keyCore (scratchKey 0 4096)) (dequeAt 0 2 2).curAsid (0x10000 + 8 * 2) .store with
     | (some p, t) => decide (p.key = 0x40010) && !homeLost t p.key
     | _ => false) = true ∧ (dequeEntry (demo []) 0 0 0x10000 2 0 true).1 = none := by decide
/-- Lanes 0 and 1 are active, at offsets 0 and 4 from c1; v8 holds the offsets. -/
def lanes2 (nc : Tbl Nat) : State := (demo [(1, room 4096 4096), (2, num 8), (3, room 4096 2)]).modCur fun x => { x with nc := nc, v := [(8 * 32 + 1, 4)] }
def only2 : Tbl Nat := (List.range 30).map fun l => (l + 2, 1)
theorem witness_VectorMemory :
    let s := lanes2 only2
    still s = true ∧ (s.core (waveCore s.curW)).sgb = [] ∧ adm (.vld 9 8 1 0 0) s = true ∧ adm (.vst 9 8 1 0 0) s = true ∧ Spec.lanesOn s = [0, 1] ∧
      Spec.lanesOn (lanes2 ((List.range 32).map (·, 1))) = [] ∧
      (∀ l ∈ Spec.lanesOn s, inScr s (s.reg 1) ((s.reg 1).addr + (s.curWave.lane 8 l).toInt) 4 permLD 4 .load (scratchKey 0 (4096 + 4 * l)) = true) ∧
      (∀ l ∈ Spec.lanesOn s, inScr s (s.reg 1) ((s.reg 1).addr + (s.curWave.lane 8 l).toInt) 4 permST 4 .store (scratchKey 0 (4096 + 4 * l)) = true) ∧
      (checkAccess s (s.reg 3) (s.reg 3).addr 4 permLD 4 .load).1 = .error ⟨.capBound, BitVec.ofNat 64 (0x7F * 2 ^ 48 + 4096)⟩ := by decide
theorem witness_VectorAtomics :
    let s := lanes2 only2
    still s = true ∧ adm (.vatomAdd 16 1 0 1 0) s = true ∧ adm (.vatomBfadd2 16 1 1 0) s = true ∧ (s.core (waveCore s.curW)).sgb = [] ∧
      (∀ l ∈ Spec.lanesOn s, inScr s (s.reg 1) ((s.reg 1).addr + (s.curWave.lane 8 l).toInt) 4 (permLD + permST + permAT) 4 .store (scratchKey 0 (4096 + 4 * l)) = true) := by decide
/-- An access of stream 1 is on its way. -/
theorem witness_AccessRules :
    let s := { demo regs0 with net := { acks := [⟨0, 1, 0, 0, false, 0, 1, 0⟩] } }
    underWay s s.curW (· = (1 : BitVec 4).toNat) = true ∧ watermarkHeld s (eaM s 1 0 8).toNat 8 = false ∧ adm (.ldD 9 1 1 0 0) s = true ∧
      inScr s (s.reg 1) (eaM s 1 0 8) 8 permLD 8 .load (scratchKey 0 4096) = true ∧ inScr s (s.reg 1) (eaM s 1 0 8) 8 permST 8 .store (scratchKey 0 4096) = true := by decide
theorem witness_AccessChecks : (room 0 16).tag = true ∧ (room 0 16).perm &&& permLD = permLD ∧ (room 0 16).z55 = false ∧ (room 0 16).exp ≤ 30 ∧
    (room 0 16).base ≤ (room 0 16).addr ∧ (room 0 16).addr + 16 ≤ (room 0 16).top ∧ (room 0 16).top < (room 0 16).addr + 17 ∧
    reservedFormat (room 0 16).fmt = false ∧ reservedFormat (room 0 16 63).fmt = true ∧ (16 : Int) ∣ (room 0 16).addr ∧ ¬(32 : Int) ∣ (room 16 16).addr := by decide

/-- A gathered byte of wave 0 waits in its core's buffer, and the core's log covers it. -/
def gathered : State := (demo regs0).modCore 0 fun c => { c with
  gs := 1, log := [1], sgb := [{ line := 2 ^ 40 / 128, data := [(0, 7)], fgs := 1, writers := [0], grids := [1] }] }

theorem witness_FencesAndFlags :
    let s := gathered
    let k := scratchKey 0 4096
    still s = true ∧ adm (.fence 9 0 6) s = true ∧ adm (.fence 9 2 3) s = true ∧ adm (.fence 9 0 0) s = true ∧ adm (.rel 1 2 2) s = true ∧ adm (.rel 1 2 6) s = true ∧
      adm (.acq 9 1 6) s = true ∧ adm (.acqp 9 1 2 4) s = true ∧ s.curWave.promo = none ∧ (checkAccess s (s.reg 2) 8 8 permST 8 .store).1 = .error ⟨.capTag, 8⟩ ∧
      inScr s (s.reg 1) (s.reg 1).addr 8 permST 8 .store k = true ∧ inScr s (s.reg 1) (s.reg 1).addr 8 permLD 8 .load k = true ∧
      (s.core (waveCore s.curW)).sgb.any (Sgb.touches [(k, 8)]) = false ∧ (s.core 0).log.length < 16 ∧
      Spec.narrow 2 ∧ ¬Spec.narrow 3 ∧ (s.core 8).log.getLast? = none ∧ (s.core 0).log.getLast? = some 1 ∧ corePresent s 8 = true ∧
      corePresent s 0xFFFFF = false ∧ coreVat 0 ≠ coreVat 8 ∧ coreDie 0 = coreDie 8 := by decide
theorem witness_ZeroFillAndInvalidation :
    let s := demo [(1, room 4096 4096), (2, num 256), (3, num 8)]
    still s = true ∧ adm (.zfill 1 2) s = true ∧ adm .invl1 s = true ∧ adm .invi s = true ∧ 128 ∣ (s.reg 1).addr ∧ 128 ∣ 256 ∧ ¬128 ∣ 8 ∧ (s.lo 0).toNat = 0 ∧
      inScr s (s.reg 1) (s.reg 1).addr 256 permST 1 .store (scratchKey 0 4096) = true ∧ (s.core (waveCore s.curW)).sgb = [] ∧ 128 ∣ scratchKey 0 4096 ∧
      (∀ j < 256 / 128, (window s s.curCore s.curAsid ((s.reg 1).addr + 128 * j) .store).1 = some ⟨scratchKey 0 4096 + 128 * j, none⟩ ∧
        homeLost s (scratchKey 0 4096 + 128 * j) = false) := by decide
/-- A barrier object at c1 that expects two arrivals and 16 bytes. -/
def barred (o : Bar) : State := Bar.write (demo [(1, room 4096 4096), (2, num 1), (3, num 3)]) (scratchKey 0 4096) o
def object : Bar := { arra := 1, expa := 2, phase := 1, landb := 0, expb := 16, wcnt := 0, sa := false, ovf := false, v := true, stray := 0 }

theorem witness_BarrierObjectsAndCounts :
    let s := barred object
    let k := scratchKey 0 4096
    Bar.read s k = object ∧ corePresent s (keyCore k) = true ∧ s.waiters = [] ∧ domainBlock k = false ∧ object.arra + 1 ≤ object.expa ∧ object.expa < object.arra + 2 ∧
      object.expb ≤ object.landb + 16 ∧ 2 ^ 32 ≤ object.landb + 2 ^ 32 ∧ (Bar.read (barred { object with v := false }) k).v = false := by decide
theorem witness_BarrierInstructions :
    let s := barred object
    let k := scratchKey 0 4096
    still s = true ∧ adm (.binit 9 1 2) s = true ∧ adm (.barv 1) s = true ∧ adm (.bexp 1 2) s = true ∧ adm (.bwait 9 1 2) s = true ∧ adm (.btry 9 1 2) s = true ∧
      adm (.binv 9 1) s = true ∧ inScr s (s.reg 1) (s.reg 1).addr 32 (permLD + permST + permAT) 32 .store k = true ∧
      inScr s (s.reg 1) (s.reg 1).addr 32 permLD 32 .load k = true ∧ arrivalHeld s = false ∧ (Bar.read s k).v = true ∧ (Bar.read s k).wcnt = 0 ∧
      (Bar.read s k).phase = (s.lo 2).toNat % 2 ^ 32 ∧ (Bar.read s k).phase ≠ (s.lo 3).toNat % 2 ^ 32 ∧ (s.lo 2).toNat % 2 ^ 16 ≠ 0 ∧ (s.lo 2).toNat / 2 ^ 16 % 2 ^ 16 = 0 ∧
      (Bar.read (barred { object with wcnt := 1 }) k).wcnt ≠ 0 ∧ (Bar.read (barred { object with v := false }) k).v = false ∧ (s.lo 0).toNat % 2 ^ 16 = 0 := by decide
/-- A context's BARV and BWAIT name a place in its arena. -/
theorem witness_BarrierInstructions_context :
    let s := seqr [(1, 32)] [] []
    still s = true ∧ adm (.barv 1) s = true ∧ adm (.bwait 3 1 2) s = true ∧
      (arenaAt s (s.ctx 0 0).arena (waveCore (s.ctx 0 0).wave) (s.lo 1).toNat 32 32 .store).1 = .ok (scratchKey 0 4128) ∧ arrivalHeld s = false := by decide
theorem witness_StateRegistersAndWaits :
    let s := demo [(1, num 0x13), (2, num 0x16), (3, num 0x1F)]
    adm (.gets 9 0) s = true ∧ adm (.gets 9 0x8A2) s = true ∧ adm (.gets 9 0xFFF) s = true ∧ adm (.sets 1 2) s = true ∧ adm (.sets 3 3) s = true ∧ adm (.sets 1 1) s = true ∧
      adm (.sets 1 0) s = true ∧ (s.lo 0).toNat / 16 % 2 ^ 28 = 0 ∧ (s.lo 1).toNat / 16 % 2 ^ 28 ≠ 0 ∧ (s.lo 3).toNat / 32 % 2 ^ 27 = 0 ∧ 5 < (s.lo 2).toNat % 8 ∧
      adm .nop s = true ∧ adm .yield s = true ∧ adm (.cwait 0 31 31 31) s = true ∧ s.curWave.loads = 0 ∧
      (let t := s.modCur fun x => { x with loads := 1 }
       adm (.cwait 0 31 31 31) t = true ∧ (0 : BitVec 5) ≠ 31 ∧ (0 : BitVec 5).toNat < t.curWave.loads) := by decide
theorem witness_FaultsAndTraps :
    let s := demo regs0
    let u := s.modCur fun x => { x with sup := false }
    s.cur = .wave 0 ∧ (s.die (coreDie (waveCore 0))).mailbox.length < 64 ∧ s.net.posts = [] ∧ (u.wave 0).sup = false ∧
      Tbl.get? { u with grids := [(1, { record := [] })] }.grids 1 = some { record := [] } ∧ adm (.trap 5) s = true ∧ adm (.bkpt 5) s = true ∧
      privilegedWord 0xF8040000 = true ∧ privilegedWord 0 = false ∧ (s.wave 0).sup = true ∧ (seqr [] [] []).cur = .ctx 0 0 := by decide
theorem witness_Privilege :
    let s := (demo regs0).modCur fun x => { x with sup := false }
    s.cur = .wave 0 ∧ (s.wave 0).sup = false ∧ 0x800 ≤ (0x800 : BitVec 12).toNat ∧
      [Instr.mbxpop 1, .wresume 1, .wkill 1, .gkill 1, .gpreempt 2 1, .dbghalt 1, .dbgrun 1, .gets 1 0x800, .sets 1 0xFFF].all wellFormed = true := by decide

/-! ### Grids -/

/-- A record of two groups of one full wave with 8 registers and 4,096 bytes of scratch. -/
def record (kind groups gmax arg : Nat) : List Nat := [kind * 2 ^ 60 + 0x10000, 64, arg, 0, gmax * 2 ^ 32 + groups, 4096 * 2 ^ 26, 8 * 2 ^ 10 + 1, 0]
def recordWords (kind groups gmax arg : Nat) : List Word := (record kind groups gmax arg).map (BitVec.ofNat 64)
/-- The record stands at c1; wave 0 belongs to grid 1, which has two groups and may grow to four. -/
def launcher (kind groups arg : Nat) : State :=
  { demo [(1, room 4096 4096), (2, num 1), (3, num 2), (4, num 3), (5, num 9)]
      (((record kind groups 2 arg).zipIdx.map fun x => (4096 + 8 * x.2, x.1)) ++ [(8200, 2 ^ 40 + 2 ^ 32 + 4), (8192, 0x10000)]) with
    grids := [(1, { record := recordWords 0 2 4 0, groups := 2, st := .running }), (9, { record := recordWords 1 0 0 0, qkey := scratchKey 0 8192 })] }

theorem witness_Launches :
    let s := launcher 0 2 0
    still s = true ∧ adm (.launch 9 1) s = true ∧ inScr s (s.reg 1) (s.reg 1).addr 64 permLD 64 .load (scratchKey 0 4096) = true ∧
      (checkAccess s (s.reg 2) 1 64 permLD 64 .load).1 = .error ⟨.capTag, 1⟩ ∧ s.curWave.widx = 0 ∧
      wordsOf (readKeys s (granulesAt (scratchKey 0 4096) 4)).1 = recordWords 0 2 2 0 ∧ (readKeys s (granulesAt (scratchKey 0 4096) 4)).2.1 = none ∧ recordBad s (recordWords 0 2 2 0) = false ∧
      recordBad s (recordWords 3 2 2 0) = true ∧ recKind (recordWords 0 2 2 0) = 0 ∧ someCoreFits s (recordWords 0 2 2 0) = true ∧ s.grids.length < 4096 ∧
      (s.grid? 2 = none) ∧ ((s.grid? 1).getD { record := [] }).depth ≠ 10 := by decide
/-- A graph node whose descriptor is at 8,192 of the scratch. -/
theorem witness_Launches_node :
    let r := recordWords 1 0 0 (0x7F * 2 ^ 48 + 8192)
    let s := launcher 1 0 (0x7F * 2 ^ 48 + 8192)
    recordBad s r = false ∧ recKind r = 1 ∧ (queuePlace s r s.curCore 0).1 = some (scratchKey 0 8192) ∧ (queuePlace s (recordWords 1 0 0 1) s.curCore 0).1 = none ∧
      someCoreFits s r = true := by decide
theorem witness_GrowthAndEmission :
    let s := launcher 0 2 0
    still s = true ∧ adm (.grow 9 2 3) s = true ∧ adm (.emit 9 1 5) s = true ∧ adm (.emit 9 0 5) s = true ∧ s.grid? 3 = none ∧ recKind (recordWords 0 2 4 0) = 0 ∧
      recGmax (recordWords 0 2 4 0) = 4 ∧ 2 + (s.lo 3).toNat ≤ 4 ∧ 4 < 2 + (s.lo 4).toNat ∧ ((s.grid? 9).map fun g => recKind g.record) = some 1 ∧ s.reg 0 = ⟨false, 0, 0⟩ ∧
      s.reg 1 ≠ ⟨false, 0, 0⟩ ∧ (let q := Queue.read s (scratchKey 0 8192)
        q.rsz = 1 ∧ q.slots = 4 ∧ (q.prod + 2 ^ 32 - q.cons) % 2 ^ 32 ≠ q.slots ∧ openSlots q + 1 = q.need) ∧
      inScr s (s.reg 1) (s.reg 1).addr 16 permLD 16 .load (scratchKey 0 4096) = true := by decide
/-- Batches of two: one slot of the open batch is written. -/
theorem witness_GrowthAndEmission_open :
    let q := Queue.read (poke (poke (launcher 0 2 0) (scratchKey 0 8200) (bytesOf 8 (2 ^ 41 + 2 ^ 32 + 4))) (scratchKey 0 8216) (bytesOf 8 1)) (scratchKey 0 8192)
    0 < openSlots { q with need := 3 } ∧ openSlots { q with need := 3 } + 1 ≠ 3 ∧ (q.prod + 2 ^ 32 - q.cons) % 2 ^ 32 ≠ q.slots ∧ ({ q with cons := 1, prod := 5 }.prod + 2 ^ 32 - 1) % 2 ^ 32 = q.slots := by decide
theorem witness_WaveStartAndExit : (demo regs0).cur = .wave 0 ∧ adm .exit (demo regs0) = true ∧ recStackLg (recordWords 0 2 2 0) = 0 ∧ 4096 + recScratch (recordWords 0 2 2 0) < 2 ^ 25 := by decide

/-- Grid 1 with a pool range of its die, a local range of core 0, a deferred one, and a group waiting in a shadow slot of core 8. -/
def pools : State := { launcher 0 2 0 with
  tasks := [⟨1, 0, 8, .pool 0, 0⟩, ⟨1, 8, 9, .core 0, 0⟩]
  cores := [(8, { shadow := [(0, { grid := 1, gidx := 5, soff := 0, slen := 4096, slots := [256], filled := 0 })] })] }

theorem witness_GridSteps :
    let s := pools
    (emptyShadow s 0).isSome = true ∧ bestTask s (usableLocal s 0) = some ⟨1, 8, 9, .core 0, 0⟩ ∧ Tbl.get? (s.core 8).shadow 0 ≠ none ∧ (s.grid? 1).isSome = true ∧
      Tbl.get? (s.core 0).shadow 0 = none ∧ windowCount s 0 < 16 ∧ s.cyc < 0 + 2000 ∧
      emptyShadow (s.modCore 0 fun c => { c with shadow := [(0, ⟨1, 0, 0, 0, [], 0, false⟩), (1, ⟨1, 0, 0, 0, [], 0, false⟩)] }) 0 = none := by decide
theorem witness_GridSteps_ends :
    let s := { demo [] with waves := [], cur := .none, grids := [(1, { record := recordWords 0 2 2 0, groups := 2, st := .running }), (9, { record := recordWords 1 0 0 0, first := 1 })],
                            groups := [(3, { grid := 1, gidx := 0, core := 0, waves := [], soff := 4096, slen := 4096 })] }
    let t := { s with groups := [] }
    releasable s 3 = true ∧ releasable s 4 = false ∧ (settleGrid s 4).grid? 4 = none ∧ ((settleGrid t 1).grid? 1).any (fun g => decide (g.st = .draining)) = true ∧
      gridQuiet (settleGrid t 1) 1 = true ∧ recCrec (recordWords 0 2 2 0) = false := by decide
/-- A deferred range whose grid has nothing else; a die that can grant nothing of its own. -/
theorem witness_GridSteps_ranges :
    let s := { launcher 0 2 0 with tasks := [⟨1, 2, 4, .deferred, 0⟩] }
    s.tasks.find? (fun t => t.grid = 1) = some ⟨1, 2, 4, .deferred, 0⟩ ∧ dieLive s 1 = true ∧ (⟨1, 2, 4, .deferred, 0⟩ : Task).lo < 4 := by decide
theorem witness_MasterRequests :
    let s := { launcher 0 2 0 with tasks := [⟨1, 2, 4, .pool 0, 0⟩] }
    let l := { launcher 0 2 0 with tasks := [⟨1, 2, 4, .core 0, 0⟩] }
    let d := dieCore 1 0 0
    dieLive s 1 = true ∧ Machine.asks s d = true ∧ grantable s d = (none, none) ∧ mayReceive s d 1 = true ∧
      bestTask s (s.tasks.filter fun t => (match t.hold with
        | .pool k => decide (k ≠ 1)
        | _ => false) && mayReceive s d t.grid) = some ⟨1, 2, 4, .pool 0, 0⟩ ∧
      stealFrom l (fun v => decide (coreDie v ≠ 1)) (mayReceive l d) = some ⟨1, 2, 4, .core 0, 0⟩ ∧ dieLive { s with dies := [(1, { fence := .cut })] } 1 = false := by decide
/-- A batch that is older than its time, and a grid whose record may be written. -/
theorem witness_GridSteps_records :
    let s := poke { launcher 0 2 0 with cyc := 5000, bar0 := { ercfg := 0x28 }, grids :=
      [(1, { record := (recordWords 0 2 2 0).set 6 (8 * 2 ^ 10 + 1 + 2 ^ 29), st := .retired }), (9, { record := recordWords 1 0 0 0, qkey := scratchKey 0 8192, first := 1 })] }
        (scratchKey 0 8200) (bytesOf 8 (2 ^ 41 + 2 ^ 32 + 4) ++ bytesOf 8 10 ++ bytesOf 8 1)
    let q := Queue.read s (scratchKey 0 8192)
    openSlots q ≠ 0 ∧ q.qt ≠ 0 ∧ 1 + q.qt ≤ s.cyc ∧ gridQuiet { s with waves := [] } 1 = true ∧ recCrec ((recordWords 0 2 2 0).set 6 (8 * 2 ^ 10 + 1 + 2 ^ 29)) = true ∧
      ringRoom s = true ∧ (s.grid? 1).any (fun g => decide (g.st = .retired ∧ g.recorded = false)) = true ∧ (s.grid? 9).any (fun g => decide (recKind g.record = 1 ∧ g.closed = false)) = true := by decide

/-! ### Messages and memory on their way -/

theorem witness_SupervisorInstructions :
    let m : FaultMsg := { m0 := 0x10 * 2 ^ 56, m3 := 4 }
    let s := ({ demo [(2, num (2 ^ 20)), (3, num 5), (4, num (2 ^ 63 + 2 ^ 20)), (5, num 1)] with grids := [(1, { record := [] })] }.setWave 1
      { live := true, grid := 1, group := 2, run := .waiting .fault, fault := some m }).modDie 0 fun d => { d with mailbox := [m] }
    adm (.mbxpop 9) s = true ∧ (s.die (coreDie (waveCore s.curW))).mailbox = [m] ∧ ((demo []).die 0).mailbox = [] ∧ adm (.wresume 2) s = true ∧ adm (.wkill 4) s = true ∧
      adm (.gkill 5) s = true ∧ findWave s (s.lo 2) = some 1 ∧ findWave s (s.lo 3) = none ∧ (s.lo 2).toNat / 2 ^ 62 < 2 ∧ 2 ≤ (s.lo 4).toNat / 2 ^ 62 ∧
      findWave s (s.lo 4) = some 1 ∧ (s.wave 1).fault = some m ∧ (s.wave 1).halt = false ∧ (s.wave 0).fault = none ∧
      (s.grid? 1).any (fun g => decide (g.st ≠ .retired)) = true ∧ s.grid? 2 = none := by decide
theorem witness_SupervisorInstructions_retired :
    let s := { demo [(5, num 1)] with grids := [(1, { record := [], st := .retired })] }
    adm (.gkill 5) s = true ∧ (s.grid? 1).any (fun g => decide (g.st = .retired)) = true ∧
      (match execGkill 5 s with
       | .next t => decide (t.curWave.svst = BitVec.ofNat 64 (3 * 2 ^ 56)) && decide (t.grids = s.grids)
       | _ => false) = true := by decide
/-- Messages on their way at cycle 2,000. -/
def posted : State := { demo [] with
  cyc := 2000
  net := {
    posts := [⟨0, {}, false, 0⟩, ⟨0, {}, true, 900⟩, ⟨0, {}, true, 1000⟩]
    arrivals := [⟨scratchKey 0 4096, 1, .agent (.wave 0), []⟩]
    credits := [⟨scratchKey 0 4096, 8, .grid, []⟩]
    wakes := [{ agent := .wave 0, d := 9, value := 1 }]
    phases := [{ core := 0, domain := 0, value := 1, due := 5 }, { core := 0, domain := 0, value := 1, due := 2000 }]
    bcasts := [{ core := 0, domain := 0, value := 1 }]
    replies2 := [{ agent := .wave 0, d := 9, value := 1 }]
    journal := [⟨0, 1, 0, 0, 1⟩] } }
theorem witness_MessageSteps :
    (posted.net.posts[0]?).any (fun p => !p.refused) = true ∧ (posted.net.posts[1]?).any (fun p => p.refused && decide (p.cyc + 1024 ≤ posted.cyc)) = true ∧
      (posted.net.posts[2]?).any (fun p => p.refused && !decide (p.cyc + 1024 ≤ posted.cyc)) = true ∧ (posted.die 0).mailbox.length < 64 ∧ bit (0 : Word) 22 = false ∧
      64 ≤ ((posted.modDie 0 fun d => { d with mailbox := List.replicate 64 {} }).die 0).mailbox.length := by decide
/-- A wait that is past the watchdog's limit. -/
theorem witness_MessageSteps_watchdog :
    expired (({ posted with cyc := 2 ^ 40 }.modDie 0 fun d => { d with wdog := 1 }).modWave 0 fun x => { x with run := .waiting .timed }) 0 = true ∧ expired posted 0 = false := by decide
theorem witness_MessageSteps_deliveries :
    paStorage posted 0 = true ∧ dieLive posted 0 = true ∧ paHome 0 = 0 ∧ pkgPresent posted 0 = true ∧ posted.net.arrivals[0]? = some ⟨scratchKey 0 4096, 1, .agent (.wave 0), []⟩ ∧
      (posted.net.wakes[0]?).any (fun k => decide (k.tree = none ∧ k.time = 0)) = true ∧ (posted.net.phases[0]?).any (fun m => decide (m.due < posted.cyc)) = true ∧
      (posted.net.phases[1]?).any (fun m => decide (posted.cyc ≤ m.due)) = true ∧ (posted.net.replies2[0]?).any (fun k => decide (k.agent ≠ .none)) = true ∧
      (({ posted with cur := .none }.modWave 0 fun x => { x with run := .waiting (.reply 9) }).wave 0).run = .waiting (.reply 9) := by decide
theorem witness_MemorySteps :
    let load : Req := { wave := 0, sid := 0, q := 1, kind := .load 9 0x40000 8 }
    let store : Req := { wave := 0, sid := 0, q := 1, kind := .store [(0x40000, [1])] false }
    let s : State := { demo [] with net := {
      reqs := [load, store, { load with kind := .atom 9 8 .add ⟨0, 0x40000, 1, 0, 0⟩ }, { load with kind := .load 9 (scratchKey 8 0) 8 }]
      replies := [{ wave := 0, data := .reg 9 (num 1), keys := [0x40000], sid := 0 }], acks := [⟨0, 0, 0, 0, false, 0, 1, 0⟩]
      mcasts := [⟨0x800, [load], 0, false⟩, ⟨0x800, [load], 90, true⟩], promotes := [(0, 0), (768 * 4, 0)], promoReps := [⟨0, 7, 8, false⟩] } }
    load.kind.isRead = true ∧ load.scratch = false ∧ store.kind.isWrite = true ∧ store.scratch = false ∧ (s.net.reqs[2]?).any (fun r => !r.kind.isRead && !r.kind.isWrite) = true ∧
      (s.net.reqs[3]?).any (fun r => r.scratch) = true ∧ homeLost s 0x40000 = false ∧ (s.wave 0).run ≠ .ended ∧
      morePending { s with net := { s.net with replies := [] } } 0 0 = true ∧ morePending { s with net := {} } 0 0 = false ∧
      0 + fld (s.die (homeDie (0x800 * 128))).mcfg 24 8 ≤ s.cyc ∧ s.cyc < 90 + fld (s.die (homeDie (0x800 * 128))).mcfg 24 8 ∧ isHbm (0x800 * 128) = true := by decide
theorem witness_MemorySteps_buffers :
    let e : Sgb := { line := 0x800, data := [(0, 7)], fgs := 1, writers := [0], last := 0 }
    let s := { gathered with cyc := 5000 }.modCore 0 fun c => { c with sgb := [e, { e with closed := true, sent := true, served := some (9, 0), fgs := 2 }, { e with last := 4000, closed := true, sent := true, fgs := 3 }] }
    e.closed = false ∧ e.last + 4096 ≤ s.cyc ∧ s.cyc < 4000 + 4096 ∧ (walk paged 0 0x10000).isSome = true ∧ (walk paged 0 0x20000).isNone = true ∧
      (let t := s.modWave 0 fun x => { x with run := .waiting (.lease 6000) }
       (t.wave 0).run = .waiting (.lease 6000) ∧ leaseNow t (coreDie (waveCore 0)) < 6000 ∧ 6000 ≤ leaseNow { t with cyc := 20000 } (coreDie (waveCore 0))) ∧
      dieLive s (coreDie 0) = true ∧ (s.core 0).active = none ∧ (s.core 0).log.getLast? = some 1 := by decide

/-! ### The ladle, events and streams -/

theorem witness_LadleInstructions :
    let s := demo [(1, room 4096 64), (2, num (7 * 2 ^ 60)), (4, room 8192 64), (5, room 8192 8), (6, num 0)]
    adm (.cqpush 0 9 1 4) s = true ∧ adm (.cqtry 0 9 1 4) s = true ∧ (s.reg 1).top - (s.reg 1).addr = 64 ∧ inScr s (s.reg 1) (s.reg 1).addr 64 permES 1 .load (scratchKey 0 4096) = true ∧
      (checkAccess s (s.reg 2) (s.reg 2).addr 0 permES 1 .load).1 = .error ⟨.capTag, 0⟩ ∧ requestBad 0 (s.reg 1) 64 (s.reg 4) = false ∧
      requestBad (BitVec.ofNat 64 (2 ^ 21)) (room 4097 64) 64 (s.reg 4) = decide (ccXF (BitVec.ofNat 64 (2 ^ 21)) = 1) ∧ outLen 0 0 64 = 64 ∧
      inScr s (s.reg 4) (s.reg 4).addr 64 permED 1 .store (scratchKey 0 8192) = true ∧ (checkAccess s (s.reg 5) (s.reg 5).addr 64 permED 1 .store).1 = .error ⟨.capBound, BitVec.ofNat 64 (0x7F * 2 ^ 48 + 8192)⟩ ∧
      (s.core 0).fifo.length < 32 ∧ s.curWave.copies < 30 ∧ 30 ≤ (s.modCur fun x => { x with copies := 30 }).curWave.copies ∧ adm (.cset 0 9 2) s = true ∧ adm (.cgete 0 9 3) s = true ∧
      adm (.ccancel 0 9) s = true ∧ commandBad (s.lo 6) = false ∧ commandBad (BitVec.ofNat 64 (2 ^ 36)) = true := by decide
/-- A plain copy of 8 bytes of scratch. -/
theorem witness_LadleSteps :
    let r : LReq := { ch := 0, src := room 4096 8, dst := room 8192 8, ccmd := 0, by_ := ⟨0, 0, 1, 1, 0, 0, 0⟩, seq := 1, len := 8, running := true }
    let s := (demo []).modCore 0 fun c => { c with fifo := [r] }
    headReq (s.core 0) 0 = some r ∧ beingSaved s 1 = false ∧ bit r.ccmd 56 = false ∧ min 8 (min (r.len - r.landed) (r.credited + 4096 - r.landed)) = 8 ∧ r.out = [] ∧ ccXF r.ccmd = 0 ∧
      s.net.reqs = [] ∧ 8 ∣ r.src.addr + 0 ∧ 8 ∣ r.dst.addr + 0 ∧ (engineWindow s 0 0 r.src.addr .load).1 = some ⟨scratchKey 0 4096, none⟩ ∧
      (engineWindow s 0 0 r.dst.addr .store).1 = some ⟨scratchKey 0 8192, none⟩ ∧ homeLost s (scratchKey 0 4096) = false ∧
      (∀ j < 8, extentHolds s 0 0 r.src.addr r.inLen (scratchKey 0 8192 + j) = false) ∧ { r with landed := 8 }.len ≤ 8 := by decide
theorem witness_EventsAndStreams :
    let t : Stream := { owner := some 0, ch := 0, spans := [{ seq := 1, base := 0x7F * 2 ^ 48 + 4096, len := 8, size := 4 }] }
    let s := (demo [(1, num 5), (2, num (2 ^ 6 + 2 ^ 7 + 5))]).modCore 0 fun c => { c with streams := [(0, t)], cdone := [(0, 1)] }
    adm (.evset 1 2) s = true ∧ adm (.evrd 9 1) s = true ∧ (s.lo 1).toNat.testBit 6 = false ∧ (s.lo 2).toNat.testBit 6 = true ∧ (s.lo 2).toNat.testBit 7 = true ∧
      adm (.cbind 0 0) s = true ∧ adm (.cunbind 0) s = true ∧ adm (.spop 9 0) s = true ∧ adm (.vspop 9 0) s = true ∧ (Tbl.get {} (s.core 0).streams 0).owner = some s.curW ∧
      (Tbl.get {} (s.core 0).streams 1).owner = none ∧ popOne (s.core 0) t = some ((4, some (0x7F * 2 ^ 48 + 4096, 4)), { t with pos := 4 }) ∧ popOne (s.core 0) { t with spans := [] } = none ∧
      (window s 0 s.curAsid (0x7F * 2 ^ 48 + 4096) .load).1 = some ⟨scratchKey 0 4096, none⟩ ∧ wideStream t = false ∧
      popOne (s.core 0) { t with spans := [{ seq := 2, base := 0, len := 8, size := 4, cut := some 0 }] } = some ((4, none), { t with spans := [{ seq := 2, base := 0, len := 8, size := 4, cut := some 0 }], pos := 4 }) ∧
      (popMany (s.core 0) 3 t).isNone = true := by decide

/-! ### The press and the harp -/

def dense : Window := ⟨false, 0, 8, [0]⟩
def hashed : Window := ⟨true, 8, 8, [0]⟩
def drains : REntry := { ctx := 0, op := .drain true, fpc := 0, word := 0, ma := BitVec.ofNat 64 (2 ^ 48), mb := 0, regs := [], posted := 0, granted := true }

theorem witness_PressRegistersAndWindows :
    let s := seqr [(1, 0x0000FFFF1FFF1F1F), (2, BitVec.ofNat 64 (2 ^ 48 + 2 ^ 10 + 8)), (3, 3), (4, BitVec.ofNat 64 (16 * 2 ^ 16 + 8 + 2 * 2 ^ 48)), (5, BitVec.ofNat 64 8)] [] [(0, dense), (1, hashed)]
    adm (.pset 1 1) s = true ∧ s.lo 1 &&& ~~~(0x0000FFFF1FFF1F1F : Word) = 0 ∧ s.lo 1 &&& ~~~(3 : Word) ≠ 0 ∧ adm (.pset 0 0) s = true ∧ (s.lo 0).toNat % 2 ^ 62 = 0 ∧ (s.lo 3).toNat % 2 ^ 62 ≠ 0 ∧
      adm (.pget 9 14) s = true ∧ adm (.pres 9 4) s = true ∧ adm (.prel 5) s = true ∧ Tbl.get? (s.vat 0).wins 1 = some hashed ∧ Tbl.get? (s.vat 0).wins 2 = none ∧
      (s.lo 4).toNat % 2 ^ 10 = 8 ∧ (s.lo 4).toNat / 2 ^ 16 % 2 ^ 9 = 16 ∧ (s.lo 4).toNat / 2 ^ 48 % 8 = 2 ∧ (s.lo 4).toNat / 2 ^ 10 % 2 ^ 6 = 0 ∧ (s.lo 4).toNat / 2 ^ 25 % 2 ^ 23 = 0 ∧ (s.lo 4).toNat / 2 ^ 52 = 0 ∧
      (∀ o ∈ (s.vat 0).wins, ¬(o.2.baseu < 16 + 8 ∧ 16 < o.2.baseu + o.2.sizeu)) ∧ (s.lo 2).toNat / 2 ^ 10 % 2 ^ 6 ≠ 0 ∧ holdsWin s 0 0 0 = true ∧ holdsWin s 0 0 3 = false ∧ (s.vat 0).rtab = [] ∧
      (∃ e ∈ ((seqr [] [] [] [drains]).vat 0).rtab, e.ctx = 0) := by decide
/-- GEOM 2 rows, 2 columns, 1 block of 8 bits each; NW 64 units; JCFG formats 1, 1 and 16 probes. -/
def pressed : State :=
  seqr [(1, 64), (2, 128), (3, BitVec.ofNat 64 (2 ^ 48))]
    [(1, BitVec.ofNat 64 (2 * 2 ^ 40 + 2 * 2 ^ 32 + 2 ^ 16 + 8 * 2 ^ 8 + 8)), (2, BitVec.ofNat 64 (128 * 2 ^ 32 + 128)), (5, BitVec.ofNat 64 64), (8, BitVec.ofNat 64 (2 * 2 ^ 32 + 2)),
     (9, BitVec.ofNat 64 (2 ^ 56 + 2 ^ 48 + 16 * 2 ^ 32))] [(0, dense), (1, hashed)]
theorem witness_PressOperations :
    let s := pressed
    let x := s.ctx 0 0
    let t := s.modCtx 0 0 fun x => { x with regs := Tbl.set x.regs 5 (BitVec.ofNat 64 (2 ^ 16 + 64)) }
    adm (.ppass 1 2) s = true ∧ adm (.pclr 3) s = true ∧ adm (.pjoin 1 2) t = true ∧ adm (.pdrainO 3) s = true ∧ Tbl.get? (s.vat 0).wins 0 = some dense ∧ dense.holders.contains 0 = true ∧
      (0 + 2 - 1 - 0) * 64 + (0 + 2 - 1 - 0) < 64 * dense.sizeu ∧ passTrap s 0 0 x (Instr.ppass 1 2).code 64 128 = none ∧ (passTrap s 0 0 x (Instr.ppass 1 2).code 65 128).isSome = true ∧
      holdsWin s 0 0 1 = true ∧ holdsWin s 0 0 2 = false ∧ 8 ∣ (s.lo 1).toNat ∧ (s.lo 1).toNat + (2 - 1) * 128 + 1 * (8 + 8 * 8) ≤ x.arena.top - x.arena.base ∧
      joinTrap t 0 0 (t.ctx 0 0) (Instr.pjoin 1 2).code 64 128 = none ∧ (joinTrap s 0 0 x (Instr.pjoin 1 2).code 64 128).isSome = true ∧
      (Tbl.get 0 (t.ctx 0 0).regs 10).toNat.testBit 63 = false ∧ (s.vat 0).rtab.length < 16 ∧ (portCheck s x 0 1 false).1 = .error ⟨.align, 1⟩ ∧
      8 ≤ ((List.replicate 8 drains).filter fun e : REntry => e.ctx = 0).length := by decide
/-- A port at offset 0 of the arena: a capability with CAPLG 0 below it. -/
theorem witness_PressOperations_port :
    let s := pokeCap pressed (scratchKey 0 4096) (room 8192 4096)
    portCheck s (s.ctx 0 0) 0 0 false = (.ok (room 8192 4096, 0), s) := by
  have h : (portCheck (pokeCap pressed (scratchKey 0 4096) (room 8192 4096)) ((pokeCap pressed (scratchKey 0 4096) (room 8192 4096)).ctx 0 0) 0 0 false).1 =
    .ok (room 8192 4096, 0) := by decide +kernel
  exact Prod.ext h (by decide +kernel)
theorem witness_ContextStartAndStop :
    let s := demo [(1, room 4096 4096), (2, num 1), (4, room 8192 4096), (5, Cap.make 0xFF 0x10000 4096 0x10000)]
    let inside (c : Cap) : Prop := (c.base / 2 ^ 48 = 0x7E ∨ c.base / 2 ^ 48 = 0x7F) ∧ 0 < c.top ∧ (c.top - 1) / 2 ^ 48 = c.base / 2 ^ 48
    adm (.mstart 9 1 4) s = true ∧ adm (.mstop 9 2) s = true ∧ startTrap (s.reg 1) (s.reg 4) = none ∧ (startTrap (s.reg 1) (s.reg 2)).isSome = true ∧ (s.reg 2).tag = false ∧
      inside (s.reg 4) ∧ ¬inside (s.reg 5) ∧ groupCtx s s.curCore s.curWave.group = none ∧ (s.ctx 0 0).st = .free ∧
      (let t := { s with vats := (pressed).vats }
       groupCtx t t.curCore t.curWave.group = some 0 ∧ (t.ctx 0 0).st = .run ∧ (s.lo 2).getLsbD 0 = true ∧ (s.lo 0).getLsbD 0 = false) := by decide
theorem witness_PressSteps :
    let clr : REntry := { ctx := 0, op := .clear, fpc := 0, word := 0, ma := 0, mb := 0, regs := [], posted := 0 }
    let s := seqr [] [] [(0, dense), (1, hashed)] [clr]
    clr.ctx < 4 ∧ clr.granted = false ∧ gateOpen s 0 clr.gated clr.sink = true ∧ beingSaved s (s.ctx 0 0).group = false ∧ winAt s 0 (clr.ma.toNat / 2 ^ 48 % 8) = some dense ∧
      bit (Tbl.get 0 clr.regs 6) 7 = false ∧ winAt s 0 (fld drains.ma 48 3) = some hashed ∧ drains.since + 64 ≤ s.cyc ∧ s.cyc < { drains with since := 60 }.since + 64 ∧
      (((seqr [] [] []).modCtx 0 0 fun x => { x with st := .stopping }).ctx 0 0).st = .stopping := by decide
/-- A gather of two rows of two 4-byte elements: table 8,192, indices 12,288, output 16,384. -/
def harped : State :=
  [(room 8192 4096 1), (room 12288 8), num 0, (room 16384 4096), ⟨false, 0, BitVec.ofNat 64 (2 * 2 ^ 48)⟩].zipIdx.foldl
    (fun s x => pokeCap s (scratchKey 0 (4096 + 16 * x.2)) x.1) (demo [(1, room 4096 128), (2, num 1)])
def harpReq : HReq :=
  { op := 0, block := room 4096 128, tbl := room 8192 4096 1, idx := room 12288 8, aux := num 0, dst := room 16384 4096, h0 := BitVec.ofNat 64 (2 * 2 ^ 48), h1 := 0,
    core := 0, by_ := harped.pusher }
theorem witness_Harp :
    let s := harped
    adm (.hgath 9 1) s = true ∧ inScr s (s.reg 1) (s.reg 1).addr 128 (permLD + permLC) 64 .load (scratchKey 0 4096) = true ∧
      (checkAccess s (s.reg 2) 1 128 (permLD + permLC) 64 .load).1 = .error ⟨.capTag, 1⟩ ∧ (readKeys s (granulesAt (scratchKey 0 4096) 5)).1 = [harpReq.tbl, harpReq.idx, harpReq.aux, harpReq.dst, ⟨false, 0, harpReq.h0⟩] ∧
      blockTrap harpReq.tbl permES = none ∧ blockTrap harpReq.idx permES = none ∧ blockTrap harpReq.dst permED = none ∧ harpBad harpReq = false ∧ harpBad { harpReq with h0 := 0 } = true ∧
      inScr s harpReq.idx harpReq.idx.addr 8 permES 1 .load (scratchKey 0 12288) = true ∧ harpReq.idx.top - harpReq.idx.addr = 8 ∧ harpReq.count * harpReq.outRow ≤ 4096 ∧
      inScr s harpReq.dst harpReq.dst.addr (harpReq.count * harpReq.outRow) permED 1 .store (scratchKey 0 16384) = true ∧ (s.vat 0).harp = [] ∧ beingSaved s 1 = false ∧
      bit harpReq.h1 56 = false ∧ (harpRun s 0 { harpReq with running := true } none true).2.1 = none := by decide

/-! ### Rays, treelets and the directory -/

/-- 2^288: a ray of treelet 1 that is else 0. -/
def ray1n : Nat := 2 ^ 255 * 2 ^ 33

/-- Core 0 holds treelet 1 (two nodes, one triangle, one port) in slot 0; c1 has a ray of treelet 1, c4 one of treelet 2. -/
def rays : State :=
  ([(0, 2 ^ 40 + 2 ^ 32 + 2 * 2 ^ 16 + 1), (8, 2 ^ 48 + 1024), (16, 512 * 2 ^ 32 + 128), (24, 768)].foldl (fun s m => poke s (slotKey 0 0 + m.1) (bytesOf 8 m.2))
    (demo [(1, room 4096 64), (2, num 1), (3, num 2), (4, room 8192 64), (5, num (2 * 2 ^ 30)), (6, num 0)] [(4128, 2 ^ 32), (8224, 2 * 2 ^ 32), (8232, 0xFFFFF)])).modCore 0 fun c => { c with
      tslots := [(0, { tid := 1, total := 1024, landed := true })], inbox := [BitVec.ofNat 512 ray1n] }
theorem witness_Traversal :
    let s := rays
    still s = true ∧ adm (.rbox4 9 1 2) s = true ∧ adm (.rtri 9 1 5) s = true ∧ adm (.rroute 9 1 6) s = true ∧ inScr s (s.reg 1) (s.reg 1).addr 64 permLD 1 .load (scratchKey 0 4096) = true ∧
      inScr s (s.reg 1) (s.reg 1).addr 64 (permLD + permST) 1 .store (scratchKey 0 4096) = true ∧ 64 ∣ (s.reg 1).addr ∧ (s.reg 1).addr / 2 ^ 48 = 0x7F ∧
      slotOf s 0 (Ray.tid (BitVec.ofNat 512 (readNat s.mem (scratchKey 0 4096) 64))) = some 0 ∧ slotOf s 0 (Ray.tid (BitVec.ofNat 512 (readNat s.mem (scratchKey 0 8192) 64))) = none ∧
      (let h := Header.read s (slotKey 0 0)
       h.nnode = 2 ∧ (s.lo 2).toNat % 512 < 2 ∧ 2 ≤ (s.lo 3).toNat % 512 ∧ h.ntri = 1 ∧ h.nport = 1 ∧ (s.lo 6).toNat % 2 ^ 12 < 1 ∧
       (s.lo 5).toNat / 2 ^ 30 = 2 ∧ (s.lo 5).toNat / 2 ^ 18 % 2 ^ 12 = 0 ∧ 0 + (s.lo 5).toNat % 64 + 1 ≤ h.ntri) ∧ routeTo s 0 1 = .here ∧ routeTo s 0 2 = .dir := by decide
/-- The triangle's reals are all 0: the ray lies in a degenerate plane, and is not accepted. -/
theorem witness_Traversal_triangle : (testTris rays (slotKey 0 0) (Header.read rays (slotKey 0 0)) 1 0 (BitVec.ofNat 512 ray1n) false).2 = false := by decide +kernel
/-- A box of side 2 about the origin, and a ray along x from −3: it enters at 2 and leaves at 4. A triangle in the plane x = 0. -/
theorem witness_UnitArithmetic :
    boxEntry [-3, 0, 0, 1, 0, 0, 0, 10] [-1, -1, -1, 1, 1, 1] = some 2 ∧ triHit [-3, 0, 0, 1, 0, 0, 0, 10] [0, -1, -1, 0, 2, -1, 0, -1, 2] false false = some (3, 1 / 3, 1 / 3) ∧
      (⟨255, [], []⟩ : PlaneBlock).sc = 255 ∧ (⟨0, [], []⟩ : PlaneBlock).sc ≠ 255 ∧ (⟨127, [1], []⟩ : PlaneBlock).sc ≠ 0 := by
  refine ⟨?_, ?_, rfl, by decide, by decide⟩
  · norm_num [boxEntry, slab]
  · norm_num [triHit, sub3, cross, dot3]
theorem witness_RayAndTreeletInstructions :
    let s := rays
    still s = true ∧ adm (.rrecv 9 1 2) s = true ∧ adm (.rsend 9 1 2) s = true ∧ adm (.rhit 9 1) s = true ∧ (s.core 0).rrecv = [] ∧ (s.core 0).inbox = [BitVec.ofNat 512 ray1n] ∧
      (s.core (waveCore s.curW)).sgb = [] ∧ inScr s (s.reg 1) (s.reg 1).addr 64 permST 1 .store (scratchKey 0 4096) = true ∧ (s.lo 2).getLsbD 0 = true ∧ (s.lo 3).getLsbD 0 = false ∧
      ((demo []).core 0).inbox = [] ∧ ringHasRoom (s.core 0) = false ∧ ringHasRoom ({ s.core 0 with rayovf := BitVec.ofNat 64 (8 * 2 ^ 51) }) = true ∧ corePresent s 0 = true ∧ corePresent s 0xFFFFF = false ∧
      adm (.tlreq 9 2 3) s = true ∧ adm (.tlevict 9 2) s = true ∧ (slotOf s 0 1).isSome = true ∧ slotOf s 0 2 = none ∧ (s.lo 3).getLsbD 1 = true ∧ (s.lo 2).getLsbD 1 = false := by decide
theorem witness_RayAndTreeletInstructions_bind :
    let s := launcher 2 0 0
    adm (.hqbind 9 1 2) s = true ∧ adm (.hqbind 9 0 0) s = true ∧ s.reg 0 = ⟨false, 0, 0⟩ ∧ programBound (s.core 0) = false ∧
      programBound { s.core 0 with hprog := some { grid := 1, hqt := 0, slot := 1, blocks := 2, soff := 0, slen := 0 } } = true ∧
      inScr s (s.reg 1) (s.reg 1).addr 64 permLD 64 .load (scratchKey 0 4096) = true ∧
      (let r := (recordWords 2 0 2 0).set 6 (16 * 2 ^ 10 + 1)
       recordBad s r = false ∧ recKind r = 2 ∧ fitsNow s r s.curCore = true) ∧ recordBad s (recordWords 2 0 2 0) = true ∧ (s.core 0).hprog = none := by decide
theorem witness_RayAndDirectorySteps :
    let r1 : Ray := BitVec.ofNat 512 ray1n
    let r2 : Ray := BitVec.ofNat 512 (2 * ray1n)
    let s := { rays with net := { rays := [(0xFFFFF, r1), (0, r2), (0, r1)], hits := [(0, r1)] } }
    let full := s.modCore 0 fun c => { c with inbox := List.replicate 256 r1 }
    let h : HitProg := { grid := 1, hqt := 50, slot := 1, blocks := 2, soff := 0, slen := 0 }
    let bound := s.modCore 0 fun c => { c with hprog := some h, hits := [(r1, 40)] }
    corePresent s 0xFFFFF = false ∧ rayReady full 0 r1 = false ∧ slotOf s 0 r2.tid = none ∧ slotOf s 0 r1.tid = some 0 ∧ (s.core 0).inbox.length < fld (s.core 0).raycfg 0 9 ∧
      Tbl.get? (s.core 0).tslots 0 = some { tid := 1, total := 1024, landed := true } ∧ 0 + 1 < 2 ^ fld (s.core 0).raycfg 37 3 ∧ (s.core 0).ovfN = 0 ∧
      (s.modCore 0 fun c => { c with ovfN := 1 }).core 0 ≠ s.core 0 ∧ programBound (s.core 0) = false ∧ programBound (bound.core 0) = true ∧ (bound.core 0).hits.length < 32 ∧
      h.hqt ≠ 0 ∧ 40 + h.hqt ≤ s.cyc ∧ s.cyc < 60 + h.hqt := by decide
/-- A directory of 4 entries at 0x1_0000 of package 0, whose host 0 is core 8; `e` is DE1 of treelet 1. -/
def directory (e : Nat) : State :=
  [(0x10000 - 512, 2 ^ 31 + 8), (0x10018, e), (0x10010, 2 ^ 64 - 256)].foldl (fun s m => poke s m.1 (bytesOf 8 m.2))
    { demo [] with packages := [(0, { dircfg := BitVec.ofNat 64 (2 ^ 40 + 2 * 2 ^ 35) })], net := { tlreqs := [⟨1, 8, 0, 9, false, false⟩, ⟨1, 0, 0, 9, false, false⟩], dirRays := [BitVec.ofNat 512 ray1n] } }
theorem witness_RayAndDirectorySteps_directory :
    let cold := directory (2 ^ 61 + 2)
    let resident := (directory (3 * 2 ^ 61 + 8 * 2 ^ 41 + 2)).modCore 8 fun c => { c with tslots := [(0, { tid := 1, total := 1024, landed := true })] }
    let loading := (directory (2 * 2 ^ 61 + 8 * 2 ^ 41 + 2)).modCore 8 fun c => { c with tslots := [(0, { tid := 1, total := 1024 })] }
    dirState (directory 0) 1 = 0 ∧ dirState (touchEntry cold 1) 1 = 1 ∧ dirState resident 1 = 3 ∧ dirOwner resident 1 = 8 ∧ dirState loading 1 = 2 ∧ dirState (directory (4 * 2 ^ 61 + 2)) 1 = 4 ∧
      (slotOf resident 8 1).isSome = true ∧ slotOf resident 0 1 = none ∧ transferDone loading 1 8 = true ∧ (loading.dir 1).starter = none ∧ (loading.dir 1).pend = [] ∧
      pendCount cold (dirTile cold 1) < 64 ∧ cold.net.tlreqs[0]? = some ⟨1, 8, 0, 9, false, false⟩ ∧
      (loading.core 8).tslots.any (fun x => decide (x.2.tid = 1 ∧ x.2.total = 0) && !x.2.landed) = false := by decide
theorem witness_RayAndDirectorySteps_hosts : let cold := directory (2 ^ 61 + 2)
    ((rhtHosts cold 1).contains 8 && hostFits cold 1 8) = true ∧ ((rhtHosts cold 1).contains 0 && hostFits cold 1 0) = false := by decide

/-! ### The exchange -/

/-- The port of core 0 in a state: its bank 0 has the spec's entries "TX→B, 0, 64" (20) and "RX from A, START 3, 4 beats" (16 R391 example). -/
def ported (st : PortSt) : State :=
  (demo [(1, room 4096 2048), (2, num 0), (3, num 1), (4, room 4096 2040)] [(8192, 252 * 2 ^ 32 + 2), (8208, 0x0000000040001403), (8224, 0x8000003004000803), (8232, 0x8000000000000080)]).modCore 0 fun c => { c with
    port := { st := st, owner := 0, start := 90, banks := [(0, [BitVec.ofNat 64 (252 * 2 ^ 32 + 2), 0x0000000040001403, 0, 0x8000003004000803, 0x8000000000000080])], owners := [(0, 1)], member := [(0, true)], seen := [(0, ⟨5, 90, none⟩)] } }
theorem witness_ExchangePlane :
    let s := ported .run
    let p := { (s.core 0).port with sends := [(0, room 4096 2048)], lands := [(1, room 8192 128)] }
    p.nextSend = some (0, 0) ∧ p.start + 0 < s.cyc ∧ s.cyc ≤ p.start + 10 ∧ s.cyc - p.start ≤ tablePlen p.table ∧ tablePlen p.table < 90 + 300 - p.start ∧ (∀ e ∈ tableEntries p.table, e.2.beats ≠ 0) ∧
      (tableEntry p.table 0).rx = false ∧ (tableEntry p.table 0).beats = 64 ∧ (tableEntry p.table 1).rx = true ∧ (tableEntry p.table 1).start = 3 ∧ (tableEntry p.table 1).beats = 4 ∧
      Tbl.get? p.lands 1 = some (room 8192 128) ∧ Tbl.get? p.lands 0 = none ∧ (tableEntry p.table 1).be = true ∧ (tableEntry [0, 0, 0, 0x8000003004000803, 0] 1).be = false ∧ (1, tableEntry p.table 1) ∈ tableEntries p.table := by decide
/-- At (1, 0) in one cycle: a beat that goes straight on to the east, and one that its core sends; both want the link to (2, 0). -/
theorem witness_ExchangePlane_links :
    let x : Beat := ⟨coreOf 0 0, coreOf 3 0, [], 10⟩
    let y : Beat := ⟨coreOf 1 0, coreOf 3 0, [], 11⟩
    x.link 11 = y.link 11 ∧ x.straight 11 = true ∧ y.straight 11 = false := by decide
theorem witness_ExchangeInstructions :
    let s := ported .idle
    let t := ported .armed
    let c : Cap := room 8192 48
    still s = true ∧ adm (.xslots 9 1 2) s = true ∧ adm (.xsel 9 2) s = true ∧ adm (.xph 9 2 3) s = true ∧ adm (.xmit 9 1 2) t = true ∧ adm (.xrecv 9 1 3) t = true ∧ adm (.xend 9 3) t = true ∧
      inScr s c c.addr 16 permLD 16 .load (scratchKey 0 8192) = true ∧ inScr s c c.addr 48 permLD 16 .load (scratchKey 0 8192) = true ∧ c.addr / 2 ^ 48 = 0x7F ∧
      headerBad (memWord s (scratchKey 0 8192)) (memWord s (scratchKey 0 8200)) = false ∧ headerBad 0 0 = true ∧
      tableBad (coreOf 5 5) (Tbl.get [] (t.core 0).port.banks 0) = false ∧ (s.core 0).port.st = .idle ∧ (t.core 0).port.st = .armed ∧ (t.core 0).port.owner = t.curW ∧ (t.core 0).port.bank = 0 ∧
      Tbl.get 0 (s.core 0).port.owners 0 = s.curWave.grid ∧ Tbl.get false (s.core 0).port.member 0 = true ∧ tableNent (Tbl.get [] (s.core 0).port.banks 0) ≠ 0 ∧
      (5 + 2 ^ 32 - 1) % 2 ^ 32 < 2 ^ 31 ∧ ¬(5 + 2 ^ 32 - 6) % 2 ^ 32 < 2 ^ 31 := by decide
theorem witness_ExchangeInstructions_slots :
    let t := ported .armed
    let r := ported .run
    let p := (t.core 0).port
    tableNent p.table = 2 ∧ (tableEntry p.table 0).rx = false ∧ (tableEntry p.table 1).rx = true ∧ inScr t (t.reg 1) (t.reg 1).addr (32 * 64) permES 32 .load (scratchKey 0 4096) = true ∧
      inScr t (t.reg 1) (t.reg 1).addr (32 * 4) permED 32 .store (scratchKey 0 4096) = true ∧ Tbl.get? p.sends 0 = none ∧ (t.lo 2).toNat % 2 ^ 6 = 0 ∧ (t.lo 3).toNat % 2 ^ 6 = 1 ∧
      (tableEntry (r.core 0).port.table 0).start ≤ (r.core 0).port.xc r.cyc + 8 ∧ (t.lo 3).getLsbD 0 = true ∧ (t.lo 2).getLsbD 0 = false ∧ ((ported .done).core 0).port.st = .done ∧ (t.lo 0).toNat % 2 ^ 6 = 0 := by decide
/-- Domain 0 of die 0 is free, or belongs to grid 1 with core (0, 0) a member. -/
theorem witness_ExchangeInstructions_domains :
    let s := demo [(1, room 4096 32), (2, num 256), (3, num 0), (4, num 512), (5, num 768)] [(4096, 1), (4120, 1)]
    let k := domainKey 0 0
    let t := [(k + 32, 1), (k + 56, 2 ^ 32 + 1)].foldl (fun s m => poke s m.1 (bytesOf 8 m.2)) s
    still s = true ∧ adm (.dbar 9 2 1) s = true ∧ adm (.dbar 9 3 1) s = true ∧ arrivalHeld s = false ∧ (s.lo 2).toNat / 2 ^ 8 % 4 = 1 ∧ (s.lo 3).toNat / 2 ^ 8 % 4 = 0 ∧ (s.lo 4).toNat / 2 ^ 8 % 4 = 2 ∧
      (s.lo 5).toNat / 2 ^ 8 % 4 = 3 ∧ domainOwner s 0 0 = 0 ∧ domainOwner t 0 0 = 1 ∧ t.curWave.grid = 1 ∧ (readNat t.mem (k + 32) 24).testBit (tileOf t.curCore) = true ∧
      inScr s (s.reg 1) (s.reg 1).addr 32 permLD 32 .load (scratchKey 0 4096) = true ∧ (readKeys s (granulesAt (scratchKey 0 4096) 2)).2.1 = none ∧ (let w := wordsOf (readKeys s (granulesAt (scratchKey 0 4096) 2)).1
        (w.getD 0 0).toNat = 1 ∧ (w.getD 3 0).toNat = 1) ∧ corePresent s (dieTile 0 0) = true ∧ (Bar.read t k).wcnt = 0 := by decide

/-! ### Pre-emption, dies, the host -/

/-- Wave 1 of group 2 of grid 1 is no supervisor; wave 0 is. -/
def grouped : State := { demo [(2, num (2 ^ 20)), (3, num 0), (4, num 5), (5, num (2 ^ 20)), (6, room 65536 65536)] with
  waves := [(0, wave0 [(2, num (2 ^ 20)), (3, num 0), (4, num 5), (5, num (2 ^ 20)), (6, room 65536 65536)]), (1, { live := true, grid := 1, group := 2 })]
  grids := [(1, { record := recordWords 0 2 2 0, st := .running })]
  groups := [(2, { grid := 1, gidx := 0, core := 0, waves := [1], soff := 4096, slen := 4096 })] }
theorem witness_PreemptionSavesAndDebug :
    let s := grouped
    let t := { s with groups := [(2, { grid := 1, gidx := 0, core := 0, waves := [1], soff := 4096, slen := 4096, saving := some (room 65536 65536, 0, 9) })] }
    adm (.dbghalt 2) s = true ∧ adm (.dbgrun 2) s = true ∧ adm (.gpreempt 9 5) s = true ∧ findWave s (s.lo 2) = some 1 ∧ findWave s (s.lo 4) = none ∧ findWave s (s.lo 3) = some 0 ∧
      groupWaves s 2 = [1] ∧ (s.wave 1).sup = false ∧ s.curW = 0 ∧ beingSaved s 2 = false ∧ beingSaved t 2 = true ∧ (groupMap s 2).len ≤ 65536 ∧
      inScr s (s.reg 6) (s.reg 6).addr (groupMap s 2).len permST 64 .store (scratchKey 0 65536) = true ∧ (checkAccess s (s.reg 5) 0 64 permST 64 .store).1 = .error ⟨.capTag, 0⟩ ∧
      Tbl.get? s.groups 1 = none ∧ Tbl.get? s.groups 2 ≠ none ∧ groupWaves { t with waves := [] } 2 = [] ∧ s.saved[0]? = none := by decide
theorem witness_PreemptionSavesAndDebug_ready :
    let g : Group := { grid := 1, gidx := 0, core := 0, waves := [1], soff := 4096, slen := 4096, saving := some (room 65536 65536, 0, 9) }
    saveReady { grouped with groups := [(2, g)] } 2 g = true ∧
      saveReady ({ grouped with groups := [(2, g)] }.modWave 1 fun x => { x with loads := 1, pend := [9], run := .waiting (.reply 9) }) 2 g = false ∧
      imageBad [] (recordWords 0 2 2 0) = true := by decide
theorem witness_DiesAndFences :
    let s := demo []
    dieLive s 1 = true ∧ pkgPresent s 0 = true ∧ 1 ≠ referenceDie s ∧ skewHeld s 1 ((s.die 1).skew + 1) = true ∧ skewHeld s 1 100 = false ∧ s.master = 0 := by decide
theorem witness_DiesAndFences_live : 3 ∈ liveDies (demo []) ∧ 4 ∉ liveDies (demo []) ∧ liveDies (demo []) ≠ [] := by decide
theorem witness_HostAccess :
    let s := { demo [] with up := true }
    s.up = true ∧ (demo []).up = false ∧ s.bar0.slotst.getLsbD 63 = false ∧ (recordWords 0 2 2 0).length = 8 ∧ recordBad s (recordWords 0 2 2 0) = false ∧
      recordBad s (recordWords 2 0 0 0) = true ∧ someCoreFits s (recordWords 0 2 2 0) = true ∧ s.grids.length < 4096 ∧ s.bar0.tgbusy = none ∧ paStorage s 0x1000 = true ∧
      homeBad s 0x1000 = false ∧ 16 ∣ 0x1000 ∧ s.bar0.tlbinv.getLsbD 63 = false ∧ (BitVec.ofNat 64 (7 * 2 ^ 61) : Word).getLsbD 62 = true ∧ pkgPresent s (0 / 4) = true ∧
      0x1000 / 2 ^ 40 ≠ 0xFF ∧ 0x1000 % 128 + 128 ≤ 128 ∧ paStorage s (0x70 * 2 ^ 40) = false := by decide
theorem witness_HostAccess_full : someCoreFits (demo []) (recordWords 0 2 2 0 |>.set 6 (128 * 2 ^ 10 + 16)) = true ∧ (recordWords 0 2 2 0).tail.length ≠ 8 := by decide
theorem witness_PlatformManagement :
    let s := { demo [] with up := true }
    ((s.vat 0).stretched = false) ∧ ((s.modVat 0 fun v => { v with stretched := true }).vat 0).stretched = true ∧ (919 : Int) < 920 ∧ (List.replicate 32 (0 : Byte)).length = 32 ∧ ([] : List Byte).length ≠ 32 ∧
      (demo []).up = false ∧ Tbl.get? s.ctrl.records s.ctrl.next = none ∧ s.grids = [] ∧ s.groups = [] ∧ coreDie 0 = 0 ∧
      (let t := { s with cyc := 1000, bar0 := { s.bar0 with icoal := [(2, 0x8000000400000014)], oldest := [(2, 300)] } }
       Tbl.get? t.bar0.oldest 2 = some 300 ∧ (icoal t 2).getLsbD 63 = true ∧ (icoal t 2).toNat % 2 ^ 32 ≠ 0 ∧ 300 + (icoal t 2).toNat % 2 ^ 32 ≤ leaseNow t 0 ∧
         leaseNow t 0 < 390 + (icoal t 2).toNat % 2 ^ 32) := by decide
theorem witness_PlatformManagement_live : coreDie 0 ∈ liveDies { demo [] with up := true } := by decide

/-! ### More states, for clauses of the statements one by one -/

/-- Where messages are left in flight: what an access asks leaves, and nothing holds a fence. -/
theorem witness_split :
    let s := demo regs0
    (ReqKind.load 9 0x40000 8).parts ≠ [] ∧ inQueue s 0 s.reqNo = false ∧ (s.core (waveCore s.curW)).sgb = [] ∧
      Spec.latest s.curWave (fun _ => true) + Spec.guard 6 ≤ leaseNow s s.curDie ∧ s.net.reqs = [] ∧ arrivalHeld s = false ∧
      inScr s (s.reg 1) (s.reg 1).addr 8 permLD 8 .load (scratchKey 0 4096) = true ∧ adm (.acq 9 1 6) s = true ∧ adm (.barv 1) s = true ∧ adm (.evsig 1) s = true := by decide
/-- Accesses to the page at 0x1_0000, whose place is at 0x4_0000. -/
theorem witness_page :
    let s := paged
    let v := s.modCur fun x => { x with nc := only2, v := [(8 * 32 + 1, 4)] }
    (match checkAccess s (s.reg 10) (s.reg 10).addr 8 permST 8 .store with
      | (.ok p, t) => decide (p.key = 0x40000) && !homeBad t p.key && p.leaf.all (fun l => !pteZ l.pte) && decide ((t.core 0).relq = [] ∧ (t.core 0).log.length < 16 ∧ (t.core 0).sgb = [])
      | _ => false) = true ∧
    adm (.rel 10 2 2) s = true ∧ adm (.vst 9 8 10 0 0) v = true ∧ Spec.lanesOn v = [0, 1] ∧
    (match lanePlaces (v.reg 10) (fun l => (v.curWave.lane 8 l).toInt) 4 permST .store v (Spec.lanesOn v) with
      | (.ok ps, _) => ps.map (fun p => (p.1, p.2.key)) == [(0, 0x40000), (1, 0x40004)]
      | _ => false) = true := by decide
/-- A deque's entry is written by nothing else. -/
theorem witness_ScalarAtomicsAndDeques_plain : (dequeAt 0 2 2).ringed = [] ∧ (dequeAt 0 2 2).net.reqs = [] ∧
    (match window (dequeAt 0 2 2) (keyCore (scratchKey 0 4096)) (dequeAt 0 2 2).curAsid (0x10000 + 8 * 2) .store with
     | (some p, t) => !homeBad t p.key && !Tbl.get false t.ringed (p.key / 8)
     | _ => false) = true ∧ 0x10000 + 8 * 2 < 2 ^ 55 ∧ (0x10000 + 8 * 2) / 2 ^ 48 < 0x7E := by decide
/-- Promotions of a core on another die and in another package; one has been answered, and one failed. -/
theorem witness_Acquires :
    let s := { demo [(1, room 4096 4096), (2, num (coreOf 0 12)), (3, num (coreOf 32 0))] with nx := 2 }
    let out (n : Nat) : Nat := (s.lo n).toNat % 2 ^ 20
    corePresent s (out 2) = true ∧ coreDie 0 ≠ coreDie (out 2) ∧ corePresent s (out 3) = true ∧ corePkg 0 ≠ corePkg (out 3) ∧
      adm (.acqp 9 1 2 4) s = true ∧ adm (.acqp 9 1 3 5) s = true ∧ corePkg 0 = corePkg (out 2) ∧
      (s.modCur fun x => { x with promo := some (7, false) }).curWave.promo = some (7, false) ∧
      adm (.acqp 9 1 2 3) (s.modCur fun x => { x with promo := some (7, true) }) = true := by decide
/-- The range from c1 on leaves the page it begins in. -/
theorem witness_ZeroFill_lines :
    let s := paged.setReg 1 (Cap.make 0xFF 0x10000 0x20000 0x1FF80)
    adm (.zfill 1 2) s = true ∧ 128 ∣ (s.reg 1).addr ∧
    (match checkAccess s (s.reg 1) (s.reg 1).addr 256 permST 1 .store with
      | (.ok p, t) => (match lineKeys (noteLeaf t p) (s.reg 1).addr 2 with
        | (.error _, _) => true
        | _ => false) && (match lineKeys (noteLeaf t p) (s.reg 1).addr 1 with
        | (.ok ks, _) => ks == [0x4FF80]
        | _ => false)
      | _ => false) = true := by decide
/-- The line at 0x4_0000 holds an uncorrectable error; the next granule of c11 is not mapped. -/
def spoiled : State := { paged.setReg 11 (Cap.make 0xFF 0x1FFF0 64 0x1FFF0) with badLines := [0x40000 / 128] }
theorem witness_unreadable :
    let s := spoiled
    let bad (n : Nat) (c : Nat) : Bool := match checkAccess s (s.reg 10) (s.reg 10).addr n permLD c .load with
      | (.ok p, t) => (match mapAcross (noteLeaf t p) (s.reg 10).addr (n / 16) with
        | (some ks, u) => ks == granulesAt 0x40000 (n / 16) && (readKeys u ks).2.1 == some 0x40000
        | _ => false)
      | _ => false
    still s = true ∧ bad 64 64 = true ∧ bad 32 32 = true ∧ bad 16 16 = true ∧ (mapAcross s (s.reg 10).addr 8).1.isSome = true ∧ (mapAcross s (s.reg 11).addr 2).1 = none ∧
      (match checkAccess s (s.reg 11) (s.reg 11).addr 32 permLD 16 .load with
        | (.ok _, _) => true
        | _ => false) = true ∧
      adm (.launch 9 10) s = true ∧ adm (.emit 9 10 2) s = true ∧ adm (.hgath 9 10) s = true ∧ adm (.hqbind 9 10 2) s = true ∧ adm (.dbar 9 2 10) s = true := by decide
/-- The tenth level; a record that no core could hold; no handle left. -/
theorem witness_Launches_refused :
    let s := launcher 0 2 0
    ((({ s with grids := [(1, { record := [], depth := 10 })] } : State).grid? 1).getD { record := [] }).depth = 10 ∧
      someCoreFits { s with nx := 0 } (recordWords 0 2 2 0) = false ∧
      recordBad { s with nx := 0 } (recordWords 0 2 2 0) = false := by decide
theorem witness_Launches_full : 4096 ≤ ({ launcher 0 2 0 with grids := List.replicate 4096 (1, { record := [] }) } : State).grids.length ∧
    recordBad { launcher 0 2 0 with grids := List.replicate 4096 (1, { record := [] }) } (recordWords 0 2 2 0) = false := ⟨by simp, by rfl⟩
/-- A killed grid, a retired node and a closed one; a payload that is mapped. -/
theorem witness_GrowthAndEmission_ends :
    let s := launcher 0 2 0
    let node (st : GridSt) (closed : Bool) : State := { s with grids := [(1, { record := recordWords 0 2 4 0, killed := true }), (9, { record := recordWords 1 0 0 0, st := st, closed := closed, qkey := scratchKey 0 8192 })] }
    ((node .retired true).grid? 1).any (·.killed) = true ∧ ((node .retired true).grid? 9).any (fun g => decide (g.st = .retired)) = true ∧
      ((node .running true).grid? 9).any (fun g => decide (g.st ≠ .retired) && g.closed) = true ∧ (mapAcross s (s.reg 1).addr 1).1 = some [scratchKey 0 4096] ∧ (readKeys s (granulesAt (scratchKey 0 4096) 1)).2.1 = none ∧
      (s.grid? 9).any (fun g => decide (g.st ≠ .retired) && !g.closed) = true ∧ adm (.emit 9 1 1) s = true ∧ ((s.grid? 1).map fun g => recKind g.record) = some 0 ∧
      (let q := Queue.read (poke s (scratchKey 0 8216) (bytesOf 8 4)) (scratchKey 0 8192)
       (q.prod + 2 ^ 32 - q.cons) % 2 ^ 32 = q.slots) := by decide
/-- Core 0 has no local range, and its die's pool has one; or another core of its die has a local range. -/
theorem witness_GridSteps_requests :
    let s := { launcher 0 2 0 with tasks := [⟨1, 0, 8, .pool 0, 0⟩] }
    let t := { launcher 0 2 0 with tasks := [⟨1, 0, 8, .core 8, 0⟩] }
    Machine.asks s 0 = true ∧ (grantable s 0).1 = some ⟨1, 0, 8, .pool 0, 0⟩ ∧ Machine.asks t 0 = true ∧ grantable t 0 = (none, some ⟨1, 0, 8, .core 8, 0⟩) ∧
      Machine.asks pools 0 = false ∧ needyCores { s with nx := 0 } 0 = [] := by decide
/-- Grids at the end of their retirement: the time still to come, the time past, a record to be written and none. -/
theorem witness_GridSteps_retire :
    let g (r : List Word) (gw : Nat) (rec_ : Bool) : Grid := { record := r, groups := 2, st := .draining, gw := gw, recorded := rec_ }
    let r := (recordWords 0 2 2 0).set 6 (8 * 2 ^ 10 + 1 + 2 ^ 29)
    let s (y : Grid) : State := { demo [] with waves := [], cur := .none, cyc := 5000, grids := [(1, y)] }
    let a := s (g r 9000 false)
    let b := s (g (recordWords 0 2 2 0) 0 false)
    (settleGrid a 1).grid? 1 = some (g r 9000 false) ∧ gridQuiet (settleGrid a 1) 1 = true ∧ leaseNow a a.master < 9000 + 32 ∧
      (settleGrid b 1).grid? 1 = some (g (recordWords 0 2 2 0) 0 false) ∧ gridQuiet (settleGrid b 1) 1 = true ∧ 0 + 32 ≤ leaseNow b b.master ∧
      recCrec (recordWords 0 2 2 0) = false ∧ recCrec r = true ∧ ringRoom a = false ∧ ringRoom { a with bar0 := { ercfg := 0x28 } } = true := by decide
/-- Sixteen waves in the window and one that has waited 512 cycles; fifteen, and one that is ready. -/
theorem witness_GridSteps_windows :
    let full : State := { demo [] with cyc := 1000, waves := (List.range 16).map (fun n => (n, { wave0 [] with entered := n })) ++ [(16, { wave0 [] with run := .ready, entered := 400 })] }
    let free : State := { full with waves := full.waves.drop 1 }
    16 ≤ windowCount full 0 ∧ (full.core 0).rotated = 0 ∧
      (firstWave (effPrio full) (·.entered) ((coreWaves full 0 .ready).filter fun w => w.2.entered + 512 ≤ full.cyc)) = some 16 ∧
      firstWave (fun x => 15 - effPrio full x) (·.entered) (coreWaves full 0 .window) = some 0 ∧ windowCount free 0 = 15 ∧
      firstWave (effPrio free) (·.entered) (readyWaves free 0) = some 16 := by decide
/-- An access whose way the link from (0, 0) to the east cuts. -/
theorem witness_MessageSteps_links :
    let q : Req := { wave := 0, sid := 0, q := 1, kind := .store [(scratchKey (coreOf 3 0) 0, [1])] false }
    let s := { demo [] with net := { reqs := [q] } }
    (∃ d < 4, crossesLink 0 d (q.route s).1 (q.route s).2 = true) ∧ s.net.promotes = [] ∧ s.net.promoReps = [] ∧ (s.die 0).mailbox.length < 64 := by decide
/-- A second broadcast to a core's port waits for the first, and one behind a PHASE-START due no later. -/
theorem witness_DeliverySteps_order :
    let b : TileMsg := { core := 0, domain := 0, value := 1 }
    let s := { demo [] with net := { bcasts := [b, b] } }
    let t := { demo [] with net := { bcasts := [{ b with due := 9 }], phases := [{ core := 0, domain := 0, value := 1, due := 5 }] } }
    (∃ y ∈ s.net.bcasts.take 1, y.core = 0 ∧ y.domain = 0) ∧ s.net.bcasts.take 0 = [] ∧ s.net.phases = [] ∧ (∃ y ∈ t.net.phases, y.core = 0 ∧ y.domain = 0 ∧ y.due ≤ 9) := by decide
/-- Parts of one access that have been answered, and the last of them. -/
theorem witness_RequestSteps_parts :
    let s := { demo [] with net := { acks := [⟨0, 0, 0, 0, false, 3, 1, 0⟩] } }
    moreStores s 0 3 = true ∧ moreStores s 0 4 = false ∧ (0 : Nat) < 2 ^ 40 ∧
      ((s.modWave 0 fun x => { x with run := .waiting (.reply 9) }).wave 0).run = .waiting (.reply 9 false) := by decide
/-- Promotions of core 0 that find one under way: it covers the log, or does not yet. -/
theorem witness_PromotionSteps :
    let s := { gathered with net := { promotes := [(0, 1)], promoReps := [⟨0, 7, 8, false⟩] } }
    let on (q : Nat) : State := s.modCore 0 fun c => { c with active := some (some q, [2]) }
    dieLive s (coreDie 0) = true ∧ (s.core 0).active = none ∧ (s.core 0).log.getLast? = some 1 ∧ ((on 1).core 0).active = some (some 1, [2]) ∧ seqLe 1 1 = true ∧ seqLe 1 0 = false ∧
      (on 1).net.promotes[0]? = some (0, 1) ∧ (s.net.promoReps[0]?) = some ⟨0, 7, 8, false⟩ ∧
      ((({ s with cores := [] } : State).modCore 0 fun c => { c with active := some (none, [2]) }).core 0).sgb = [] ∧ dieLive { s with dies := [(0, { fence := .cut })] } 0 = false := by decide
/-- A drain that was sent, served or not; a message that waits for the lease clock. -/
theorem witness_BufferSteps_drains :
    let e : Sgb := { line := 0x800, data := [(0, 7)], fgs := 1, writers := [0], last := 0, sent := true, closed := true }
    let s := ({ demo [] with net := { wakes := [{ agent := .wave 0, d := 9, value := 1, time := 50 }] } } : State).modCore 0 fun c => { c with sgb := [e, { e with served := some (9, 0) }] }
    ((s.core 0).sgb[0]?).any (fun e => e.sent && e.served.isNone) = true ∧ ((s.core 0).sgb[1]?).any (fun e => e.sent && decide (e.served = some (9, 0))) = true ∧
      (s.core 0).squeue = [] ∧ (s.net.wakes.all fun k => decide (k.agent = .wave 0 ∧ k.time ≠ 0)) = true ∧ 50 ≤ leaseNow { s with cyc := 200 } (coreDie (waveCore 0)) ∧
      leaseNow s (coreDie (waveCore 0)) < 50 ∧ (walkReads paged 0 0x10000).net = {} := by decide
/-- A stream whose element is in scratch: free to pop, held by the wave's own store in flight, or by an unfinished request of the wave with SYNC. -/
theorem witness_EventsAndStreams_holds :
    let t : Stream := { owner := some 0, ch := 0, spans := [{ seq := 1, base := 0x7F * 2 ^ 48 + 4096, len := 8, size := 4 }] }
    let s := (demo [(1, num 5)]).modCore 0 fun c => { c with streams := [(0, t)], cdone := [(0, 1)] }
    let u := { s with net := { reqs := [{ wave := 0, sid := 0, q := 1, kind := .store [(scratchKey 0 4096, [1])] false }] } }
    watermarkHeld s (0x7F * 2 ^ 48 + 4096) 4 = false ∧ ownHeld s 0 true [(scratchKey 0 4096, 4)] = false ∧ ownHeld u 0 true [(scratchKey 0 4096, 4)] = true ∧
      watermarkHeld u (0x7F * 2 ^ 48 + 4096) 4 = false ∧ (0x7F * 2 ^ 48 + 4096) % 128 ≤ 124 ∧ (s.net.events = []) ∧
      (({ s with net := { events := [⟨0, 5, 100⟩] } } : State).net.events[0]?) = some ⟨0, 5, 100⟩ := by decide
theorem witness_EventsAndStreams_watermark :
    let t : Stream := { owner := some 0, ch := 0, spans := [{ seq := 1, base := 0x7F * 2 ^ 48 + 4096, len := 8, size := 4 }] }
    let r : LReq := { ch := 1, src := room 8192 8, dst := room 4096 8, ccmd := 0, by_ := ⟨0, 0, 1, 1, 0, 0, 0⟩, seq := 1, len := 8, running := true }
    let s := (demo [(1, num 5)]).modCore 0 fun c => { c with streams := [(0, t)], cdone := [(0, 1)], fifo := [r] }
    watermarkHeld s (0x7F * 2 ^ 48 + 4096) 4 = true ∧ popOne (s.core 0) t = some ((4, some (0x7F * 2 ^ 48 + 4096, 4)), { t with pos := 4 }) := by decide
/-- An arena that the vat's window names already, and one of the core's own window. -/
theorem witness_ContextStartAndStop_arena :
    let a := room 8192 4096
    let b := Cap.make 0xFF (0x7E * 2 ^ 48 + 8192) 4096 (0x7E * 2 ^ 48 + 8192)
    a.exp = 0 ∧ a.base = 0x7F * 2 ^ 48 + 8192 ∧ a.addr = 0x7F * 2 ^ 48 + 8192 ∧ 8192 < 2 ^ 21 ∧ b.base / 2 ^ 48 = 0x7E ∧ startTrap (room 4096 4096) b = none ∧
      (({ demo [(1, room 4096 4096)] with vats := [(0, { ctxs := (List.range 4).map fun n => (n, { st := .run, group := 9 + n }) })] } : State).ctx 0 3).st ≠ .free := by decide
/-- A gather whose rows stand on die 1, to which they are shipped; one that has been; and one past its table. -/
def shipping : State :=
  [(0, 2 ^ 63 + 0x10000), (0x10000, 2 ^ 63 + 0x20000), (0x20000, 2 ^ 63 + 0x30000), (0x30008, 15 * 2 ^ 60 + 0x1800000000), (scratchKey 0 12288, 2 ^ 32)].foldl
    (fun s m => poke s m.1 (bytesOf 8 m.2)) harped
def shipReq : HReq :=
  let t := Cap.make 0xFF 0x10000 0x1000 0x10000
  { harpReq with running := true, tbl := { t with lo := setFld t.lo 58 6 1 }, h0 := BitVec.ofNat 64 (2 * 2 ^ 48 + 32) }
theorem witness_HarpSteps :
    let s := shipping.modVat 0 fun x => { x with harp := [shipReq] }
    let x := (harpIndexed s 0 shipReq).1
    let w := (harpIndexed s 0 shipReq).2
    nextShip w 0 x = some (0, 1) ∧ ((List.range x.count).filter fun p => shipTo w 0 x p = some 1) = [0, 1] ∧ dieLive w 1 = true ∧ (moveRows w 0 x ((List.range x.count).filter fun p => shipTo w 0 x p = some 1)).1 = none ∧
      nextShip w 0 { x with shipped := [0, 1] } = none ∧ (harpRun w 0 { x with shipped := [0, 1] } none true).2.1 = none ∧ dieLive { w with dies := [(1, { fence := .cut })] } 1 = false ∧
      (let y := { x with h0 := BitVec.ofNat 64 (2 * 2 ^ 48), tbl := { x.tbl with lo := 0 } }
       nextShip w 0 y = none ∧ ((harpRun w 0 y none true).2.1).isSome = true) ∧ shipReq.by_.group = 1 := by decide
theorem witness_HarpSteps_gate :
    let s := (demo []).modVat 0 fun x => { x with harp := [{ harpReq with h1 := BitVec.ofNat 64 (2 ^ 56) }] }
    bit (BitVec.ofNat 64 (2 ^ 56)) 56 = true ∧ Tbl.get 0 (s.vat 0).cnt (40 + fld (BitVec.ofNat 64 (2 ^ 56)) 53 3) = 0 := by decide
/-- Room in an injection queue is free: either case may be. -/
theorem witness_RayQueues_room (s : State) : (drawBit s).1 = true ∨ (drawBit s).1 = false := by cases (drawBit s).1 <;> simp
/-- Core 8 owns a resident treelet that it holds, and asks with PIN. -/
theorem witness_TreeletRequests_pin :
    let s := { (directory (3 * 2 ^ 61 + 8 * 2 ^ 41 + 2)).modCore 8 fun c => { c with tslots := [(0, { tid := 1, total := 1024, landed := true })] } with
      cur := .wave 256, waves := [(256, wave0 [(2, num 1), (3, num 2)])] }
    adm (.tlreq 9 2 3) s = true ∧ s.curCore = 8 ∧ (slotOf s 8 1).isSome = true ∧ (s.lo 3).getLsbD 1 = true ∧ dirState (touchEntry s 1) 1 = 3 ∧ dirOwner (touchEntry s 1) 1 = 8 := by decide
/-- An entry that is being evicted and whose owner has told so; a page on its way, queries and answers. -/
theorem witness_DirectorySteps :
    let cold := directory (2 ^ 61 + 2)
    let e := directory (4 * 2 ^ 61 + 2)
    let loading := ((directory (2 * 2 ^ 61 + 8 * 2 ^ 41 + 2)).modCore 8 fun c => { c with tslots := [(0, { tid := 1, total := 1024 })] }).modNet fun n =>
      { n with pages := [{ tid := 1, host := 8, src := 0x50000, off := 0, total := 1024 }], queries := [(1, 0)], routeReps := [⟨0, 1, true, []⟩], evicts := [⟨1, 8, none⟩], heats := [(1, 8, 3)], tlreps := [{ agent := .wave 0, d := 9, value := 1 }] }
    cold.dirs.all (fun d => d.2.redo.isEmpty) = true ∧ dirState e 1 = 4 ∧ (e.dir 1).evicting = none ∧ (e.dir 1).pend = [] ∧ (loading.core 8).tslots = [(0, { tid := 1, total := 1024 })] ∧
      loading.net.pages.length = 1 ∧ (loading.dir 1).copyTo = none ∧ dirState loading 1 = 2 ∧ transferDone { loading with net := {} } 1 (dirOwner loading 1) = true ∧
      (let c := (directory (3 * 2 ^ 61 + 8 * 2 ^ 41 + 2)).modDir 1 fun d => { d with copyTo := some 8 }
       (c.dir 1).copyTo = some 8 ∧ dirState c 1 = 3 ∧ transferDone (c.modCore 8 fun c => { c with tslots := [(0, { tid := 1, total := 1024 })] }) 1 8 = true) ∧
      ((loading.modCore 8 fun c => { c with tslots := [(0, { tid := 1, total := 0 })] }).core 8).tslots.any (fun x => decide (x.2.tid = 1 ∧ x.2.total = 0) && !x.2.landed) = true ∧
      (({ loading with cores := [] } : State).core 8).tslots = [] := by decide
/-- Ports at the end of a phase, with and without an owner, and beats that arrive: in a slot, outside one, at an idle port, and lost on the way. -/
theorem witness_ExchangePlane_beats :
    let s := ported .run
    let p := { (s.core 0).port with sends := [(0, room 4096 2048)], lands := [(1, room 8192 128)] }
    let b : Beat := ⟨coreOf 1 0, 0, List.replicate 32 1, 92⟩
    let x : Beat := ⟨coreOf 2 0, coreOf 1 0, [], 98⟩
    let y : Beat := ⟨coreOf 3 0, coreOf 1 0, [], 97⟩
    let with_ (p : Port) (bs : List Beat) : State := { s with net := { beats := bs } }.modCore 0 fun c => { c with port := p }
    p.nextSend = some (0, 0) ∧ p.start + 0 ≤ s.cyc ∧ s.cyc - p.start < tablePlen p.table ∧ tablePlen p.table ≤ 90 + 300 - p.start ∧ { p with orphan := true }.orphan = true ∧ p.orphan = false ∧
      hops b.src b.dst = 1 ∧ b ∈ (resolveBeats (with_ p [b]) 93).net.beats ∧ p.start + 3 ≤ 93 ∧ 93 < p.start + 3 + 4 ∧
      (∀ f ∈ tableEntries p.table, f.2.rx = true → p.start + f.2.start ≤ 93 → 93 < p.start + f.2.start + f.2.beats → f = (1, tableEntry p.table 1)) ∧
      (∀ e ∈ tableEntries p.table, e.2.rx = true → ¬(p.start + e.2.start ≤ 99 ∧ 99 < p.start + e.2.start + e.2.beats)) ∧
      (engineWrite (with_ p []) {} 0 0 ((room 8192 128).addr + 32 * (93 - p.start - 3)) b.data).2.1 = none ∧
      (engineWrite (with_ p []) {} 0 0 0x10000 b.data).2.1 ≠ none ∧ (s.core 0).port.st = .run ∧
      (∃ z ∈ [x, y], ∃ t ∈ [97, 98, 99], z ∉ (resolveBeats { s with net := { beats := [x, y] } } t).net.beats) ∧
      (({ s with net := { colls := [(0, 95)] } } : State).net.colls[0]?) = some (0, 95) ∧ s.cyc < 95 + 8 ∧ 92 + 8 ≤ s.cyc := by decide
/-- XPH of a phase that has begun in this cycle, of one that is past, and of one still to come. -/
theorem witness_ExchangeInstructions_phases :
    let s := ported .idle
    let seen (x : Seen) (ph : Nat) : Bool := match (if x.cyc = s.cyc then x.prev else some x.phase) with
      | some q => decide ((q + 2 ^ 32 - ph) % 2 ^ 32 < 2 ^ 31)
      | none => false
    seen ⟨5, 90, none⟩ 5 = true ∧ seen ⟨5, 100, some 4⟩ 5 = false ∧ seen ⟨5, 90, none⟩ 6 = false ∧ s.cyc = 100 ∧ (s.core 0).port.orphan = false ∧ corePresent s s.curCore = true ∧
      ((ported .run).core 0).port.orphan = false ∧ ((ported .run).core 0).port.owner = (ported .run).curW := by decide
/-- A saved group of one full wave whose image's header stands at 65,536 of the scratch of core 0, the rest of it zeros. -/
def asleep : State := { [(0, 0x4D37 * 2 ^ 48 + 2 ^ 40), (16, 2 ^ 37 + 8 * 2 ^ 24), (24, 4096 * 2 ^ 22 + 4096)].foldl (fun s m => poke s (scratchKey 0 (65536 + m.1)) (bytesOf 8 m.2)) (demo []) with
  grids := [(1, { record := recordWords 0 2 2 0, groups := 2, st := .running })]
  saved := [{ grid := 1, gidx := 0, image := 0x7F * 2 ^ 48 + 65536, asid := 0, viewer := 0, core := 0, slots := [1], alive := [0] }] }
theorem witness_PreemptionSavesAndDebug_restore :
    let s := asleep
    let r := recordWords 0 2 2 0
    let v : Saved := { grid := 1, gidx := 0, image := 0x7F * 2 ^ 48 + 65536, asid := 0, viewer := 0, core := 0, slots := [1], alive := [0] }
    s.saved[0]? = some v ∧ s.saved[1]? = none ∧ (s.grid? 1).any (fun g => g.record == r) = true ∧ ({ s with grids := [] } : State).grid? 1 = none ∧
    (match readImage s v 64 with
      | (some b, u) => !imageBad b r && decide (imgNwin b = 0 ∧ imgSoff b = 4096 ∧ imgCtx b = false) &&
        (match readImage u v (imgWins b r) with
          | (some _, u1) => restoreNow u1 v r b [] 8 && (liveDies u1).any (fun d => (dieCores d).any (restoreEver u1 r 4096)) &&
              !restoreNow u1 v r b [] 0xFFFFF && !(liveDies { u1 with nx := 0 }).any (fun d => (dieCores d).any (restoreEver { u1 with nx := 0 } r 4096)) &&
              (readImage u1 v (imageMap r (recScratchLen r) false []).len).1.isSome
          | _ => false)
      | _ => false) = true ∧
    (readImage { s with waves := [], mem := [] } { v with image := 0x10000 } 64).1 = none ∧
    (match readImage { s with mem := [] } v 64 with
      | (some b, _) => imageBad b r
      | _ => false) = true := by decide +kernel
/-- The instructions of `FormsThatComplete`, where their operands let them take effect. -/
theorem witness_FormsThatComplete :
    let t : Stream := { owner := some 0, ch := 0, spans := [{ seq := 1, base := 0x7F * 2 ^ 48 + 4096, len := 8, size := 4 }] }
    let s := ((demo [(1, num 5), (2, num (2 ^ 20))]).modCore 0 fun c => { c with streams := [(0, t)], cdone := [(0, 1)] }).modCur fun x => { x with nc := only2 }
    let h := s.setWave 1 { live := true, halt := true, run := .window }
    adm (.evset 1 2) s = true ∧ adm (.evclr 1 2) s = true ∧ adm (.evrd 9 1) s = true ∧ (s.lo 1).getLsbD 6 = false ∧ adm (.evsig 1) s = true ∧
      adm (.cbind 0 0) s = true ∧ adm (.cbind 0 1) s = true ∧ (Tbl.get {} (s.core 0).streams 1).owner = none ∧ adm (.cunbind 0) s = true ∧ t.owner = some s.curW ∧
      adm (.spop 9 0) s = true ∧ (allPlaces s [(4, some (0x7F * 2 ^ 48 + 4096, 4))]).1.toOption = some [[(scratchKey 0 4096, 4)]] ∧
      adm (.vspop 9 0) s = true ∧ s.curWave.lanes.length = 2 ∧ (popMany (s.core 0) 2 t).isSome = true ∧ wideStream t = false ∧
      (allPlaces s [(4, some (0x7F * 2 ^ 48 + 4096, 4)), (4, some (0x7F * 2 ^ 48 + 4100, 4))]).1.toOption = some [[(scratchKey 0 4096, 4)], [(scratchKey 0 4100, 4)]] ∧
      ownHeld s s.curW true [(scratchKey 0 4096, 4), (scratchKey 0 4100, 4)] = false ∧ adm .exit s = true ∧
      adm (.dbgrun 2) h = true ∧ findWave h (h.lo 2) = some 1 ∧ (h.wave 1).halt = true ∧ (1 : Nat) ≠ h.curW := by decide
/-- Its steps, on messages that stand in flight. -/
theorem witness_FormsThatComplete_steps :
    let s := posted
    s.net.arrivals.length = 1 ∧ s.net.credits.length = 1 ∧ (s.net.wakes.all fun k => decide (k.tree = none ∧ k.time = 0)) = true ∧ (s.net.phases[0]?).any (fun m => decide (m.due ≤ s.cyc)) = true ∧
      ({ s with net := { s.net with phases := [] } } : State).net.bcasts.length = 1 ∧ (s.net.replies2.all fun k => decide (k.agent ≠ .none)) = true ∧ s.net.journal.length = 1 ∧
      (2 : Nat) < 4 ∧ pkgPresent s (corePkg 0) = true ∧ dieLive s (coreDie 0) = true ∧ paStorage s 0 = true ∧ paHome 0 = 0 := by decide

/-! ### Arrivals, failures and corners, clause by clause -/

theorem findZ_none {s : State} (h : tableKeys s (fld s.bar0.asidlive 16 32 * 2 ^ 16) 4096 = []) (k : Nat) : findZ s k = none := by
  have e : tablesBelow s (fld s.bar0.asidlive 16 32 * 2 ^ 16) 4096 = [] := by rw [tablesBelow, h]; rfl
  rw [findZ, e]; rfl

/-- `Spec.plain` and `Spec.noDeque` and `Spec.uncut`, as tests that can be run. -/
def plainB (s : State) : Bool := decide (s.zpages = [] ∧ s.zeroed = [] ∧ s.hollow = [] ∧ tableKeys s (fld s.bar0.asidlive 16 32 * 2 ^ 16) 4096 = [])
def noDequeB (s : State) : Bool := s.ringed.isEmpty && s.net.reqs.all fun r => r.dequeAt.isNone
def uncutB (s : State) : Bool := s.links.isEmpty && s.dies.all fun d => decide (d.2.fence ≠ .cut)

theorem plainB_sound {s : State} (h : plainB s = true) : Spec.plain s := by
  simp only [plainB, decide_eq_true_eq] at h
  exact ⟨h.1, h.2.1, h.2.2.1, findZ_none h.2.2.2⟩
theorem noDequeB_sound {s : State} (h : noDequeB s = true) : Spec.noDeque s := by
  simpa [noDequeB, Spec.noDeque] using h
theorem uncutB_sound {s : State} (h : uncutB s = true) : Spec.uncut s := by
  simpa [uncutB, Spec.uncut] using h

/-- Requests under way, of the kinds that a scalar or vector access sends: nothing cuts them. -/
def under (ks : List ReqKind) (q : Nat := 1) : State :=
  { demo regs0 [(4096, 7)] with net := { reqs := ks.map fun k => { wave := 0, sid := 0, q := q, kind := k } } }
def k0 : Nat := scratchKey 0 4096
theorem witness_arrivals :
    let s := under [.load 9 k0 8, .store [(k0, [1])] false, .store [(0x40000, [1])] true, .loadCap 9 k0 true, .zero [k0 / 128], .zero [0x800],
      .atom 9 8 .add ⟨0, k0, 1, 0, 0⟩, .atom 9 4 .cas ⟨0, k0, 1, 7, 0⟩, .atom 9 4 .cas ⟨0, k0, 1, 8, 0⟩]
    let t := under [.load 9 0x40000 8] 3
    uncutB s = true ∧ plainB s = true ∧ noDequeB s = true ∧ isScratch k0 = true ∧ homeLost s k0 = false ∧ homeBad s k0 = false ∧ homeBad s 0x40000 = false ∧ isScratch 0x40000 = false ∧
      homeLost s (0x800 * 128) = false ∧ homeLost s (k0 / 128 * 128) = false ∧ readNat s.mem k0 4 = 7 ∧ (List.range 9).all (fun n => !halfHeld s.net.reqs n (s.net.reqs.getD n { wave := 0, sid := 0, q := 1, kind := .zero [] })) = true ∧
      uncutB t = true ∧ plainB t = true ∧ isHbm 0x40000 = true ∧ homeBad t 0x40000 = false ∧ (t.core (waveCore 0)).sgb = [] ∧ (t.core (waveCore 0)).squeue = [] ∧
      (t.net.reqs[0]?).any (fun r => decide (r.q = 3) && !r.rep) = true ∧ (0 : Nat) < [(1 : Byte)].length := by decide
/-- Both halves of a BFADD2, first in its word; and one that comes while another's second half is still to be made. -/
theorem witness_arrivals_halves :
    let half (i key : Nat) : Req := { wave := 0, sid := 0, q := 1, kind := .atom 9 2 .bfadd2 ⟨0, key, 1, 0, 0⟩, id := i }
    let s : State := { demo regs0 with net := { reqs := [half 1 k0, half 1 (k0 + 2), half 2 k0, half 2 (k0 + 2)] } }
    let t : State := { demo regs0 with net := { reqs := [half 1 k0, half 2 k0, half 2 (k0 + 2)] } }
    halfHeld s.net.reqs 0 (half 1 k0) = false ∧ halfHeld s.net.reqs 2 (half 2 k0) = false ∧ halfHeld t.net.reqs 1 (half 2 k0) = true ∧ uncutB s = true ∧ uncutB t = true ∧
      isScratch k0 = true ∧ homeLost s k0 = false := by decide
theorem witness_arrivals_vectors :
    let l (n x : Nat) : AtomLane := ⟨n, k0, x, 0, 0x1000⟩
    let s := under [.vload 9 4 true false [(0, k0), (1, k0 + 4)], .store [(k0, [1, 2]), (k0 + 4, [3, 4])] false, .vatom 16 4 .add [l 0 1, l 3 2], .vatom 16 8 .cas [l 0 1],
      .vatom 16 2 .bfadd2 [l 0 0x3F80]]
    uncutB s = true ∧ noDequeB s = true ∧ homeLost s k0 = false ∧ homeLost s (k0 + 4) = false ∧ isScratch (k0 + 4) = true ∧
      ([(k0, [1, 2]), (k0 + 4, [(3 : Byte), 4])].Pairwise fun a b => a.1 + a.2.length ≤ b.1 ∨ b.1 + b.2.length ≤ a.1) ∧
      (∀ x ∈ [l 0 1, l 3 2], x.key = k0 ∧ x.ea = 0x1000 ∧ x.x < 2 ^ (8 * 4)) ∧ (l 0 0x3F80).x < 2 ^ (8 * 2) ∧
      halfHeld s.net.reqs 4 { wave := 0, sid := 0, q := 1, kind := .vatom 16 2 .bfadd2 [l 0 0x3F80] } = false := by decide
/-- A deque operation under way to a deque of two entries in a ring of four; an empty one, a full one, one out of form. -/
theorem witness_arrivals_deque :
    let go (s : State) (op : Nat) : State := { s with net := { reqs := [{ wave := 0, sid := 0, q := 1, kind := .deque 9 k0 op 5 }] } }
    uncutB (go (dequeAt 0 2 2) 0) = true ∧ homeLost (go (dequeAt 0 2 2) 0) k0 = false ∧
      (match dequeEntry (Spec.taken (go (dequeAt 0 2 2) 0) 0) (keyCore k0) 0 0x10000 2 2 true with
        | (some p, _) => decide (p.key = 0x40010)
        | _ => false) = true ∧
      (dequeEntry (Spec.taken (go { dequeAt 0 2 2 with bar0 := { asidlive := 2 ^ 63 } } 1) 0) (keyCore k0) 0 (2 ^ 54) 2 1 false).1 = none ∧
      (2 + 2 ^ 32 - 0) % 2 ^ 32 ≠ 2 ^ 2 ∧ readNat (dequeAt 0 4 2).mem (k0 + 12) 4 = 4 ∧ readNat (dequeAt 1 1 25).mem (k0 + 16) 8 = 25 := by decide
/-- Objects that an arrival, or a credit, completes, and at which a wave and a context wait. -/
theorem witness_waiters :
    let s := { barred { object with landb := 16, wcnt := 2 } with waiters := [⟨k0, .wave 0, 9⟩, ⟨k0, .ctx 0 0, 3⟩] }
    let t := { barred { object with wcnt := 1 } with waiters := [⟨k0, .wave 1, 9⟩] }
    let o := Bar.read s k0
    (s.waiters.map (·.agent)).Nodup ∧ (∀ w ∈ s.waiters, w.agent ≠ .none) ∧ o.v = true ∧ o.arra + 1 = o.expa ∧ o.expb ≤ o.landb ∧ corePresent s (keyCore k0) = true ∧
      domainBlock k0 = false ∧ s.waiters ≠ [] ∧ (∀ w ∈ t.waiters, w.agent ≠ .none ∧ w.agent ≠ t.cur) ∧ (t.waiters.map (·.agent)).Nodup ∧ (Bar.read t k0).v = true ∧
      adm (.binv 9 1) t = true ∧ still t = true := by decide
/-- Values that SUPLOC, WDOG, RAYCFG and RAYOVF take, and one each that it does not. -/
theorem witness_supervisor_registers :
    let good := 16 * 2 ^ 40 + 6 * 2 ^ 37 + 16 * 2 ^ 32 + 256
    let s := demo [(1, num 0), (2, num (2 ^ 20)), (3, num good), (4, num (good - 8 * 2 ^ 32)), (5, num (8 * 2 ^ 51 + 2 ^ 16)), (6, num (2 ^ 56))]
    let c := waveCore s.curW
    adm (.sets 1 0x802) s = true ∧ adm (.sets 2 0x802) s = true ∧ adm (.sets 1 0x803) s = true ∧ adm (.sets 3 0x8A0) s = true ∧ adm (.sets 5 0x8A1) s = true ∧
      coreDie ((s.lo 1).toNat % 2 ^ 20) = coreDie c ∧ corePresent s 0 = true ∧ (s.die (coreDie c)).mailbox = [] ∧ (s.lo 2).toNat / 2 ^ 20 ≠ 0 ∧ (s.lo 2).toNat / 2 ^ 16 ≠ 0 ∧
      (s.lo 3).toNat / 2 ^ 48 = 0 ∧ (s.lo 3).toNat / 2 ^ 9 % 2 ^ 23 = 0 ∧ (s.lo 3).toNat % 2 ^ 9 = 256 ∧ (s.lo 3).toNat / 2 ^ 40 % 2 ^ 8 ≠ 0 ∧
      (s.lo 3).toNat / 2 ^ 32 % 2 ^ 5 = (s.core c).raycfg.toNat / 2 ^ 32 % 2 ^ 5 ∧ (s.lo 4).toNat / 2 ^ 32 % 2 ^ 5 = 8 ∧ (s.core c).tslots = [] ∧ allocs s c = [] ∧ (s.lo 1).toNat % 2 ^ 9 = 0 ∧
      (s.lo 5).toNat / 2 ^ 51 % 2 ^ 5 = 8 ∧ 64 * 2 ^ 8 ∣ (s.lo 5).toNat % 2 ^ 48 ∧ (s.core c).ovfN = 0 ∧ (s.lo 6).toNat / 2 ^ 56 ≠ 0 := by decide
/-- Shadow slots: slot 1 has started a group in this cycle; both have waited 2,000 cycles; slot 1 alone has. -/
theorem witness_GridSteps_shadow :
    let h (f : Nat) : Shadow := { grid := 1, gidx := 5, soff := 0, slen := 4096, slots := [256], filled := f }
    let s (a b : Nat) : State := { pools with cyc := 5000, cores := [(8, { shadow := [(0, h a), (1, h b)], ran1 := some 5000 })] }
    ((s 0 0).core 8).ran1 = some (s 0 0).cyc ∧ (pools.core 8).ran1 ≠ some pools.cyc ∧ 0 + 2000 ≤ (s 0 0).cyc ∧ ¬4000 + 2000 ≤ (s 4000 0).cyc ∧
      Tbl.get? ((s 4000 0).core 8).shadow 1 = some (h 0) := by decide
/-- An EXIT with a load under way; an EVSET after a firing of its cycle; a firing that is due and one that is not. -/
theorem witness_waits :
    let s := (demo regs0).modCur fun x => { x with loads := 1 }
    let t : State := { (demo regs0).modVat 0 fun v => { v with fired := some 100 } with net := { events := [⟨0, 5, 100⟩, ⟨0, 5, 101⟩] } }
    (s.wave 0).loads ≠ 0 ∧ adm .exit s = true ∧ (t.vat (coreVat t.curCore)).fired = some t.cyc ∧ ((demo regs0).vat 0).fired ≠ some (demo regs0).cyc ∧ adm (.evset 1 2) t = true ∧
      (t.net.events[0]?).any (fun e => decide (e.due ≤ t.cyc)) = true ∧ (t.net.events[1]?).any (fun e => decide (t.cyc < e.due)) = true := by decide
/-- Messages of one cycle by their source; a link that went dead, and what is still to be told of it. -/
theorem witness_MessageSteps_turns :
    let t := posted.modDie 0 fun d => { d with took := (2000, 5) }
    let l : DeadLink := ⟨0, 0, 900, 3, false⟩
    (posted.die 0).took.1 ≠ posted.cyc ∧ (t.die 0).took.1 = t.cyc ∧ ¬(t.die 0).took.2 ≤ 0 ∧ posted.links = [] ∧ l.told = false ∧ l.since + 1024 ≤ posted.cyc ∧
      ¬1000 + 1024 ≤ posted.cyc ∧ uncutB { gathered with net := { promotes := [(768 * 4, 0)] }, dies := [(1, { fence := .pass })] } = true ∧
      dieLive { gathered with dies := [(1, { fence := .pass })] } 1 = false := by decide
/-- A group's context that is stopping. -/
theorem witness_ContextStartAndStop_stopping :
    let s := demo [(1, room 4096 4096), (2, num 1)]
    let t := { s with vats := (pressed.modCtx 0 0 fun x => { x with st := .stopping }).vats }
    groupCtx t t.curCore t.curWave.group = some 0 ∧ (t.ctx 0 0).st = .stopping ∧ adm (.mstop 9 2) t = true ∧ (t.lo 2).getLsbD 0 = true ∧ (t.lo 0).getLsbD 0 = false := by decide
/-- Capabilities of a request block that fail their check: an index list before its base, an output and a table too short. -/
theorem witness_Harp_fails :
    let s := harped
    let low : Cap := { room 12288 8 with lo := BitVec.ofNat 64 (0x7F * 2 ^ 48 + 12280) }
    blockTrap low permES = none ∧ (checkAccess s low low.addr (low.top - low.addr) permES 1 .load).1 = .error ⟨.capBound, BitVec.ofNat 64 low.addr⟩ ∧
      (checkAccess s (room 16384 4) (room 16384 4).addr (harpReq.count * harpReq.outRow) permED 1 .store).1 = .error ⟨.capBound, BitVec.ofNat 64 (room 16384 4).addr⟩ ∧
      (checkAccess s (room 8192 4 1) (room 8192 4 1).addr (harpReq.count * harpReq.rb) permES 1 .load).1 = .error ⟨.capBound, BitVec.ofNat 64 (room 8192 4 1).addr⟩ ∧
      inScr s (room 20480 8) (room 20480 8).addr ((room 20480 8).top - (room 20480 8).addr) permES 1 .load (scratchKey 0 20480) = true ∧
      (blockTrap (num 0) permES).isSome = true ∧ 16 ≤ ((s.modVat 0 fun x => { x with harp := List.replicate 16 harpReq }).vat 0).harp.length := by decide
/-- A member whose store to scratch is under way. -/
theorem witness_Domains_held : arrivalHeld { demo [] with net := { acks := [⟨0, 0, 0, 0, true, 0, 1, 0⟩] } } = true := by decide
/-- The die of the master is lost: the standby becomes master, of another package or of this one; both are lost. -/
theorem witness_DiesAndFences_master :
    let s := { demo [] with waves := [], cur := .none, standby := some 1 }
    let u := { s with nx := 2, standby := some 4 }
    let after (s : State) (ds : List Nat) : Nat × Option Nat × Nat := match exec (.dieFence ds false) s with
      | .next t => (t.master, t.standby, (t.package 0).epoch)
      | _ => (0, none, 0)
    0 ∈ liveDies s ∧ s.master = 0 ∧ after s [0] = (1, some 2, 1) ∧ after u [0] = (4, some 1, 1) ∧ after s [0, 1] = (2, some 3, 1) ∧ after s [3] = (0, some 1, 0) ∧ after s [1] = (0, some 2, 1) := by decide +kernel
/-- A launch from the host: a graph node, a full table, no core, an answer on its way; host registers and memory. -/
theorem witness_HostAccess_launch :
    let r := recordWords 1 0 0 (0x7F * 2 ^ 48 + 8192)
    let s := { launcher 1 0 (0x7F * 2 ^ 48 + 8192) with up := true }
    recordBad s r = false ∧ recKind r = 1 ∧ (queuePlace s r 0 0).1 = some (scratchKey 0 8192) ∧ (queuePlace s (recordWords 1 0 0 1) 0 0).1 = none ∧
      someCoreFits (queuePlace s r 0 0).2 r = true ∧ someCoreFits { s with nx := 0 } (recordWords 0 2 2 0) = false ∧ recordBad { s with nx := 0 } (recordWords 0 2 2 0) = false ∧
      (let t : State := { s with net := { replies2 := [{ agent := .none, d := 5, value := 1 }] } }
       (t.net.replies2[0]?).any (fun k => decide (k.agent = .none)) = true) ∧ (7 : Nat) < 64 ∧ ({ s.bar0 with slotst := 1 }.slotst.getLsbD 0) = true := by decide
theorem witness_HostAccess_memory :
    let s := { demo [] with up := true, bar0 := { tgbusy := some (0x1000, ⟨true, 5, 6⟩), tlbinv := BitVec.ofNat 64 (7 * 2 ^ 61) }, ctrl := { hdmb := 0x10000 } }
    plainB s = true ∧ noDequeB s = true ∧ s.ctrl.hdmb ≤ 0x11000 ∧ 0x11000 - s.ctrl.hdmb = 0x1000 ∧ paStorage s 0x1000 = true ∧ homeBad s 0x1000 = false ∧ 0x1000 % 128 + 8 ≤ 128 ∧
      s.bar0.tgbusy = some (0x1000, ⟨true, 5, 6⟩) ∧ s.bar0.tlbinv.getLsbD 63 = true ∧ s.bar0.tlbinv.getLsbD 62 = true ∧ s.bar0.tlbinv.getLsbD 61 = true ∧ (1 : Word).getLsbD 0 = true ∧
      (2 : Word).getLsbD 1 = true ∧ (0 : Word).getLsbD 0 = false ∧ ¬s.ctrl.hdmb ≤ 0xFFFF := by decide
theorem witness_PlatformManagement_sensors :
    let s := { demo [] with waves := [], cur := .none, ctrl := { sensors := [(0, 3600)] } }
    Tbl.get? s.ctrl.sensors (corePkg 0) = some 3600 ∧ s.up = false ∧ Tbl.get? s.ctrl.records s.ctrl.next = none ∧ Tbl.get? s.ctrl.records (1 - s.ctrl.active) = none ∧
      ((s.die (4 * 0)).halved = (s.die 3).halved) ∧ 3500 < 3600 ∧ (920 : Int) ≤ 920 := by decide

/-! ### Numbers -/

/-- A third is between the least normal and the largest finite number; 2^128 is past it, and 2^-151 is tiny. -/
theorem witness_RoundingAndArithmetic : fmtFP32 ∈ Spec.fmts ∧ fmtE4M3 ∈ Spec.fmts ∧
    (let g := Spec.codeValue fmtFP32
     g (2 ^ fmtFP32.tw) ≤ (1 : ℚ) / 3 ∧ (1 : ℚ) / 3 ≤ g fmtFP32.maxBits ∧ g fmtFP32.maxBits + (g fmtFP32.maxBits - g (fmtFP32.maxBits - 1)) / 2 < 2 ^ 129 ∧
      (1 : ℚ) / 2 ^ 151 ≤ g (2 ^ fmtFP32.tw) - g (2 ^ fmtFP32.tw) / 2 ^ (fmtFP32.tw + 1)) ∧
    Spec.inward 1 true ∧ Spec.inward 2 true ∧ Spec.inward 3 false ∧ Spec.outward 2 false ∧ Spec.outward 3 true ∧ fmtFP32.flush = true ∧ fmtE5M2.flush = false ∧ fmtFP32.hasInf = true ∧
    fmtE4M3.hasInf = false ∧ 0x7F800000 = fmtFP32.infBits ∧ (1 : Nat) % 2 ^ (fmtFP32.ew + fmtFP32.tw) < 2 ^ fmtFP32.tw ∧ 2 ^ fmtFP32.tw ≤ 0x3F800000 % 2 ^ (fmtFP32.ew + fmtFP32.tw) := by
  refine ⟨by decide, by decide, ?_, by decide, by decide, by decide, by decide, by decide, rfl, rfl, rfl, rfl, rfl, by decide, by decide⟩
  simp only [Spec.codeValue, fmtFP32]
  norm_num [zpow_neg]
/-- A value past the largest finite number, but not by a whole unit. -/
theorem witness_RoundingAndArithmetic_top :
    let g := Spec.codeValue fmtFP32
    let x : ℚ := g fmtFP32.maxBits + 1
    g fmtFP32.maxBits < x ∧ x < g fmtFP32.maxBits + (g fmtFP32.maxBits - g (fmtFP32.maxBits - 1)) / 2 := by
  simp only [Spec.codeValue, fmtFP32]
  norm_num [zpow_neg]
/-- The root of 4 over 1. -/
theorem witness_RoundingAndArithmetic_root :
    let root := Real.sqrt (((4 : Nat) : ℝ) / (1 : Nat))
    ((Spec.codeValue fmtFP32 (2 ^ fmtFP32.tw) : ℚ) : ℝ) ≤ root ∧ root ≤ ((Spec.codeValue fmtFP32 fmtFP32.maxBits : ℚ) : ℝ) := by
  have h : Real.sqrt (((4 : Nat) : ℝ) / (1 : Nat)) = 2 := by
    rw [show ((4 : Nat) : ℝ) / (1 : Nat) = 2 ^ 2 by norm_num]; exact Real.sqrt_sq (by norm_num)
  simp only [h, Spec.codeValue, fmtFP32]
  norm_num [zpow_neg]
/-- 3, a quarter, 200 and -201 as FP32 numbers; a value of 200 overflows VEXP2. -/
theorem witness_TranscendentalFunctions :
    Spec.number (.fin false 3 1) = ((3 : ℤ) : ℚ) ∧ Spec.number (.fin false 1 4) = ((0 : ℤ) : ℚ) + 1 / 4 ∧ Spec.number (.fin false 8 1) = 2 ^ (3 : ℤ) ∧
    (match fmtFP32.read false 0x43480000 with
      | .fin a n d => !a && decide (n = 200 * d ∧ d ≠ 0)
      | _ => false) = true ∧
    (match fmtFP32.read false 0xC3490000 with
      | .fin a n d => a && decide (n = 201 * d ∧ d ≠ 0)
      | _ => false) = true := by
  refine ⟨?_, ?_, ?_, by decide, by decide⟩ <;> norm_num [Spec.number, Val.snum, Val.den]

/-! ### Steps -/

theorem witness_RegistersHoldWhatWasWritten : (demo []).cur = .wave 0 ∧ (1 : Nat) ≠ 0 ∧ (seqr [] [] []).cur = .ctx 0 0 := by decide
theorem witness_ScalarFrame : Spec.scalarDest (.add 9 2 3 0) = some 9 ∧ Spec.scalarDest (.fcmp 9 2 3 0) = some 9 ∧ (demo regs0).cur = .wave 0 ∧ adm (.add 9 2 3 0) (demo regs0) = true ∧
    exec (.add 9 2 3 0) (demo regs0) = .next ((demo regs0).setData 9 11).advance := ⟨rfl, rfl, rfl, rfl, rfl⟩
theorem witness_DecodingAnEncodedInstruction : wellFormed (.ldD 9 3 3 1 2) = true ∧ encode (.ldD 9 3 3 1 2) = some 0x4C90CD02 := ⟨rfl, rfl⟩
theorem witness_EncodingADecodedWord : decode 0x4C90CD02 = .ok (.ldD 9 3 3 1 2) := rfl
theorem witness_EveryInstructionAnswers : (demo []).cur ≠ .none := by decide
theorem witness_TheMachineGoesOn : State.reset.alone := rfl
theorem witness_StepsKeepMemoryForm : State.reset.MemOk := ⟨rfl, rfl⟩
/-- The step of wave 0 at an ADD (the spec's word 0x0431_0540) that `withFetchWord` has placed. -/
def placed : State := State.reset.withFetchWord 32 0x04310540
theorem witness_StepRunsTheDecodedInstruction :
    placed.agenda = [.agent (.wave 0)] ∧ (urgentSteps placed).find? (acts placed) = none ∧ allowed placed (.wave 0) = true ∧ pick placed = .agent (.wave 0) ∧
      (let u := begin_ { placed with agenda := [] } (.wave 0)
       (fetchAt u u.pc u.pc.addr).1 = .ok 0x04310540 ∧ checkCap u.pc u.pc.addr 4 permEX 4 = none ∧
         (window u u.curCore u.curAsid u.pc.addr .fetch).1 = some ⟨scratchKey 0 4096, none⟩ ∧ homeLost u (scratchKey 0 4096) = false) ∧
      (let v := { placed with waves := [(0, { placed.wave 0 with pc := num 0 })] }
       pick v = .agent (.wave 0) ∧ (fetchAt (begin_ v (.wave 0)) (num 0) 0).1 = .error ⟨.capTag, 0⟩) ∧
      pick { placed with agenda := [], waves := [], moved := true } = .idle := by decide +kernel
theorem test_step_runs_the_placed_word : (match step placed with
    | .next t => decide ((t.wave 0).pc.addr = 0x7F * 2 ^ 48 + 4100 ∧ t.cyc = 0)
    | _ => false) = true := by decide +kernel

/-! ### Results of the spec's worked examples -/

/-- The next state of an instruction, to look into. -/
noncomputable def after (i : Instr) (s : State) : State := match exec i s with
  | .next t => t
  | _ => s

/-- 04 R108: c3 holds 256 bytes at 0x0040_0010_0000; CSETBI 64 gives the halves 0x9200_2000_0000_0040 and 0x0000_0040_0010_0000; 257 faults. -/
theorem test_csetbi : (after (.csetbi 10 3 64) (demo [(3, ⟨true, 0x9200200000000100, 0x0000004000100000⟩)])).reg 10 = ⟨true, 0x9200200000000040, 0x0000004000100000⟩ := by decide +kernel
theorem test_csetbi_out : ((after (.csetbi 10 3 257) (demo [(3, ⟨true, 0x9200200000000100, 0x0000004000100000⟩)])).wave 0).run = .waiting .fault := by decide +kernel
/-- 04 R114: FFMA of 0x3F80_0001 squared and 0xBF80_0002 gives 0x2880_0000. -/
theorem test_ffma : (after (.ffma 10 11 12 0) (demo [(10, num 0xBF800002), (11, num 0x3F800001), (12, num 0x3F800001)])).lo 10 = 0x28800000 := by decide +kernel
/-- 06 R164: 500.0 to E4M3, saturating, gives 0x7E with OF and NX. -/
theorem test_vfcvt : (let t := after (.vfcvt 2 3 1 0 8) ((demo []).modCur fun x => { x with v := [(3 * 32, 0x43FA0000)], nc := (List.range 31).map fun l => (l + 1, 1) })
    (t.curWave.lane 2 0, t.curWave.fflags)) = (0x7E, 0x5) := by decide +kernel
/-- 06 R165: VBFMA2 of the spec's halves. -/
theorem test_vbfma2 : ((after (.vbfma2 8 2 3) ((demo []).modCur fun x => { x with v := [(2 * 32, 0x3F804000), (3 * 32, 0x3F813F80), (8 * 32, 0x3B80BF80)], nc := (List.range 31).map fun l => (l + 1, 1) })).curWave.lane 8 0) = 0x3F823F80 := by decide +kernel
/-- 18 R405, R411: a LOAD that faults with 0x04 (CAP_TAG ...) leaves the message; WRESUME with ACT 1 goes on past it. -/
theorem test_wresume_skips : (let s := (demo [(20, num (2 ^ 62 + 2 ^ 20))]).setWave 1 { live := true, pc := num 0x1A40, run := .waiting .fault, fault := some ⟨BitVec.ofNat 64 (4 * 2 ^ 56), 0, 0x200, 0x1A40⟩ }
    let t := after (.wresume 20) s
    ((t.wave 1).pc.addr, (t.wave 1).finfo, (t.wave 1).fstat, t.curWave.svst)) = (0x1A44, 0x200, 0x0400000000001A40, 0) := by decide +kernel

/-- 22 R463, R464 (log 49): SHAKE256 of no bytes begins 46 B9 DD 2B (FIPS 202's example values). -/
theorem test_shake256 : (shake256 []).take 4 = [0x46, 0xB9, 0xDD, 0x2B] := by decide +kernel

end Sys2Proof.Tests
end

section
namespace Sys2Proof.Machine

/-! ## Every operation keeps memory and tags in their canonical form (log 3) -/

variable {s : State}

theorem memOk_ite {c : Prop} [Decidable c] {x y : State} (hx : x.MemOk) (hy : y.MemOk) : (if c then x else y).MemOk := by
  split <;> assumption
theorem memOk_ite_snd {α : Type} {c : Prop} [Decidable c] {x y : α × State} (hx : x.2.MemOk) (hy : y.2.MemOk) : (if c then x else y).2.MemOk := by
  split <;> assumption
theorem memOk_ite_snd_snd {α β : Type} {c : Prop} [Decidable c] {x y : α × β × State} (hx : x.2.2.MemOk) (hy : y.2.2.MemOk) : (if c then x else y).2.2.MemOk := by
  split <;> assumption
theorem memOk_foldl_of {α β : Type} (q : β → State) {f : β → α → β} {l : List α} {b : β} (hf : ∀ b a, (q b).MemOk → (q (f b a)).MemOk) (hb : (q b).MemOk) :
    (q (l.foldl f b)).MemOk :=
  List.foldlRecOn l f hb fun b hb a _ => hf b a hb
theorem memOk_foldl {α : Type} {f : State → α → State} {l : List α} (hf : ∀ t a, t.MemOk → (f t a).MemOk) (hs : s.MemOk) : (l.foldl f s).MemOk :=
  memOk_foldl_of id hf hs
theorem memOk_foldl_fst {α β : Type} {f : State × β → α → State × β} {l : List α} {b : State × β} (hf : ∀ b a, b.1.MemOk → (f b a).1.MemOk) (hb : b.1.MemOk) :
    (l.foldl f b).1.MemOk := memOk_foldl_of Prod.fst hf hb
theorem memOk_foldl_snd {α β : Type} {f : β × State → α → β × State} {l : List α} {b : β × State} (hf : ∀ b a, b.2.MemOk → (f b a).2.MemOk) (hb : b.2.MemOk) :
    (l.foldl f b).2.MemOk := memOk_foldl_of Prod.snd hf hb
theorem memOk_foldl_snd_snd {α β γ : Type} {f : β × γ × State → α → β × γ × State} {l : List α} {b : β × γ × State}
    (hf : ∀ b a, b.2.2.MemOk → (f b a).2.2.MemOk) (hb : b.2.2.MemOk) : (l.foldl f b).2.2.MemOk := memOk_foldl_of (fun p : β × γ × State => p.2.2) hf hb
/-- What leaves memory and tags as they were. -/
theorem memOk_of_eq {t : State} (hs : s.MemOk) (hm : t.mem = s.mem) (ht : t.tags = s.tags) : t.MemOk := (Keeps.of_eq hm ht).ok hs
theorem memOk_of_snd {α : Type} {p : α × State} {a : α} {t : State} (h : p = (a, t)) (hp : p.2.MemOk) : t.MemOk := by
  subst h; exact hp
theorem memOk_of_fst {α : Type} {p : State × α} {a : α} {t : State} (h : p = (t, a)) (hp : p.1.MemOk) : t.MemOk := by
  subst h; exact hp
theorem memOk_of_snd_snd {α β : Type} {p : α × β × State} {a : α} {b : β} {t : State} (h : p = (a, b, t)) (hp : p.2.2.MemOk) : t.MemOk := by
  subst h; exact hp

theorem memOk_setWave {w x} (hs : s.MemOk) : (s.setWave w x).MemOk := hs
theorem memOk_modWave {w f} (hs : s.MemOk) : (s.modWave w f).MemOk := hs
theorem memOk_modCore {c f} (hs : s.MemOk) : (s.modCore c f).MemOk := hs
theorem memOk_modVat {v f} (hs : s.MemOk) : (s.modVat v f).MemOk := hs
theorem memOk_modCtx {v n f} (hs : s.MemOk) : (s.modCtx v n f).MemOk := hs
theorem memOk_modDie {d f} (hs : s.MemOk) : (s.modDie d f).MemOk := hs
theorem memOk_modNet {f} (hs : s.MemOk) : (s.modNet f).MemOk := hs
theorem memOk_setGrid {h g} (hs : s.MemOk) : (s.setGrid h g).MemOk := hs

/-! ### The canonical form: the shared operations -/

theorem memOk_modGrid {h f} (hs : s.MemOk) : (State.modGrid s h f).MemOk := by
  unfold State.modGrid
  split <;> exact hs
theorem memOk_modOwner {w f} (hs : s.MemOk) : (State.modOwner s w f).MemOk := memOk_ite hs hs
theorem memOk_learn {k} (hs : s.MemOk) : (State.learn s k).MemOk := by
  unfold State.learn
  split <;> exact hs
theorem memOk_release (hs : s.MemOk) : (State.release s).MemOk := by
  unfold State.release
  extract_lets
  split <;> exact hs
theorem memOk_routeCut {a b} (hs : s.MemOk) : (routeCut s a b).2.MemOk := memOk_ite_snd hs (memOk_ite_snd hs (memOk_ite_snd hs hs))
theorem memOk_poke {k bs} (hs : s.MemOk) : (poke s k bs).MemOk := (keeps_poke ..).ok hs
theorem memOk_scribble {k n} (hs : s.MemOk) : (scribble s k n).MemOk := (keeps_scribble ..).ok hs
theorem memOk_setReg {n c} (hs : s.MemOk) : (State.setReg s n c).MemOk := by
  unfold State.setReg
  split <;> exact hs
theorem memOk_markReg {n bad} (hs : s.MemOk) : (State.markReg s n bad).MemOk := by
  unfold State.markReg
  split <;> exact hs
theorem memOk_setData {n w} (hs : s.MemOk) : (State.setData s n w).MemOk := memOk_setReg hs
theorem memOk_setPc {c} (hs : s.MemOk) : (State.setPc s c).MemOk := by
  unfold State.setPc
  split <;> exact hs
theorem memOk_advance (hs : s.MemOk) : (State.advance s).MemOk := memOk_setPc hs
theorem memOk_branch {off} (hs : s.MemOk) : (State.branch s off).MemOk := memOk_setPc hs
theorem memOk_notePage {k} (hs : s.MemOk) : (notePage s k).MemOk := (keeps_notePage ..).ok hs
theorem memOk_touchLine {h line} (hs : s.MemOk) : (touchLine s h line).MemOk := (keeps_touchLine ..).ok hs
theorem memOk_accessLine {line alloc write} (hs : s.MemOk) : (accessLine s line alloc write).MemOk := (keeps_accessLine ..).ok hs
theorem memOk_walkReads {asid ea} (hs : s.MemOk) : (walkReads s asid ea).MemOk := memOk_foldl (fun _ _ ht => memOk_accessLine ht) hs
theorem memOk_translate {core asid ea u} (hs : s.MemOk) : (translate s core asid ea u).2.MemOk := by
  unfold translate
  extract_lets new keep
  have hkeep : ∀ s, s.MemOk → (keep s).MemOk := by
    intro _ ht
    clear_value new
    simp only [keep]
    split <;> exact ht
  split
  · exact hkeep _ (memOk_walkReads hs)
  · exact memOk_ite_snd hs (memOk_ite_snd hs (hkeep _ hs))
theorem memOk_window {c asid ea u} (hs : s.MemOk) : (window s c asid ea u).2.MemOk := memOk_ite_snd hs (memOk_translate hs)
theorem memOk_engineWindow {c asid ea u} (hs : s.MemOk) : (engineWindow s c asid ea u).2.MemOk := memOk_window hs
theorem memOk_checkAccessAt {c asid cap ea size need align u} (hs : s.MemOk) : (checkAccessAt s c asid cap ea size need align u).2.MemOk := by
  unfold checkAccessAt
  split
  · exact hs
  · split <;> exact memOk_of_snd ‹_› (memOk_window hs)
theorem memOk_checkAccess {cap ea size need align u} (hs : s.MemOk) : (checkAccess s cap ea size need align u).2.MemOk := memOk_checkAccessAt hs
theorem memOk_logEvent {src code} (hs : s.MemOk) : (logEvent s src code).MemOk := by
  unfold logEvent
  extract_lets
  split <;> exact memOk_of_eq hs rfl rfl
theorem memOk_mailboxTake {d m} (hs : s.MemOk) : (mailboxTake s d m).MemOk := memOk_ite (memOk_ite (memOk_logEvent hs) hs) hs
theorem memOk_postMessage {d m} (hs : s.MemOk) : (postMessage s d m).MemOk := memOk_ite hs (memOk_modGrid hs)
theorem memOk_sliceMessage {k} (hs : s.MemOk) : (sliceMessage s k).MemOk := memOk_ite hs (memOk_postMessage hs)
theorem memOk_waveFault {w t dfr} (hs : s.MemOk) : (waveFault s w t dfr).MemOk := memOk_postMessage hs
theorem memOk_ctxFault {v n t fpc} (hs : s.MemOk) : (ctxFault s v n t fpc).MemOk := memOk_postMessage hs
theorem memOk_raise {t} (hs : s.MemOk) : (raise s t).MemOk := by
  unfold raise
  split
  · exact memOk_waveFault hs
  · exact memOk_ctxFault hs
  · exact hs
theorem memOk_park {why} (hs : s.MemOk) : (park s why).MemOk := by
  unfold park
  split <;> exact hs
theorem memOk_stall (hs : s.MemOk) : (stall s).MemOk := memOk_park hs
theorem memOk_reply {d v time bad due} (hs : s.MemOk) : (reply s d v time bad due).MemOk := memOk_park hs
theorem memOk_wakeAgent {k} (hs : s.MemOk) : (wakeAgent s k).MemOk := by
  unfold wakeAgent
  split
  · exact hs
  · extract_lets _ s1 s2
    have hs1 : s1.MemOk := memOk_advance (memOk_markReg (memOk_setData (memOk_learn hs)))
    have hs2 : s2.MemOk := by
      simp only [s2]
      split <;> exact hs1
    exact hs2

/-! ### The canonical form: the arithmetic -/

theorem memOk_alu {op d a b w} (hs : s.MemOk) : (alu op d a b w s).MemOk := memOk_advance (memOk_setData hs)
theorem memOk_aluImm {op d a w y} (hs : s.MemOk) : (aluImm op d a w y s).MemOk := memOk_advance (memOk_setData hs)
theorem memOk_branchIf {c o} (hs : s.MemOk) : (branchIf c o s).MemOk := memOk_ite (memOk_branch hs) (memOk_advance hs)

/-! ### The canonical form: flags and draws -/

theorem memOk_drew {mode n} (hs : s.MemOk) : (State.drew s mode n).MemOk := memOk_ite hs hs

/-! ### The canonical form: the homes -/

theorem memOk_noteLeaf {p} (hs : s.MemOk) : (noteLeaf s p).MemOk := (keeps_noteLeaf ..).ok hs
theorem memOk_keepOld {k} (hs : s.MemOk) : (keepOld s k).MemOk := (keeps_keepOld ..).ok hs
theorem memOk_misuse {k n} (hs : s.MemOk) : (misuse s k n).MemOk := (keeps_misuse ..).ok hs
theorem memOk_noteWrite {k n by_ gath} (hs : s.MemOk) : (noteWrite s k n by_ gath).MemOk := (keeps_noteWrite ..).ok hs
theorem memOk_plainWrite {by_ q k bs tag} (hs : s.MemOk) : (plainWrite s by_ q k bs tag).1.MemOk := (keeps_plainWrite ..).ok hs
theorem memOk_homeWrite {by_ q k bs tag} (hs : s.MemOk) : (homeWrite s by_ q k bs tag).1.MemOk := (keeps_homeWrite ..).ok hs
theorem memOk_homeZero {by_ line} (hs : s.MemOk) : (homeZero s by_ line).1.MemOk := (keeps_homeZero ..).ok hs
theorem memOk_atomOne {by_ n op l} (hs : s.MemOk) : (atomOne s by_ n op l).1.MemOk := (keeps_atomOne ..).ok hs
theorem memOk_atomSet {by_ n op ls} : ∀ {s : State}, s.MemOk → (atomSet s by_ n op ls).1.MemOk := by
  induction ls with
  | nil => exact id
  | cons l t ih =>
    intro s hs
    unfold atomSet
    split
    · extract_lets
      split
      next h => exact memOk_of_fst h (memOk_homeWrite (memOk_accessLine hs))
    · split
      next h =>
        split
        next h' => exact memOk_of_fst h' (ih (memOk_of_fst h (memOk_atomOne hs)))
theorem memOk_atomLanes {by_ n op ls} (hs : s.MemOk) : (atomLanes s by_ n op ls).1.MemOk :=
  memOk_foldl_fst (fun _ _ ht => memOk_atomSet ht) hs
theorem memOk_dequeEntry {home asid ring capLg k write} (hs : s.MemOk) : (dequeEntry s home asid ring capLg k write).2.MemOk := by
  unfold dequeEntry
  extract_lets
  split
  · exact hs
  · split
    next t h =>
      have ht : t.MemOk := memOk_of_snd h (memOk_window hs)
      split
      · exact memOk_ite_snd ht ht
      · exact ht
theorem memOk_dequeOp {by_ asid key op x} (hs : s.MemOk) : (dequeOp s by_ asid key op x).1.MemOk := by
  unfold dequeOp
  extract_lets s1 _ _ _ _ _ _ _ _ _ finish
  have hfinish : ∀ s c v bot top g, s.MemOk → (finish s c v bot top g).1.MemOk := by
    intro _ _ _ _ _ _ ht
    simp only [finish]
    exact memOk_plainWrite ht
  have hs1 : s1.MemOk := memOk_accessLine hs
  split
  · exact hfinish _ _ _ _ _ _ hs1
  split
  · exact hfinish _ _ _ _ _ _ hs1
  split
  · exact hfinish _ _ _ _ _ _ hs1
  split
  next h => exact hfinish _ _ _ _ _ _ (memOk_of_snd h (memOk_dequeEntry hs1))
  next p t h =>
    extract_lets s2
    have hs2 : s2.MemOk := memOk_noteLeaf (memOk_of_snd h (memOk_dequeEntry hs1))
    split
    · split
      next h' => exact hfinish _ _ _ _ _ _ (memOk_of_eq (memOk_of_fst h' (memOk_plainWrite hs2)) rfl rfl)
    · split <;> exact hfinish _ _ _ _ _ _ (memOk_accessLine hs2)

/-! ### The canonical form: the path of an access -/

theorem memOk_ackStore {w grid sid gwct err} (hs : s.MemOk) : (ackStore s w grid sid gwct err).MemOk := memOk_ite (memOk_modGrid (memOk_modOwner hs)) (memOk_modOwner hs)
theorem memOk_ackDrain {c e gwct err} (hs : s.MemOk) : (ackDrain s c e gwct err).MemOk := memOk_foldl (fun _ _ hu => memOk_modGrid hu) (memOk_foldl (fun _ _ ht => ht) hs)
/-- A drained entry is written byte by byte and tag by tag. -/
theorem memOk_homeDrain {e by_} (hs : s.MemOk) : (homeDrain s e by_).1.MemOk := by
  obtain ⟨hm, ht⟩ := memOk_accessLine (line := e.line) (alloc := true) (write := true) (memOk_keepOld (k := e.line * 128) hs)
  refine memOk_foldl (fun _ _ ht => memOk_misuse ht) ⟨?_, ?_⟩
  · exact List.foldlRecOn (motive := fun m => Memory.wf m = true) e.data _ hm fun m hm b _ => wf_writeByte m _ b.2 hm
  · exact List.foldlRecOn (motive := fun t => Tbl.wf false t = true) e.tags _ ht fun t ht b _ => Tbl.wf_put false t _ b.2 ht
theorem memOk_drainEntry {c fgs} (hs : s.MemOk) : (drainEntry s c fgs).MemOk := by
  unfold drainEntry
  split
  · exact hs
  · exact memOk_ite hs hs
theorem memOk_drainWhere {c p} (hs : s.MemOk) : (drainWhere s c p).MemOk := memOk_foldl (fun _ _ ht => memOk_drainEntry ht) hs
theorem memOk_drainOldest {c} (hs : s.MemOk) : (drainOldest s c).MemOk := by
  unfold drainOldest
  split
  · exact memOk_drainEntry hs
  · exact hs
theorem memOk_gatherStore {q} (hs : s.MemOk) : (gatherStore s q).MemOk :=
  memOk_ite (memOk_drainOldest (memOk_drainWhere (memOk_noteWrite hs))) (memOk_drainWhere (memOk_noteWrite hs))
theorem memOk_passQueue {c n} : ∀ {s : State}, s.MemOk → (passQueue s c n).MemOk := by
  induction n with
  | zero => exact id
  | succ n ih =>
    intro s hs
    unfold passQueue
    split
    · exact hs
    · exact memOk_ite (ih (memOk_gatherStore hs)) hs
theorem memOk_runQueue {c was} (hs : s.MemOk) : (runQueue s c was).MemOk := memOk_foldl (fun _ _ ht => memOk_modOwner ht) (memOk_passQueue hs)
theorem memOk_freeBytes {n} : ∀ {s : State}, s.MemOk → (freeBytes s n).2.MemOk := by
  induction n with
  | zero => exact id
  | succ n ih => exact fun hs => ih hs
theorem memOk_gotUndefined {g} (hs : s.MemOk) : (Got.undefined s g).2.MemOk := memOk_freeBytes hs
theorem memOk_lostRead {k n} (hs : s.MemOk) : (lostRead s k n).2.MemOk := memOk_gotUndefined hs
theorem memOk_homeRead {k n q} (hs : s.MemOk) : (homeRead s k n q).2.MemOk := memOk_ite_snd (memOk_lostRead hs) (memOk_accessLine hs)
theorem memOk_grantReplica {c key q rep} (hs : s.MemOk) : (grantReplica s c key q rep).2.MemOk := memOk_ite_snd hs (memOk_ite_snd hs hs)
theorem memOk_placeReplica {d r} (hs : s.MemOk) : (placeReplica s d r).MemOk := memOk_touchLine hs
theorem memOk_placeReplicas {c rs} (hs : s.MemOk) : (placeReplicas s c rs).MemOk := memOk_foldl (fun _ _ ht => memOk_placeReplica ht) hs
theorem memOk_pickReplica {c w k n q} (hs : s.MemOk) : (pickReplica s c w k n q).2.MemOk := by
  unfold pickReplica
  split
  · exact hs
  · exact memOk_ite_snd (memOk_touchLine hs) hs
theorem memOk_belowRead {c w k n q rep} (hs : s.MemOk) : (belowRead s c w k n q rep).2.MemOk := by
  unfold belowRead
  split
  next t h => exact memOk_of_snd h (memOk_pickReplica hs)
  next u h1 =>
    have hu : u.MemOk := memOk_of_snd h1 (memOk_pickReplica hs)
    exact memOk_grantReplica (memOk_homeRead hu)
theorem memOk_bypassRead {c w k n q rep} (hs : s.MemOk) : (bypassRead s c w k n q rep).2.MemOk := memOk_belowRead hs
theorem memOk_multiRead {c k n q} (hs : s.MemOk) : (multiRead s c k n q).2.MemOk := memOk_homeRead hs
theorem memOk_readL1 {c w k n rep e} (hs : s.MemOk) : (readL1 s c w k n rep e).2.MemOk := by
  unfold readL1
  extract_lets _ fill
  have hfill : ∀ s d, s.MemOk → (fill s d).MemOk := fun _ _ ht => memOk_ite ht ht
  split
  · exact hfill _ _ hs
  · split
    next u h =>
      have hu : u.MemOk := memOk_of_snd h (memOk_pickReplica hs)
      exact hfill _ _ hu
    next v h1 =>
      have hv : v.MemOk := memOk_of_snd h1 (memOk_pickReplica hs)
      exact memOk_ite_snd (memOk_homeRead hv) (hfill _ _ (memOk_grantReplica (memOk_homeRead hv)))
theorem memOk_l1Read {w k n rep e} (hs : s.MemOk) : (l1Read s w k n rep e).2.MemOk := memOk_ite_snd (memOk_readL1 hs) (memOk_gotUndefined (memOk_readL1 hs))
theorem memOk_loadRead {r k n} (hs : s.MemOk) : (loadRead s r k n).2.MemOk := memOk_ite_snd (memOk_l1Read hs) (memOk_bypassRead hs)
theorem memOk_freeLanes {ws} (hs : s.MemOk) : (freeLanes s ws).2.MemOk := memOk_foldl_snd (fun _ _ ht => ht) hs
theorem memOk_replyDataSpoil {a} (hs : s.MemOk) : (ReplyData.spoil s a).2.MemOk := by
  unfold ReplyData.spoil
  split
  · exact hs
  · exact hs
  · exact memOk_freeLanes hs
  · exact hs
  · exact memOk_freeLanes hs
theorem memOk_spoilReply {r} (hs : s.MemOk) : (spoilReply s r).2.MemOk := memOk_replyDataSpoil hs
theorem memOk_orSpoiled {a : Reply × State} (ha : a.2.MemOk) : (orSpoiled a).2.MemOk := memOk_ite_snd (memOk_spoilReply ha) ha
theorem memOk_serveRead {r} (hs : s.MemOk) : (serveRead s r).2.MemOk := by
  refine memOk_orSpoiled ?_
  split
  · exact memOk_loadRead hs
  · exact memOk_loadRead hs
  · exact memOk_foldl_of (fun a : _ × _ × _ × State => a.2.2.2) (fun _ _ ht => memOk_ite_snd (memOk_multiRead ht) (memOk_loadRead ht)) hs
  · exact hs
theorem memOk_freeOlds {ls} (hs : s.MemOk) : (freeOlds s ls).2.MemOk := memOk_foldl_snd (fun _ _ ht => ht) hs
theorem memOk_serveWrite {r} (hs : s.MemOk) : (serveWrite s r).2.2.MemOk := by
  unfold serveWrite
  extract_lets
  split
  · refine memOk_foldl_snd_snd (fun _ _ ht => ?_) hs
    extract_lets
    split
    · exact memOk_sliceMessage ht
    · exact memOk_homeWrite ht
  · refine memOk_foldl_snd_snd (fun _ _ ht => ?_) hs
    extract_lets
    split
    · exact ht
    · exact memOk_homeZero ht
  · split
    · exact memOk_sliceMessage hs
    · exact memOk_atomOne hs
  · exact memOk_freeOlds (memOk_foldl (fun _ _ ht => memOk_sliceMessage ht) (memOk_atomLanes hs))
  · split
    · exact memOk_sliceMessage hs
    · exact memOk_dequeOp hs
  · exact hs
theorem memOk_send {r} (hs : s.MemOk) : (send s r).MemOk := memOk_ite hs hs
theorem memOk_issue {r} (hs : s.MemOk) : (issue s r).MemOk :=
  memOk_ite (memOk_stall hs) (memOk_ite (memOk_advance (memOk_send hs))
    (memOk_ite (memOk_stall (memOk_drainWhere hs)) (memOk_advance (memOk_send (memOk_drainWhere hs)))))
theorem memOk_issueGather {w sid ps tag k rels} (hs : s.MemOk) (hk : ∀ t, t.MemOk → (k t).MemOk) : (issueGather s w sid ps tag k rels).MemOk := by
  unfold issueGather
  split
  · exact memOk_stall hs
  · extract_lets _ _ _ _ _ _ s3
    have hs3 : s3.MemOk := hk _ (memOk_ite (memOk_runQueue hs) (memOk_runQueue hs))
    exact hs3

/-! ### The canonical form: scalar accesses -/

theorem memOk_withAccess {cap ea size need align u k} (hs : s.MemOk) (hk : ∀ a1 t, t.MemOk → (k a1 t).MemOk) : (withAccess s cap ea size need align u k).MemOk := by
  unfold withAccess
  split
  next t h =>
    have ht : t.MemOk := memOk_of_snd h (memOk_checkAccess hs)
    exact hk _ _ (memOk_noteLeaf ht)
  next v h1 =>
    have hv : v.MemOk := memOk_of_snd h1 (memOk_checkAccess hs)
    exact memOk_raise hv
theorem memOk_belowMark {ea size} (hs : s.MemOk) : (belowMark s ea size).MemOk := by
  unfold belowMark
  split
  · exact memOk_foldl (fun _ _ ht => memOk_learn ht) hs
  · exact hs
theorem memOk_withData {cap ea size need align u k} (hs : s.MemOk) (hk : ∀ a1 t, t.MemOk → (k a1 t).MemOk) : (withData s cap ea size need align u k).MemOk :=
  memOk_withAccess hs (fun _ _ ht => memOk_ite (memOk_park ht) (hk _ _ (memOk_belowMark ht)))
theorem memOk_scalarLoad {n d a sid q o} (hs : s.MemOk) : (scalarLoad n d a sid q o s).MemOk := memOk_withData hs (fun _ _ ht => memOk_issue ht)
theorem memOk_storeAt {p sid q bs tag} (hs : s.MemOk) : (storeAt s p sid q bs tag).MemOk := memOk_ite (memOk_issueGather hs (fun _ ht => memOk_advance ht)) (memOk_issue hs)
theorem memOk_scalarStore {n d a sid q o} (hs : s.MemOk) : (scalarStore n d a sid q o s).MemOk := memOk_withData hs (fun _ _ ht => memOk_storeAt ht)
theorem memOk_scalarAtomic {op n d a b sid} (hs : s.MemOk) : (scalarAtomic op n d a b sid s).MemOk := memOk_withData hs (fun _ _ ht => memOk_issue ht)
theorem memOk_dequeIssue {op d a x4 sid} (hs : s.MemOk) : (dequeIssue op d a x4 sid s).MemOk := memOk_withData hs (fun _ _ ht => memOk_issue ht)

/-! ### The canonical form: barriers and waits -/

theorem memOk_barWrite {k b} (hs : s.MemOk) : (Bar.write s k b).MemOk := memOk_poke hs
theorem memOk_wakeBar {st w} (hs : s.MemOk) : (wakeBar s st w).MemOk := by
  unfold wakeBar
  extract_lets _ s1
  have hs1 : s1.MemOk := by
    simp only [s1]
    split <;> exact hs
  exact hs1
theorem memOk_wakeWaiters {p st} (hs : s.MemOk) : (wakeWaiters s p st).MemOk := memOk_foldl (fun _ _ ht => memOk_wakeBar ht) hs
theorem memOk_invalidateWaiters {p} (hs : s.MemOk) : (invalidateWaiters s p).MemOk := memOk_wakeWaiters (memOk_foldl (fun _ _ ht => memOk_barWrite ht) hs)
theorem memOk_deregister {a} (hs : s.MemOk) : (deregister s a).MemOk := by
  unfold deregister
  split
  · exact hs
  · exact memOk_barWrite hs
theorem memOk_sendPhase {k phase} (hs : s.MemOk) : (sendPhase s k phase).MemOk := memOk_ite hs hs
theorem memOk_harpMsg {v p code pos stray} (hs : s.MemOk) : (harpMsg s v p code pos stray).MemOk := memOk_postMessage (memOk_ite hs hs)
theorem memOk_channelError {c} (hs : s.MemOk) : (channelError s c).MemOk := by
  unfold channelError
  split
  · exact hs
  · exact memOk_harpMsg hs
  · exact hs
  · exact hs
theorem memOk_completeBar {k b} (hs : s.MemOk) : (completeBar s k b).MemOk :=
  memOk_ite (memOk_ite (memOk_sendPhase (memOk_wakeWaiters (memOk_barWrite hs))) (memOk_wakeWaiters (memOk_barWrite hs))) (memOk_barWrite hs)
theorem memOk_arriveBar {c} (hs : s.MemOk) : (arriveBar s c).MemOk :=
  memOk_ite (memOk_channelError hs) (memOk_ite (memOk_barWrite hs) (memOk_ite (memOk_barWrite hs) (memOk_completeBar hs)))
theorem memOk_creditBar {c} (hs : s.MemOk) : (creditBar s c).MemOk :=
  memOk_ite (memOk_channelError hs) (memOk_ite (memOk_channelError (memOk_barWrite (memOk_ite hs hs)))
    (memOk_ite (memOk_completeBar (memOk_ite hs hs)) (memOk_completeBar (memOk_ite hs hs))))
theorem memOk_arenaAt {arena core off size align u} (hs : s.MemOk) : (arenaAt s arena core off size align u).2.MemOk := by
  unfold arenaAt
  split
  · exact hs
  · split
    · exact hs
    · split
      next t h => exact memOk_of_snd h (memOk_window hs)
      next v h1 => exact memOk_of_snd h1 (memOk_window hs)
theorem memOk_withBarrier {a need u k} (hs : s.MemOk) (hk : ∀ a1 t, t.MemOk → (k a1 t).MemOk) : (withBarrier s a need u k).MemOk := by
  unfold withBarrier
  split
  · split
    next t h =>
      have ht : t.MemOk := memOk_of_snd h (memOk_arenaAt hs)
      exact hk _ _ ht
    next x h1 =>
      have hx : x.MemOk := memOk_of_snd h1 (memOk_arenaAt hs)
      exact memOk_raise hx
  · exact memOk_withAccess hs (fun _ _ hv => memOk_ite (hk _ _ hv) (memOk_raise hv))
theorem memOk_atBarrier {a need u k} (hs : s.MemOk) (hk : ∀ a1 a2 t, t.MemOk → (k a1 a2 t).MemOk) : (atBarrier s a need u k).MemOk :=
  memOk_withBarrier hs (fun _ _ ht => memOk_ite (memOk_stall ht) (hk _ _ _ ht))
theorem memOk_barReply {key d v} (hs : s.MemOk) : (barReply s key d v).MemOk := memOk_reply hs
theorem memOk_arrivalDone {c} (hs : s.MemOk) : (arrivalDone s c).MemOk := by
  unfold arrivalDone
  split
  · exact memOk_modOwner hs
  · exact hs

/-! ### The canonical form: capability operations -/

theorem memOk_capInc {d a i} (hs : s.MemOk) : (capInc d a i s).MemOk := memOk_advance (memOk_setReg hs)
theorem memOk_capSetB {d a len} (hs : s.MemOk) : (capSetB d a len s).MemOk := by
  unfold capSetB
  split
  · exact memOk_raise hs
  · exact memOk_advance (memOk_setReg hs)
theorem memOk_capMap {d a f} (hs : s.MemOk) : (capMap d a f s).MemOk := memOk_advance (memOk_setReg hs)

/-! ### The canonical form: vector operations -/

theorem memOk_vecFp {d mode f} (hs : s.MemOk) : (vecFp d mode f s).MemOk := memOk_drew hs
theorem memOk_vecFp2 {d a b f} (hs : s.MemOk) : (vecFp2 d a b f s).MemOk := memOk_vecFp hs
theorem memOk_vecFp1 {d a f} (hs : s.MemOk) : (vecFp1 d a f s).MemOk := memOk_vecFp hs
theorem memOk_vecFcmp {p d a b} (hs : s.MemOk) : (vecFcmp p d a b s).MemOk := memOk_vecFp2 hs
theorem memOk_vecHalves {d a b f} (hs : s.MemOk) : (vecHalves d a b f s).MemOk := memOk_vecFp hs
theorem memOk_vecScan {g f mode d a} (hs : s.MemOk) : (vecScan g f mode d a s).MemOk := memOk_drew hs
theorem memOk_vecRed {g f mode ident out a c} (hs : s.MemOk) : (vecRed g f mode ident out a c s).MemOk := memOk_setData (memOk_drew hs)
theorem memOk_vecSum {a c} (hs : s.MemOk) : (vecSum a c s).MemOk := memOk_setData hs
theorem memOk_vecInt {op d a b} (hs : s.MemOk) : (vecInt op d a b s).MemOk := hs
theorem memOk_vecImm {op d a y} (hs : s.MemOk) : (vecImm op d a y s).MemOk := hs
theorem memOk_vecWrite {d f} (hs : s.MemOk) : (vecWrite d f s).MemOk := hs
theorem memOk_vecRebal {d a c} (hs : s.MemOk) : (vecRebal d a c s).MemOk := hs
theorem memOk_vecPlane {d a c} (hs : s.MemOk) : (vecPlane d a c s).MemOk := hs
theorem memOk_modCur {f} (hs : s.MemOk) : (s.modCur f).MemOk := hs
theorem memOk_vecEffect {i} (hs : s.MemOk) : (vecEffect i s).MemOk := by
  unfold vecEffect
  split <;> simp only [memOk_vecInt, memOk_vecImm, memOk_vecWrite, memOk_vecRebal, memOk_vecPlane, memOk_modCur, memOk_vecSum, memOk_vecRed, memOk_setData, memOk_vecScan,
    memOk_vecFp, memOk_vecFp1, memOk_vecFp2, memOk_vecFcmp, memOk_vecHalves, hs]
-- SKIP Sys2Proof.Machine.vecExec : no path

/-! ### The canonical form: control flow -/

theorem memOk_nestStep {i f} (hs : s.MemOk) : (nestStep i f s).MemOk := memOk_ite (memOk_raise hs) (memOk_advance hs)
theorem memOk_branch12 {c i} (hs : s.MemOk) : (branch12 c i s).MemOk := memOk_ite (memOk_branch hs) (memOk_advance hs)
theorem memOk_fetchWord {core key} (hs : s.MemOk) : (fetchWord s core key).2.MemOk := by
  unfold fetchWord
  extract_lets read
  have hread : ∀ s, s.MemOk → (read s).2.MemOk := fun _ ht => memOk_ite (memOk_bypassRead ht) (memOk_bypassRead ht)
  split
  · exact hread _ hs
  · split
    · split
      · exact hs
      · exact hread _ hs
    · exact memOk_ite_snd hs (hread _ hs)
theorem memOk_fetchAt {cap ea} (hs : s.MemOk) : (fetchAt s cap ea).2.MemOk := by
  unfold fetchAt
  split
  next u h => exact memOk_of_snd h (memOk_checkAccess hs)
  next t h1 =>
    have ht : t.MemOk := memOk_of_snd h1 (memOk_checkAccess hs)
    exact memOk_ite_snd (memOk_noteLeaf ht) (memOk_fetchWord (memOk_noteLeaf ht))
theorem memOk_fetchBody {cap n} : ∀ {ea} {s : State}, s.MemOk → (fetchBody s cap ea n).2.MemOk := by
  induction n with
  | zero => exact id
  | succ n ih =>
    intro ea s hs
    unfold fetchBody
    split
    next h => exact memOk_of_snd h (memOk_fetchAt hs)
    next h => split <;> exact memOk_of_snd ‹_› (ih (memOk_of_snd h (memOk_fetchAt hs)))
theorem memOk_lanePlaces {cap off n need u ls} : ∀ {s : State}, s.MemOk → (lanePlaces cap off n need u s ls).2.MemOk := by
  induction ls with
  | nil => exact id
  | cons l t ih =>
    intro s hs
    unfold lanePlaces
    split
    next h => exact memOk_of_snd h (memOk_checkAccess hs)
    next h => split <;> exact memOk_of_snd ‹_› (ih (memOk_noteLeaf (memOk_of_snd h (memOk_checkAccess hs))))
theorem memOk_withLanes {cap va n need u k} (hs : s.MemOk) (hk : ∀ a1 t, t.MemOk → (k a1 t).MemOk) : (withLanes s cap va n need u k).MemOk := by
  unfold withLanes
  split
  next h => exact memOk_raise (memOk_of_snd h (memOk_lanePlaces hs))
  next h => exact memOk_advance (memOk_of_snd h (memOk_lanePlaces hs))
  next h =>
    have ht := memOk_of_snd h (memOk_lanePlaces hs)
    exact memOk_ite (memOk_park ht) (hk _ _ ht)
theorem memOk_vecLoad {mc d a c sid q} (hs : s.MemOk) : (vecLoad mc d a c sid q s).MemOk := memOk_withLanes hs (fun _ _ ht => memOk_issue ht)
theorem memOk_vecAtomic {op n d o a sid} (hs : s.MemOk) : (vecAtomic op n d o a sid s).MemOk := memOk_withLanes hs (fun _ _ ht => memOk_issue ht)

/-! ### The canonical form: orders and leases -/

theorem memOk_publish {own p} (hs : s.MemOk) : (publish s own p).MemOk := memOk_release hs
theorem memOk_afterLease {t k} (hs : s.MemOk) (hk : ∀ t, t.MemOk → (k t).MemOk) : (afterLease s t k).MemOk := memOk_ite (memOk_park hs) (hk _ hs)
theorem memOk_fenceThen {scope p k own} (hs : s.MemOk) (hk : ∀ t, t.MemOk → (k t).MemOk) : (fenceThen s scope p k own).MemOk := by
  unfold fenceThen
  extract_lets _ s1 pub
  have hs1 : s1.MemOk := memOk_drainWhere hs
  have hpub : ∀ s, s.MemOk → (pub s).MemOk := fun _ ht => hk _ (memOk_publish ht)
  exact memOk_ite (memOk_stall hs) (memOk_ite (hk _ hs) (memOk_ite (memOk_stall hs1) (memOk_ite (hpub _ hs1) (memOk_afterLease hs1 hpub))))
theorem memOk_victimDrain {c} (hs : s.MemOk) : (victimDrain s c).MemOk := by
  unfold victimDrain
  extract_lets
  split
  · exact memOk_ite hs (memOk_drainWhere hs)
  · exact memOk_drainWhere hs
theorem memOk_narrowRel {scope p v} (hs : s.MemOk) : (narrowRel s scope p v).MemOk :=
  memOk_ite (memOk_stall hs) (memOk_ite (memOk_stall (memOk_ite (memOk_victimDrain hs) hs))
    (memOk_ite (memOk_issue (memOk_release hs)) (memOk_issueGather (memOk_release hs) (fun _ ht => memOk_advance ht))))
theorem memOk_readFlag {key} (hs : s.MemOk) : (readFlag s key).2.2.MemOk := by
  unfold readFlag
  extract_lets
  split
  next h => exact memOk_of_snd h (memOk_bypassRead hs)
theorem memOk_acquire {rs} (hs : s.MemOk) : (acquire s rs).MemOk := memOk_foldl (fun _ _ ht => memOk_learn ht) hs
theorem memOk_finishAcq {scope d t v bad} (hs : s.MemOk) : (finishAcq s scope d t v bad).MemOk := memOk_ite (memOk_reply hs) (memOk_reply hs)
theorem memOk_drainCovered {c ca} (hs : s.MemOk) : (drainCovered s c ca).MemOk := by
  unfold drainCovered
  split
  · exact memOk_drainWhere hs
  · exact hs
theorem memOk_acqpRead {scope d key t pct} (hs : s.MemOk) : (acqpRead s scope d key t pct).MemOk := by
  unfold acqpRead
  extract_lets go
  have hgo : ∀ s, s.MemOk → (go s).MemOk := fun _ hu => memOk_finishAcq (memOk_acquire (memOk_readFlag hu))
  exact memOk_ite (memOk_afterLease hs hgo) (hgo _ hs)
theorem memOk_beginPromotion {c ws} (hs : s.MemOk) : (beginPromotion s c ws).MemOk := memOk_drainCovered hs
theorem memOk_lineKeys {n} : ∀ {ea} {s : State}, s.MemOk → (lineKeys s ea n).2.MemOk := by
  induction n with
  | zero => exact id
  | succ n ih =>
    intro ea s hs
    unfold lineKeys
    split
    next h => exact memOk_of_snd h (memOk_window hs)
    next h => split <;> exact memOk_of_snd ‹_› (ih (memOk_noteLeaf (memOk_of_snd h (memOk_window hs))))
theorem memOk_sendNext {core line} (hs : s.MemOk) : (sendNext s core line).MemOk := by
  unfold sendNext
  split
  · exact memOk_drainEntry hs
  · exact hs
theorem memOk_freed {r core line} (hs : s.MemOk) : (freed r core s line).MemOk := memOk_runQueue (memOk_sendNext hs)
theorem memOk_joinMulti {r line} (hs : s.MemOk) : (joinMulti s r line).MemOk := by
  unfold joinMulti
  extract_lets alloc
  have halloc : ∀ s rs, s.MemOk → (alloc s rs).MemOk := fun _ _ ht => memOk_accessLine ht
  split
  · split
    · exact memOk_ite (halloc _ _ (memOk_ite_snd hs hs)) (memOk_ite_snd hs hs)
    · exact hs
  · exact memOk_ite (halloc _ _ hs) hs
theorem memOk_arriveRead {r} (hs : s.MemOk) : (arriveRead s r).MemOk := by
  unfold arriveRead
  extract_lets now
  have hnow : ∀ s, s.MemOk → (now s).MemOk := fun _ ht => memOk_serveRead ht
  split
  · exact memOk_ite (hnow _ hs) (memOk_joinMulti (memOk_ite hs hs))
  · exact hnow _ hs
theorem memOk_failReq {r err} (hs : s.MemOk) : (failReq s r err).MemOk := memOk_spoilReply hs
theorem memOk_arriveWrite {r err} (hs : s.MemOk) : (arriveWrite s r err).MemOk := by
  unfold arriveWrite
  split
  · split
    · exact hs
    · extract_lets set
      have hset : ∀ s g r, s.MemOk → (set s g r).MemOk := fun _ _ _ ht => ht
      exact memOk_ite (hset _ _ _ hs) (memOk_ite (hset _ _ _ (memOk_sliceMessage hs)) (hset _ _ _ (memOk_homeDrain hs)))
  · exact memOk_ite (memOk_failReq hs) (memOk_serveWrite hs)
-- SKIP Sys2Proof.Machine.takeReq : no path

/-! ### The canonical form: starting and ending -/

theorem memOk_passOn {h uid k} (hs : s.MemOk) : (passOn s h uid k).MemOk := memOk_modGrid hs
theorem memOk_modPusher {p f} (hs : s.MemOk) : (State.modPusher s p f).MemOk := memOk_modOwner hs
theorem memOk_startWave {w grp h gidx widx soff base r sup c3 c5} (hs : s.MemOk) : (startWave s w grp h gidx widx soff base r sup c3 c5).MemOk :=
  memOk_modCore (memOk_setWave hs)
theorem memOk_freeCtx {v n} (hs : s.MemOk) : (freeCtx s v n).MemOk := by
  unfold freeCtx
  extract_lets
  split
  · exact hs
  · split
    · exact memOk_wakeAgent (memOk_passOn hs)
    · exact memOk_passOn hs
theorem memOk_stopCtx {v n stopper} (hs : s.MemOk) : (stopCtx s v n stopper).MemOk :=
  memOk_freeCtx (memOk_modCtx (memOk_modVat (memOk_modNet (memOk_deregister hs))))
theorem memOk_unwake {w} (hs : s.MemOk) : (unwake s w).MemOk := hs
theorem memOk_closePort {w} (hs : s.MemOk) : (closePort s w).MemOk := hs
theorem memOk_endWave {w} (hs : s.MemOk) : (endWave s w).MemOk := by
  unfold endWave
  extract_lets _ _ s1 s2 s3 s4 s5 s6 s7 s8 s9
  have hs4 : s4.MemOk := memOk_closePort (memOk_drainWhere (memOk_unwake (memOk_deregister hs)))
  have hs8 : s8.MemOk := memOk_passOn (memOk_modWave (memOk_modCore (memOk_modVat hs4)))
  have hs9 : s9.MemOk := memOk_of_eq hs8 rfl rfl
  split
  · split
    · exact memOk_stopCtx hs9
    · exact hs9
  · exact hs8
theorem memOk_settleGrid {h} (hs : s.MemOk) : (settleGrid s h).MemOk := memOk_modGrid hs
theorem memOk_advanceNode {h fuel} : ∀ {s : State}, s.MemOk → (advanceNode s h fuel).MemOk := by
  induction fuel with
  | zero => exact id
  | succ n ih =>
    intro s hs
    unfold advanceNode
    split
    next hn _ =>
      cases hn
      split
      · split
        · exact ih (memOk_setGrid (memOk_homeWrite hs))
        · exact hs
      · exact hs
    · exact hs
theorem memOk_endGroup {h i} (hs : s.MemOk) : (endGroup s h i).MemOk := memOk_settleGrid (memOk_advanceNode (memOk_modGrid hs))
theorem memOk_releaseGroup {g} (hs : s.MemOk) : (releaseGroup s g).MemOk := by
  unfold releaseGroup
  split
  · exact hs
  · exact memOk_endGroup (memOk_invalidateWaiters hs)
theorem memOk_freeDomain {d n} (hs : s.MemOk) : (freeDomain s d n).MemOk := memOk_invalidateWaiters (memOk_poke (memOk_barWrite hs))
theorem memOk_freeDomains {h} (hs : s.MemOk) : (freeDomains s h).MemOk := memOk_foldl (fun _ _ ht => memOk_foldl (fun _ _ hu => memOk_ite (memOk_freeDomain hu) hu) ht) hs
theorem memOk_killGrid {h} (hs : s.MemOk) : (killGrid s h).2.MemOk := by
  unfold killGrid
  extract_lets hs' _ _ s2 s3
  have hs2 : s2.MemOk := memOk_foldl (fun _ _ hu => memOk_endWave hu) (memOk_foldl (fun _ _ ht => memOk_modGrid ht) hs)
  exact memOk_foldl (fun _ _ hx => memOk_settleGrid hx) (memOk_foldl (s := s3) (fun _ _ hv => memOk_freeDomains hv) (memOk_of_eq hs2 rfl rfl))
theorem memOk_countVector {v} (hs : s.MemOk) : (countVector s v).MemOk := memOk_ite hs hs
theorem memOk_writeRecord {h g} (hs : s.MemOk) : (writeRecord s h g).MemOk :=
  memOk_countVector (memOk_of_eq (memOk_homeWrite (memOk_notePage hs)) rfl rfl)
theorem memOk_finishGrid {h g} (hs : s.MemOk) : (finishGrid s h g).MemOk := by
  unfold finishGrid
  extract_lets _ _ _ s3
  have hs3 : s3.MemOk := memOk_ite (memOk_freeDomains hs) (memOk_freeDomains hs)
  exact memOk_ite hs3 (memOk_settleGrid hs3)
theorem memOk_completeGrid {h g} (hs : s.MemOk) : (completeGrid s h g).MemOk := memOk_ite (memOk_ite (memOk_finishGrid (memOk_writeRecord hs)) hs) (memOk_finishGrid hs)
theorem memOk_retireGrid {h} (hs : s.MemOk) : (retireGrid s h).MemOk := by
  unfold retireGrid
  split
  · exact hs
  · exact memOk_ite (memOk_completeGrid hs) (memOk_ite hs (memOk_ite hs (memOk_completeGrid hs)))

/-! ### The canonical form: grids, groups and tasks -/

theorem memOk_poolRange {h lo hi} (hs : s.MemOk) : (poolRange s h lo hi).MemOk := memOk_foldl (fun _ _ ht => ht) hs
theorem memOk_acceptGrid {r depth parent asid vec qkey} (hs : s.MemOk) : (acceptGrid s r depth parent asid vec qkey).2.MemOk :=
  memOk_ite_snd (memOk_modGrid (memOk_homeWrite hs)) (memOk_poolRange hs)
theorem memOk_queuePlace {r core asid} (hs : s.MemOk) : (queuePlace s r core asid).2.MemOk := by
  unfold queuePlace
  split
  · exact hs
  · split
    next t h =>
      have ht : t.MemOk := memOk_of_snd h (memOk_engineWindow hs)
      exact memOk_accessLine (memOk_noteLeaf ht)
    next u h1 => exact memOk_of_snd h1 (memOk_engineWindow hs)
theorem memOk_distReply {d st v made} (hs : s.MemOk) : (distReply s d st v made).MemOk := memOk_park hs
theorem memOk_releaseThen {k} (hs : s.MemOk) (hk : ∀ t, t.MemOk → (k t).MemOk) : (releaseThen s k).MemOk := memOk_fenceThen hs hk
theorem memOk_mapAcross {n} : ∀ {ea} {s : State}, s.MemOk → (mapAcross s ea n).2.MemOk := by
  induction n with
  | zero => exact id
  | succ n ih =>
    intro ea s hs
    unfold mapAcross
    split
    next h => exact memOk_of_snd h (memOk_window hs)
    next h => exact ih (memOk_noteLeaf (memOk_of_snd h (memOk_window hs)))
theorem memOk_readKeys {ks} : ∀ {s : State}, s.MemOk → (readKeys s ks).2.2.MemOk := by
  induction ks with
  | nil => exact id
  | cons k t ih =>
    intro s hs
    unfold readKeys
    split
    next h =>
      split
      next h' => exact memOk_of_snd_snd h' (ih (memOk_of_snd h (memOk_bypassRead hs)))
theorem memOk_withMapped {ea n k} (hs : s.MemOk) (hk : ∀ a1 t, t.MemOk → (k a1 t).MemOk) : (withMapped s ea n k).MemOk := by
  unfold withMapped
  split
  next t h =>
    have ht : t.MemOk := memOk_of_snd h (memOk_mapAcross hs)
    exact hk _ _ ht
  next u h1 =>
    have hu : u.MemOk := memOk_of_snd h1 (memOk_mapAcross hs)
    exact memOk_raise hu
theorem memOk_withGranules {ks k} (hs : s.MemOk) (hk : ∀ a1 t, t.MemOk → (k a1 t).MemOk) : (withGranules s ks k).MemOk := by
  unfold withGranules
  split
  next t h =>
    have ht : t.MemOk := memOk_of_snd_snd h (memOk_readKeys hs)
    exact hk _ _ ht
  next u h1 =>
    have hu : u.MemOk := memOk_of_snd_snd h1 (memOk_readKeys hs)
    exact memOk_raise hu
theorem memOk_writeAcross {by_ core asid bs} : ∀ {ea} {s : State}, s.MemOk → (writeAcross s by_ core asid ea bs).MemOk := by
  induction bs with
  | nil => exact id
  | cons b t ih =>
    intro ea s hs
    unfold writeAcross
    split
    next h => exact ih (memOk_of_snd h (memOk_engineWindow hs))
    next h => exact ih (memOk_homeWrite (memOk_noteLeaf (memOk_of_snd h (memOk_engineWindow hs))))
theorem memOk_note {j} (hs : s.MemOk) : (note s j).MemOk := hs
theorem memOk_readyBatch {h written} (hs : s.MemOk) : (readyBatch s h written).MemOk := by
  unfold readyBatch
  split
  · exact hs
  · extract_lets _ _ s1 s2
    have hs2 : s2.MemOk := memOk_setGrid (memOk_homeWrite hs)
    exact memOk_note (memOk_of_eq hs2 rfl rfl)
theorem memOk_emitClk {h} (hs : s.MemOk) : (emitClk s h).MemOk := memOk_modGrid (memOk_release hs)
theorem memOk_closeNode {h} (hs : s.MemOk) : (closeNode s h).MemOk := by
  unfold closeNode
  split
  · exact hs
  · exact memOk_settleGrid (memOk_ite (memOk_readyBatch hs) hs)
theorem memOk_refillOf {c} (hs : s.MemOk) : (refillOf s c).MemOk := memOk_modDie (memOk_modVat hs)
theorem memOk_charge {c p} (hs : s.MemOk) : (charge s c p).MemOk := memOk_modDie (memOk_modVat (memOk_refillOf hs))
theorem memOk_grantIndex {c h i} (hs : s.MemOk) : (grantIndex s c h i).MemOk := by
  unfold grantIndex
  split
  · exact memOk_setGrid (memOk_modCore (memOk_charge (memOk_note hs)))
  · exact hs
theorem memOk_dispatchLocal {c t} (hs : s.MemOk) : (dispatchLocal s c t).MemOk := memOk_grantIndex hs
theorem memOk_workRequest {c} (hs : s.MemOk) : (workRequest s c).MemOk := by
  unfold workRequest
  split
  · exact hs
  · split
    · exact memOk_dispatchLocal hs
    · exact memOk_dispatchLocal hs
    · exact hs
theorem memOk_prefetchCode {c asid ea} (hs : s.MemOk) : (prefetchCode s c asid ea).MemOk := by
  unfold prefetchCode
  split
  next t h =>
    have ht : t.MemOk := memOk_of_snd h (memOk_engineWindow hs)
    exact memOk_ite ht (memOk_belowRead (memOk_noteLeaf ht))
  next u h1 => exact memOk_of_snd h1 (memOk_engineWindow hs)
theorem memOk_prefetchLine {c asid ea} (hs : s.MemOk) : (prefetchLine s c asid ea).MemOk := by
  unfold prefetchLine
  split
  next t h =>
    have ht : t.MemOk := memOk_of_snd h (memOk_engineWindow hs)
    exact memOk_ite ht (memOk_placeReplicas (memOk_readL1 (memOk_noteLeaf ht)))
  next u h1 => exact memOk_of_snd h1 (memOk_engineWindow hs)
theorem memOk_prefetch {c sh g} (hs : s.MemOk) : (prefetch s c sh g).MemOk := by
  unfold prefetch
  extract_lets _ _ s1
  have hs1 : s1.MemOk := memOk_foldl (fun _ _ ht => memOk_prefetchCode ht) hs
  exact memOk_ite (memOk_foldl (fun _ _ hu => memOk_prefetchLine hu) hs1) hs1
theorem memOk_freshStack {w asid r} (hs : s.MemOk) : (freshStack s w asid r).MemOk := by
  unfold freshStack
  extract_lets
  split
  · exact hs
  · refine memOk_foldl (fun _ _ ht => ?_) hs
    split
    · exact memOk_scribble ht
    · exact ht
theorem memOk_freshMemory {c slots soff slen asid r} (hs : s.MemOk) : (freshMemory s c slots soff slen asid r).MemOk :=
  memOk_foldl (fun _ _ ht => memOk_freshStack ht) (memOk_scribble hs)
theorem memOk_startGroup {c sh g} (hs : s.MemOk) : (startGroup s c sh g).MemOk := memOk_foldl (fun _ _ ht => memOk_startWave ht) (memOk_freshMemory (memOk_modGrid hs))
theorem memOk_runShadow {c slot fetch} (hs : s.MemOk) : (runShadow s c slot fetch).MemOk := by
  unfold runShadow
  split
  · exact hs
  · split
    · exact hs
    · exact memOk_startGroup (memOk_ite (memOk_prefetch hs) hs)
theorem memOk_takeShadow {c slot fetch} (hs : s.MemOk) : (takeShadow s c slot fetch).MemOk := memOk_ite hs (memOk_runShadow (memOk_ite hs hs))
theorem memOk_fillWindow {c} (hs : s.MemOk) : (fillWindow s c).MemOk := by
  unfold fillWindow
  refine memOk_foldl (fun _ _ ht => ?_) hs
  split <;> exact ht

/-! ### The canonical form: system operations -/

theorem memOk_getReg {d n code} (hs : s.MemOk) : (getReg d n code s).MemOk := by
  unfold getReg
  split
  · exact memOk_raise hs
  · exact memOk_advance (memOk_setData (memOk_ite hs hs))
-- SKIP Sys2Proof.Machine.setReg : no path

/-! ### The canonical form: the streams -/

theorem memOk_passGate {v gated sink} (hs : s.MemOk) : (passGate s v gated sink).MemOk := memOk_ite hs hs
theorem memOk_changeRow {r f} (hs : s.MemOk) : (changeRow s r f).MemOk := memOk_ite (memOk_stall hs) (memOk_advance hs)
theorem memOk_engineWord {c asid ea n} (hs : s.MemOk) : (engineWord s c asid ea n).2.MemOk := by
  unfold engineWord
  split
  next t h => exact memOk_of_snd h (memOk_engineWindow hs)
  next u h1 =>
    have hu : u.MemOk := memOk_of_snd h1 (memOk_engineWindow hs)
    split
    · exact hu
    · extract_lets
      split <;> exact memOk_accessLine (memOk_noteLeaf hu)
theorem memOk_engineReadFrom {c asid fuel} : ∀ {ea n} {s : State}, s.MemOk → (engineReadFrom s c asid fuel ea n).2.MemOk := by
  induction fuel with
  | zero => exact id
  | succ f ih =>
    intro ea n s hs
    unfold engineReadFrom
    extract_lets
    split
    · exact hs
    split
    next h => exact memOk_of_snd h (memOk_engineWord hs)
    next h => split <;> exact memOk_of_snd ‹_› (ih (memOk_of_snd h (memOk_engineWord hs)))
theorem memOk_engineRead {c asid ea n} (hs : s.MemOk) : (engineRead s c asid ea n).2.MemOk := memOk_engineReadFrom hs
theorem memOk_wordRead {c asid lo hi held w} (hs : s.MemOk) : (wordRead s c asid lo hi held w).2.2.MemOk := by
  unfold wordRead
  split
  · exact hs
  · extract_lets
    split
    next u h => exact memOk_of_snd h (memOk_engineWord hs)
    next t h1 => exact memOk_of_snd h1 (memOk_engineWord hs)
theorem memOk_spanRead {c asid lo hi fuel} : ∀ {held ea n} {s : State}, s.MemOk → (spanRead s c asid lo hi held fuel ea n).2.2.MemOk := by
  induction fuel with
  | zero => exact id
  | succ f ih =>
    intro held ea n s hs
    unfold spanRead
    extract_lets
    split
    · exact hs
    split
    next h => exact memOk_of_snd_snd h (memOk_wordRead hs)
    next h => split <;> exact memOk_of_snd_snd ‹_› (ih (memOk_of_snd_snd h (memOk_wordRead hs)))
theorem memOk_engineWriteFrom {by_ c asid spoil mixed fuel} : ∀ {ea bs} {s : State}, s.MemOk → (engineWriteFrom s by_ c asid spoil mixed fuel ea bs).2.2.MemOk := by
  induction fuel with
  | zero => exact id
  | succ f ih =>
    intro ea bs s hs
    unfold engineWriteFrom
    extract_lets
    split
    · exact hs
    split
    next h => exact memOk_of_snd h (memOk_engineWindow hs)
    next h =>
      have ht := memOk_of_snd h (memOk_engineWindow hs)
      split
      · exact memOk_sliceMessage ht
      split
      next h1 =>
        have hu := memOk_of_snd h1 (memOk_foldl_snd (fun _ _ hb => memOk_ite_snd hb (memOk_ite_snd hb hb)) (memOk_noteLeaf ht))
        extract_lets
        split
        next h2 => exact memOk_of_snd_snd h2 (ih (memOk_homeWrite hu))
theorem memOk_engineWrite {by_ c asid ea bs spoil mixed} (hs : s.MemOk) : (engineWrite s by_ c asid ea bs spoil mixed).2.2.MemOk := memOk_engineWriteFrom hs
theorem memOk_sourceRead {c r ea n} (hs : s.MemOk) : (sourceRead s c r ea n).2.MemOk := by
  unfold sourceRead
  split <;> exact memOk_of_snd_snd ‹_› (memOk_spanRead hs)
theorem memOk_withBytes {c r off n k} (hs : s.MemOk) (hk : ∀ a1 t, t.MemOk → (k a1 t).2.MemOk) : (withBytes s c r off n k).2.MemOk := by
  unfold withBytes
  split
  next u h => exact memOk_of_snd h (memOk_sourceRead hs)
  next t h1 =>
    have ht : t.MemOk := memOk_of_snd h1 (memOk_sourceRead hs)
    exact hk _ _ ht
theorem memOk_ladleConvert {src dst w n bs} (hs : s.MemOk) : (ladleConvert src dst w n bs s).2.MemOk := memOk_drew hs
theorem memOk_elementAt {c r f g} (hs : s.MemOk) : (elementAt s c r f g).2.MemOk := by
  unfold elementAt
  split
  · exact hs
  · extract_lets
    split
    next u h => exact memOk_of_snd h (memOk_sourceRead hs)
    next t h1 =>
      have ht : t.MemOk := memOk_of_snd h1 (memOk_sourceRead hs)
      exact ht
theorem memOk_elementsAt {c f gs} : ∀ {r} {s : State}, s.MemOk → (elementsAt s c r f gs).2.MemOk := by
  induction gs with
  | nil => exact id
  | cons g t ih =>
    intro r s hs
    unfold elementsAt
    split
    next h => exact memOk_of_snd h (memOk_elementAt hs)
    next h => split <;> exact memOk_of_snd ‹_› (ih (memOk_of_snd h (memOk_elementAt hs)))
theorem memOk_makePlane {c r b} (hs : s.MemOk) : (makePlane s c r b).2.MemOk := by
  unfold makePlane
  extract_lets
  split
  next u h => exact memOk_of_snd h (memOk_elementsAt hs)
  next t h1 =>
    have ht : t.MemOk := memOk_of_snd h1 (memOk_elementsAt hs)
    exact memOk_drew ht
theorem memOk_unplane {w bs} (hs : s.MemOk) : (unplane w bs s).2.MemOk := memOk_drew hs
theorem memOk_makeOutput {c r} (hs : s.MemOk) : (makeOutput s c r).2.MemOk := by
  unfold makeOutput
  extract_lets
  split
  · exact memOk_withBytes hs (fun _ _ ht => ht)
  · exact memOk_withBytes hs (fun _ _ hu => memOk_ladleConvert hu)
  · exact memOk_withBytes hs (fun _ _ hv => memOk_ladleConvert hv)
  · exact memOk_withBytes hs (fun _ _ hx => memOk_ladleConvert hx)
  · exact memOk_withBytes hs (fun _ _ hy => memOk_ladleConvert hy)
  · exact memOk_makePlane hs
  · exact memOk_withBytes hs (fun _ _ hz => memOk_unplane hz)
theorem memOk_fillOutput {c want fuel} : ∀ {r} {s : State}, s.MemOk → (fillOutput s c want fuel r).2.MemOk := by
  induction fuel with
  | zero => exact id
  | succ f ih =>
    intro r s hs
    unfold fillOutput
    split
    · exact hs
    split
    next h => exact memOk_of_snd h (memOk_makeOutput hs)
    next h => exact ih (memOk_of_snd h (memOk_makeOutput hs))
theorem memOk_creditReq {c r} (hs : s.MemOk) : (creditReq s c r).MemOk := memOk_ite hs hs
theorem memOk_endReq {c r cut} (hs : s.MemOk) : (endReq s c r cut).MemOk := memOk_modPusher (memOk_passOn hs)
theorem memOk_abortReq {c r t} (hs : s.MemOk) : (abortReq s c r t).MemOk := memOk_endReq (memOk_postMessage (memOk_creditReq hs))
theorem memOk_landReq {c want r} (hs : s.MemOk) : (landReq s c want r).MemOk := by
  unfold landReq
  split
  next u h =>
    have hu : u.MemOk := memOk_of_snd h (memOk_fillOutput hs)
    exact memOk_abortReq hu
  next t h1 =>
    have ht : t.MemOk := memOk_of_snd h1 (memOk_fillOutput hs)
    split
    next x h3 =>
      have hx : x.MemOk := memOk_of_snd_snd h3 (memOk_engineWrite ht)
      extract_lets
      split
      · exact memOk_abortReq hx
      · exact memOk_ite (memOk_creditReq hx) hx
theorem memOk_enqueueReq {ch src dst out} (hs : s.MemOk) : (enqueueReq s ch src dst out).2.MemOk := hs
theorem memOk_pushReq {try_ ch d a b} (hs : s.MemOk) : (pushReq try_ ch d a b s).MemOk := by
  unfold pushReq
  extract_lets _ _ _ st
  have hst : ∀ c v s, s.MemOk → (st c v s).MemOk := fun _ _ _ ht => memOk_advance (memOk_setData ht)
  exact memOk_withAccess hs (fun _ _ hu => memOk_ite (hst _ _ _ hu)
      (memOk_withAccess hu (fun _ _ hv => memOk_ite (memOk_ite (hst _ _ _ hv) (memOk_stall hv)) (hst _ _ _ (memOk_enqueueReq hv)))))
theorem memOk_landCredited {c want r} (hs : s.MemOk) : (landCredited s c want r).MemOk := by
  unfold landCredited
  extract_lets
  split
  · exact memOk_ite (memOk_landReq (memOk_ite hs (memOk_landReq hs))) (memOk_ite hs (memOk_landReq hs))
  · exact memOk_ite hs (memOk_landReq hs)
theorem memOk_cancelReqs {c ch fuel} : ∀ {s : State}, s.MemOk → (cancelReqs s c ch fuel).MemOk := by
  induction fuel with
  | zero => exact id
  | succ f ih =>
    intro s hs
    unfold cancelReqs
    split
    · exact hs
    extract_lets _ _ s1
    have hs1 : s1.MemOk := memOk_ite hs (memOk_landCredited hs)
    refine ih ?_
    split
    · exact memOk_ite (memOk_endReq (memOk_creditReq hs1)) hs1
    · exact hs1
theorem memOk_popPlaces {fuel} : ∀ {ea n} {s : State}, s.MemOk → (popPlaces s fuel ea n).2.MemOk := by
  induction fuel with
  | zero => exact id
  | succ f ih =>
    intro ea n s hs
    unfold popPlaces
    extract_lets
    split
    · exact hs
    split
    next h => exact memOk_of_snd h (memOk_window hs)
    next h => split <;> exact memOk_of_snd ‹_› (ih (memOk_noteLeaf (memOk_of_snd h (memOk_window hs))))
theorem memOk_allPlaces {es} : ∀ {s : State}, s.MemOk → (allPlaces s es).2.MemOk := by
  induction es with
  | nil => exact id
  | cons e t ih =>
    intro s hs
    have he : (match e.2 with
      | some (ea, n) => popPlaces s n ea n
      | none => (.ok [], s)).2.MemOk := by
      split
      · exact memOk_popPlaces hs
      · exact hs
    unfold allPlaces
    split
    next h => exact memOk_of_snd h he
    next h => split <;> exact memOk_of_snd ‹_› (ih (memOk_of_snd h he))
theorem memOk_popRead {l} (hs : s.MemOk) : (popRead s l).2.2.MemOk := by
  unfold popRead
  split
  next h =>
    refine memOk_of_snd_snd h (memOk_foldl_snd_snd (fun a p ha => ?_) hs)
    split
    next h' => exact memOk_of_snd h' (memOk_bypassRead ha)
theorem memOk_withPops {k n t f} (hs : s.MemOk) (hf : ∀ a1 a2 a3 t, t.MemOk → (f a1 a2 a3 t).MemOk) : (withPops s k n t f).MemOk := by
  unfold withPops
  split
  · exact memOk_park hs
  split
  next h => exact memOk_raise (memOk_of_snd h (memOk_allPlaces hs))
  next h =>
    have ht := memOk_of_snd h (memOk_allPlaces hs)
    split
    · exact memOk_park ht
    split
    · exact memOk_stall ht
    split
    next h1 => exact hf _ _ _ _ (memOk_modCore (memOk_of_snd_snd h1 (memOk_foldl_snd_snd (fun _ _ hb => memOk_popRead hb) ht)))

/-! ### The canonical form: the press -/

theorem memOk_post {op word ma mb cap lg} (hs : s.MemOk) : (post s op word ma mb cap lg).MemOk := memOk_ite (memOk_stall hs) (memOk_advance hs)
theorem memOk_arenaRead {x2 off n} (hs : s.MemOk) : (arenaRead s x2 off n).2.MemOk := memOk_engineRead hs
theorem memOk_readBlock {x2 off w} (hs : s.MemOk) : (readBlock s x2 off w).2.MemOk := by
  unfold readBlock
  split
  next u h => exact memOk_of_snd h (memOk_arenaRead hs)
  next t h1 => exact memOk_of_snd h1 (memOk_arenaRead hs)
theorem memOk_readBlocks {x w l} : ∀ {s : State}, s.MemOk → (readBlocks s x w l).2.MemOk := by
  induction l with
  | nil => exact id
  | cons o l ih =>
    intro s hs
    unfold readBlocks
    split
    next h => exact memOk_of_snd h (memOk_readBlock hs)
    next h => split <;> exact memOk_of_snd ‹_› (ih (memOk_of_snd h (memOk_readBlock hs)))
theorem memOk_readRows {x str w kb n} : ∀ {off} {s : State}, s.MemOk → (readRows s x off str w kb n).2.MemOk := by
  induction n with
  | zero => exact id
  | succ n ih =>
    intro off s hs
    unfold readRows
    split
    next h => exact memOk_of_snd h (memOk_readBlocks hs)
    next h => split <;> exact memOk_of_snd ‹_› (ih (memOk_of_snd h (memOk_readBlocks hs)))
theorem memOk_runPass {v e} (hs : s.MemOk) : (runPass s v e).2.MemOk := by
  unfold runPass
  extract_lets
  split
  next h => exact memOk_of_snd h (memOk_readRows hs)
  next h =>
    have ht := memOk_of_snd h (memOk_readRows hs)
    split
    next h1 => exact memOk_of_snd h1 (memOk_readRows ht)
    next h1 =>
      have ht1 := memOk_of_snd h1 (memOk_readRows ht)
      extract_lets
      split
      next h2 => exact memOk_of_snd h2 (memOk_foldl_snd (fun _ _ hb => memOk_foldl_snd (fun _ _ hc => hc) hb) ht1)
theorem memOk_runClear {v e} (hs : s.MemOk) : (runClear s v e).2.MemOk := by
  unfold runClear
  split <;> exact hs

/-! ### The canonical form: the joins of the press -/

theorem memOk_portCheck {x2 word off spill} (hs : s.MemOk) : (portCheck s x2 word off spill).2.MemOk := by
  unfold portCheck
  extract_lets
  split
  · exact hs
  · split
    next u h => exact memOk_of_snd h (memOk_arenaAt hs)
    next t h1 =>
      have ht : t.MemOk := memOk_of_snd h1 (memOk_arenaAt hs)
      split
      next y h4 => exact memOk_of_snd h4 (memOk_arenaRead ht)
      next z h5 =>
        have hz : z.MemOk := memOk_of_snd h5 (memOk_arenaRead ht)
        exact memOk_ite_snd hz (memOk_ite_snd hz (memOk_ite_snd hz (memOk_ite_snd hz hz)))
theorem memOk_postDrain {ordered word a} (hs : s.MemOk) : (postDrain ordered word a s).MemOk := by
  unfold postDrain
  split
  · extract_lets
    split
    · exact memOk_raise hs
    · split
      next u h =>
        have hu : u.MemOk := memOk_of_snd h (memOk_portCheck hs)
        exact memOk_raise hu
      next t h1 =>
        have ht : t.MemOk := memOk_of_snd h1 (memOk_portCheck hs)
        exact memOk_post ht
theorem memOk_readTuples {x n} : ∀ {off prev} {s : State}, s.MemOk → (readTuples s x off prev n).2.MemOk := by
  induction n with
  | zero => exact id
  | succ n ih =>
    intro off prev s hs
    unfold readTuples
    split
    next h => exact memOk_of_snd h (memOk_arenaRead hs)
    next h =>
      have ht := memOk_of_snd h (memOk_arenaRead hs)
      exact memOk_ite_snd ht (ih ht)
theorem memOk_applyProduct {v slots key p} (hs : s.MemOk) : (applyProduct s v slots key p).2.2.MemOk := by
  unfold applyProduct
  split <;> exact hs
theorem memOk_storeHead {v e} (hs : s.MemOk) : (storeHead s v e).2.MemOk := memOk_engineWrite hs
theorem memOk_recordPlaces {c asid ea l} : ∀ {s : State}, s.MemOk → (recordPlaces s c asid ea l).2.MemOk := by
  induction l with
  | nil => exact id
  | cons p l ih =>
    intro s hs
    unfold recordPlaces
    split
    next h => exact memOk_of_snd h (memOk_engineWindow hs)
    next h =>
      have ht := memOk_of_snd h (memOk_engineWindow hs)
      split
      · exact memOk_sliceMessage ht
      · split <;> exact memOk_of_snd ‹_› (ih (memOk_noteLeaf ht))
theorem memOk_writePlaces {by_ l} : ∀ {bs} {s : State}, s.MemOk → (writePlaces s by_ bs l).MemOk := by
  induction l with
  | nil => exact id
  | cons p l ih => exact fun hs => ih (memOk_homeWrite hs)
theorem memOk_putRecord {v e wn key val} (hs : s.MemOk) : (putRecord s v e wn key val).2.MemOk := by
  unfold putRecord
  extract_lets
  split
  · exact hs
  split
  · exact hs
  split
  next h => exact memOk_of_snd h (memOk_recordPlaces hs)
  next h =>
    have ht := memOk_of_snd h (memOk_recordPlaces hs)
    extract_lets s1
    have hs1 : s1.MemOk := memOk_writePlaces ht
    split <;> exact memOk_of_snd ‹_› (memOk_storeHead hs1)
theorem memOk_readTail {v e} (hs : s.MemOk) : (readTail s v e).2.MemOk := by
  unfold readTail
  split
  next t h => exact memOk_of_snd h (memOk_arenaRead hs)
  next u h1 => exact memOk_of_snd h1 (memOk_arenaRead hs)
theorem memOk_openPort {v e} (hs : s.MemOk) : (openPort s v e).2.MemOk := by
  unfold openPort
  split
  next t h =>
    have ht : t.MemOk := memOk_of_snd h (memOk_arenaRead hs)
    exact memOk_readTail ht
  next u h1 => exact memOk_of_snd h1 (memOk_arenaRead hs)
theorem memOk_finishOp {v e} (hs : s.MemOk) : (finishOp s v e).2.2.MemOk := memOk_ite_snd (memOk_storeHead hs) hs
theorem memOk_stopOp {v e t} (hs : s.MemOk) : (stopOp s v e t).2.MemOk := memOk_ctxFault (memOk_finishOp hs)
theorem memOk_ringWait {v e} (hs : s.MemOk) : (ringWait s v e).2.2.MemOk := memOk_ite_snd_snd (memOk_readTail hs) (memOk_readTail hs)
theorem memOk_endJoin {v e} (hs : s.MemOk) : (endJoin s v e).2.MemOk := by
  unfold endJoin
  split
  · exact memOk_stopOp hs
  · split
    next u h =>
      have hu : u.MemOk := memOk_of_snd_snd h (memOk_finishOp hs)
      exact memOk_ctxFault hu
    next t h1 =>
      have ht : t.MemOk := memOk_of_snd_snd h1 (memOk_finishOp hs)
      exact memOk_ite ht ht
/-- What holds of the first stage of a recursion on fuel, and passes from each stage to the next, holds of every stage. The equations that Lean derives
for `runJoin` and `runDrain` are too deep for the kernel, so the next two lemmas go through this one. -/
theorem brecOn_of {C : Type} {p : C → Prop} {F : ∀ n, Nat.below (motive := fun _ => C) n → C} (h0 : p (F 0 ⟨⟩))
    (hs : ∀ n (b : Nat.below (motive := fun _ => C) (n + 1)), p b.1 → p (F (n + 1) b)) (n : Nat) : p (Nat.brecOn n F) := by
  change p (Nat.brecOn.go n F).1
  induction n with
  | zero => exact h0
  | succ n ih => exact hs n _ ih
theorem memOk_runJoin {v w fuel e} (hs : s.MemOk) : (runJoin s v w fuel e).2.MemOk := by
  delta runJoin
  refine brecOn_of (p := fun f : State → REntry → REntry × State => ∀ s e, s.MemOk → (f s e).2.MemOk) (fun _ _ => memOk_endJoin) ?_ fuel s e hs
  intro n b ih s e hs
  delta runJoin._f
  obtain ⟨put, hp⟩ : ∃ put, put = putRecord := ⟨_, rfl⟩
  obtain ⟨wait, hw⟩ : ∃ wait, wait = ringWait := ⟨_, rfl⟩
  obtain ⟨apply, ha⟩ : ∃ apply, apply = applyProduct := ⟨_, rfl⟩
  have hput : ∀ {t e wn key val}, t.MemOk → (put t v e wn key val).2.MemOk := hp ▸ memOk_putRecord
  have hwait : ∀ {t e}, t.MemOk → (wait t v e).2.2.MemOk := hw ▸ memOk_ringWait
  have happly : ∀ {l k x}, (apply s v l k x).2.2.MemOk := ha ▸ memOk_applyProduct hs
  rw [← hp, ← hw, ← ha]
  dsimp -zeta only
  split
  · exact memOk_endJoin hs
  split
  · extract_lets
    exact ih _ _ happly
  · extract_lets after stop go wn
    have hstop : ∀ e t c, t.MemOk → (stop e t c).2.MemOk := fun _ _ _ ht => memOk_stopOp ht
    split
    · exact hstop _ _ _ hs
    have hgo : ∀ e t, t.MemOk → (go e t).2.MemOk := fun _ _ ht => ih _ _ ht
    split
    next h1 => exact hgo _ _ (memOk_of_snd h1 (hput hs))
    next h1 => exact hstop _ _ _ (memOk_of_snd h1 (hput hs))
    next h1 =>
      have ht := memOk_of_snd h1 (hput hs)
      split
      next h2 => exact memOk_of_snd_snd h2 (hwait ht)
      next h2 =>
        have hu := memOk_of_snd_snd h2 (hwait ht)
        split
        next h3 => exact hgo _ _ (memOk_of_snd h3 (hput hu))
        next h3 => exact hstop _ _ _ (memOk_of_snd h3 (hput hu))
        next h3 => exact memOk_of_snd h3 (hput hu)
theorem memOk_startJoin {v e} (hs : s.MemOk) : (startJoin s v e).2.MemOk := by
  unfold startJoin
  split
  · exact hs
  · exact memOk_runJoin (memOk_ite_snd (memOk_openPort (memOk_readTuples (memOk_readTuples hs))) (memOk_readTuples (memOk_readTuples hs)))
theorem memOk_endDrain {v w e} (hs : s.MemOk) : (endDrain s v w e).2.MemOk := by
  unfold endDrain
  split
  next u h =>
    have hu : u.MemOk := memOk_of_snd_snd h (memOk_finishOp hs)
    exact memOk_ctxFault hu
  next t h1 =>
    have ht : t.MemOk := memOk_of_snd_snd h1 (memOk_finishOp hs)
    exact memOk_ite (memOk_foldl (fun _ _ hy => hy) ht) ht
theorem memOk_runDrain {v w fuel e} (hs : s.MemOk) : (runDrain s v w fuel e).2.MemOk := by
  delta runDrain
  refine brecOn_of (p := fun f : State → REntry → REntry × State => ∀ s e, s.MemOk → (f s e).2.MemOk) (fun _ _ => memOk_endDrain) ?_ fuel s e hs
  intro n b ih s e hs
  delta runDrain._f
  obtain ⟨put, hp⟩ : ∃ put, put = putRecord := ⟨_, rfl⟩
  obtain ⟨wait, hw⟩ : ∃ wait, wait = ringWait := ⟨_, rfl⟩
  have hput : ∀ {t e wn key val}, t.MemOk → (put t v e wn key val).2.MemOk := hp ▸ memOk_putRecord
  have hwait : ∀ {t e}, t.MemOk → (wait t v e).2.2.MemOk := hw ▸ memOk_ringWait
  rw [← hp, ← hw]
  dsimp only
  split
  · exact memOk_endDrain hs
  split
  next h1 => exact ih _ _ (memOk_of_snd h1 (hput hs))
  next h1 => exact memOk_stopOp (memOk_of_snd h1 (hput hs))
  next h1 =>
    have ht := memOk_of_snd h1 (hput hs)
    split
    next h2 => exact memOk_of_snd_snd h2 (hwait ht)
    next h2 =>
      have hu := memOk_of_snd_snd h2 (hwait ht)
      split
      next h3 => exact ih _ _ (memOk_of_snd h3 (hput hu))
      next h3 => exact memOk_stopOp (memOk_of_snd h3 (hput hu))
      next h3 => exact memOk_of_snd h3 (hput hu)
theorem memOk_startDrain {v ordered e} (hs : s.MemOk) : (startDrain s v ordered e).2.MemOk := by
  unfold startDrain
  split
  · exact hs
  · exact memOk_runDrain (memOk_openPort hs)

/-! ### The canonical form: the graph engine -/

theorem memOk_alsoAccess {ask c n need u k} (hs : s.MemOk) (hk : ∀ t, t.MemOk → (k t).MemOk) : (alsoAccess s ask c n need u k).MemOk :=
  memOk_ite (memOk_withAccess hs (fun _ _ ht => hk _ ht)) (hk _ hs)
theorem memOk_pushHarp {op d a} (hs : s.MemOk) : (pushHarp op d a s).MemOk := by
  unfold pushHarp
  extract_lets _ st
  have hst : ∀ c s, s.MemOk → (st c s).MemOk := fun _ _ ht => memOk_advance (memOk_setData ht)
  refine memOk_withAccess hs (fun _ _ hu => ?_)
  refine memOk_withMapped hu (fun _ _ hv => ?_)
  split
  · exact memOk_stall hv
  · refine memOk_withGranules hv (fun _ _ hx => ?_)
    extract_lets
    split
    next y h =>
      have hy : y.MemOk := memOk_of_snd h hx
      extract_lets
      split
      · exact memOk_raise hy
      · exact memOk_withAccess hy (fun _ _ ht4 => memOk_alsoAccess ht4
          (fun _ ht5 => memOk_ite (hst _ _ ht5) (memOk_alsoAccess ht5 (fun _ ht6 => memOk_alsoAccess ht6 (fun _ ht7 => memOk_ite (memOk_stall ht7) (hst _ _ ht7))))))
theorem memOk_creditHarp {v pos all} (hs : s.MemOk) : (creditHarp s v pos all).MemOk := by
  unfold creditHarp
  split
  · exact hs
  · exact memOk_ite hs (memOk_ite hs hs)
theorem memOk_harpLand {v r pos mixed fuel} : ∀ {ea bs} {s : State}, s.MemOk → (harpLand s v r pos mixed fuel ea bs).2.MemOk := by
  induction fuel with
  | zero => exact id
  | succ n ih =>
    intro ea bs s hs
    unfold harpLand
    split
    · exact hs
    extract_lets m
    have hs1 : ∀ {t f}, t.MemOk → (creditHarp (modHarp t v f) v pos false).MemOk := fun ht => memOk_creditHarp (memOk_modVat ht)
    split
    next h =>
      have ht := memOk_of_snd_snd h (memOk_engineWrite hs)
      split
      · exact hs1 ht
      · exact ih (hs1 ht)
theorem memOk_harpRead {r pos ea n} (hs : s.MemOk) : (harpRead s r pos ea n).2.MemOk := by
  unfold harpRead
  split
  next h => exact memOk_of_snd h (memOk_engineRead hs)
  · exact memOk_engineRead hs
theorem memOk_noteNf {v f n bs} (hs : s.MemOk) : (noteNf s v f n bs).MemOk := memOk_ite hs hs
theorem memOk_packRow {r bs} (hs : s.MemOk) : (packRow s r bs).2.MemOk := memOk_drew hs
theorem memOk_readEntries {r n} : ∀ {held q} {s : State}, s.MemOk → (readEntries s r held n q).2.MemOk := by
  induction n with
  | zero => exact id
  | succ n ih =>
    intro held q s hs
    unfold readEntries
    split
    · exact ih hs
    · split <;> exact ih (memOk_of_snd_snd ‹_› (memOk_spanRead hs))
theorem memOk_hReqIndexed {r} (hs : s.MemOk) : (HReq.indexed r s).2.MemOk := by
  unfold HReq.indexed
  split
  · exact hs
  · exact memOk_readEntries hs
theorem memOk_moveRow {v r q} (hs : s.MemOk) : (moveRow s v r q).2.MemOk := by
  unfold moveRow
  split
  · exact hs
  extract_lets bound src dst
  refine memOk_ite_snd hs ?_
  split
  next h => exact memOk_of_snd h (memOk_harpRead hs)
  next h =>
    have ht := memOk_of_snd h (memOk_harpRead hs)
    exact memOk_harpLand (memOk_ite_snd (memOk_packRow (memOk_noteNf ht)) (memOk_noteNf ht))
theorem memOk_moveRows {v r l} : ∀ {s : State}, s.MemOk → (moveRows s v r l).2.MemOk := by
  induction l with
  | nil => exact id
  | cons q l ih =>
    intro s hs
    unfold moveRows
    split
    next h => exact memOk_of_snd h (memOk_moveRow hs)
    next h => exact ih (memOk_of_snd h (memOk_moveRow hs))
theorem memOk_putTuple {v r e k t0 t1} (hs : s.MemOk) : (putTuple s v r e k t0 t1).2.MemOk := memOk_ite_snd hs (memOk_harpLand hs)
theorem memOk_csrEntry {v r row e a} (hs : s.MemOk) : (csrEntry s v r row e a).2.MemOk := by
  unfold csrEntry
  extract_lets
  split
  · exact hs
  · split
    next u h => exact memOk_of_snd_snd h (memOk_spanRead hs)
    next t h1 =>
      have ht : t.MemOk := memOk_of_snd_snd h1 (memOk_spanRead hs)
      split
      · exact ht
      · split
        next t4 h8 => exact memOk_of_snd_snd h8 (memOk_spanRead ht)
        next t5 h9 =>
          have ht5 : t5.MemOk := memOk_of_snd_snd h9 (memOk_spanRead ht)
          extract_lets
          split
          · exact memOk_noteNf ht5
          · split
            next t8 h12 => exact memOk_of_snd h12 (memOk_putTuple (memOk_noteNf ht5))
            next t9 h13 => exact memOk_of_snd h13 (memOk_putTuple (memOk_noteNf ht5))
theorem memOk_csrEntries {v r row limit n} : ∀ {e a} {s : State}, s.MemOk → (csrEntries s v r row limit n e a).2.MemOk := by
  induction n with
  | zero => exact id
  | succ n ih =>
    intro e a s hs
    unfold csrEntries
    split
    · exact hs
    split
    next h => exact memOk_of_snd h (memOk_csrEntry hs)
    next h => exact ih (memOk_of_snd h (memOk_csrEntry hs))
theorem memOk_csrRows {v r limit n} : ∀ {row a} {s : State}, s.MemOk → (csrRows s v r limit n row a).2.MemOk := by
  induction n with
  | zero => exact id
  | succ n ih =>
    intro row a s hs
    unfold csrRows
    split
    · exact hs
    · exact hs
    split
    · exact hs
    split
    next h => exact memOk_of_snd h (memOk_csrEntries hs)
    next h =>
      have ht := memOk_of_snd h (memOk_csrEntries hs)
      exact memOk_ite_snd ht (ih ht)
theorem memOk_csrEnds {v r pos n} : ∀ {k} {s : State}, s.MemOk → (csrEnds s v r pos n k).2.MemOk := by
  induction n with
  | zero => exact id
  | succ n ih =>
    intro k s hs
    unfold csrEnds
    split
    next h => exact memOk_of_snd h (memOk_putTuple hs)
    next h => exact ih (memOk_of_snd h (memOk_putTuple hs))
theorem memOk_harpRun {v r limit rest} (hs : s.MemOk) : (harpRun s v r limit rest).2.2.MemOk := by
  unfold harpRun
  split
  · split
    next u h => exact memOk_of_snd h (memOk_csrRows hs)
    next t h1 =>
      have ht : t.MemOk := memOk_of_snd h1 (memOk_csrRows hs)
      exact memOk_ite_snd (memOk_csrEnds ht) ht
  · exact memOk_moveRows hs
theorem memOk_endHarp {v r} (hs : s.MemOk) : (endHarp s v r).MemOk := memOk_modPusher (memOk_passOn hs)
theorem memOk_abortHarp {v r t} (hs : s.MemOk) : (abortHarp s v r t).MemOk := memOk_endHarp (memOk_harpMsg (memOk_creditHarp hs))
theorem memOk_harpIndexed {v r} (hs : s.MemOk) : (harpIndexed s v r).2.MemOk := memOk_hReqIndexed hs

/-! ### The canonical form: the ray engine -/

theorem memOk_queryRoute {c tid} (hs : s.MemOk) : (queryRoute s c tid).MemOk := memOk_ite hs hs
theorem memOk_routeRay {c r} (hs : s.MemOk) : (routeRay s c r).MemOk := by
  unfold routeRay
  extract_lets touch
  have htouch : ∀ s, s.MemOk → (touch s).MemOk := fun _ ht => ht
  split
  · exact hs
  · exact htouch _ hs
  · exact memOk_queryRoute (htouch _ hs)
theorem memOk_spillRay {c r} (hs : s.MemOk) : (spillRay s c r).MemOk := memOk_homeWrite hs
theorem memOk_takeRay {c r} (hs : s.MemOk) : (takeRay s c r).MemOk := by
  unfold takeRay
  split
  · exact hs
  · exact memOk_ite hs hs
theorem memOk_rayDone {d st v} (hs : s.MemOk) : (rayDone s d st v).MemOk := memOk_advance (memOk_setData hs)
theorem memOk_withBuffer {a need k} (hs : s.MemOk) (hk : ∀ a1 t, t.MemOk → (k a1 t).MemOk) : (withBuffer s a need k).MemOk :=
  memOk_withAccess hs (fun _ _ ht => memOk_ite (memOk_raise ht) (memOk_ite (memOk_raise ht) (memOk_ite (memOk_stall ht) (hk _ _ ht))))
theorem memOk_withRay {a need k} (hs : s.MemOk) (hk : ∀ a1 a2 t, t.MemOk → (k a1 a2 t).MemOk) : (withRay s a need k).MemOk := memOk_withBuffer hs (fun _ _ ht => hk _ _ _ ht)
theorem memOk_storeRay {key r} (hs : s.MemOk) : (storeRay s key r).MemOk := memOk_issue hs
theorem memOk_sendHit {c r} (hs : s.MemOk) : (sendHit s c r).MemOk := memOk_ite hs (memOk_postMessage hs)
theorem memOk_switchGrid {c h} (hs : s.MemOk) : (switchGrid s c h).MemOk := memOk_modCore hs
theorem memOk_launchShading {c} (hs : s.MemOk) : (launchShading s c).MemOk := by
  unfold launchShading
  extract_lets
  split
  · exact hs
  split
  · exact hs
  split
  · exact hs
  refine memOk_ite hs ?_
  extract_lets _ s1 s2 s3 s4 _ s5
  have hs1 : s1.MemOk := memOk_switchGrid (memOk_charge hs)
  have hs2 : s2.MemOk := memOk_modCore hs1
  have hs3 : s3.MemOk := memOk_of_eq hs2 rfl rfl
  have hs5 : s5.MemOk := memOk_freshMemory (memOk_modGrid hs3)
  exact memOk_modWave (memOk_startWave hs5)
theorem memOk_unbindProgram {c} (hs : s.MemOk) : (unbindProgram s c).MemOk := by
  unfold unbindProgram
  split
  · exact hs
  · exact memOk_settleGrid hs
theorem memOk_bindProgram {r hqt} (hs : s.MemOk) : (bindProgram s r hqt).2.2.MemOk :=
  memOk_ite_snd_snd hs (memOk_ite_snd_snd hs (memOk_ite_snd_snd hs (memOk_ite_snd_snd hs (memOk_ite_snd_snd hs hs))))

/-! ### The canonical form: the directory -/

theorem memOk_touchEntry {t} (hs : s.MemOk) : (touchEntry s t).MemOk := memOk_accessLine hs
theorem memOk_setDe1 {t lo len v} (hs : s.MemOk) : (setDe1 s t lo len v).MemOk := memOk_homeWrite hs
theorem memOk_setRepl {t k v} (hs : s.MemOk) : (setRepl s t k v).MemOk := memOk_homeWrite hs
theorem memOk_setDirState {t v} (hs : s.MemOk) : (setDirState s t v).MemOk := memOk_setDe1 hs
theorem memOk_grantTl {q} (hs : s.MemOk) : (grantTl s q).MemOk := memOk_ite (memOk_setDe1 hs) hs
theorem memOk_abandonCopy {t} (hs : s.MemOk) : (abandonCopy s t).MemOk := by
  unfold abandonCopy
  split <;> exact hs
theorem memOk_answerTl {w d st} (hs : s.MemOk) : (answerTl s w d st).MemOk := memOk_modNet hs
theorem memOk_modDir {t f} (hs : s.MemOk) : (s.modDir t f).MemOk := hs
theorem memOk_requeue {t} (hs : s.MemOk) : (requeue s t).MemOk := memOk_modDir hs
theorem memOk_evictCopy {c t waiter} (hs : s.MemOk) : (evictCopy s c t waiter).MemOk := by
  unfold evictCopy
  extract_lets answer
  have hanswer : ∀ {s st}, s.MemOk → (answer s st).MemOk := by
    intro _ _ hu
    simp only [answer]
    split
    · exact memOk_answerTl hu
    · exact hu
  clear_value answer
  split
  · exact hanswer hs
  extract_lets _ s2 s3
  have hs2 : s2.MemOk := memOk_touchEntry (memOk_modNet (memOk_modCore hs))
  have hs3 : s3.MemOk := memOk_abandonCopy hs2
  clear_value s3 s2
  split
  · exact hanswer hs2
  split
  · split
    · exact hanswer (memOk_requeue (memOk_setRepl (memOk_setDe1 (memOk_setDe1 hs3))))
    · exact memOk_modDir (memOk_setDirState hs3)
  · split
    · exact hanswer (memOk_setRepl hs2)
    · exact hanswer hs2
theorem memOk_beginTransfer {t host src total} (hs : s.MemOk) : (beginTransfer s t host src total).MemOk := by
  unfold beginTransfer
  extract_lets s1
  have hs1 : s1.MemOk := by
    simp only [s1]
    split
    · exact hs
    · split
      · exact memOk_evictCopy hs
      · exact hs
  exact hs1
theorem memOk_beginPageIn {t host starter} (hs : s.MemOk) : (beginPageIn s t host starter).MemOk := by
  unfold beginPageIn
  extract_lets _ s1 _ s2
  have hs2 : s2.MemOk := memOk_modDir (memOk_setDirState (memOk_setDe1 (memOk_accessLine hs)))
  exact memOk_beginTransfer hs2
theorem memOk_coldRays {t} (hs : s.MemOk) : (coldRays s t).MemOk := by
  unfold coldRays
  split
  · split
    · split
      · exact memOk_beginPageIn hs
      · exact hs
    · exact hs
  · exact hs
theorem memOk_beginCopy {t host q} (hs : s.MemOk) : (beginCopy s t host q).MemOk := by
  unfold beginCopy
  extract_lets
  split
  · exact hs
  · exact memOk_beginTransfer hs
theorem memOk_dirTakeTl {q} (hs : s.MemOk) : (dirTakeTl s q).MemOk := by
  unfold dirTakeTl
  extract_lets t s1 _ wait
  have hs1 : s1.MemOk := memOk_touchEntry hs
  have hwait : ∀ {s}, s.MemOk → (wait s).MemOk := memOk_modDir
  clear_value s1 wait
  split
  · exact memOk_answerTl hs1
  · split
    · exact memOk_beginPageIn hs1
    · exact memOk_answerTl hs1
  · split
    · exact memOk_grantTl hs1
    split
    · exact memOk_answerTl hs1
    split
    · exact hwait hs1
    split
    · exact memOk_answerTl hs1
    split
    · exact memOk_beginCopy hs1
    · exact memOk_answerTl hs1
  · exact hwait hs1
theorem memOk_settleDirs {n} : ∀ {s : State}, s.MemOk → (settleDirs s n).MemOk := by
  induction n with
  | zero => exact id
  | succ n ih =>
    intro s hs
    unfold settleDirs
    split
    · exact ih (memOk_dirTakeTl (memOk_modDir hs))
    · exact hs
theorem memOk_dirRow (hs : s.MemOk) : (dirRow s).MemOk := memOk_settleDirs hs
theorem memOk_readLines {n} : ∀ {k} {s : State}, s.MemOk → (readLines s k n).2.MemOk := by
  induction n with
  | zero => exact id
  | succ n ih => exact fun hs => ih (memOk_homeRead hs)
theorem memOk_sendLost {c r} (hs : s.MemOk) : (sendLost s c r).MemOk := memOk_sendHit hs
theorem memOk_dirTakeRay {r t} (hs : s.MemOk) (h : dirTakeRay s r = some t) : t.MemOk := by
  unfold dirTakeRay at h
  have hs1 : (touchEntry s r.tid).MemOk := memOk_touchEntry hs
  extract_lets n s1 at h
  change s1.MemOk at hs1
  clear_value s1
  split at h
  · exact Option.some.inj h ▸ memOk_sendLost hs1
  split at h
  · exact Option.some.inj h ▸ memOk_modNet hs1
  split at h
  · exact Option.some.inj h ▸ memOk_coldRays (memOk_modDir hs1)
  split at h
  · exact Option.some.inj h ▸ memOk_spillRay hs1
  · cases h
theorem memOk_dirTakeHeat {t n org} (hs : s.MemOk) : (dirTakeHeat s t n org).MemOk := by
  unfold dirTakeHeat
  extract_lets s1 s2 th
  have hs1 : s1.MemOk := memOk_touchEntry hs
  have hs2 : s2.MemOk := memOk_setDe1 hs1
  clear_value s2
  refine memOk_ite hs1 (memOk_ite hs2 ?_)
  split
  · exact memOk_beginCopy hs2
  · exact hs2

/-! ### The canonical form: the exchanges -/

theorem memOk_beatData {core ea} (hs : s.MemOk) : (beatData s core ea).2.MemOk := by
  unfold beatData
  split
  next t h => exact memOk_of_snd h (memOk_engineRead hs)
  next u h1 =>
    have hu : u.MemOk := memOk_of_snd h1 (memOk_engineRead hs)
    exact memOk_freeBytes hu
theorem memOk_landBeat {b t} (hs : s.MemOk) : (landBeat s b t).MemOk := by
  unfold landBeat
  extract_lets
  split
  · exact hs
  · split
    · split
      · exact memOk_ite (memOk_engineWrite hs) (memOk_ite (memOk_creditBar (memOk_engineWrite hs)) (memOk_engineWrite hs))
      · exact hs
    · exact hs
  · exact hs
theorem memOk_exchDone {d st v} (hs : s.MemOk) : (exchDone s d st v).MemOk := memOk_advance (memOk_setData hs)
theorem memOk_broadcast {d n o m} (hs : s.MemOk) : (broadcast s d n o m).MemOk := memOk_modNet hs
theorem memOk_claimDomain {d n grid ws} (hs : s.MemOk) : (claimDomain s d n grid ws).2.MemOk := by
  unfold claimDomain
  extract_lets k mask arrn _ b s1
  have hs0 : State.MemOk { s with bars := Tbl.erase s.bars k } := memOk_of_eq hs rfl rfl
  have hs1 : s1.MemOk := memOk_poke (memOk_barWrite hs0)
  exact memOk_ite_snd hs (memOk_ite_snd hs (memOk_broadcast hs1))
theorem memOk_arriveDomain {d n grid core} (hs : s.MemOk) : (arriveDomain s d n grid core).2.2.MemOk :=
  memOk_ite_snd_snd hs (memOk_ite_snd_snd hs (memOk_ite_snd_snd hs (memOk_arriveBar (memOk_release hs))))
theorem memOk_releaseDomain {d n grid} (hs : s.MemOk) : (releaseDomain s d n grid).2.MemOk := memOk_ite_snd hs (memOk_ite_snd hs (memOk_ite_snd hs (memOk_freeDomain hs)))
theorem memOk_domainReply {c d n st v} (hs : s.MemOk) : (domainReply s c d n st v).MemOk := memOk_park hs
theorem memOk_withOwnScratch {cap size need align u k} (hs : s.MemOk) (hk : ∀ a1 t, t.MemOk → (k a1 t).MemOk) : (withOwnScratch s cap size need align u k).MemOk :=
  memOk_withAccess hs (fun _ _ ht => memOk_ite (memOk_raise ht) (hk _ _ ht))

/-! ### The canonical form: supervisor operations -/

theorem memOk_deliverPost {n ready} (hs : s.MemOk) : (deliverPost s n ready).MemOk := by
  unfold deliverPost
  split
  · exact memOk_ite (memOk_mailboxTake hs) hs
  · exact hs
theorem memOk_svDone {st count} (hs : s.MemOk) : (svDone s st count).MemOk := memOk_advance hs
theorem memOk_disown {w} (hs : s.MemOk) : (disown s w).MemOk := memOk_modNet (memOk_of_eq hs rfl rfl)
theorem memOk_abandonWait {w} (hs : s.MemOk) : (abandonWait s w).MemOk := by
  unfold abandonWait
  extract_lets s1 v stops s2 s3
  have hs3 : s3.MemOk := memOk_modCore (memOk_modVat (memOk_deregister hs))
  exact memOk_modWave (memOk_disown hs3)
theorem memOk_countCorrected {tile} (hs : s.MemOk) : (countCorrected s tile).MemOk := memOk_ite (memOk_logEvent hs) hs
theorem memOk_cutLink {tile dir count} (hs : s.MemOk) : (cutLink s tile dir count).2.MemOk := memOk_foldl (fun _ _ ht => memOk_arriveWrite ht) hs
theorem memOk_killLink {tile dir count} (hs : s.MemOk) : (killLink s tile dir count).MemOk := memOk_cutLink hs
theorem memOk_tellLink {l} (hs : s.MemOk) : (tellLink s l).MemOk := memOk_ite hs (memOk_postMessage hs)

/-! ### The canonical form: saving and restoring -/

theorem memOk_quietWave {w} (hs : s.MemOk) : (quietWave s w).MemOk := by
  unfold quietWave
  extract_lets _ _ s3
  have hs3 : s3.MemOk := memOk_ite (memOk_drainWhere hs) (memOk_drainWhere hs)
  split
  · exact memOk_abandonWait hs3
  · exact memOk_abandonWait hs3
  · exact hs3
theorem memOk_beginSave {id image w d} (hs : s.MemOk) : (beginSave s id image w d).MemOk := by
  unfold beginSave
  split
  · exact hs
  · extract_lets _ s2
    have hs2 : s2.MemOk := memOk_foldl (fun _ _ ht => memOk_quietWave ht) hs
    split
    · exact memOk_deregister hs2
    · exact hs2
theorem memOk_finishXend {w} (hs : s.MemOk) : (finishXend s w).MemOk := memOk_ite hs (memOk_ite (memOk_advance (memOk_setData hs)) hs)
theorem memOk_freeSaved {id g} (hs : s.MemOk) : (freeSaved s id g).MemOk := memOk_foldl (fun _ _ ht => ht) hs
theorem memOk_finishSave {id g image w} (hs : s.MemOk) : (finishSave s id g image w).2.MemOk := by
  unfold finishSave
  extract_lets _ _ s2
  have hs2 : s2.MemOk := memOk_invalidateWaiters (memOk_foldl (fun _ _ ht => memOk_finishXend ht) hs)
  exact memOk_writeAcross (memOk_freeSaved hs2)
theorem memOk_readImage {v n} (hs : s.MemOk) : (readImage s v n).2.MemOk := by
  unfold readImage
  split
  next t h => exact memOk_of_snd h (memOk_engineRead hs)
  next u h1 => exact memOk_of_snd h1 (memOk_engineRead hs)
theorem memOk_loadWave {w bs} (hs : s.MemOk) : (loadWave s w bs).MemOk := memOk_ite (memOk_postMessage hs) hs
theorem memOk_setAcf {v k x} (hs : s.MemOk) : (setAcf s v k x).MemOk := memOk_modVat hs
theorem memOk_loadWindows {vt n l} : ∀ {bs} {s : State}, s.MemOk → (loadWindows s vt n bs l).MemOk := by
  induction l with
  | nil => exact id
  | cons w l ih =>
    intro bs s hs
    unfold loadWindows
    refine ih ?_
    split
    · exact memOk_modVat hs
    · exact memOk_foldl (fun _ _ ht => memOk_setAcf ht) (memOk_modVat hs)
theorem memOk_requeueLadle {id c old bs} (hs : s.MemOk) : (requeueLadle s id c old bs).MemOk := memOk_modPusher hs
theorem memOk_rereadBlock {reader block} (hs : s.MemOk) : (rereadBlock s reader block).2.MemOk := by
  unfold rereadBlock
  split
  · exact hs
  · extract_lets back
    have hback : ∀ t, t.MemOk → (back t).MemOk := fun _ hu => hu
    split
    next v h =>
      have hv : v.MemOk := memOk_of_snd h (memOk_mapAcross hs)
      exact hback _ hv
    next x h1 =>
      have hx : x.MemOk := memOk_of_snd h1 (memOk_mapAcross hs)
      split
      next t1 h4 =>
        have ht1 : t1.MemOk := memOk_of_snd_snd h4 (memOk_readKeys hx)
        exact hback _ ht1
      next t2 h5 =>
        have ht2 : t2.MemOk := memOk_of_snd_snd h5 (memOk_readKeys hx)
        exact hback _ ht2
theorem memOk_requeueHarp {id c old bs} (hs : s.MemOk) : (requeueHarp s id c old bs).MemOk := by
  unfold requeueHarp
  extract_lets _ _ abort
  have habort : ∀ s code, s.MemOk → (abort s code).MemOk := fun _ _ ht => memOk_harpMsg ht
  split
  next u h =>
    have hu : u.MemOk := memOk_of_snd h (memOk_rereadBlock hs)
    exact habort _ _ hu
  next v h1 =>
    have hv : v.MemOk := memOk_of_snd h1 (memOk_rereadBlock hs)
    extract_lets
    split
    next y h3 =>
      have hy : y.MemOk := memOk_of_snd h3 hv
      extract_lets
      split
      · exact habort _ _ hy
      · exact memOk_ite hy (memOk_modPusher hy)
theorem memOk_takeKept {v w c} (hs : s.MemOk) : (takeKept s v w c).MemOk := by
  unfold takeKept
  split <;> exact hs
theorem memOk_passTime {d t} (hs : s.MemOk) : (passTime s d t).MemOk := memOk_of_eq hs rfl rfl
theorem memOk_loadCtx {v bs off c id n st np} (hs : s.MemOk) : (loadCtx s v bs off c id n st np).MemOk := memOk_of_eq hs rfl rfl
theorem memOk_loadEvents {bs off c n old} (hs : s.MemOk) : (loadEvents s bs off c n old).MemOk := memOk_modCore (memOk_modVat hs)
/-- Tags that are put one after another leave the table in its canonical form. -/
theorem memOk_putTags {α : Type} {f : Tbl Bool → α → Tbl Bool} {l : List α} (hf : ∀ t a, Tbl.wf false t = true → Tbl.wf false (f t a) = true)
    (hs : s.MemOk) : State.MemOk { s with tags := l.foldl f s.tags } :=
  ⟨hs.1, List.foldlRecOn l f hs.2 fun t ht a _ => hf t a ht⟩
theorem memOk_rebuild {v g c bs ws} (hs : s.MemOk) : (rebuild s v g c bs ws).MemOk := by
  unfold rebuild
  extract_lets _ _ _ _ _ _ _ _ s0 s1 s2 s3 _ s4 _ s5 s6 s7 n _ s8 s9 s10 s11
  have hs0 : s0.MemOk := memOk_of_eq hs rfl rfl
  have hs4 : s4.MemOk := memOk_poke (memOk_switchGrid (memOk_charge (memOk_note (memOk_note (memOk_passTime hs0)))))
  have hs5 : s5.MemOk := memOk_putTags (fun t _ ht => List.foldlRecOn (motive := fun t => Tbl.wf false t = true) _ _ ht fun _ hu _ _ => Tbl.wf_put _ _ _ _ hu) hs4
  have hs6 : s6.MemOk := memOk_of_eq hs5 rfl rfl
  have hs7 : s7.MemOk := memOk_foldl (fun _ _ ht => memOk_takeKept (memOk_loadWave (memOk_startWave ht))) hs6
  have hs8 : s8.MemOk := by
    simp only [s8]
    clear_value n
    split
    · exact memOk_loadWindows (memOk_loadCtx hs7)
    · exact hs7
  have hs10 : s10.MemOk := memOk_foldl (fun _ _ ht => memOk_requeueLadle ht) (memOk_loadEvents hs8)
  have hs11 : s11.MemOk := memOk_foldl (fun _ _ ht => memOk_requeueHarp ht) hs10
  exact memOk_writeAcross hs11
theorem memOk_discardSaved {v} (hs : s.MemOk) : (discardSaved s v).MemOk := memOk_endGroup (memOk_modGrid hs)

/-! ### The canonical form: fences and writebacks -/

theorem memOk_lostErr (hs : s.MemOk) : (lostErr s).2.MemOk := hs
theorem memOk_loseAcks {ds l} : ∀ {s : State}, s.MemOk → (loseAcks ds l s).2.MemOk := by
  induction l with
  | nil => exact id
  | cons a l ih =>
    intro s hs
    unfold loseAcks
    exact memOk_ite_snd (ih (memOk_lostErr hs)) (ih hs)
theorem memOk_loseDrain {ds c e} (hs : s.MemOk) : (loseDrain ds s c e).MemOk := memOk_ite (memOk_lostErr hs) hs
theorem memOk_loseWrites {ds} (hs : s.MemOk) : (loseWrites s ds).MemOk := by
  unfold loseWrites
  extract_lets _ s1 s2
  have hs1 : s1.MemOk := memOk_foldl (fun _ _ hu => memOk_arriveWrite (memOk_lostErr hu)) hs
  have hs2 : s2.MemOk := memOk_foldl (fun _ _ hv => memOk_foldl (fun _ _ hx => memOk_loseDrain hx) hv) hs1
  exact memOk_loseAcks hs2
theorem memOk_answerLost {ds} (hs : s.MemOk) : (answerLost s ds).MemOk := memOk_modNet hs
theorem memOk_stopDies {ds cut} (hs : s.MemOk) : (stopDies s ds cut).MemOk := by
  unfold stopDies
  extract_lets s1 s2 s3
  have hs1 : s1.MemOk := memOk_answerLost (memOk_loseWrites hs)
  have hs2 : s2.MemOk := memOk_of_eq hs1 rfl rfl
  have hs3 : s3.MemOk := memOk_modNet hs2
  exact memOk_foldl (fun _ _ ht => memOk_modDie ht) hs3
theorem memOk_fenceEntry {ds t} (hs : s.MemOk) : (fenceEntry s ds t).MemOk := by
  unfold fenceEntry
  extract_lets answer _ s1 s2 o s3 s4
  have hanswer : ∀ s q, s.MemOk → (answer s q).MemOk := fun _ _ hu => memOk_ite hu (memOk_answerTl hu)
  have hs1 : s1.MemOk := memOk_foldl (fun _ _ ht => memOk_ite (memOk_setRepl ht) ht) hs
  have hs2 : s2.MemOk := memOk_modDir hs1
  have hs3 : s3.MemOk := by
    simp only [s3]
    split
    · exact memOk_ite (memOk_requeue (memOk_abandonCopy hs2)) hs2
    · exact hs2
  have hs4 : s4.MemOk := memOk_modDir (memOk_setDe1 hs3)
  clear_value answer s4 s3
  refine memOk_ite (memOk_foldl hanswer (memOk_modDir hs)) (memOk_ite hs3 ?_)
  split
  · exact memOk_setRepl (memOk_setDe1 hs4)
  · exact memOk_coldRays (memOk_requeue (memOk_setDirState hs4))
theorem memOk_elect (hs : s.MemOk) : (elect s).MemOk := memOk_ite hs hs
theorem memOk_reissue {h rs} (hs : s.MemOk) : (reissue s h rs).MemOk := by
  unfold reissue
  exact memOk_foldl_fst (fun _ _ hb => memOk_foldl (fun _ _ ht => memOk_note (memOk_of_eq ht rfl rfl)) hb) hs
theorem memOk_fenceGrid {h x3 lost had ran} (hs : s.MemOk) : (fenceGrid s h x3 lost had ran).MemOk := by
  unfold fenceGrid
  split
  · exact hs
  · exact memOk_settleGrid (memOk_advanceNode (memOk_ite hs (memOk_reissue hs)))
theorem memOk_endSaves {ds} (hs : s.MemOk) : (endSaves s ds).MemOk := by
  unfold endSaves
  refine memOk_foldl (fun _ _ ht => ?_) hs
  split
  · exact memOk_wakeAgent ht
  · exact ht
theorem memOk_drawBit (hs : s.MemOk) : (drawBit s).2.MemOk := memOk_of_eq hs rfl rfl
theorem memOk_refuseUnknown {l} : ∀ {s : State}, s.MemOk → (refuseUnknown s l).2.MemOk := by
  induction l with
  | nil => exact id
  | cons k l ih =>
    intro s hs
    unfold refuseUnknown
    extract_lets keep
    have hkeep : ∀ {s}, s.MemOk → (keep s).2.MemOk := ih
    split
    · exact memOk_ite_snd (hkeep (memOk_drawBit hs)) (ih (memOk_of_eq (memOk_drawBit hs) rfl rfl))
    · exact hkeep hs
theorem memOk_loseGrow {k} (hs : s.MemOk) : (loseGrow s k).MemOk := by
  unfold loseGrow
  split
  · exact memOk_ite (memOk_modGrid hs) hs
  · exact hs
theorem memOk_fenceDies {dies cut} (hs : s.MemOk) : (fenceDies s dies cut).MemOk := by
  unfold fenceDies
  extract_lets ds _ m _ _ _ s1 s2 s3 s4 s5 s6
  have hs1 : s1.MemOk := memOk_ite (memOk_foldl (fun _ _ ht => memOk_loseGrow ht) hs) hs
  have hs3 : s3.MemOk := memOk_wakeWaiters (memOk_stopDies (memOk_endSaves hs1))
  have hs4 : s4.MemOk := memOk_foldl (fun _ _ ht => memOk_foldl (fun _ _ hu => memOk_postMessage hu) (memOk_logEvent ht)) hs3
  have hs5 : s5.MemOk := memOk_dirRow (memOk_foldl (fun _ _ ht => memOk_fenceEntry ht) hs4)
  have hs6 : s6.MemOk := memOk_elect hs5
  refine memOk_ite hs ?_
  exact memOk_foldl (fun _ _ ht => memOk_fenceGrid ht) (memOk_modNet (memOk_ite_snd (memOk_refuseUnknown hs6) hs6))

/-! ### The canonical form: the host -/

theorem memOk_hostLaunch {n r} (hs : s.MemOk) : (hostLaunch s n r).2.2.MemOk := by
  unfold hostLaunch
  extract_lets
  split
  · exact hs
  · split
    next t h =>
      have ht : t.MemOk := memOk_of_snd h (memOk_ite_snd (memOk_queuePlace hs) hs)
      split
      · exact ht
      · exact memOk_ite_snd_snd ht (memOk_ite_snd_snd ht (memOk_modGrid (memOk_acceptGrid ht)))
theorem memOk_taggedWrite {tag} (hs : s.MemOk) : (taggedWrite s tag).MemOk := memOk_ite hs hs
theorem memOk_tlbInvalidate {v} (hs : s.MemOk) : (tlbInvalidate s v).MemOk := memOk_ite hs hs
theorem memOk_hostRead {fuel} : ∀ {pa n} {s : State}, s.MemOk → (hostRead s pa n fuel).2.MemOk := by
  induction fuel with
  | zero => exact id
  | succ f ih =>
    intro pa n s hs
    unfold hostRead
    exact memOk_ite_snd hs (ih (memOk_homeRead (memOk_notePage hs)))
theorem memOk_hostPut {pa bs} (hs : s.MemOk) : (hostPut s pa bs).MemOk := memOk_homeWrite (memOk_notePage hs)
theorem memOk_hostWrite {fuel} : ∀ {pa bs} {s : State}, s.MemOk → (hostWrite s pa bs fuel).MemOk := by
  induction fuel with
  | zero => exact id
  | succ f ih =>
    intro pa bs s hs
    unfold hostWrite
    exact memOk_ite hs (ih (memOk_ite (memOk_sliceMessage hs) (memOk_hostPut hs)))
theorem memOk_powerOn (hs : s.MemOk) : (powerOn s).MemOk := by
  unfold powerOn
  split
  · extract_lets _ _ s2
    have hs2 : s2.MemOk := memOk_foldl (fun _ _ ht => memOk_foldl (fun _ _ hu => hu) ht) hs
    exact memOk_foldl (fun _ _ hv => hv) hs2
theorem memOk_newGrid {r depth parent asid key sup} (hs : s.MemOk) : (newGrid s r depth parent asid key sup).2.MemOk := by
  unfold newGrid
  extract_lets h order g s1
  have hs1 : s1.MemOk := memOk_setGrid hs
  clear_value s1 h
  exact memOk_of_eq hs1 rfl rfl
theorem memOk_launchSup {r d o t} (ho : ∀ u, o = some u → u.MemOk) (h : launchSup r o d = some t) : t.MemOk := by
  unfold launchSup at h
  split at h
  · cases h
  next u =>
    extract_lets c at h
    split at h
    · cases h
    · have hg : (newGrid u r 1 0 0 0 true).2.MemOk := memOk_newGrid (ho u rfl)
      generalize newGrid u r 1 0 0 0 true = p at hg h
      cases h
      exact memOk_note (memOk_of_eq hg rfl rfl)
theorem memOk_bringUp (hs : s.MemOk) : (bringUp s).MemOk := by
  unfold bringUp
  extract_lets s1 m go
  have hs1 : s1.MemOk := memOk_of_eq hs rfl rfl
  have hgo : ∀ u, go = some u → u.MemOk := by
    simp only [go]
    split
    · exact List.foldlRecOn (motive := fun o => ∀ u, o = some u → State.MemOk u) _ _ (fun _ hu => Option.some.inj hu ▸ hs1) fun _ ho _ _ _ hu => memOk_launchSup ho hu
    · exact fun _ hu => Option.some.inj hu ▸ hs1
  clear_value go
  split
  next u => exact memOk_logEvent (memOk_of_eq (hgo u rfl) rfl rfl)
  · exact memOk_logEvent hs1
theorem memOk_sweep (hs : s.MemOk) : (sweep s).MemOk :=
  memOk_foldl (fun _ _ hu => memOk_foldl (fun _ _ hv => memOk_retireGrid (memOk_settleGrid hv)) hu) (memOk_foldl (fun _ _ ht => memOk_ite (memOk_releaseGroup ht) ht) hs)
theorem memOk_boot {k} (hs : s.MemOk) : (boot s k).MemOk := memOk_of_eq hs rfl rfl
theorem memOk_warmReset (hs : s.MemOk) : (warmReset s).MemOk := by
  unfold warmReset
  extract_lets roots s1 s2 s3
  have hs1 : s1.MemOk := memOk_foldl (fun _ _ ht => memOk_killGrid ht) hs
  have hs2 : s2.MemOk := memOk_ite hs1 (memOk_of_eq hs1 rfl rfl)
  have hs3 : s3.MemOk := memOk_sweep hs2
  exact memOk_bringUp (memOk_ite hs3 (memOk_boot hs3))
theorem memOk_setBar0 {f} (hs : s.MemOk) : (setBar0 s f).MemOk := memOk_of_eq hs rfl rfl
theorem memOk_writeBar0 {off v} (hs : s.MemOk) : (writeBar0 s off v).MemOk := by
  have hset : ∀ {f}, (setBar0 s f).MemOk := memOk_setBar0 hs
  unfold writeBar0
  refine memOk_ite hs (memOk_ite hs (memOk_ite hs (memOk_ite hset
      (memOk_ite (memOk_ite hs hset) (memOk_ite hset (memOk_ite hset
      (memOk_ite hset (memOk_ite hset (memOk_ite hset (memOk_ite hset
      (memOk_ite (memOk_ite (memOk_taggedWrite hs) hset) (memOk_ite (memOk_tlbInvalidate hs) (memOk_ite hset ?_)))))))))))))
  exact memOk_ite (memOk_ite (memOk_warmReset hset) hset) hs
theorem memOk_writeMap {d off v} (hs : s.MemOk) : (writeMap s d off v).MemOk :=
  memOk_ite hs (memOk_ite hs (memOk_ite (memOk_ite hs hs) (memOk_ite hs (memOk_ite hs (memOk_ite (memOk_ite hs hs) hs)))))
theorem memOk_sampleRail {p r} (hs : s.MemOk) : (sampleRail p s r).MemOk := hs

/-! ### The canonical form: scalar floating point -/

theorem memOk_fpWrite {d r} (hs : s.MemOk) : (fpWrite d r s).MemOk := memOk_advance (memOk_setData hs)
theorem memOk_fpRounded {d m f} (hs : s.MemOk) : (fpRounded d m f s).MemOk := memOk_fpWrite (memOk_drew hs)

/-! ### The canonical form: lanes of the pipes -/

theorem memOk_enqueue {w es} (hs : s.MemOk) : (enqueue s w es).MemOk := memOk_ite hs hs
theorem memOk_grantLanes (hs : s.MemOk) : (grantLanes s).MemOk := by
  unfold grantLanes
  refine memOk_foldl (fun _ _ ht => ?_) hs
  split <;> exact ht

end Sys2Proof.Machine
end

section
namespace Sys2Proof.Machine

/-! ## Every instruction and step of the table answers -/

variable {s : State}
/-- An arm of `exec` answers: a word's, when an agent moves, and a step's always, with a next state; and memory and tags keep their canonical form. -/
inductive Answers (f : State → Res) : Prop
  | word (h : ∀ s, s.cur = .none → f s = .fault .noAgent) (hn : ∀ s, s.cur ≠ .none → ∃ t, f s = .next t ∧ (s.MemOk → t.MemOk)) : Answers f
  | step (h : ∀ s, ∃ t, f s = .next t ∧ (s.MemOk → t.MemOk)) : Answers f

theorem memOk_checkedWith {u code k} (hk : s.MemOk → ∀ {t : State}, t.MemOk → (k t).MemOk) (hc : s.cur ≠ .none) :
    ∃ t, checkedWith u code s k = .next t ∧ (s.MemOk → t.MemOk) := by
  unfold checkedWith
  split
  next h => exact absurd h hc
  · refine ⟨_, rfl, fun hs => ?_⟩
    split
    · exact hk hs hs
    · exact memOk_stall hs
    · exact memOk_waveFault (memOk_ite (memOk_modWave hs) hs)
  · refine ⟨_, rfl, fun hs => ?_⟩
    split
    · exact hk hs hs
    · exact hs
    · exact memOk_ctxFault hs
theorem checkedWith_noAgent {u code k} (hc : s.cur = .none) : checkedWith u code s k = .fault .noAgent := by
  unfold checkedWith
  rw [hc]
/-- The arm of a word. -/
theorem answers_checked {f : State → Res} {i} {k : State → State → State} (hf : ∀ s, f s = checked i s (k s))
    (hk : ∀ {s t : State}, s.MemOk → t.MemOk → (k s t).MemOk) : Answers f :=
  .word (fun _ hc => hf _ ▸ checkedWith_noAgent hc) fun _ hc => hf _ ▸ memOk_checkedWith (fun hs => hk hs) hc
/-- The arm of a step. -/
theorem answers_next {f : State → Res} {g : State → State} (hf : ∀ s, f s = .next (g s)) (hg : ∀ {s : State}, s.MemOk → (g s).MemOk) : Answers f :=
  .step fun _ => ⟨_, hf _, hg⟩
/-- The arm of a request that is taken at its home. -/
theorem answers_takeReq {f : State → Res} {n p} {k : Req → State → State} (hf : ∀ s, f s = takeReq s n p k)
    (hk : ∀ r {s : State}, s.MemOk → (k r s).MemOk) : Answers f := by
  refine answers_next hf fun hs => ?_
  split
  next r _ =>
    refine memOk_ite hs ?_
    extract_lets s1
    have hs1 : s1.MemOk := memOk_modNet hs
    split
    next h => exact memOk_ite (memOk_arriveWrite (memOk_of_snd h (memOk_routeCut hs1))) (hk _ (memOk_of_snd h (memOk_routeCut hs1)))
  · exact hs

theorem answers_illegalInstruction {w} : Answers (execIllegalInstruction w) :=
  .word (fun _ hc => if_pos hc) fun _ hc => ⟨_, if_neg hc, memOk_raise⟩
theorem answers_vecExec {i} : Answers (vecExec i) := answers_checked (fun _ => rfl) fun _ ht => memOk_advance (memOk_vecEffect ht)
theorem answers_lui {d i} : Answers (execLui d i) := answers_checked (fun _ => rfl) fun _ ht => memOk_advance (memOk_setData ht)
theorem answers_auipc {d i} : Answers (execAuipc d i) := answers_checked (fun _ => rfl) fun _ ht => memOk_advance (memOk_setData ht)
theorem answers_beq {a b o} : Answers (execBeq a b o) := answers_checked (fun _ => rfl) fun _ ht => memOk_branchIf ht
theorem answers_bne {a b o} : Answers (execBne a b o) := answers_checked (fun _ => rfl) fun _ ht => memOk_branchIf ht
theorem answers_blt {a b o} : Answers (execBlt a b o) := answers_checked (fun _ => rfl) fun _ ht => memOk_branchIf ht
theorem answers_bge {a b o} : Answers (execBge a b o) := answers_checked (fun _ => rfl) fun _ ht => memOk_branchIf ht
theorem answers_bltu {a b o} : Answers (execBltu a b o) := answers_checked (fun _ => rfl) fun _ ht => memOk_branchIf ht
theorem answers_bgeu {a b o} : Answers (execBgeu a b o) := answers_checked (fun _ => rfl) fun _ ht => memOk_branchIf ht
theorem answers_btag {a o} : Answers (execBtag a o) := answers_checked (fun _ => rfl) fun _ ht => memOk_branchIf ht
theorem answers_bntag {a o} : Answers (execBntag a o) := answers_checked (fun _ => rfl) fun _ ht => memOk_branchIf ht
theorem answers_ldc {d a sf q o} : Answers (execLdc d a sf q o) :=
  answers_checked (fun _ => rfl) fun _ hu => memOk_withData hu (fun _ _ hv => memOk_issue hv)
theorem answers_stc {d a sf q o} : Answers (execStc d a sf q o) :=
  answers_checked (fun _ => rfl) fun _ hu => memOk_withData hu (fun _ _ hx => memOk_storeAt hx)
theorem answers_binit {d a b} : Answers (execBinit d a b) :=
  answers_checked (fun _ => rfl) fun _ ht => memOk_atBarrier ht
    (fun _ _ _ hu => memOk_ite (memOk_barReply hu) (memOk_ite (memOk_barReply hu) (memOk_barReply (memOk_poke (memOk_barWrite hu)))))
theorem answers_barv {a} : Answers (execBarv a) := by
  refine answers_checked (fun _ => rfl) fun _ ht => ?_
  refine memOk_atBarrier ht (fun _ _ _ hu => ?_)
  split
  · exact memOk_stall hu
  · refine memOk_advance ?_
    split <;> exact memOk_release hu
theorem answers_bexp {a b} : Answers (execBexp a b) :=
  answers_checked (fun _ => rfl) fun _ ht => memOk_atBarrier ht
    (fun _ _ _ hu => memOk_advance (memOk_ite (memOk_barWrite hu) (memOk_ite (memOk_completeBar hu) (memOk_completeBar hu))))
theorem answers_bwait {d a b} : Answers (execBwait d a b) :=
  answers_checked (fun _ => rfl) fun _ ht => memOk_atBarrier ht
    (fun _ _ _ hu => memOk_ite (memOk_barReply hu) (memOk_ite (memOk_barReply (memOk_learn hu)) (memOk_park (memOk_barWrite hu))))
theorem answers_btry {d a b} : Answers (execBtry d a b) :=
  answers_checked (fun _ => rfl) fun _ ht => memOk_atBarrier ht
    (fun _ _ _ hu => memOk_ite (memOk_barReply hu) (memOk_ite (memOk_barReply (memOk_learn hu)) (memOk_barReply hu)))
theorem answers_binv {d a} : Answers (execBinv d a) :=
  answers_checked (fun _ => rfl) fun _ ht => memOk_atBarrier ht (fun _ _ _ hu => memOk_ite (memOk_barReply (memOk_wakeWaiters (memOk_barWrite hu))) (memOk_barReply hu))
theorem answers_barrierArrival {n} : Answers (execBarrierArrival n) := by
  refine answers_next (fun _ => rfl) fun hs => ?_
  split
  · exact memOk_arrivalDone (memOk_arriveBar hs)
  · exact hs
theorem answers_barrierCredit {n} : Answers (execBarrierCredit n) := by
  refine answers_next (fun _ => rfl) fun hs => ?_
  split
  · exact memOk_creditBar hs
  · exact hs
theorem answers_barrierWake {n} : Answers (execBarrierWake n) := by
  refine answers_next (fun _ => rfl) fun hs => ?_
  split
  · exact memOk_ite (memOk_wakeAgent hs) hs
  · exact hs
theorem answers_phaseStart {n} : Answers (execPhaseStart n) := by
  refine answers_next (fun _ => rfl) fun hs => ?_
  split
  · exact memOk_ite hs hs
  · exact hs
theorem answers_cinc {d a b} : Answers (execCinc d a b) := answers_checked (fun _ => rfl) fun _ ht => memOk_capInc ht
theorem answers_cinci {d a i} : Answers (execCinci d a i) := answers_checked (fun _ => rfl) fun _ ht => memOk_capInc ht
theorem answers_csetb {d a b} : Answers (execCsetb d a b) := answers_checked (fun _ => rfl) fun _ ht => memOk_capSetB ht
theorem answers_csetbi {d a i} : Answers (execCsetbi d a i) := answers_checked (fun _ => rfl) fun _ ht => memOk_capSetB ht
theorem answers_cperm {d a b} : Answers (execCperm d a b) := answers_checked (fun _ => rfl) fun _ ht => memOk_capMap ht
theorem answers_cfmt {d a b} : Answers (execCfmt d a b) := answers_checked (fun _ => rfl) fun _ ht => memOk_capMap ht
theorem answers_cclrt {d a} : Answers (execCclrt d a) := answers_checked (fun _ => rfl) fun _ ht => memOk_capMap ht
theorem answers_cfld {d a sf} : Answers (execCfld d a sf) := answers_checked (fun _ => rfl) fun _ hu => memOk_advance (memOk_setData hu)
theorem answers_ctest {d a} : Answers (execCtest d a) := answers_checked (fun _ => rfl) fun _ ht => memOk_advance (memOk_setData ht)
theorem answers_csubc {d a b} : Answers (execCsubc d a b) := answers_checked (fun _ => rfl) fun _ ht => memOk_advance (memOk_setData ht)
theorem answers_vendl {i} : Answers (execVendl i) :=
  answers_checked (fun _ => rfl) fun _ ht => memOk_ite (memOk_branch12 ht) (memOk_advance ht)
theorem answers_vany {a i} : Answers (execVany a i) := answers_checked (fun _ => rfl) fun _ ht => memOk_branch12 ht
theorem answers_vnone {a i} : Answers (execVnone a i) := answers_checked (fun _ => rfl) fun _ ht => memOk_branch12 ht
theorem answers_rep {l c x y z sf} : Answers (execRep l c x y z sf) := by
  refine answers_checked (fun _ => rfl) fun _ ht => ?_
  split
  next h => exact memOk_raise (memOk_of_snd h (memOk_fetchBody ht))
  next h =>
    have hu := memOk_of_snd h (memOk_fetchBody ht)
    split
    · exact memOk_raise hu
    extract_lets go
    have hgo : ∀ {t}, t.MemOk → (go t).MemOk := fun hv => memOk_setPc (memOk_foldl (fun _ _ hw => memOk_vecEffect hw) hv)
    split
    · exact hgo hu
    split
    · exact memOk_waveFault (memOk_ite hu hu)
    · exact memOk_stall hu
    · exact hgo hu
theorem answers_vst {d a c sf q} : Answers (execVst d a c sf q) :=
  answers_checked (fun _ => rfl) fun _ hu => memOk_withLanes hu
    (fun _ _ hv => memOk_ite (memOk_issue hv) (memOk_ite (memOk_stall hv) (memOk_issueGather hv (fun _ hy => memOk_advance (memOk_send hy)))))
theorem answers_fence {d a c} : Answers (execFence d a c) :=
  answers_checked (fun _ => rfl) fun _ ht => memOk_fenceThen ht (fun _ hu => memOk_advance (memOk_setData hu))
theorem answers_rel {a b c} : Answers (execRel a b c) :=
  answers_checked (fun _ => rfl) fun _ ht => memOk_withData ht (fun _ _ hu => memOk_ite (memOk_narrowRel hu) (memOk_fenceThen hu (fun _ hx => memOk_issue hx)))
theorem answers_acq {d a c} : Answers (execAcq d a c) :=
  answers_checked (fun _ => rfl) fun _ ht => memOk_withData ht (fun _ _ hu => memOk_ite (memOk_stall hu) (memOk_finishAcq (memOk_acquire (memOk_readFlag hu))))
theorem answers_acqp {d a b c} : Answers (execAcqp d a b c) := by
  refine answers_checked (fun _ => rfl) fun _ ht => ?_
  refine memOk_withData ht (fun _ _ hu => ?_)
  split
  · exact memOk_stall hu
  · extract_lets
    split
    · exact memOk_advance (memOk_setData hu)
    · exact memOk_acqpRead hu
    · exact memOk_ite (memOk_reply hu) (memOk_ite (memOk_reply hu) (memOk_park hu))
theorem answers_promote {n} : Answers (execPromote n) := by
  refine answers_next (fun _ => rfl) fun hs => ?_
  split
  · exact hs
  · extract_lets
    split
    next u h =>
      have hu : u.MemOk := memOk_of_snd h (memOk_routeCut hs)
      split
      · exact hu
      · extract_lets
        split
        · exact memOk_beginPromotion (memOk_modOwner hu)
        · exact memOk_ite (memOk_modOwner hu) (memOk_modOwner hu)
theorem answers_promotionDone {core} : Answers (execPromotionDone core) := by
  refine answers_next (fun _ => rfl) fun hs => ?_
  split
  · exact hs
  refine memOk_ite hs ?_
  extract_lets _ next s1 s2
  have hs2 : s2.MemOk := memOk_modNet (memOk_modCore hs)
  clear_value next s2
  split
  · exact memOk_beginPromotion hs2
  · exact hs2
theorem answers_promoteReply {n} : Answers (execPromoteReply n) := by
  refine answers_next (fun _ => rfl) fun hs => ?_
  split
  · exact hs
  · extract_lets
    split <;> exact hs
theorem answers_zfill {a b} : Answers (execZfill a b) := by
  refine answers_checked (fun _ => rfl) fun _ ht => ?_
  extract_lets
  split
  · exact memOk_raise ht
  · split
    · exact memOk_advance ht
    · refine memOk_withData ht (fun _ _ hu => ?_)
      split
      next v h =>
        have hv : v.MemOk := memOk_of_snd h (memOk_lineKeys hu)
        exact memOk_raise hv
      next x h1 =>
        have hx : x.MemOk := memOk_of_snd h1 (memOk_lineKeys hu)
        exact memOk_ite (memOk_stall (memOk_drainWhere hx)) (memOk_issue (memOk_drainWhere hx))
theorem answers_sgbIdleDrain {core n} : Answers (execSgbIdleDrain core n) := by
  refine answers_next (fun _ => rfl) fun hs => ?_
  split
  · exact memOk_ite (memOk_drainEntry hs) hs
  · exact hs
theorem answers_sgbDrainAck {core n err} : Answers (execSgbDrainAck core n err) := by
  refine answers_next (fun _ => rfl) fun hs => ?_
  split
  · exact hs
  · split
    · exact hs
    · split
      · exact memOk_freed (memOk_ackDrain hs)
      · exact memOk_ite hs (memOk_freed (memOk_ackDrain hs))
theorem answers_scratchRequest {n} : Answers (execScratchRequest n) := answers_takeReq (fun _ => rfl) fun _ _ ht => memOk_ite (memOk_arriveRead ht) (memOk_arriveWrite ht)
theorem answers_multicastSend {n} : Answers (execMulticastSend n) := by
  refine answers_next (fun _ => rfl) fun hs => ?_
  split
  · exact hs
  · exact memOk_ite hs (memOk_foldl (fun _ _ ht => memOk_serveRead ht) (memOk_ite (memOk_ite hs hs) (memOk_accessLine (memOk_ite hs hs))))
theorem answers_loadReply {n fill ecc} : Answers (execLoadReply n fill ecc) := by
  refine answers_next (fun _ => rfl) fun hs => ?_
  split
  · exact hs
  · extract_lets
    split
    next t h =>
      have ht : t.MemOk := memOk_of_snd h (memOk_ite_snd (memOk_spoilReply hs) hs)
      exact memOk_ite (memOk_placeReplicas ht) ht
theorem answers_storeAck {n} : Answers (execStoreAck n) := by
  refine answers_next (fun _ => rfl) fun hs => ?_
  split
  · exact hs
  · exact memOk_ite (memOk_ackStore hs) (memOk_modOwner (memOk_ackStore hs))
theorem answers_pageWalkDone {die asid ea} : Answers (execPageWalkDone die asid ea) := by
  refine answers_next (fun _ => rfl) fun hs => ?_
  split
  · exact memOk_noteLeaf (memOk_walkReads hs)
  · exact memOk_walkReads hs
theorem answers_leaseWaitDone {wave} : Answers (execLeaseWaitDone wave) := by
  refine answers_next (fun _ => rfl) fun hs => ?_
  split
  · exact memOk_ite hs hs
  · split
    · split
      · exact memOk_wakeAgent hs
      · exact hs
    · exact hs
theorem answers_scratchRelease {group} : Answers (execScratchRelease group) := answers_next (fun _ => rfl) fun hs => memOk_ite (memOk_releaseGroup hs) hs
theorem answers_completionRecordWrite {grid} : Answers (execCompletionRecordWrite grid) := by
  refine answers_next (fun _ => rfl) fun hs => ?_
  split
  · exact memOk_ite (memOk_writeRecord hs) hs
  · exact hs
theorem answers_vectorTimeFire {v} : Answers (execVectorTimeFire v) := by
  refine answers_next (fun _ => rfl) fun hs => ?_
  split
  · exact memOk_ite hs hs
  · exact hs
theorem answers_domainBroadcast {n} : Answers (execDomainBroadcast n) := by
  refine answers_next (fun _ => rfl) fun hs => ?_
  split
  · exact memOk_ite hs hs
  · exact hs
theorem answers_journalEntry {n} : Answers (execJournalEntry n) := by
  refine answers_next (fun _ => rfl) fun hs => ?_
  split <;> exact hs
theorem answers_launch {d a} : Answers (execLaunch d a) := by
  refine answers_checked (fun _ => checkedLaunch_eq ..) fun _ ht => ?_
  refine memOk_withAccess ht (fun _ _ hu => ?_)
  refine memOk_releaseThen hu (fun _ hv => ?_)
  refine memOk_withGranules hv (fun _ _ hx => ?_)
  extract_lets _ _ _ done
  have hdone : ∀ s st v, s.MemOk → (done s st v).MemOk := fun _ _ _ hy => memOk_distReply hy
  split
  · exact hdone _ _ _ hx
  · split
    · exact hdone _ _ _ hx
    · split
      next z h =>
        have hz : z.MemOk := memOk_of_snd h (memOk_ite_snd (memOk_queuePlace hx) hx)
        split
        · exact hdone _ _ _ hz
        · exact memOk_ite (hdone _ _ _ hz) (memOk_ite (hdone _ _ _ hz) (memOk_ite (hdone _ _ _ hz) (memOk_distReply (memOk_acceptGrid hz))))
theorem answers_grow {d a b} : Answers (execGrow d a b) := by
  refine answers_checked (fun _ => checkedGrow_eq ..) fun _ ht => ?_
  refine memOk_releaseThen ht (fun _ hu => ?_)
  extract_lets
  split
  · exact memOk_distReply hu
  · exact memOk_ite (memOk_distReply hu) (memOk_ite (memOk_distReply hu) (memOk_ite (memOk_distReply hu) (memOk_ite (memOk_distReply hu) (memOk_distReply hu))))
theorem answers_emit {d a b} : Answers (execEmit d a b) := by
  refine answers_checked (fun _ => checkedEmit_eq ..) fun _ ht => ?_
  extract_lets
  split
  · exact memOk_releaseThen ht (fun _ hu => memOk_distReply hu)
  · split
    · exact memOk_releaseThen ht (fun _ hv => memOk_distReply hv)
    · split
      · exact memOk_releaseThen ht (fun _ hx => memOk_distReply hx)
      · split
        · exact memOk_releaseThen ht (fun _ hy => memOk_distReply (memOk_closeNode (memOk_emitClk hy)))
        · refine memOk_withAccess ht (fun _ _ hz => ?_)
          refine memOk_withMapped hz (fun _ _ ht1 => ?_)
          refine memOk_releaseThen ht1 (fun _ ht2 => ?_)
          split
          · exact memOk_distReply ht2
          · split
            · exact memOk_distReply ht2
            · refine memOk_withGranules ht2 (fun _ _ ht3 => ?_)
              extract_lets _ _ s2
              have hs2 : s2.MemOk := memOk_homeWrite (memOk_emitClk (memOk_writeAcross ht3))
              exact memOk_distReply (memOk_ite (memOk_readyBatch (memOk_ite (memOk_modGrid hs2) hs2)) (memOk_ite (memOk_modGrid hs2) hs2))
theorem answers_batchTimeout {grid} : Answers (execBatchTimeout grid) := by
  refine answers_next (fun _ => rfl) fun hs => ?_
  split
  · exact memOk_ite (memOk_readyBatch hs) hs
  · exact hs
theorem answers_distributorReply {n} : Answers (execDistributorReply n) := by
  refine answers_next (fun _ => rfl) fun hs => ?_
  split
  · exact memOk_ite hs (memOk_wakeAgent hs)
  · exact hs
theorem answers_localSlotFill {core} : Answers (execLocalSlotFill core) := by
  refine answers_next (fun _ => rfl) fun hs => ?_
  split
  · exact hs
  · split
    · exact memOk_dispatchLocal hs
    · exact hs
theorem answers_masterTaskRequest {die} : Answers (execMasterTaskRequest die) := by
  refine answers_next (fun _ => rfl) fun hs => ?_
  extract_lets
  split
  · exact hs
  · split <;> exact hs
theorem answers_deferredRangeJoin {grid} : Answers (execDeferredRangeJoin grid) := by
  refine answers_next (fun _ => rfl) fun hs => ?_
  split
  · exact hs
  · split
    · exact memOk_poolRange hs
    · exact hs
theorem answers_prefetchTimeout {core slot} : Answers (execPrefetchTimeout core slot) := answers_next (fun _ => rfl) fun hs => memOk_ite (memOk_takeShadow hs) hs
theorem answers_windowRotate {core} : Answers (execWindowRotate core) := by
  refine answers_next (fun _ => rfl) fun hs => ?_
  extract_lets
  split
  · split <;> exact hs
  · exact memOk_fillWindow hs
theorem answers_gets {d n} : Answers (execGets d n) := answers_checked (fun _ => checkedGets_eq ..) fun _ ht => memOk_getReg ht
theorem answers_raystatRead {d} : Answers (execRaystatRead d) := answers_checked (fun _ => checkedGets_eq ..) fun _ ht => memOk_getReg ht
/-- The state that a guard lets through. -/
theorem memOk_of_guard {c : Prop} [Decidable c] {t u : State} (h : (if c then none else some t) = some u) (ht : t.MemOk) : u.MemOk := by
  split at h
  · cases h
  · exact Option.some.inj h ▸ ht
theorem memOk_setReg? {n v t} (hs : s.MemOk) (h : setReg s n v = some t) : t.MemOk := by
  unfold setReg at h
  extract_lets at h
  split at h
  · exact Option.some.inj h ▸ memOk_modWave hs
  · exact memOk_of_guard h (memOk_modWave hs)
  · exact memOk_of_guard h (memOk_modWave hs)
  · exact memOk_of_guard h (memOk_modDie hs)
  · exact memOk_of_guard h (memOk_modDie hs)
  · split at h
    · cases h
    · exact memOk_of_guard h (memOk_modCore hs)
  · exact memOk_of_guard h (memOk_modCore hs)
  · cases h
theorem answers_sets {a n} : Answers (execSets a n) := by
  refine answers_checked (fun _ => checkedSets_eq ..) fun _ ht => ?_
  split
  next h => exact memOk_advance (memOk_setReg? ht h)
  · exact memOk_raise ht
theorem answers_nop : Answers (execNop) := answers_checked (fun _ => rfl) fun _ ht => memOk_advance ht
theorem answers_yield : Answers (execYield) := answers_checked (fun _ => rfl) fun _ ht => memOk_advance ht
theorem answers_cwait {l sf c p} : Answers (execCwait l sf c p) := answers_checked (fun _ => checkedCwait_eq ..) fun _ hu => memOk_ite (memOk_advance hu) (memOk_stall hu)
theorem answers_trap {c} : Answers (execTrap c) := answers_checked (fun _ => checkedTrap_eq ..) fun _ ht => memOk_raise ht
theorem answers_bkpt {c} : Answers (execBkpt c) := answers_checked (fun _ => checkedBkpt_eq ..) fun _ ht => memOk_raise ht
theorem answers_exit : Answers (execExit) := answers_checked (fun _ => rfl) fun _ ht => memOk_ite (memOk_stall ht) (memOk_endWave ht)
theorem answers_invl1 : Answers (execInvl1) := answers_checked (fun _ => rfl) fun _ ht => memOk_ite (memOk_stall ht) (memOk_advance ht)
theorem answers_invi : Answers (execInvi) :=
  answers_checked (fun _ => rfl) fun _ ht => memOk_ite (memOk_stall ht) (memOk_ite (memOk_stall (memOk_drainWhere ht)) (memOk_advance (memOk_drainWhere ht)))
theorem answers_eventArrive {n} : Answers (execEventArrive n) := by
  refine answers_next (fun _ => rfl) fun hs => ?_
  split
  · exact memOk_ite hs hs
  · exact hs
theorem answers_evset {a b} : Answers (execEvset a b) := answers_checked (fun _ => checkedEvset_eq ..) fun _ ht => memOk_changeRow ht
theorem answers_evclr {a b} : Answers (execEvclr a b) := answers_checked (fun _ => checkedEvclr_eq ..) fun _ ht => memOk_changeRow ht
theorem answers_evsig {a} : Answers (execEvsig a) := answers_checked (fun _ => checkedEvsig_eq ..) fun _ ht => memOk_advance ht
theorem answers_evrd {d a} : Answers (execEvrd d a) :=
  answers_checked (fun _ => checkedEvrd_eq ..) fun _ ht => memOk_ite (memOk_advance (memOk_setData ht)) (memOk_advance (memOk_setData ht))
theorem answers_ladleRequestStart {core ch} : Answers (execLadleRequestStart core ch) := by
  refine answers_next (fun _ => rfl) fun hs => ?_
  split
  · exact memOk_ite hs (memOk_passGate hs)
  · exact hs
theorem answers_ladleWriteAck {core ch bytes} : Answers (execLadleWriteAck core ch bytes) := by
  refine answers_next (fun _ => rfl) fun hs => ?_
  split
  · exact memOk_ite (memOk_landReq hs) hs
  · exact hs
theorem answers_ladleComplete {core ch} : Answers (execLadleComplete core ch) := by
  refine answers_next (fun _ => rfl) fun hs => ?_
  split
  · split
    · exact hs
    · extract_lets _ s2
      have hs2 : s2.MemOk := memOk_ite (memOk_creditReq hs) (memOk_creditReq hs)
      exact memOk_endReq (memOk_ite hs2 hs2)
  · exact hs
theorem answers_ladleAbort {core ch code info} : Answers (execLadleAbort core ch code info) := by
  refine answers_next (fun _ => rfl) fun hs => ?_
  split
  · split
    · exact hs
    · split
      · exact memOk_abortReq hs
      · split
        · exact hs
        · split
          next u h =>
            have hu : u.MemOk := memOk_of_snd h (memOk_makeOutput hs)
            exact memOk_abortReq hu
          next t h1 => exact hs
  · exact hs
theorem answers_cset {n d a} : Answers (execCset n d a) :=
  answers_checked (fun _ => rfl) fun _ ht => memOk_ite (memOk_advance (memOk_setData ht)) (memOk_advance (memOk_setData ht))
theorem answers_cgete {n d b} : Answers (execCgete n d b) := by
  refine answers_checked (fun _ => rfl) fun _ ht => ?_
  extract_lets _ _ put
  have hput : ∀ v s, s.MemOk → (put v s).MemOk := fun _ _ hu => memOk_advance (memOk_setData hu)
  split
  · exact hput _ _ ht
  · exact hput _ _ ht
  · exact hput _ _ ht
  · exact hput _ _ ht
  · exact memOk_raise ht
theorem answers_ccancel {n d} : Answers (execCcancel n d) := answers_checked (fun _ => rfl) fun _ ht => memOk_advance (memOk_setData (memOk_cancelReqs ht))
theorem answers_cbind {n a} : Answers (execCbind n a) := by
  refine answers_checked (fun _ => rfl) fun _ ht => ?_
  split
  · exact memOk_ite (memOk_advance ht) (memOk_raise ht)
  · exact memOk_advance ht
theorem answers_cunbind {a} : Answers (execCunbind a) := by
  refine answers_checked (fun _ => rfl) fun _ ht => ?_
  split
  · exact memOk_advance ht
  · exact memOk_raise ht
theorem answers_spop {d a} : Answers (execSpop d a) := by
  refine answers_checked (fun _ => rfl) fun _ ht => ?_
  split
  · exact memOk_raise ht
  · exact memOk_withPops ht (fun _ _ _ _ hu => memOk_advance (memOk_markReg (memOk_setData hu)))
theorem answers_vspop {d a} : Answers (execVspop d a) := by
  refine answers_checked (fun _ => checkedVspop_eq ..) fun _ ht => ?_
  split
  · exact memOk_raise ht
  · exact memOk_ite (memOk_raise ht) (memOk_ite (memOk_stall ht) (memOk_withPops ht (fun _ _ _ _ hu => memOk_advance hu)))
theorem answers_pset {a b} : Answers (execPset a b) := by
  refine answers_checked (fun _ => checkedPset_eq ..) fun _ ht => ?_
  split
  · split
    · exact memOk_advance ht
    · exact memOk_raise ht
theorem answers_pget {d a} : Answers (execPget d a) := answers_checked (fun _ => checkedPget_eq ..) fun _ ht => memOk_ite (memOk_raise ht) (memOk_advance (memOk_setData ht))
theorem answers_pres {d a} : Answers (execPres d a) := answers_checked (fun _ => checkedPres_eq ..) fun _ ht => memOk_advance (memOk_setData ht)
theorem answers_prel {a} : Answers (execPrel a) :=
  answers_checked (fun _ => checkedPrel_eq ..) fun _ ht => memOk_ite (memOk_stall ht) (memOk_ite (memOk_raise ht) (memOk_advance ht))
theorem answers_ppass {a b} : Answers (execPpass a b) := by
  refine answers_checked (fun _ => checkedPpass_eq ..) fun _ ht => ?_
  split
  · extract_lets
    split
    · exact memOk_raise ht
    · exact memOk_post ht
theorem answers_pclr {a} : Answers (execPclr a) := answers_checked (fun _ => checkedPclr_eq ..) fun _ ht => memOk_ite (memOk_raise ht) (memOk_post ht)
theorem memOk_setCtx {v n x} (hs : s.MemOk) : (s.setCtx v n x).MemOk := hs
theorem memOk_newAgent (hs : s.MemOk) : s.newAgent.2.MemOk := memOk_of_eq hs rfl rfl
theorem answers_mstart {d a b} : Answers (execMstart d a b) := by
  refine answers_checked (fun _ => checkedMstart_eq ..) fun _ ht => ?_
  extract_lets _ _ _ _ done
  have hdone : ∀ {st n t}, t.MemOk → (done st n t).MemOk := fun hu => memOk_advance (memOk_setData hu)
  clear_value done
  split
  · exact memOk_raise ht
  refine memOk_ite (hdone ht) (memOk_ite (hdone ht) ?_)
  split
  · exact hdone ht
  · exact hdone (memOk_setCtx (memOk_newAgent (memOk_release ht)))
theorem answers_mstop {d a} : Answers (execMstop d a) := by
  refine answers_checked (fun _ => checkedMstop_eq ..) fun _ ht => ?_
  extract_lets
  split
  · exact memOk_advance (memOk_setData ht)
  · extract_lets
    split
    · exact memOk_stopCtx (memOk_park ht)
    · exact memOk_stopCtx (memOk_park ht)
    · exact memOk_ite (memOk_stopCtx (memOk_park ht)) (memOk_park ht)
    · exact memOk_ite (memOk_stall ht) (memOk_park ht)
theorem answers_pjoin {a b} : Answers (execPjoin a b) := by
  refine answers_checked (fun _ => checkedPjoin_eq ..) fun _ ht => ?_
  split
  · extract_lets
    split
    · exact memOk_raise ht
    · split
      · split
        next u h =>
          have hu : u.MemOk := memOk_of_snd h (memOk_portCheck ht)
          exact memOk_raise hu
        next y h1 =>
          have hy : y.MemOk := memOk_of_snd h1 (memOk_portCheck ht)
          exact memOk_post hy
      · exact memOk_post ht
theorem answers_pdrainO {a} : Answers (execPdrainO a) := answers_checked (fun _ => checkedPdrainO_eq ..) fun _ ht => memOk_postDrain ht
theorem answers_pdrainU {a} : Answers (execPdrainU a) := answers_checked (fun _ => checkedPdrainU_eq ..) fun _ ht => memOk_postDrain ht
theorem answers_pressGrant {vat} : Answers (execPressGrant vat) := by
  refine answers_next (fun _ => rfl) fun hs => ?_
  split
  · exact hs
  · split
    · exact hs
    · extract_lets
      split
      next t h =>
        have ht : t.MemOk := by
          refine memOk_of_snd h ?_
          split
          · split
            next u h1 => exact memOk_of_snd h1 (memOk_runPass (memOk_passGate hs))
            next v h2 =>
              have hv : v.MemOk := memOk_of_snd h2 (memOk_runPass (memOk_passGate hs))
              exact memOk_stopOp hv
          · exact memOk_runClear (memOk_passGate hs)
          · exact memOk_startJoin (memOk_passGate hs)
          · exact memOk_startDrain (memOk_passGate hs)
        exact ht
theorem answers_spillTailReread {vat} : Answers (execSpillTailReread vat) := by
  refine answers_next (fun _ => rfl) fun hs => ?_
  split
  · exact hs
  · split
    · exact hs
    · extract_lets
      split
      · exact hs
      · split
        next t h =>
          have ht : t.MemOk := by
            refine memOk_of_snd h ?_
            split
            · exact memOk_runDrain hs
            · exact memOk_runJoin hs
          exact ht
theorem answers_pressOpComplete {vat} : Answers (execPressOpComplete vat) := by
  refine answers_next (fun _ => rfl) fun hs => ?_
  split
  · exact hs
  · exact memOk_freeCtx (memOk_ite hs hs)
theorem answers_hgath {d a} : Answers (execHgath d a) := answers_checked (fun _ => checkedHgath_eq ..) fun _ ht => memOk_pushHarp ht
theorem answers_hcsr {d a} : Answers (execHcsr d a) := answers_checked (fun _ => checkedHcsr_eq ..) fun _ ht => memOk_pushHarp ht
theorem answers_hscat {d a} : Answers (execHscat d a) := answers_checked (fun _ => checkedHscat_eq ..) fun _ ht => memOk_pushHarp ht
theorem answers_harpStart {vat} : Answers (execHarpStart vat) := by
  refine answers_next (fun _ => rfl) fun hs => ?_
  split
  · exact memOk_ite hs (memOk_passGate hs)
  · exact hs
theorem answers_harpComplete {vat} : Answers (execHarpComplete vat) := by
  refine answers_next (fun _ => rfl) fun hs => ?_
  split
  · exact hs
  · split
    next t h =>
      have ht : t.MemOk := memOk_of_snd h (memOk_harpIndexed hs)
      split
      · exact ht
      · split
        next x h3 =>
          have hx : x.MemOk := memOk_of_snd h3 (memOk_harpRun ht)
          exact memOk_abortHarp hx
        next y h4 =>
          have hy : y.MemOk := memOk_of_snd h4 (memOk_harpRun ht)
          extract_lets _ s8
          have hs8 : s8.MemOk := memOk_ite (memOk_creditHarp hy) (memOk_creditHarp hy)
          exact memOk_endHarp (memOk_ite hs8 hs8)
theorem answers_harpAbort {vat code info} : Answers (execHarpAbort vat code info) := by
  refine answers_next (fun _ => rfl) fun hs => ?_
  split
  · exact hs
  · split
    · exact hs
    · split
      next t h =>
        have ht : t.MemOk := memOk_of_snd h (memOk_harpIndexed hs)
        split
        next y h4 =>
          have hy : y.MemOk := memOk_of_snd_snd h4 (memOk_harpRun ht)
          exact memOk_abortHarp hy
        next z h5 =>
          have hz : z.MemOk := memOk_of_snd_snd h5 (memOk_harpRun ht)
          exact memOk_abortHarp hz
        next t1 h6 => exact ht
theorem answers_harpShip {vat ok} : Answers (execHarpShip vat ok) := by
  refine answers_next (fun _ => rfl) fun hs => ?_
  split
  · exact hs
  · split
    next t h =>
      have ht : t.MemOk := memOk_of_snd h (memOk_harpIndexed hs)
      split
      · exact ht
      · split
        · exact memOk_abortHarp ht
        · extract_lets
          split
          next x h3 =>
            have hx : x.MemOk := memOk_of_snd h3 (memOk_moveRows ht)
            exact memOk_abortHarp hx
          next y h4 =>
            have hy : y.MemOk := memOk_of_snd h4 (memOk_moveRows ht)
            exact hy
theorem answers_rayReinject {core} : Answers (execRayReinject core) := answers_next (fun _ => rfl) fun hs => memOk_ite hs (memOk_routeRay hs)
theorem answers_rayArrive {n} : Answers (execRayArrive n) := by
  refine answers_next (fun _ => rfl) fun hs => ?_
  split
  · exact memOk_ite hs (memOk_ite (memOk_takeRay hs) hs)
  · exact hs
theorem answers_rrecv {d a b} : Answers (execRrecv d a b) := by
  refine answers_checked (fun _ => checkedRrecv_eq ..) fun _ ht => ?_
  refine memOk_withBuffer ht (fun _ _ hu => ?_)
  extract_lets
  split
  · exact memOk_storeRay (memOk_setData hu)
  · exact memOk_ite (memOk_rayDone hu) (memOk_park hu)
theorem answers_rsend {d a b} : Answers (execRsend d a b) :=
  answers_checked (fun _ => checkedRsend_eq ..) fun _ ht => memOk_withRay ht
    (fun _ _ _ hu => memOk_ite (memOk_rayDone (memOk_routeRay hu)) (memOk_ite (memOk_rayDone (memOk_spillRay hu)) (memOk_stall hu)))
theorem answers_rhit {d a} : Answers (execRhit d a) :=
  answers_checked (fun _ => checkedRhit_eq ..) fun _ ht => memOk_withRay ht (fun _ _ _ hu => memOk_ite (memOk_rayDone (memOk_sendHit hu)) (memOk_stall hu))
theorem answers_rbox4 {d a b} : Answers (execRbox4 d a b) := by
  refine answers_checked (fun _ => checkedRbox4_eq ..) fun _ ht => ?_
  refine memOk_withRay ht (fun _ _ _ hu => ?_)
  split
  · exact memOk_rayDone hu
  · exact memOk_ite (memOk_rayDone hu) (memOk_rayDone hu)
theorem answers_rtri {d a b} : Answers (execRtri d a b) := by
  refine answers_checked (fun _ => checkedRtri_eq ..) fun _ ht => ?_
  refine memOk_withRay ht (fun _ _ _ hu => ?_)
  split
  · exact memOk_rayDone hu
  · exact memOk_ite (memOk_rayDone hu) (memOk_ite (memOk_storeRay (memOk_setData hu)) (memOk_advance (memOk_setData hu)))
theorem answers_rroute {d a b} : Answers (execRroute d a b) := by
  refine answers_checked (fun _ => checkedRroute_eq ..) fun _ ht => memOk_withRay ht fun _ _ _ hu => ?_
  extract_lets
  split
  · exact memOk_rayDone hu
  refine memOk_ite (memOk_rayDone hu) ?_
  extract_lets
  split
  · exact memOk_rayDone hu
  · exact memOk_rayDone hu
  · exact memOk_rayDone (memOk_ite hu (memOk_queryRoute hu))
theorem answers_hitRecordArrive {n} : Answers (execHitRecordArrive n) := by
  refine answers_next (fun _ => rfl) fun hs => ?_
  split
  · exact hs
  · exact memOk_ite hs (memOk_ite hs hs)
theorem answers_shadingWaveLaunch {core} : Answers (execShadingWaveLaunch core) := answers_next (fun _ => rfl) fun hs => memOk_ite (memOk_launchShading hs) hs
theorem answers_hqtTimeout {core} : Answers (execHqtTimeout core) := by
  refine answers_next (fun _ => rfl) fun hs => ?_
  split
  · exact memOk_ite (memOk_launchShading hs) hs
  · exact hs
theorem answers_hqbind {d a b} : Answers (execHqbind d a b) :=
  answers_checked (fun _ => checkedHqbind_eq ..) fun _ ht => memOk_ite
    (memOk_releaseThen ht (fun _ hu => memOk_ite (memOk_distReply (memOk_unbindProgram hu)) (memOk_distReply hu)))
    (memOk_withAccess ht (fun _ _ hv => memOk_releaseThen hv (fun _ hx => memOk_withGranules hx (fun _ _ hy => memOk_distReply (memOk_bindProgram hy)))))
theorem answers_pageTransfer {n} : Answers (execPageTransfer n) := by
  refine answers_next (fun _ => rfl) fun hs => ?_
  split
  · exact hs
  extract_lets s1
  have hs1 : s1.MemOk := memOk_modNet hs
  clear_value s1
  split
  · split
    next h => exact memOk_poke (memOk_of_snd h (memOk_readLines hs1))
  · exact hs1
theorem memOk_landCopy {t c} (hs : s.MemOk) : (landCopy s t c).MemOk := memOk_modCore hs
theorem answers_pageInDone {tid} : Answers (execPageInDone tid) := by
  refine answers_next (fun _ => rfl) fun hs => memOk_dirRow ?_
  extract_lets _ _ s1 s2 s3
  have hs2 : s2.MemOk := memOk_modNet (memOk_setDirState (memOk_setDe1 (memOk_landCopy hs)))
  have hs3 : s3.MemOk := by
    simp only [s3]
    split
    · exact memOk_grantTl hs2
    · exact hs2
  exact memOk_ite hs (memOk_requeue (memOk_modDir hs3))
theorem answers_pageInFail {tid} : Answers (execPageInFail tid) := by
  refine answers_next (fun _ => rfl) fun hs => memOk_dirRow ?_
  extract_lets _ _ _ s1 s2 s3 s4
  have hs2 : s2.MemOk := memOk_modDir (memOk_setDirState (memOk_modCore hs))
  have hs3 : s3.MemOk := memOk_foldl (fun _ _ ht => memOk_sendLost ht) hs2
  have hs4 : s4.MemOk := memOk_foldl (fun _ _ ht => memOk_answerTl ht) hs3
  clear_value s4
  exact memOk_ite hs (memOk_postMessage hs4)
theorem answers_replicaCopyDone {tid} : Answers (execReplicaCopyDone tid) := by
  refine answers_next (fun _ => rfl) fun hs => ?_
  refine memOk_dirRow ?_
  split
  · exact hs
  · split
    · exact hs
    · extract_lets _ _ s2 _ s4
      have hs2 : s2.MemOk := by
        simp only [s2]
        split
        · exact memOk_setRepl hs
        · exact hs
      have hs4 : s4.MemOk := by
        simp only [s4]
        split
        · exact memOk_grantTl (memOk_setDe1 hs2)
        · exact memOk_setDe1 hs2
      exact hs4
theorem answers_evictConfirm {tid} : Answers (execEvictConfirm tid) := by
  refine answers_next (fun _ => rfl) fun hs => memOk_dirRow (memOk_ite ?_ (memOk_coldRays hs))
  extract_lets _ s1 s2
  have hs1 : s1.MemOk := memOk_modDir (memOk_setDirState (memOk_setDe1 hs))
  have hs2 : s2.MemOk := by
    simp only [s2]
    split
    · exact memOk_answerTl hs1
    · exact hs1
  exact memOk_coldRays (memOk_requeue hs2)
theorem answers_dirRay {n} : Answers (execDirRay n) := by
  refine answers_next (fun _ => rfl) fun {s} hs => memOk_dirRow ?_
  split
  next r _ =>
    cases h : dirTakeRay (s.modNet fun m => { m with dirRays := dropAt m.dirRays n }) r with
    | none => exact hs
    | some t => exact memOk_dirTakeRay (memOk_modNet hs) h
  · exact hs
theorem answers_dirHeatReport {n} : Answers (execDirHeatReport n) := by
  refine answers_next (fun _ => rfl) fun hs => ?_
  refine memOk_dirRow ?_
  split
  · exact memOk_dirTakeHeat hs
  · exact hs
theorem answers_dirTlreq {n} : Answers (execDirTlreq n) := by
  refine answers_next (fun _ => rfl) fun hs => ?_
  refine memOk_dirRow ?_
  split
  · exact memOk_dirTakeTl hs
  · exact hs
theorem answers_dirTlevict {n} : Answers (execDirTlevict n) := by
  refine answers_next (fun _ => rfl) fun hs => ?_
  refine memOk_dirRow ?_
  split
  · exact memOk_evictCopy hs
  · exact hs
theorem answers_routeQuery {n} : Answers (execRouteQuery n) := by
  refine answers_next (fun _ => rfl) fun hs => ?_
  split
  · exact memOk_modNet (memOk_touchEntry (memOk_modNet hs))
  · exact hs
theorem answers_routeReply {n} : Answers (execRouteReply n) := by
  refine answers_next (fun _ => rfl) fun hs => ?_
  split <;> exact hs
theorem answers_tlreq {d a b} : Answers (execTlreq d a b) :=
  answers_checked (fun _ => checkedTlreq_eq ..) fun _ ht => memOk_ite (memOk_rayDone (memOk_ite (memOk_setDe1 (memOk_touchEntry ht)) (memOk_touchEntry ht)))
    (memOk_park ht)
theorem answers_tlevict {d a} : Answers (execTlevict d a) := answers_checked (fun _ => checkedTlevict_eq ..) fun _ ht => memOk_ite (memOk_park ht) (memOk_rayDone ht)
theorem answers_tlreqReply {n} : Answers (execTlreqReply n) := by
  refine answers_next (fun _ => rfl) fun hs => ?_
  split
  · exact memOk_wakeAgent hs
  · exact hs
theorem answers_exchCollReport {n} : Answers (execExchCollReport n) := by
  refine answers_next (fun _ => rfl) fun hs => ?_
  split
  · exact memOk_ite hs hs
  · exact hs
theorem answers_exchBeatSend {core} : Answers (execExchBeatSend core) := by
  refine answers_next (fun _ => rfl) fun hs => ?_
  extract_lets p
  split
  · exact memOk_ite (memOk_modNet (memOk_modCore (memOk_beatData hs))) hs
  · exact hs
theorem answers_exchBeatArrive {n} : Answers (execExchBeatArrive n) := by
  refine answers_next (fun _ => rfl) fun hs => ?_
  split
  · exact memOk_ite hs (memOk_ite (memOk_landBeat hs) hs)
  · exact hs
theorem answers_exchPhaseEnd {core} : Answers (execExchPhaseEnd core) := answers_next (fun _ => rfl) fun hs => memOk_ite hs hs
theorem answers_dbar {d a b} : Answers (execDbar d a b) := by
  refine answers_checked (fun _ => checkedDbar_eq ..) fun _ ht => ?_
  extract_lets
  split
  · exact memOk_ite (memOk_stall ht) (memOk_domainReply (memOk_arriveDomain ht))
  · exact memOk_withAccess ht (fun _ _ hu => memOk_ite (memOk_stall hu) (memOk_withGranules hu (fun _ _ hv => memOk_domainReply (memOk_claimDomain hv))))
  · exact memOk_domainReply (memOk_releaseDomain ht)
  · exact memOk_raise ht
theorem answers_xslots {d a b} : Answers (execXslots d a b) :=
  answers_checked (fun _ => checkedXslots_eq ..) fun _ ht => memOk_withOwnScratch ht
    (fun _ _ hu => memOk_ite (memOk_stall hu) (memOk_ite (memOk_exchDone hu)
    (memOk_withOwnScratch hu (fun _ _ hv => memOk_ite (memOk_stall hv) (memOk_ite (memOk_exchDone hv) (memOk_ite (memOk_exchDone hv) (memOk_exchDone hv)))))))
theorem answers_xsel {d a} : Answers (execXsel d a) := answers_checked (fun _ => checkedXsel_eq ..) fun _ ht => memOk_exchDone ht
theorem answers_xph {d a b} : Answers (execXph d a b) :=
  answers_checked (fun _ => checkedXph_eq ..) fun _ ht => memOk_ite (memOk_exchDone ht)
    (memOk_ite (memOk_exchDone ht) (memOk_ite (memOk_exchDone ht)
    (memOk_ite (memOk_exchDone ht) (memOk_ite (memOk_exchDone ht) (memOk_ite (memOk_exchDone ht) (memOk_exchDone ht))))))
theorem answers_xmit {d a b} : Answers (execXmit d a b) :=
  answers_checked (fun _ => checkedXmit_eq ..) fun _ ht => memOk_ite (memOk_raise ht)
    (memOk_ite (memOk_raise ht) (memOk_withOwnScratch ht (fun _ _ hu => memOk_ite (memOk_raise hu) (memOk_ite (memOk_raise hu) (memOk_exchDone hu)))))
theorem answers_xrecv {d a b} : Answers (execXrecv d a b) :=
  answers_checked (fun _ => checkedXrecv_eq ..) fun _ ht => memOk_ite (memOk_exchDone ht)
    (memOk_ite (memOk_exchDone ht) (memOk_withOwnScratch ht (fun _ _ hu => memOk_ite (memOk_exchDone hu) (memOk_exchDone hu))))
theorem answers_xend {d a} : Answers (execXend d a) :=
  answers_checked (fun _ => checkedXend_eq ..) fun _ ht => memOk_ite (memOk_exchDone ht) (memOk_ite (memOk_advance (memOk_setData ht)) (memOk_park ht))
theorem answers_mbxpop {d} : Answers (execMbxpop d) :=
  answers_checked (fun _ => checkedMbxpop_eq ..) fun _ ht => memOk_advance (memOk_setData (memOk_setData (memOk_setData (memOk_setData ht))))
theorem answers_wresume {a} : Answers (execWresume a) := by
  refine answers_checked (fun _ => checkedWresume_eq ..) fun _ ht => ?_
  extract_lets
  split
  · exact memOk_svDone ht
  · split
    · exact memOk_svDone ht
    · split
      · exact memOk_ite (memOk_svDone ht) (memOk_svDone ht)
      · exact memOk_svDone ht
theorem answers_wkill {a} : Answers (execWkill a) := by
  refine answers_checked (fun _ => checkedWkill_eq ..) fun _ ht => ?_
  extract_lets
  split
  · exact memOk_svDone ht
  · exact memOk_foldl (fun _ _ hu => memOk_endWave hu) (memOk_svDone ht)
theorem answers_gkill {a} : Answers (execGkill a) := by
  refine answers_checked (fun _ => checkedGkill_eq ..) fun _ ht => ?_
  extract_lets
  split
  · exact memOk_svDone ht
  · exact memOk_ite (memOk_svDone ht) (memOk_killGrid (memOk_svDone ht))
theorem answers_watchdogExpire {wave} : Answers (execWatchdogExpire wave) := answers_next (fun _ => rfl) fun hs => memOk_ite (memOk_waveFault (memOk_abandonWait hs)) hs
theorem answers_sliceEccError {tile pa} : Answers (execSliceEccError tile pa) :=
  answers_next (fun _ => rfl) fun hs => memOk_ite (memOk_ite (memOk_countCorrected hs) (memOk_sliceMessage hs)) hs
theorem answers_linkDead {tile dir count} : Answers (execLinkDead tile dir count) := by
  refine answers_next (fun _ => rfl) fun hs => ?_
  split
  · exact memOk_tellLink hs
  · exact memOk_ite (memOk_killLink hs) hs
theorem answers_saveComplete {n} : Answers (execSaveComplete n) := by
  refine answers_next (fun _ => rfl) fun hs => ?_
  split
  · exact hs
  · split
    · exact hs
    · extract_lets answer
      have hanswer : ∀ s st len, s.MemOk → (answer s st len).MemOk := fun _ _ _ ht => memOk_wakeAgent ht
      exact memOk_ite (hanswer _ _ _ hs) (memOk_ite (hanswer _ _ _ (memOk_finishSave hs)) hs)
theorem answers_gpreempt {d a} : Answers (execGpreempt d a) := by
  refine answers_checked (fun _ => checkedGpreempt_eq ..) fun _ ht => ?_
  extract_lets done
  have hdone : ∀ st s, s.MemOk → (done st s).MemOk := fun _ _ hu => memOk_advance (memOk_setData hu)
  split
  · exact hdone _ _ ht
  · exact memOk_ite (hdone _ _ ht) (memOk_ite (hdone _ _ ht) (memOk_withAccess ht (fun _ _ hv => memOk_beginSave (memOk_park hv))))
theorem answers_restore {core n} : Answers (execRestore core n) := by
  refine answers_next (fun _ => rfl) fun hs => ?_
  split
  · exact hs
  · split
    · exact hs
    · split
      next t h =>
        have ht : t.MemOk := memOk_of_snd h (memOk_readImage hs)
        exact memOk_killGrid ht
      next u h1 =>
        have hu : u.MemOk := memOk_of_snd h1 (memOk_readImage hs)
        extract_lets _ _ fail1
        have hfail1 : ∀ s, s.MemOk → (fail1 s).MemOk := fun _ ht5 => memOk_killGrid ht5
        split
        · exact hfail1 _ hu
        · split
          next t6 h8 =>
            have ht6 : t6.MemOk := memOk_of_snd h8 (memOk_readImage hu)
            exact hfail1 _ ht6
          next t7 h9 =>
            have ht7 : t7.MemOk := memOk_of_snd h9 (memOk_readImage hu)
            extract_lets
            split
            · exact memOk_discardSaved ht7
            · split
              · split
                next t10 h12 =>
                  have ht10 : t10.MemOk := memOk_of_snd h12 (memOk_readImage ht7)
                  exact memOk_rebuild ht10
                next t11 h13 =>
                  have ht11 : t11.MemOk := memOk_of_snd h13 (memOk_readImage ht7)
                  exact hfail1 _ ht11
              · exact ht7
theorem answers_dbghalt {a} : Answers (execDbghalt a) := by
  refine answers_checked (fun _ => checkedDbghalt_eq ..) fun _ ht => ?_
  split <;> exact memOk_svDone ht
theorem answers_dbgrun {a} : Answers (execDbgrun a) := by
  refine answers_checked (fun _ => checkedDbgrun_eq ..) fun _ ht => ?_
  split <;> exact memOk_svDone ht
theorem answers_leaseSync {die ahead} : Answers (execLeaseSync die ahead) := answers_next (fun _ => rfl) fun hs => memOk_ite hs (memOk_ite hs hs)
theorem answers_launchSlotSubmit {slot record} : Answers (execLaunchSlotSubmit slot record) :=
  answers_next (fun _ => rfl) fun hs => memOk_ite hs (memOk_ite hs (memOk_hostLaunch hs))
theorem answers_sloterrClear {mask} : Answers (execSloterrClear mask) := answers_next (fun _ => rfl) fun hs => memOk_ite hs hs
theorem answers_taggedWrite {tag} : Answers (execTaggedWrite tag) := answers_next (fun _ => rfl) fun hs => memOk_ite (memOk_taggedWrite hs) hs
theorem answers_taggedWriteDone : Answers (execTaggedWriteDone) := by
  refine answers_next (fun _ => rfl) fun hs => ?_
  split
  · exact hs
  · extract_lets t
    have ht : t.MemOk := memOk_ite hs (memOk_ite (memOk_sliceMessage hs) (memOk_homeWrite (memOk_notePage hs)))
    exact ht
theorem answers_tlbInvalidate {value} : Answers (execTlbInvalidate value) := answers_next (fun _ => rfl) fun hs => memOk_ite (memOk_tlbInvalidate hs) hs
theorem answers_tlbInvalidateDone : Answers (execTlbInvalidateDone) := answers_next (fun _ => rfl) fun hs => memOk_ite hs hs
theorem answers_standbyPowerOn : Answers (execStandbyPowerOn) := answers_next (fun _ => rfl) fun hs => memOk_ite hs (memOk_bringUp (memOk_powerOn hs))
theorem answers_bootTimeout : Answers (execBootTimeout) := answers_next (fun _ => rfl) fun hs => memOk_ite hs (memOk_bringUp (memOk_powerOn (memOk_logEvent hs)))
theorem answers_warmReset : Answers (execWarmReset) := answers_next (fun _ => rfl) fun hs => memOk_ite (memOk_warmReset hs) hs
theorem answers_registerWrite {bar2 off value} : Answers (execRegisterWrite bar2 off value) :=
  answers_next (fun _ => rfl) fun hs => memOk_ite (memOk_writeMap hs) (memOk_ite hs (memOk_ite (memOk_writeBar0 hs) hs))
theorem answers_droopDetect {vat} : Answers (execDroopDetect vat) := answers_next (fun _ => rfl) fun hs => memOk_ite hs (memOk_logEvent hs)
theorem answers_droopRecover {vat} : Answers (execDroopRecover vat) := answers_next (fun _ => rfl) fun hs => memOk_ite (memOk_logEvent hs) hs
theorem answers_currentLimit {package amps} : Answers (execCurrentLimit package amps) := by
  refine answers_next (fun _ => rfl) fun hs => ?_
  extract_lets _ _ _ _ _ s1 s2
  have hs1 : s1.MemOk := memOk_of_eq hs rfl rfl
  have hs2 : s2.MemOk := memOk_ite hs1 (memOk_logEvent (memOk_foldl (fun _ _ ht => memOk_modDie ht) hs1))
  exact memOk_ite hs2 (memOk_logEvent hs2)
theorem answers_thermalLimit {vat eighths} : Answers (execThermalLimit vat eighths) :=
  answers_next (fun _ => rfl) fun hs => memOk_ite (memOk_fenceDies (memOk_ite hs (memOk_logEvent hs))) (memOk_ite hs (memOk_logEvent hs))
theorem answers_attestation {nonce} : Answers (execAttestation nonce) := answers_next (fun _ => rfl) fun hs => memOk_ite hs hs
theorem answers_fadd {d a b m} : Answers (execFadd d a b m) := answers_checked (fun _ => rfl) fun _ ht => memOk_fpRounded ht
theorem answers_fsub {d a b m} : Answers (execFsub d a b m) := answers_checked (fun _ => rfl) fun _ ht => memOk_fpRounded ht
theorem answers_fmul {d a b m} : Answers (execFmul d a b m) := answers_checked (fun _ => rfl) fun _ ht => memOk_fpRounded ht
theorem answers_fdiv {d a b m} : Answers (execFdiv d a b m) := answers_checked (fun _ => rfl) fun _ ht => memOk_fpRounded ht
theorem answers_ffma {d a b m} : Answers (execFfma d a b m) := answers_checked (fun _ => rfl) fun _ ht => memOk_fpRounded ht
theorem answers_fsqrt {d a m} : Answers (execFsqrt d a m) := answers_checked (fun _ => rfl) fun _ ht => memOk_fpRounded ht
theorem answers_fcvt {d a c m} : Answers (execFcvt d a c m) := answers_checked (fun _ => rfl) fun _ ht => memOk_fpRounded ht
theorem answers_fmin {d a b} : Answers (execFmin d a b) := answers_checked (fun _ => rfl) fun _ ht => memOk_fpWrite ht
theorem answers_fmax {d a b} : Answers (execFmax d a b) := answers_checked (fun _ => rfl) fun _ ht => memOk_fpWrite ht
theorem answers_fcmp {d a b p} : Answers (execFcmp d a b p) := answers_checked (fun _ => rfl) fun _ ht => memOk_fpWrite ht
theorem answers_fclass {d a} : Answers (execFclass d a) := answers_checked (fun _ => rfl) fun _ ht => memOk_advance (memOk_setData ht)
theorem answers_fsgn {d a b p} : Answers (execFsgn d a b p) := answers_checked (fun _ => rfl) fun _ ht => memOk_fpWrite ht

/-- Every arm of `exec` answers. -/
theorem exec_answers (i : Instr) : Answers (exec i) := by
  cases i with
  | illegalInstruction => exact answers_illegalInstruction
  | add | sub | mul | mulh | mulhu | div | divu | rem | remu | and | or | xor | andn | sll | srl | sra | ror | min | max | minu | maxu | slt | sltu
  | seq | sne | clz | ctz | popc | brev => exact answers_checked (fun _ => rfl) fun _ ht => memOk_alu ht
  | addi | andi | ori | xori | slli | srli | srai | slti | sltiu => exact answers_checked (fun _ => rfl) fun _ ht => memOk_aluImm ht
  | lui => exact answers_lui
  | auipc => exact answers_auipc
  | beq => exact answers_beq
  | bne => exact answers_bne
  | blt => exact answers_blt
  | bge => exact answers_bge
  | bltu => exact answers_bltu
  | bgeu => exact answers_bgeu
  | btag => exact answers_btag
  | bntag => exact answers_bntag
  | jal => exact answers_checked (fun _ => rfl) fun _ ht => memOk_branch (memOk_setReg ht)
  | jalr => exact answers_checked (fun _ => rfl) fun _ ht => memOk_setPc (memOk_setReg ht)
  | ldB | ldH | ldW | ldD => exact answers_checked (fun _ => rfl) fun _ ht => memOk_scalarLoad ht
  | stB | stH | stW | stD => exact answers_checked (fun _ => rfl) fun _ ht => memOk_scalarStore ht
  | cinc => exact answers_cinc
  | csetb => exact answers_csetb
  | cperm => exact answers_cperm
  | cfmt => exact answers_cfmt
  | cfld => exact answers_cfld
  | ctest => exact answers_ctest
  | cclrt => exact answers_cclrt
  | csubc => exact answers_csubc
  | cinci => exact answers_cinci
  | csetbi => exact answers_csetbi
  | ldc => exact answers_ldc
  | stc => exact answers_stc
  | fadd => exact answers_fadd
  | fsub => exact answers_fsub
  | fmul => exact answers_fmul
  | ffma => exact answers_ffma
  | fdiv => exact answers_fdiv
  | fsqrt => exact answers_fsqrt
  | fmin => exact answers_fmin
  | fmax => exact answers_fmax
  | fcmp => exact answers_fcmp
  | fcvt => exact answers_fcvt
  | fclass => exact answers_fclass
  | fsgn => exact answers_fsgn
  | vadd | vsub | vmul | vmulh | vmad | vand | vor | vxor | vandn | vshl | vshr | vsra | vmin | vmax | vminu | vmaxu | vabs | vsel | vmov | vcmpEq
  | vcmpNe | vcmpLt | vcmpGe | vcmpLtu | vcmpGeu | vaddi | vshli | vshri | vsrai | vandi | vori | vxori | vmovi | vbcst | vshfl | vrot | vredAdd
  | vredMin | vredMax | vredMinu | vredMaxu | vredAnd | vredOr | vredXor | vredFadd | vredFmin | vredFmax | vballot | vpopc | vfirst | vextr | vins
  | vperm | vscanAdd | vscanFadd | vscanMin | vscanMax | vlane | vfadd | vfsub | vfmul | vfma | vfmin | vfmax | vfdiv | vfsqrt | vrcp | vrsq | vexp2
  | vlog2 | vsin | vcos | vfclass | vfcmpEq | vfcmpNe | vfcmpLt | vfcmpLe | vfcmpGt | vfcmpGe | vfcmpUn | vfcvt | vbadd2 | vbmul2 | vbfma2 | vpk
  | vunpkLo | vunpkHi | vdot4I8 | vdot4Ui8 | vdotb | vrebal | vplane => exact answers_vecExec
  | vif | velse | vendif | vloop | vbrk | vcont => exact answers_checked (fun _ => rfl) fun _ ht => memOk_nestStep ht
  | vendl => exact answers_vendl
  | vany => exact answers_vany
  | vnone => exact answers_vnone
  | rep => exact answers_rep
  | vld | vldmc => exact answers_checked (fun _ => rfl) fun _ ht => memOk_vecLoad ht
  | vst => exact answers_vst
  | atomAdd | atomMin | atomMax | atomMinu | atomMaxu | atomAnd | atomOr | atomXor | atomSwap | acas | atomAddW | atomMinW | atomMaxW | atomMinuW
  | atomMaxuW | atomAndW | atomOrW | atomXorW | atomSwapW | atomFaddW | atomBfadd2W
  | acasW => exact answers_checked (fun _ => rfl) fun _ ht => memOk_scalarAtomic ht
  | dqpush | dqpop | dqsteal => exact answers_checked (fun _ => rfl) fun _ ht => memOk_dequeIssue ht
  | vatomAdd | vatomMin | vatomMax | vatomMinu | vatomMaxu | vatomAnd | vatomOr | vatomXor | vatomSwap | vatomFadd | vatomBfadd2
  | vacas => exact answers_checked (fun _ => rfl) fun _ ht => memOk_vecAtomic ht
  | binit => exact answers_binit
  | barv => exact answers_barv
  | bexp => exact answers_bexp
  | bwait => exact answers_bwait
  | btry => exact answers_btry
  | binv => exact answers_binv
  | fence => exact answers_fence
  | rel => exact answers_rel
  | acq => exact answers_acq
  | acqp => exact answers_acqp
  | zfill => exact answers_zfill
  | cqpush | cqtry => exact answers_checked (fun _ => rfl) fun _ ht => memOk_pushReq ht
  | cset => exact answers_cset
  | cgete => exact answers_cgete
  | cbind => exact answers_cbind
  | ccancel => exact answers_ccancel
  | cunbind => exact answers_cunbind
  | spop => exact answers_spop
  | vspop => exact answers_vspop
  | evset => exact answers_evset
  | evclr => exact answers_evclr
  | evrd => exact answers_evrd
  | evsig => exact answers_evsig
  | pset => exact answers_pset
  | pget => exact answers_pget
  | pres => exact answers_pres
  | prel => exact answers_prel
  | ppass => exact answers_ppass
  | pjoin => exact answers_pjoin
  | pdrainO => exact answers_pdrainO
  | pdrainU => exact answers_pdrainU
  | pclr => exact answers_pclr
  | mstart => exact answers_mstart
  | mstop => exact answers_mstop
  | hgath => exact answers_hgath
  | hcsr => exact answers_hcsr
  | hscat => exact answers_hscat
  | rrecv => exact answers_rrecv
  | rsend => exact answers_rsend
  | rhit => exact answers_rhit
  | rbox4 => exact answers_rbox4
  | rtri => exact answers_rtri
  | rroute => exact answers_rroute
  | tlreq => exact answers_tlreq
  | tlevict => exact answers_tlevict
  | hqbind => exact answers_hqbind
  | dbar => exact answers_dbar
  | xph => exact answers_xph
  | xmit => exact answers_xmit
  | xsel => exact answers_xsel
  | xrecv => exact answers_xrecv
  | xend => exact answers_xend
  | xslots => exact answers_xslots
  | nop => exact answers_nop
  | gets => exact answers_gets
  | sets => exact answers_sets
  | cwait => exact answers_cwait
  | yield => exact answers_yield
  | trap => exact answers_trap
  | bkpt => exact answers_bkpt
  | exit => exact answers_exit
  | invl1 => exact answers_invl1
  | invi => exact answers_invi
  | launch => exact answers_launch
  | grow => exact answers_grow
  | emit => exact answers_emit
  | mbxpop => exact answers_mbxpop
  | wresume => exact answers_wresume
  | wkill => exact answers_wkill
  | gkill => exact answers_gkill
  | gpreempt => exact answers_gpreempt
  | dbghalt => exact answers_dbghalt
  | dbgrun => exact answers_dbgrun
  | sgbIdleDrain => exact answers_sgbIdleDrain
  | sgbDrainAck => exact answers_sgbDrainAck
  | mreqRead => exact answers_takeReq (fun _ => rfl) fun _ _ ht => memOk_arriveRead ht
  | mreqWrite | mreqAtomic => exact answers_takeReq (fun _ => rfl) fun _ _ ht => memOk_arriveWrite ht
  | scratchRequest => exact answers_scratchRequest
  | loadReply => exact answers_loadReply
  | storeAck => exact answers_storeAck
  | pageWalkDone => exact answers_pageWalkDone
  | multicastSend => exact answers_multicastSend
  | leaseWaitDone => exact answers_leaseWaitDone
  | promote => exact answers_promote
  | promotionDone => exact answers_promotionDone
  | promoteReply => exact answers_promoteReply
  | barrierArrival => exact answers_barrierArrival
  | barrierCredit => exact answers_barrierCredit
  | barrierWake => exact answers_barrierWake
  | workRequest => exact answers_next (fun _ => rfl) fun hs => memOk_workRequest hs
  | localSlotFill => exact answers_localSlotFill
  | masterTaskRequest => exact answers_masterTaskRequest
  | deferredRangeJoin => exact answers_deferredRangeJoin
  | groupRunnable => exact answers_next (fun _ => rfl) fun hs => memOk_takeShadow hs
  | prefetchTimeout => exact answers_prefetchTimeout
  | windowRotate => exact answers_windowRotate
  | distributorReply => exact answers_distributorReply
  | scratchRelease => exact answers_scratchRelease
  | gridRetire => exact answers_next (fun _ => rfl) fun hs => memOk_retireGrid (memOk_settleGrid hs)
  | batchTimeout => exact answers_batchTimeout
  | hitRecordArrive => exact answers_hitRecordArrive
  | hqtTimeout => exact answers_hqtTimeout
  | shadingWaveLaunch => exact answers_shadingWaveLaunch
  | ladleRequestStart => exact answers_ladleRequestStart
  | ladleWriteAck => exact answers_ladleWriteAck
  | ladleComplete => exact answers_ladleComplete
  | ladleAbort => exact answers_ladleAbort
  | eventArrive => exact answers_eventArrive
  | pressGrant => exact answers_pressGrant
  | pressOpComplete => exact answers_pressOpComplete
  | contextFree => exact answers_next (fun _ => rfl) fun hs => memOk_freeCtx hs
  | spillTailReread => exact answers_spillTailReread
  | harpStart => exact answers_harpStart
  | harpComplete => exact answers_harpComplete
  | harpAbort => exact answers_harpAbort
  | harpShip => exact answers_harpShip
  | rayArrive => exact answers_rayArrive
  | rayReinject => exact answers_rayReinject
  | dirRay => exact answers_dirRay
  | dirHeatReport => exact answers_dirHeatReport
  | dirTlreq => exact answers_dirTlreq
  | dirTlevict => exact answers_dirTlevict
  | pageInDone => exact answers_pageInDone
  | pageInFail => exact answers_pageInFail
  | replicaCopyDone => exact answers_replicaCopyDone
  | evictConfirm => exact answers_evictConfirm
  | routeQuery => exact answers_routeQuery
  | routeReply => exact answers_routeReply
  | pageTransfer => exact answers_pageTransfer
  | tlreqReply => exact answers_tlreqReply
  | phaseStart => exact answers_phaseStart
  | domainBroadcast => exact answers_domainBroadcast
  | exchBeatSend => exact answers_exchBeatSend
  | exchBeatArrive => exact answers_exchBeatArrive
  | exchCollReport => exact answers_exchCollReport
  | exchPhaseEnd => exact answers_exchPhaseEnd
  | mailboxMessage | mailboxRetry => exact answers_next (fun _ => rfl) fun hs => memOk_deliverPost hs
  | watchdogExpire => exact answers_watchdogExpire
  | sliceEccError => exact answers_sliceEccError
  | linkDead => exact answers_linkDead
  | saveComplete => exact answers_saveComplete
  | restore => exact answers_restore
  | leaseSync => exact answers_leaseSync
  | leaseBoundTimeout | dieFence => exact answers_next (fun _ => rfl) fun hs => memOk_fenceDies hs
  | journalEntry => exact answers_journalEntry
  | launchSlotSubmit => exact answers_launchSlotSubmit
  | sloterrClear => exact answers_sloterrClear
  | taggedWrite => exact answers_taggedWrite
  | taggedWriteDone => exact answers_taggedWriteDone
  | tlbInvalidate => exact answers_tlbInvalidate
  | tlbInvalidateDone => exact answers_tlbInvalidateDone
  | warmReset => exact answers_warmReset
  | registerWrite => exact answers_registerWrite
  | hostMemRead => exact answers_next (fun _ => rfl) fun hs => memOk_hostRead hs
  | hostMemWrite => exact answers_next (fun _ => rfl) fun hs => memOk_hostWrite hs
  | completionRecordWrite => exact answers_completionRecordWrite
  | vectorTimeFire => exact answers_vectorTimeFire
  | droopDetect => exact answers_droopDetect
  | droopRecover => exact answers_droopRecover
  | currentLimit => exact answers_currentLimit
  | thermalLimit => exact answers_thermalLimit
  | sensorSample => exact answers_next (fun _ => rfl) fun hs => memOk_foldl (fun _ _ ht => memOk_sampleRail ht) hs
  | firmwareUpdate => exact answers_next (fun _ => rfl) fun hs => memOk_logEvent hs
  | bootTimeout => exact answers_bootTimeout
  | attestation => exact answers_attestation
  | standbyPowerOn => exact answers_standbyPowerOn
  | raystatRead => exact answers_raystatRead
  | fieldRepair => exact answers_next (fun _ => rfl) fun hs => hs

end Sys2Proof.Machine
end

section
namespace Sys2Proof.Machine

/-! ## What a read leaves -/

/-- `t` differs from `s` by what the checks of an access and a read may change: caches, translations, the lines that slices hold, and what is drawn. -/
structure Reads (s t : State) : Prop where
  cur : t.cur = s.cur
  waves : t.waves = s.waves
  net : t.net = s.net
  reqNo : t.reqNo = s.reqNo
  core : ∀ c, (t.core c).bare = (s.core c).bare

namespace Reads

variable {s t u : State}

theorem refl (s : State) : Reads s s := ⟨rfl, rfl, rfl, rfl, fun _ => rfl⟩
theorem trans (h : Reads s t) (k : Reads t u) : Reads s u :=
  ⟨k.cur.trans h.cur, k.waves.trans h.waves, k.net.trans h.net, k.reqNo.trans h.reqNo, fun c => (k.core c).trans (h.core c)⟩
/-- A change of other fields than those of a wave, a core or a message. -/
theorem of_eq (hc : t.cur = s.cur) (hw : t.waves = s.waves) (hn : t.net = s.net) (hr : t.reqNo = s.reqNo) (hk : t.cores = s.cores) : Reads s t :=
  ⟨hc, hw, hn, hr, fun _ => by unfold State.core; rw [hk]⟩
theorem ite {c : Prop} [Decidable c] (ht : Reads s t) (hu : Reads s u) : Reads s (if c then t else u) := by
  split <;> assumption
theorem ite_snd {α : Type} {c : Prop} [Decidable c] {x y : α × State} (hx : Reads s x.2) (hy : Reads s y.2) : Reads s (if c then x else y).2 := by
  split <;> assumption
theorem of_snd {α : Type} {p : α × State} {a : α} (h : p = (a, t)) (hp : Reads s p.2) : Reads s t := by
  subst h; exact hp
theorem foldl {α : Type} {f : State → α → State} {l : List α} (hf : ∀ t a, Reads s t → Reads s (f t a)) (h : Reads s t) : Reads s (l.foldl f t) :=
  List.foldlRecOn l f h fun t ht a _ => hf t a ht

end Reads

section
variable {s t : State}

theorem reads_setCaches {c : Nat} {f : Core → Core} (hf : ∀ x, (f x).bare = x.bare) (h : Reads s t) : Reads s (t.modCore c f) := by
  refine ⟨h.cur, h.waves, h.net, h.reqNo, fun d => ?_⟩
  by_cases hd : d = c
  · rw [hd, State.modCore_core, hf, h.core]
  · rw [State.modCore_core_other _ _ _ _ hd, h.core]
theorem reads_modSlice {n f} (h : Reads s t) : Reads s (t.modSlice n f) := ⟨h.cur, h.waves, h.net, h.reqNo, h.core⟩
theorem reads_modDie {n f} (h : Reads s t) : Reads s (t.modDie n f) := ⟨h.cur, h.waves, h.net, h.reqNo, h.core⟩
theorem reads_modVat {n f} (h : Reads s t) : Reads s (t.modVat n f) := ⟨h.cur, h.waves, h.net, h.reqNo, h.core⟩
theorem reads_poke {k bs} (h : Reads s t) : Reads s (poke t k bs) := ⟨h.cur, h.waves, h.net, h.reqNo, h.core⟩
theorem reads_zeroRange {k n} (h : Reads s t) : Reads s (zeroRange t k n) := ⟨h.cur, h.waves, h.net, h.reqNo, h.core⟩
theorem reads_drawBit (h : Reads s t) : Reads s (drawBit t).2 := ⟨h.cur, h.waves, h.net, h.reqNo, h.core⟩
theorem reads_stamp (h : Reads s t) : Reads s t.stamp := ⟨h.cur, h.waves, h.net, h.reqNo, h.core⟩
theorem bare_get_dropTlb (l : Tbl Core) (p : TlbE → Bool) (c : Nat) :
    (Tbl.get ({} : Core) (l.map fun c : Nat × Core => (c.1, { c.2 with utlb := c.2.utlb.filter p })) c).bare = (Tbl.get ({} : Core) l c).bare := by
  induction l with
  | nil => rfl
  | cons x l ih =>
    simp only [List.map_cons, Tbl.get]
    split
    · rfl
    · exact ih
theorem reads_keepTlbs {p} (h : Reads s t) : Reads s (keepTlbs t p) :=
  ⟨h.cur, h.waves, h.net, h.reqNo, fun c => (bare_get_dropTlb t.cores p c).trans (h.core c)⟩
theorem reads_clearEntry {z k} (h : Reads s t) : Reads s (clearEntry t z k) := .ite (reads_poke h) h
theorem reads_clearZPage {z keep} (h : Reads s t) : Reads s (clearZPage t z keep) :=
  reads_keepTlbs (.foldl (fun _ _ => reads_clearEntry) (h.trans (.of_eq rfl rfl rfl rfl rfl)))
theorem reads_notePage {k} (h : Reads s t) : Reads s (notePage t k) := by
  unfold notePage
  split
  · exact h
  split
  · exact h.trans (.of_eq rfl rfl rfl rfl rfl)
  · exact h
theorem reads_dropReplica {n l} (h : Reads s t) : Reads s (dropReplica t n l) := reads_modDie (reads_modSlice h)
theorem reads_evictLine {n l} (h : Reads s t) : Reads s (evictLine t n l) := by
  unfold evictLine
  extract_lets x back _ s1 gone s2
  have h2 : Reads s s2 := h.trans (.of_eq rfl rfl rfl rfl rfl)
  refine .ite (reads_dropReplica h) (.ite (reads_zeroRange h2) (.ite h2 ?_))
  split
  · exact reads_clearZPage (reads_notePage h2)
  · exact reads_notePage h2
theorem reads_trimSlice {n l} (h : Reads s t) : Reads s (trimSlice t n l) := by
  unfold trimSlice
  extract_lets c ways s1 full
  have h1 : Reads s s1 := by
    simp only [s1]
    split
    · split
      · exact reads_evictLine h
      · exact h
    · exact h
  clear_value s1
  split
  · split
    · exact reads_evictLine h1
    · exact h1
  · exact h1
theorem reads_touchLine {n l} (h : Reads s t) : Reads s (touchLine t n l) := reads_trimSlice (reads_modSlice h)
theorem reads_dirtyLine {n l} (h : Reads s t) : Reads s (dirtyLine t n l) :=
  reads_trimSlice (reads_modSlice (h.trans (.of_eq rfl rfl rfl rfl rfl)))
theorem reads_accessLine {l a w} (h : Reads s t) : Reads s (accessLine t l a w) := by
  unfold accessLine
  extract_lets k n data z
  have hd : ∀ {u}, Reads s u → Reads s (data u) := fun hu => .ite (reads_dirtyLine hu) hu
  have hz : ∀ {z}, Reads s { zeroRange t k 128 with zeroed := z } := (reads_zeroRange (k := k) (n := 128) h).trans (.of_eq rfl rfl rfl rfl rfl)
  exact .ite h (.ite (hd (reads_touchLine h)) (.ite (hd (reads_touchLine hz)) (.ite (hd (reads_touchLine h)) h)))
theorem reads_walkReads {asid ea} (h : Reads s t) : Reads s (walkReads t asid ea) := .foldl (fun _ _ => reads_accessLine) h
theorem reads_tlbFill {core asid ea l} (h : Reads s t) : Reads s (tlbFill t core asid ea l) :=
  by
  unfold tlbFill
  extract_lets s1 s2
  have h1 : Reads s s1 := reads_setCaches (fun _ => rfl) h
  have h2 : Reads s s2 := reads_modVat h1
  exact reads_modDie h2
theorem reads_translate {core asid ea u} (h : Reads s t) : Reads s (translate t core asid ea u).2 := by
  unfold translate
  extract_lets new keep
  have hk : ∀ {v}, Reads s v → Reads s (keep v) := by
    intro v hv
    simp only [keep]
    clear_value new
    split
    · exact reads_tlbFill hv
    · exact hv
  split
  · exact hk (reads_walkReads h)
  · exact .ite_snd h (.ite_snd (reads_drawBit h) (hk (reads_drawBit h)))
theorem reads_window {c asid ea u} (h : Reads s t) : Reads s (window t c asid ea u).2 := .ite_snd h (reads_translate h)
theorem reads_checkAccessAt {c asid cap ea size need align u} (h : Reads s t) : Reads s (checkAccessAt t c asid cap ea size need align u).2 := by
  unfold checkAccessAt
  split
  · exact h
  · split <;> exact .of_snd ‹_› (reads_window h)
theorem reads_checkAccess {cap ea size need align u} (h : Reads s t) : Reads s (checkAccess t cap ea size need align u).2 := reads_checkAccessAt h
theorem reads_noteLeaf {p} (h : Reads s t) : Reads s (noteLeaf t p) := by
  unfold noteLeaf
  split
  · exact .ite (h.trans (.of_eq rfl rfl rfl rfl rfl)) h
  · exact h
theorem reads_freeBytes {n} : ∀ {t : State}, Reads s t → Reads s (freeBytes t n).2 := by
  induction n with
  | zero => exact id
  | succ n ih => exact fun h => ih (h.trans (.of_eq rfl rfl rfl rfl rfl))
theorem reads_lostRead {k n} (h : Reads s t) : Reads s (lostRead t k n).2 := reads_drawBit (reads_freeBytes h)
theorem reads_homeRead {k n q} (h : Reads s t) : Reads s (homeRead t k n q).2 := .ite_snd (reads_lostRead h) (reads_accessLine h)
theorem reads_pickReplica {c w k n q} (h : Reads s t) : Reads s (pickReplica t c w k n q).2 := by
  unfold pickReplica
  split
  · exact h
  · exact .ite_snd (reads_touchLine (reads_drawBit h)) (reads_drawBit h)
theorem reads_grantReplica {c k q rep} (h : Reads s t) : Reads s (grantReplica t c k q rep).2 :=
  .ite_snd h (.ite_snd (reads_drawBit h) ((reads_stamp (reads_drawBit h)).trans (.of_eq rfl rfl rfl rfl rfl)))
theorem reads_bypassRead {c w k n q rep} (h : Reads s t) : Reads s (bypassRead t c w k n q rep).2 := by
  change Reads s (belowRead t c w k n q rep).2
  unfold belowRead
  split
  next hp => exact .of_snd hp (reads_pickReplica h)
  next hp => exact reads_grantReplica (reads_homeRead (.of_snd hp (reads_pickReplica h)))
theorem useIcache_bare (c : Core) (l : Nat) (d : Nat × List Byte) : (useIcache c l d).bare = c.bare := by
  unfold useIcache
  extract_lets
  split <;> rfl
theorem reads_fillIcache {c k} (h : Reads s t) : Reads s (fillIcache t c k) := reads_setCaches (fun x => useIcache_bare x _ _) h
theorem reads_fetchWord {c k} (h : Reads s t) : Reads s (fetchWord t c k).2 := by
  unfold fetchWord
  extract_lets read now
  have hr : ∀ {u}, Reads s u → Reads s (read u).2 := fun hu => .ite (reads_bypassRead hu) (reads_fillIcache (reads_bypassRead hu))
  clear_value read
  split
  · exact hr h
  split
  · split
    · exact reads_setCaches (fun x => useIcache_bare x _ _) h
    · exact hr h
  · exact .ite_snd (reads_drawBit h) (hr (reads_drawBit h))
theorem reads_fetchAt {cap ea} (h : Reads s t) : Reads s (fetchAt t cap ea).2 := by
  unfold fetchAt
  split
  next hc => exact .of_snd hc (reads_checkAccess h)
  next p u hc =>
    have hu : Reads s (noteLeaf u p) := reads_noteLeaf (.of_snd hc (reads_checkAccess h))
    exact .ite_snd hu (reads_fetchWord hu)
end

end Sys2Proof.Machine
end

section
namespace Sys2Proof.Machine

/-! ## The next state of a machine -/

section
variable {s t : State}

namespace Answers
variable {f : State → Res}

theorem next (h : Answers f) (hc : s.cur ≠ .none) : ∃ t, f s = .next t := by
  cases h with
  | word _ hn => exact (hn s hc).imp fun _ h => h.1
  | step h => exact (h s).imp fun _ h => h.1
/-- An arm that answers where no agent moves answers everywhere. -/
theorem next_of_next (h : Answers f) (hc : s.cur = .none) (hs : ∃ t, f s = .next t) (u : State) : ∃ t, f u = .next t := by
  cases h with
  | word h _ =>
    obtain ⟨t, ht⟩ := hs
    rw [h s hc] at ht
    cases ht
  | step h => exact (h u).imp fun _ h => h.1
theorem memOk (h : Answers f) (hs : s.MemOk) (he : f s = .next t) : t.MemOk := by
  cases h with
  | word h hn =>
    by_cases hc : s.cur = .none
    · rw [h s hc] at he
      cases he
    · obtain ⟨u, hu, hm⟩ := hn s hc
      cases hu.symm.trans he
      exact hm hs
  | step h =>
    obtain ⟨u, hu, hm⟩ := h s
    cases hu.symm.trans he
    exact hm hs

end Answers

theorem memOk_exec {i} (hs : s.MemOk) (h : exec i s = .next t) : t.MemOk := (exec_answers i).memOk hs h
theorem memOk_runAgent (hs : s.MemOk) (h : runAgent s = .next t) : t.MemOk := by
  unfold runAgent at h
  split at h
  next hf =>
    cases h
    exact memOk_raise (memOk_of_snd hf (memOk_fetchAt hs))
  next hf => exact memOk_exec (memOk_of_snd hf (memOk_fetchAt hs)) h
theorem runAgent_next (hc : s.cur ≠ .none) : ∃ t, runAgent s = .next t := by
  unfold runAgent
  split
  · exact ⟨_, rfl⟩
  next u hf =>
    have hu : Reads s u := .of_snd hf (reads_fetchAt (.refl s))
    exact (exec_answers _).next (hu.cur ▸ hc)
theorem memOk_begin {a} (hs : s.MemOk) : (begin_ s a).MemOk := by
  unfold begin_
  extract_lets s1
  have hs1 : s1.MemOk := memOk_of_eq hs rfl rfl
  split
  · exact memOk_modWave hs1
  · exact memOk_modCtx hs1
  · exact hs1
@[simp] theorem begin_cur (s : State) (a : Agent) : (begin_ s a).cur = a := by
  cases a <;> rfl

theorem memOk_settleWave {r w} (hs : s.MemOk) : (settleWave r w s).MemOk := by
  unfold settleWave
  refine memOk_ite hs ?_
  extract_lets code core s1 jump s2
  have hs1 : s1.MemOk := memOk_modWave hs
  exact memOk_ite hs1 (memOk_modCore (memOk_modWave (memOk_enqueue hs1)))
theorem memOk_settleCtx {v n} (hs : s.MemOk) : (settleCtx v n s).MemOk := memOk_ite hs (memOk_modVat hs)
theorem memOk_settle {r a} (hs : s.MemOk) : (settle r a s).MemOk := by
  unfold settle
  extract_lets u
  have hu : u.MemOk := by
    simp only [u]
    split
    · exact memOk_settleWave hs
    · exact memOk_settleCtx hs
    · exact hs
  exact memOk_of_eq hu rfl rfl

theorem memOk_tryWave {w} (hs : s.MemOk) : (tryWave s w).MemOk := by
  unfold tryWave
  split
  next h =>
    have ht := memOk_runAgent (memOk_begin hs) h
    exact memOk_ite (memOk_modWave hs) (memOk_modWave (memOk_ite (memOk_of_eq ht rfl rfl) hs))
  · exact memOk_modWave hs
theorem memOk_tryCtx {v n} (hs : s.MemOk) : (tryCtx s v n).MemOk := by
  unfold tryCtx
  extract_lets go
  have hgo : (go s).MemOk := memOk_modCtx hs
  split
  next h => exact memOk_ite hgo (memOk_ite (memOk_of_eq (memOk_runAgent (memOk_begin hs) h) rfl rfl) hs)
  · exact hgo
theorem memOk_endWaits (hs : s.MemOk) : (endWaits s).MemOk := by
  unfold endWaits
  extract_lets ws cs t
  have ht : t.MemOk := memOk_foldl (fun _ _ hu => memOk_tryCtx hu) (memOk_foldl (fun _ _ hu => memOk_tryWave hu) hs)
  exact memOk_ite ht (memOk_of_eq ht rfl rfl)
theorem memOk_clockVat {v} (hs : s.MemOk) : (clockVat s v).MemOk := memOk_modVat (memOk_ite_snd (memOk_drawBit hs) hs)
theorem memOk_runClocks (hs : s.MemOk) : (runClocks s).MemOk := by
  unfold runClocks
  extract_lets s1
  have hs1 : s1.MemOk := memOk_foldl (fun _ _ ht => memOk_clockVat ht) hs
  exact memOk_of_eq hs1 rfl rfl
theorem memOk_fillWindows (hs : s.MemOk) : (fillWindows s).MemOk := memOk_foldl (fun _ _ ht => memOk_fillWindow ht) hs
theorem memOk_resolveBeats {c} (hs : s.MemOk) : (resolveBeats s c).MemOk := memOk_of_eq hs rfl rfl
theorem memOk_tick (hs : s.MemOk) : (tick s).MemOk := by
  unfold tick
  have hs0 : State.MemOk { s with cur := .none } := memOk_of_eq hs rfl rfl
  extract_lets s1
  have hs1 : s1.MemOk := memOk_of_eq (memOk_fillWindows (memOk_endWaits (memOk_grantLanes (memOk_resolveBeats hs0)))) rfl rfl
  clear_value s1
  have hs2 : State.MemOk { s1 with cyc := s1.cyc + 1 } := memOk_of_eq hs1 rfl rfl
  exact memOk_of_eq (memOk_runClocks hs2) rfl rfl

/-! ### Moves -/

theorem onNext_eq_next {r : Res} {f : State → State} (h : onNext r f = .next t) : ∃ u, r = .next u ∧ t = f u := by
  unfold onNext at h
  split at h
  · cases h
    exact ⟨_, rfl, rfl⟩
  · cases h
  · cases h
theorem memOk_make {m} (hs : s.MemOk) (h : make s m = .next t) : t.MemOk := by
  cases m with
  | urgent i => exact memOk_exec (memOk_of_eq (t := { s with cur := .none }) hs rfl rfl) h
  | event i => exact memOk_exec (memOk_of_eq (t := { s with cur := .none, agenda := s.agenda.drop 1, moved := true }) hs rfl rfl) h
  | agent a =>
    have hs0 : State.MemOk { s with agenda := s.agenda.drop 1 } := memOk_of_eq hs rfl rfl
    obtain ⟨u, hu, rfl⟩ := onNext_eq_next h
    exact memOk_settle (memOk_runAgent (memOk_begin hs0) hu)
  | idle =>
    cases h
    exact memOk_tick (memOk_of_eq hs rfl rfl)

/-- What a step that acts does by itself. -/
theorem exists_next_of_acts {i} (h : acts s i = true) : ∃ t, exec i { s with cur := .none } = .next t := by
  unfold acts at h
  split at h
  next ht => exact ⟨_, ht⟩
  · cases h
theorem pickCtx_ne_none {a} (h : pickCtx s = some a) : a ≠ .none := by
  obtain ⟨v, -, hv⟩ := List.exists_of_findSome?_eq_some h
  obtain ⟨n, -, rfl⟩ := Option.map_eq_some_iff.mp hv
  exact nofun
theorem pickWave_ne_none {a} (h : pickWave s = some a) : a ≠ .none := by
  obtain ⟨n, -, rfl⟩ := Option.map_eq_some_iff.mp h
  exact nofun
/-- What moves where nothing is chosen from outside: a step that acts, an agent, or none. -/
theorem pick_of_alone (h : s.alone) :
    (∃ i, (pick s = .urgent i ∨ pick s = .event i) ∧ acts s i = true) ∨ (∃ a, pick s = .agent a ∧ a ≠ .none) ∨ pick s = .idle := by
  unfold pick
  split
  next i hi => exact .inl ⟨i, .inl rfl, List.find?_some hi⟩
  rw [show s.agenda = [] from h]
  dsimp only
  split
  next a ha =>
    refine .inr (.inl ⟨a, rfl, ?_⟩)
    rcases Option.or_eq_some_iff.mp ha with hw | ⟨-, hc⟩
    · exact pickWave_ne_none hw
    · exact pickCtx_ne_none hc
  · split
    next i hi =>
      refine .inl ⟨i, .inr rfl, ?_⟩
      split at hi
      · cases hi
      · exact List.find?_some hi
    · exact .inr (.inr rfl)
theorem goesOn_of_alone (h : s.alone) : GoesOn s := by
  unfold GoesOn step
  rcases pick_of_alone h with ⟨i, hp, ha⟩ | ⟨a, hp, ha⟩ | hp
  · rcases hp with hp | hp <;> rw [hp]
    · exact exists_next_of_acts ha
    · exact (exec_answers i).next_of_next rfl (exists_next_of_acts ha) _
  · rw [hp]
    obtain ⟨t, ht⟩ := runAgent_next (s := begin_ { s with agenda := s.agenda.drop 1 } a) (by rwa [begin_cur])
    exact ⟨settle { s with agenda := s.agenda.drop 1 } a t, congrArg (onNext · _) ht⟩
  · rw [hp]
    exact ⟨_, rfl⟩

end

/-- Settles O58: every arm of `exec`, and every unit that a step runs, keeps the form. -/
theorem stepsKeepMemoryForm : Obligations.StepsKeepMemoryForm := fun _ _ hs h => memOk_make hs h
/-- Settles O56: each arm of `exec` answers when an agent moves. -/
theorem everyInstructionAnswers : Obligations.EveryInstructionAnswers := fun i _ hc => (exec_answers i).next hc
/-- Settles O57: what `pick` chooses by itself is a step that acts, an agent that executes, or the end of the cycle. -/
theorem theMachineGoesOn : Obligations.TheMachineGoesOn := fun _ h => goesOn_of_alone h

end Sys2Proof.Machine
end

section
namespace Sys2Proof.Machine

/-! ## Registers, reset and the step -/

section
variable {s : State}

theorem Ctx.reg_setReg (x : Ctx) (n k : Nat) (v : Word) : (x.setReg n v).reg k = if k = 0 then 0 else if k = n then v else x.reg k := by
  unfold Ctx.reg Ctx.setReg
  by_cases hk : k = 0
  · simp [hk]
  · by_cases hn : n = 0
    · simp [hk, hn]
    · by_cases e : k = n <;> simp [hk, hn, e, Tbl.get_set_other]
theorem State.modCtx_ctx (v n : Nat) (f : Ctx → Ctx) : (s.modCtx v n f).ctx v n = f (s.ctx v n) := by
  simp [State.modCtx, State.setCtx, State.ctx]
theorem State.reg_setReg_of_wave {w n k : Nat} {c : Cap} (h : s.cur = .wave w) :
    (s.setReg n c).reg k = if k = 0 then {} else if k = n then c else s.reg k := by
  rw [State.setReg_of_wave s w n c h, State.reg_of_wave _ w k (by simpa using h), State.modWave_wave, Wave.reg_setReg, State.reg_of_wave s w k h]
theorem State.reg_setReg_of_ctx {v m n k : Nat} {c : Cap} (h : s.cur = .ctx v m) :
    (s.setReg n c).reg k = if k = 0 then {} else if k = n then .data c.lo else s.reg k := by
  have hs : s.setReg n c = s.modCtx v m (·.setReg n c.lo) := by simp [State.setReg, h]
  have hr (u : State) (hu : u.cur = .ctx v m) : u.reg k = .data ((u.ctx v m).reg k) := by simp [State.reg, hu]
  rw [hr _ (by simpa using h), hs, State.modCtx_ctx, Ctx.reg_setReg, hr s h]
  split
  · rfl
  · split <;> rfl
theorem State.setReg_wave_other {w u n : Nat} {c : Cap} (h : s.cur = .wave w) (hu : u ≠ w) : (s.setReg n c).wave u = s.wave u := by
  rw [State.setReg_of_wave s w n c h, State.modWave_wave_other _ _ _ _ hu]
theorem Wave.cover_pc (x : Wave) (n : Nat) : (x.cover n).pc = x.pc := by
  unfold Wave.cover
  split <;> rfl
theorem Wave.setReg_pc (x : Wave) (n : Nat) (c : Cap) : (x.setReg n c).pc = x.pc := by
  unfold Wave.setReg
  split
  · rfl
  · exact x.cover_pc n
theorem State.setReg_pc_of_wave {w n : Nat} {c : Cap} (h : s.cur = .wave w) : (s.setReg n c).pc = s.pc := by
  have hp (u : State) (hu : u.cur = .wave w) : u.pc = (u.wave w).pc := by simp [State.pc, hu]
  rw [hp _ (by simpa using h), hp s h, State.setReg_of_wave s w n c h, State.modWave_wave, Wave.setReg_pc]

theorem isHbm_lineOf_of_scratch {k : Nat} (h : isScratch k = true) : isHbm (lineOf k * 128) = false := by
  have hk : 2 ^ 48 ≤ k := of_decide_eq_true h
  have hl : isScratch (lineOf k * 128) = true := decide_eq_true (by unfold lineOf; omega)
  simp [isHbm, hl]
theorem homeBad_of_scratch {k : Nat} (h : isScratch k = true) (hl : homeLost s k = false) : homeBad s k = false := by
  simp [homeBad, h, hl]
/-- 08 R201: a read of scratch gives what stands there and changes nothing. -/
theorem homeRead_of_scratch {k n q : Nat} (h : isScratch k = true) (hl : homeLost s k = false) :
    homeRead s k n q = ({ bytes := memBytes s k n, tag := readTag s k }, s) := by
  unfold homeRead
  rw [homeBad_of_scratch h hl, accessLine_scratch (isHbm_lineOf_of_scratch h)]
  rfl
theorem bypassRead_of_scratch {c : Nat} {w : Option Nat} {k n q : Nat} {rep : Bool} (h : isScratch k = true) (hl : homeLost s k = false) :
    bypassRead s c w k n q rep = ({ bytes := memBytes s k n, tag := readTag s k }, s) := by
  have hp : pickReplica s c w k n q = (none, s) := by simp [pickReplica, h]
  have hg : grantReplica s c k q rep = ([], s) := by simp [grantReplica, h]
  unfold bypassRead belowRead
  simp only [hp, homeRead_of_scratch h hl, hg, overSgb, h, if_true]
/-- 01 R23, R32: a fetch from scratch takes the four bytes. -/
theorem fetchAt_of_scratch {cap : Cap} {ea k : Nat} (hc : checkCap cap ea 4 permEX 4 = none)
    (hw : window s s.curCore s.curAsid ea .fetch = (some ⟨k, none⟩, s)) (h : isScratch k = true) (hl : homeLost s k = false) :
    fetchAt s cap ea = (.ok (BitVec.ofNat 32 (readNat s.mem k 4)), s) := by
  have ha : checkAccess s cap ea 4 permEX 4 .fetch = (.ok ⟨k, none⟩, s) := by
    unfold checkAccess checkAccessAt
    rw [hc]
    simp only [Int.toNat_natCast, hw]
  have hf : fetchWord s s.curCore k = (BitVec.ofNat 32 (readNat s.mem k 4), s) := by
    unfold fetchWord
    simp only [h, if_true, bypassRead_of_scratch h hl]
    rfl
  unfold fetchAt
  simp only [ha, noteLeaf_scratch, homeBad_of_scratch h hl, hf]
  rfl

theorem pick_of_turn {a : Agent} {r : List Turn} (h : s.agenda = .agent a :: r) (hu : (urgentSteps s).find? (acts s) = none) (ha : allowed s a = true) :
    pick s = .agent a := by
  unfold pick
  rw [hu, h]
  exact if_pos ha
theorem step_of_agent {a : Agent} (h : pick s = .agent a) :
    step s = onNext (runAgent (begin_ { s with agenda := s.agenda.drop 1 } a)) (settle { s with agenda := s.agenda.drop 1 } a) :=
  congrArg (make s) h
theorem runAgent_of_word {v : State} {w : W32} (h : fetchAt s s.pc s.pc.addr = (.ok w, v)) : runAgent s = exec (instrOf w) v := by
  unfold runAgent
  rw [h]
theorem runAgent_of_trap {v : State} {t : Trap} (h : fetchAt s s.pc s.pc.addr = (.error t, v)) : runAgent s = .next (raise v t) := by
  unfold runAgent
  rw [h]
theorem instrOf_of_ok {w : W32} {i : Instr} (h : decode w = .ok i) : instrOf w = i := by
  unfold instrOf
  rw [h]

end

/-- Settles O51: reset lists nothing. -/
theorem resetMemoryForm : Obligations.ResetMemoryForm := ⟨⟨rfl, rfl⟩, rfl, rfl⟩

/-- Settles O49, by what a read of the table of registers gives after a write. -/
theorem registersHoldWhatWasWritten : Obligations.RegistersHoldWhatWasWritten := by
  intro s w v n c x
  constructor
  · intro h
    exact ⟨fun k => State.reg_setReg_of_wave h, fun k => State.reg_setReg_of_wave h, fun u hu => State.setReg_wave_other h hu,
      State.setReg_pc_of_wave h, s.setReg_mem n c, s.setReg_tags n c⟩
  · intro h
    exact ⟨fun k => State.reg_setReg_of_ctx h, s.setReg_mem n c⟩

/-- Settles O52, with what a fetch from scratch takes. -/
theorem stepRunsTheDecodedInstruction : Obligations.StepRunsTheDecodedInstruction := by
  intro s v a w s0 u
  refine ⟨fun r => pick_of_turn, fun i hp hf hd => ?_, fun e hp hf hd => ?_, fun t hp hf => ?_, fun hp => ?_, fun k hc hw hk hl => ?_⟩
  · rw [step_of_agent hp, runAgent_of_word hf, instrOf_of_ok hd]
  · have hi : instrOf w = .illegalInstruction w := by
      unfold instrOf
      rw [hd]
    rw [step_of_agent hp, runAgent_of_word hf, hi]
  · rw [step_of_agent hp, runAgent_of_trap hf]
    rfl
  · exact congrArg (make s) hp
  · exact ⟨u, fetchAt_of_scratch hc hw hk hl, rfl, rfl⟩

end Sys2Proof.Machine
end

section
namespace Sys2Proof.Machine

/-! ## Where no page stands for zeros, the checks of an access leave memory and tags (08 R206, R207) -/

/-- `t` has the memory, the tags, the pages that stand for zeros and the tables' places of `s`. -/
structure Calm (s t : State) : Prop where
  mem : t.mem = s.mem
  tags : t.tags = s.tags
  zpages : t.zpages = s.zpages
  zeroed : t.zeroed = s.zeroed
  hollow : t.hollow = s.hollow
  bar0 : t.bar0 = s.bar0
  nx : t.nx = s.nx
  ny : t.ny = s.ny

namespace Calm
variable {s t u : State}

theorem refl (s : State) : Calm s s := ⟨rfl, rfl, rfl, rfl, rfl, rfl, rfl, rfl⟩
theorem trans (h : Calm s t) (k : Calm t u) : Calm s u :=
  ⟨k.mem.trans h.mem, k.tags.trans h.tags, k.zpages.trans h.zpages, k.zeroed.trans h.zeroed, k.hollow.trans h.hollow, k.bar0.trans h.bar0,
    k.nx.trans h.nx, k.ny.trans h.ny⟩
theorem ite {c : Prop} [Decidable c] (ht : Calm s t) (hu : Calm s u) : Calm s (if c then t else u) := by
  split <;> assumption
theorem ite_snd {α : Type} {c : Prop} [Decidable c] {x y : α × State} (hx : Calm s x.2) (hy : Calm s y.2) : Calm s (if c then x else y).2 := by
  split <;> assumption
theorem findZ_eq (h : Calm s t) (k : Nat) : findZ t k = findZ s k := by
  have hw : memWord t = memWord s := by unfold memWord; rw [h.mem]
  have hp : paStorage t = paStorage s := by unfold paStorage pkgPresent; rw [h.nx, h.ny]
  have hb : pointerBad t = pointerBad s := by unfold pointerBad; rw [hp]
  have hk : tableKeys t = tableKeys s := by unfold tableKeys; rw [h.mem]
  unfold findZ tablesBelow
  rw [hw, hb, hk, h.bar0]
theorem plain (h : Calm s t) (hp : Spec.plain s) : Spec.plain t := by
  obtain ⟨hz, hd, hh, hf⟩ := hp
  exact ⟨h.zpages.trans hz, h.zeroed.trans hd, h.hollow.trans hh, fun k => (h.findZ_eq k).trans (hf k)⟩

end Calm

section
variable {s t : State}

theorem calm_modSlice {n f} (h : Calm s t) : Calm s (t.modSlice n f) := h.trans ⟨rfl, rfl, rfl, rfl, rfl, rfl, rfl, rfl⟩
theorem calm_drawBit (h : Calm s t) : Calm s (drawBit t).2 := h.trans ⟨rfl, rfl, rfl, rfl, rfl, rfl, rfl, rfl⟩
theorem calm_tlbFill {core asid ea l} (h : Calm s t) : Calm s (tlbFill t core asid ea l) := h.trans ⟨rfl, rfl, rfl, rfl, rfl, rfl, rfl, rfl⟩
theorem zpageOf_of_plain (hp : Spec.plain s) (k : Nat) : zpageOf s k = none := by
  unfold zpageOf
  rw [hp.1]
  rfl
theorem notePage_of_plain (hp : Spec.plain s) (k : Nat) : notePage s k = s := by
  obtain ⟨-, -, -, hf⟩ := hp
  unfold notePage
  rw [hf k]
  exact ite_self _

section
variable (hp : Spec.plain s)
include hp

theorem calm_evictLine {n l} (h : Calm s t) : Calm s (evictLine t n l) := by
  obtain ⟨hz, hd, hh, hf⟩ := h.plain hp
  unfold evictLine
  extract_lets x back _ s1 gone s2 s3
  have hh1 : s1.hollow = [] := hh
  have hd1 : s1.zeroed = [] := congrArg (Tbl.erase · l) hd
  have hh2 : s2.hollow = [] := congrArg (List.filter _) hh1
  have hg : gone = false := congrArg (·.contains l && !back) hh1
  have h2 : Calm s s2 := h.trans ⟨rfl, rfl, rfl, hd1.trans hd.symm, hh2.trans hh.symm, rfl, rfl, rfl⟩
  have h3 : s3 = s2 := notePage_of_plain (h2.plain hp) _
  clear_value s3 s2
  rw [hg, h3, zpageOf_of_plain (h2.plain hp), if_neg Bool.false_ne_true]
  exact .ite (h.trans ⟨rfl, rfl, rfl, rfl, rfl, rfl, rfl, rfl⟩) (.ite h2 h2)
theorem calm_trimSlice {n l} (h : Calm s t) : Calm s (trimSlice t n l) := by
  unfold trimSlice
  extract_lets c ways s1 full
  have h1 : Calm s s1 := by
    simp only [s1]
    split
    · split
      · exact calm_evictLine hp h
      · exact h
    · exact h
  clear_value s1
  split
  · split
    · exact calm_evictLine hp h1
    · exact h1
  · exact h1
theorem calm_touchLine {n l} (h : Calm s t) : Calm s (touchLine t n l) := calm_trimSlice hp (calm_modSlice h)
theorem calm_readLine {l a} (h : Calm s t) : Calm s (accessLine t l a false) := by
  unfold accessLine
  extract_lets k n data z
  have hd : data = id := rfl
  clear_value z
  rw [hd, zpageOf_of_plain (h.plain hp)]
  rw [if_neg (by decide : ¬(none : Option ZPage).isSome = true)]
  exact .ite h (.ite (calm_touchLine hp h) (.ite (calm_touchLine hp h) h))
theorem calm_walkReads {asid ea} (h : Calm s t) : Calm s (walkReads t asid ea) :=
  List.foldlRecOn (motive := Calm s) _ _ h fun _ ht _ _ => calm_readLine hp ht
theorem calm_translate {core asid ea u} (h : Calm s t) : Calm s (translate t core asid ea u).2 := by
  unfold translate
  extract_lets new keep
  have hk : ∀ {v}, Calm s v → Calm s (keep v) := by
    intro v hv
    simp only [keep]
    clear_value new
    split
    · exact calm_tlbFill hv
    · exact hv
  split
  · exact hk (calm_walkReads hp h)
  · exact .ite_snd h (.ite_snd (calm_drawBit h) (hk (calm_drawBit h)))
theorem calm_window {c asid ea u} (h : Calm s t) : Calm s (window t c asid ea u).2 := .ite_snd h (calm_translate hp h)
theorem calm_checkAccess {cap ea size need align u} : Calm s (checkAccess s cap ea size need align u).2 := by
  unfold checkAccess checkAccessAt
  have hw : Calm s (window s s.curCore s.curAsid ea.toNat u).2 := calm_window hp (Calm.refl s)
  split
  · exact Calm.refl s
  · split <;> next he => rw [he] at hw; exact hw

end

/-- An access that goes to no page that stands for zeros leaves nothing to remember. -/
theorem noteLeaf_of_flat {p : Place} (hf : Spec.flat p) : noteLeaf s p = s := by
  unfold noteLeaf
  split
  next l hl => simp [hf l hl]
  · rfl

end
end Sys2Proof.Machine
end

section
namespace Sys2Proof.Machine

/-! ## An access that waits in its stream has yet learned what has landed -/

/-- Wave 0 has an access of stream 1 under way, and the eight bytes at its c1, in the scratch of its core, have landed of sixteen that a
request to its ladle writes. -/
def landedUnderStream : State :=
  let c : Cap := Cap.make 0xFF (0x7F * 2 ^ 48) 4096 (0x7F * 2 ^ 48)
  { cur := .wave 0, seq := 1,
    waves := [(0, { live := true, c := [(1, c)] })],
    cores := [(0, { fifo := [{ ch := 0, src := c, dst := c, ccmd := 0, by_ := ⟨0, 0, 0, 0, 0, 0, 0⟩, seq := 0, uid := 5, len := 16, landed := 8 }] })],
    net := { acks := [⟨0, 1, 0, 0, false, 0, 1, 0⟩] } }

theorem landedUnderStream_waits :
    underWay landedUnderStream landedUnderStream.curW (· = (1 : BitVec 4).toNat) = true ∧
      watermarkHeld landedUnderStream (eaM landedUnderStream 1 0 8).toNat 8 = false ∧
      waveVerdict (.ldD 9 1 1 0 0) (landedUnderStream.wave 0) = .go := by decide
theorem landedUnderStream_place :
    checkAccess landedUnderStream (landedUnderStream.reg (1 : BitVec 6).toNat) (eaM landedUnderStream 1 0 8) 8 permLD 8 .load =
        (.ok ⟨scratchKey 0 0, none⟩, landedUnderStream) := by
  rfl
/-- The load waits, but the wave's clock takes in the request whose bytes stand there (`belowMark`, 10 R273, log 12). -/
theorem landedUnderStream_learns :
    ∃ t, exec (.ldD 9 1 1 0 0) landedUnderStream = .next t ∧ (t.wave 0).clk = [(5, 1)] := ⟨_, rfl, by decide⟩

/-- Refutes O16: the wave's clock is not as it was when its access waits for an earlier one of its stream over landed bytes. -/
theorem not_accessRules : ¬ Obligations.AccessRules := by
  intro ⟨_, hwaits, _⟩
  obtain ⟨hu, hw, hv⟩ := landedUnderStream_waits
  obtain ⟨hload, _⟩ := hwaits landedUnderStream 9 1 1 0 0 ⟨scratchKey 0 0, none⟩ landedUnderStream (by decide) hu hw
  obtain ⟨t, ht, hclk⟩ := landedUnderStream_learns
  have hstall : t = stall landedUnderStream := by
    injection ht.symm.trans (hload hv landedUnderStream_place)
  have hclk' : ((stall landedUnderStream).wave 0).clk = [] := by decide
  rw [hstall, hclk'] at hclk
  cases hclk

end Sys2Proof.Machine
end

section
namespace Sys2Proof.Machine

/-! ## Scalar accesses: where they lead, and when nothing holds them back -/

section
variable {s t u : State}

/-! ### The place of an access is aligned as the address is (08 R212) -/

theorem ptePA_aligned {n : Nat} (hn : n ∣ 128) (e : Word) : n ∣ ptePA e :=
  (hn.trans (by decide : 128 ∣ 2 ^ 16)).mul_left _
theorem leafSize_aligned {n : Nat} (hn : n ∣ 128) (lvl : Nat) (e : Word) : n ∣ leafSize lvl e := by
  refine hn.trans ((by decide : 128 ∣ 2 ^ 16).trans (Nat.pow_dvd_pow 2 ?_))
  split <;> split <;> decide
theorem useLeaf_aligned {n lvl ea : Nat} {e : Word} {k : Nat} {l : Leaf} (hn : n ∣ 128) (he : n ∣ ea) (h : useLeaf s lvl ea e k = some l) : n ∣ l.pa := by
  unfold useLeaf at h
  extract_lets z pa at h
  split at h
  · cases h
  · split at h
    · cases h
      exact (ptePA_aligned hn e).add ((Nat.dvd_mod_iff (leafSize_aligned hn lvl e)).mpr he)
    · cases h
theorem walk_aligned {n asid ea : Nat} {l : Leaf} (hn : n ∣ 128) (he : n ∣ ea) (h : walk s asid ea = some l) : n ∣ l.pa := by
  unfold walk at h
  extract_lets k0 e0 e1 k2 e2 k3 e3 at h
  clear_value k0 e0 e1 k2 e2 k3 e3
  split at h
  · cases h
  split at h
  · cases h
  split at h
  · cases h
  split at h
  · exact useLeaf_aligned hn he h
  split at h
  · cases h
  split at h
  · exact useLeaf_aligned hn he h
  · cases h
theorem translate_aligned {n core asid ea : Nat} {u : Use} {l : Leaf} (hn : n ∣ 128) (he : n ∣ ea) (h : (translate s core asid ea u).1 = some l) : n ∣ l.pa := by
  have hnew (h : (walk s asid ea).filter (·.allows u) = some l) : n ∣ l.pa := walk_aligned hn he (Option.eq_some_of_filter_eq_some h)
  unfold translate at h
  extract_lets new keep at h
  clear_value keep
  split at h
  · exact hnew h
  extract_lets old at h
  split at h
  · exact hnew h
  split at h
  split at h
  · exact useLeaf_aligned hn he (Option.eq_some_of_filter_eq_some h)
  · exact hnew h
theorem scratchWindow_isScratch {c ea k : Nat} (h : scratchWindow s c ea = some k) : isScratch k = true := by
  have hk (c o : Nat) : isScratch (scratchKey c o) = true := decide_eq_true (by unfold scratchKey; omega)
  unfold scratchWindow at h
  extract_lets w t1 t2 at h
  split at h
  · split at h
    · cases h; exact hk _ _
    · cases h
  split at h
  · split at h
    · cases h; exact hk _ _
    · cases h
  · split at h
    · cases h; exact hk _ _
    · cases h
theorem window_aligned {n c asid ea : Nat} {u : Use} {p : Place} (hn : n ∣ 128) (he : n ∣ ea) (h : (window s c asid ea u).1 = some p)
    (hp : isScratch p.key = false) : n ∣ p.key := by
  unfold window at h
  split at h
  · obtain ⟨k, hk, rfl⟩ := Option.map_eq_some_iff.mp h
    rw [scratchWindow_isScratch (Option.eq_some_of_filter_eq_some hk)] at hp
    cases hp
  · obtain ⟨l, hl, rfl⟩ := Option.map_eq_some_iff.mp h
    exact translate_aligned hn he hl
theorem checkCap_passes {c : Cap} {ea : Int} {size need align : Nat} (h : checkCap c ea size need align = none) : 0 ≤ ea ∧ (align : Int) ∣ ea := by
  unfold checkCap at h
  extract_lets info at h
  split at h
  · cases h
  split at h
  · cases h
  split at h
  · cases h
  split at h
  · cases h
  next hb =>
  split at h
  · cases h
  split at h
  · cases h
  next ha =>
  exact ⟨by omega, Int.dvd_of_emod_eq_zero (not_not.mp ha)⟩
theorem checkAccess_ok {cap : Cap} {ea : Int} {size need align : Nat} {u : Use} {p : Place} (h : checkAccess s cap ea size need align u = (.ok p, t)) :
    checkCap cap ea size need align = none ∧ window s s.curCore s.curAsid ea.toNat u = (some p, t) := by
  unfold checkAccess checkAccessAt at h
  split at h
  · cases h
  next hc =>
    split at h
    next hw => cases h; exact ⟨hc, hw⟩
    · cases h
theorem checkAccess_of_window {cap : Cap} {ea : Int} {size need align : Nat} {u : Use} {p : Place} (hc : checkCap cap ea size need align = none)
    (hw : window s s.curCore s.curAsid ea.toNat u = (some p, t)) : checkAccess s cap ea size need align u = (.ok p, t) := by
  unfold checkAccess checkAccessAt
  rw [hc]
  simp only [hw]
theorem checkAccess_aligned {cap : Cap} {ea : Int} {size need n : Nat} {u : Use} {p : Place} (hn : n ∣ 128)
    (h : checkAccess s cap ea size need n u = (.ok p, t)) (hp : isScratch p.key = false) : n ∣ p.key := by
  obtain ⟨hc, hw⟩ := checkAccess_ok h
  obtain ⟨h0, hd⟩ := checkCap_passes hc
  refine window_aligned hn ?_ (congrArg Prod.fst hw) hp
  exact Int.natCast_dvd_natCast.mp (by rwa [Int.toNat_of_nonneg h0])

end
end Sys2Proof.Machine
end

section
namespace Sys2Proof.Machine

/-! ### An agent of which nothing is under way -/

section
variable {s t u : State} {w : Nat}

theorem Reads.wave (h : Reads s t) (w : Nat) : t.wave w = s.wave w := by
  unfold State.wave
  rw [h.waves]
theorem Reads.curW (h : Reads s t) : t.curW = s.curW := by
  unfold State.curW
  rw [h.cur]
theorem Reads.fifo (h : Reads s t) (c : Nat) : (t.core c).fifo = (s.core c).fifo := (congrArg Core.fifo (h.core c) : (t.core c).bare.fifo = (s.core c).bare.fifo)
theorem Reads.squeue (h : Reads s t) (c : Nat) : (t.core c).squeue = (s.core c).squeue := (congrArg Core.squeue (h.core c) : (t.core c).bare.squeue = (s.core c).bare.squeue)
theorem Reads.sgb (h : Reads s t) (c : Nat) : (t.core c).sgb = (s.core c).sgb := (congrArg Core.sgb (h.core c) : (t.core c).bare.sgb = (s.core c).bare.sgb)
theorem Reads.still (h : Reads s t) (hs : Spec.still s) : Spec.still t := by
  unfold Spec.still
  rw [h.cur, h.net]
  refine ⟨hs.1, fun w hw => ?_⟩
  obtain ⟨hr, hp, ha, hm, hf, hq⟩ := hs.2 w hw
  exact ⟨hr, hp, ha, hm, (h.fifo _).trans hf, (h.squeue _).trans hq⟩
/-- What passes the checks of an access has changed no register, message or queue. -/
theorem reads_place {cap : Cap} {ea : Int} {size need align : Nat} {use : Use} {p : Place} (h : checkAccess s cap ea size need align use = (.ok p, t)) :
    Reads s (noteLeaf t p) := reads_noteLeaf (.of_snd h (reads_checkAccess (.refl s)))

theorem curW_of_wave (h : s.cur = .wave w) : s.curW = w := by
  simp [State.curW, h]
theorem streamHeld_of_still (hs : Spec.still s) (hw : s.cur = .wave w) (sid : Nat) : streamHeld s w sid = false := by
  obtain ⟨hr, hp, ha, hm, -, hq⟩ := hs.2 w hw
  have hu : underWay s w (· = sid) = false := by
    simp only [underWay, hq, List.any_nil, Bool.or_false, Bool.or_eq_false_iff, List.any_eq_false, Bool.and_eq_true, decide_eq_true_eq]
    refine ⟨⟨⟨fun r h e => hr r h e.1.1, fun r h e => hp r h e.1⟩, fun r h e => ha r h e.1⟩, fun m h e => ?_⟩
    obtain ⟨r, hmem, e⟩ := List.any_eq_true.mp e
    simp only [Bool.and_eq_true, decide_eq_true_eq] at e
    exact hm m h r hmem e.1
  simp [streamHeld, hu]
theorem ownHeld_of_still (hs : Spec.still s) (hw : s.cur = .wave w) (rd : Bool) (sp : List (Nat × Nat)) : ownHeld s w rd sp = false := by
  obtain ⟨hr, -, -, hm, -, -⟩ := hs.2 w hw
  have hc := hs.1
  rw [hw] at hc
  simp only [ownHeld, Bool.or_eq_false_iff, List.any_eq_false, Bool.and_eq_true, decide_eq_true_eq]
  refine ⟨⟨fun r h e => hr r h e.1.1, fun m h e => ?_⟩, fun a h e => hc a h e.1⟩
  obtain ⟨r, hmem, e⟩ := List.any_eq_true.mp e
  simp only [Bool.and_eq_true, decide_eq_true_eq] at e
  exact hm m h r hmem e.1.1
theorem watermarkHeld_of_still (hs : Spec.still s) (hw : s.cur = .wave w) (ea n : Nat) : watermarkHeld s ea n = false := by
  obtain ⟨-, -, -, -, hf, -⟩ := hs.2 w hw
  simp [watermarkHeld, hw, hf]
theorem belowMark_of_still (hs : Spec.still s) (hw : s.cur = .wave w) (ea n : Nat) : belowMark s ea n = s := by
  obtain ⟨-, -, -, -, hf, -⟩ := hs.2 w hw
  simp [belowMark, hw, hf]

section
variable {cap : Cap} {ea : Int} {size need align : Nat} {use : Use} {k : Place → State → State}

theorem withData_of_trap {f : Trap} (h : checkAccess s cap ea size need align use = (.error f, t)) : withData s cap ea size need align use k = raise t f := by
  unfold withData withAccess
  rw [h]
theorem withData_of_still {p : Place} (hs : Spec.still s) (hw : s.cur = .wave w) (h : checkAccess s cap ea size need align use = (.ok p, t)) :
    withData s cap ea size need align use k = k p (noteLeaf t p) := by
  have hr := reads_place h
  have hs' : Spec.still (noteLeaf t p) := hr.still hs
  have hw' : (noteLeaf t p).cur = .wave w := hr.cur.trans hw
  unfold withData withAccess
  rw [h]
  dsimp only
  rw [watermarkHeld_of_still hs' hw', belowMark_of_still hs' hw']
  rfl

end

/-! ### Requests that leave at once -/

theorem issue_read_of_still {r : Req} (hs : Spec.still s) (hw : s.cur = .wave r.wave) (hr : r.kind.isRead = true) : issue s r = (send s r).advance := by
  unfold issue
  rw [streamHeld_of_still hs hw, ownHeld_of_still hs hw, hr]
  rfl
theorem drainWhere_of_none {c : Nat} {p : Sgb → Bool} (h : (s.core c).sgb.any p = false) : drainWhere s c p = s := by
  have hf : (s.core c).sgb.filter p = [] := List.filter_eq_nil_iff.mpr (List.any_eq_false.mp h)
  unfold drainWhere
  rw [hf]
  rfl
theorem issue_write_of_still {r : Req} (hs : Spec.still s) (hw : s.cur = .wave r.wave) (hr : r.kind.isRead = false)
    (hg : (s.core (waveCore r.wave)).sgb.any (Sgb.touches r.kind.spans) = false) : issue s r = (send s r).advance := by
  obtain ⟨-, -, -, -, -, hq⟩ := hs.2 _ hw
  unfold issue
  simp only [streamHeld_of_still hs hw, ownHeld_of_still hs hw, hr, drainWhere_of_none hg, hg, hq, List.any_nil, Bool.or_self, Bool.false_eq_true, if_false]

/-! ### A gathered store enters the buffer (08 R199) -/

theorem Tbl.set_set {α : Type} (l : Tbl α) (n : Nat) (x y : α) : Tbl.set (Tbl.set l n x) n y = Tbl.set l n y := by
  induction l with
  | nil => simp [Tbl.set]
  | cons e l ih =>
    obtain ⟨k, v⟩ := e
    rcases Nat.lt_trichotomy n k with h | h | h
    · simp [Tbl.set, h]
    · simp [Tbl.set, h]
    · simp [Tbl.set, Nat.not_lt.mpr h.le, h.ne', ih]
theorem modCore_modCore (c : Nat) (f g : Core → Core) : (s.modCore c f).modCore c g = s.modCore c fun x => g (f x) := by
  unfold State.modCore State.setCore
  simp only [State.core, Tbl.get_set_same, Tbl.set_set]
theorem modCore_congr {c : Nat} {f g : Core → Core} (h : f (s.core c) = g (s.core c)) : s.modCore c f = s.modCore c g := by
  unfold State.modCore
  rw [h]
/-- The core whose SGB has taken a store at a time: into the open entry of its line, or a new one. -/
def Core.gather (q : Queued) (now : Nat) (x : Core) : Core :=
  let gs := seqNext x.gs
  let fill (e : Sgb) : Sgb := e.put q gs now
  { x with
    gs := gs
    sgb := match x.sgb.find? fun e => e.line = lineOf q.key ∧ !e.closed with
      | some o => x.sgb.map fun e => if e.fgs = o.fgs then fill e else e
      | none => x.sgb ++ [fill { line := lineOf q.key, fgs := gs }] }
/-- What follows in `gatherStore`: the write is noted, a full line drains, and one entry more while the buffer is too full. -/
def drainAfter (s : State) (q : Queued) : State :=
  let c := waveCore q.wave
  let s := noteWrite s q.key q.bytes.length { uid := q.uid, grid := q.grid, sid := q.sid, engine := false } (some c)
  let s := drainWhere s c fun e => e.line = lineOf q.key && !e.closed && decide (e.data.length = 128)
  if 48 < (s.core c).sgb.length then drainOldest s c else s
theorem gatherStore_eq (q : Queued) : gatherStore s q = drainAfter (s.modCore (waveCore q.wave) (Core.gather q s.cyc)) q := rfl
/-- What the SGB takes from the queue does not depend on a change of the core that has been undone. -/
theorem gatherStore_modCore {q : Queued} {f : Core → Core} (h : f (s.core (waveCore q.wave)) = s.core (waveCore q.wave)) :
    gatherStore (s.modCore (waveCore q.wave) f) q = gatherStore s q := by
  rw [gatherStore_eq, gatherStore_eq, modCore_modCore]
  exact congrArg (drainAfter · q) (modCore_congr (congrArg (Core.gather q s.cyc) h))

end
end Sys2Proof.Machine
end

section
namespace Sys2Proof.Machine

/-! ### The bytes that an entry of the buffer takes -/

theorem Tbl.get?_set {α : Type} (l : Tbl α) (n m : Nat) (x : α) : Tbl.get? (Tbl.set l n x) m = if m = n then some x else Tbl.get? l m := by
  induction l with
  | nil => simp [Tbl.set, Tbl.get?]
  | cons e l ih =>
    obtain ⟨k, v⟩ := e
    unfold Tbl.set
    split
    · simp [Tbl.get?]
    split
    next hk =>
      subst hk
      simp only [Tbl.get?]
      split <;> rfl
    next hk =>
      simp only [Tbl.get?, ih]
      split
      next hm => rw [if_neg (by omega)]
      · rfl
theorem Tbl.length_set_le {α : Type} (l : Tbl α) (n : Nat) (x : α) : (Tbl.set l n x).length ≤ l.length + 1 := by
  induction l with
  | nil => simp [Tbl.set]
  | cons e l ih =>
    unfold Tbl.set
    split
    · simp
    · split
      · simp
      · simpa using ih
/-- Bytes put one after the other into a table. -/
def putBytes (off : Nat) (bs : List Byte) (i : Nat) (l : Tbl Byte) : Tbl Byte := (bs.zipIdx i).foldl (fun t b => Tbl.set t (off + b.2) b.1) l
theorem putBytes_cons (off : Nat) (b : Byte) (bs : List Byte) (i : Nat) (l : Tbl Byte) :
    putBytes off (b :: bs) i l = putBytes off bs (i + 1) (Tbl.set l (off + i) b) := rfl
theorem get?_putBytes (off : Nat) (bs : List Byte) (j : Nat) :
    ∀ (i : Nat) (l : Tbl Byte), Tbl.get? (putBytes off bs i l) (off + j) = if i ≤ j ∧ j < i + bs.length then bs[j - i]? else Tbl.get? l (off + j) := by
  induction bs with
  | nil =>
    intro i l
    rw [if_neg (by simp)]
    rfl
  | cons b bs ih =>
    intro i l
    rw [putBytes_cons, ih, Tbl.get?_set, List.length_cons]
    rcases Nat.lt_trichotomy j i with h | h | h
    · rw [if_neg (by omega), if_neg (by omega), if_neg (by omega)]
    · subst h
      rw [if_neg (by omega), if_pos rfl, if_pos (by omega), Nat.sub_self, List.getElem?_cons_zero]
    · obtain ⟨d, rfl⟩ : ∃ d, j = i + 1 + d := ⟨j - (i + 1), by omega⟩
      rw [show i + 1 + d - i = d + 1 by omega, List.getElem?_cons_succ, Nat.add_sub_cancel_left]
      by_cases hd : d < bs.length
      · rw [if_pos (by omega), if_pos (by omega)]
      · rw [if_neg (by omega), if_neg (by omega), if_neg (by omega)]
theorem length_putBytes_le (off : Nat) (bs : List Byte) : ∀ (i : Nat) (l : Tbl Byte), (putBytes off bs i l).length ≤ l.length + bs.length := by
  induction bs with
  | nil => exact fun i l => Nat.le_refl _
  | cons b bs ih =>
    intro i l
    have h := ih (i + 1) (Tbl.set l (off + i) b)
    have hl := Tbl.length_set_le l (off + i) b
    rw [putBytes_cons, List.length_cons]
    omega

/-! ### A gathered store into a line that the buffer does not hold -/

section
variable {s : State} {q : Queued}

theorem drainEntry_squeue (c f d : Nat) : ((drainEntry s c f).core d).squeue = (s.core d).squeue := by
  have hm (g : Core → Core) (hg : ∀ x, (g x).squeue = x.squeue) : ((s.modCore c g).core d).squeue = (s.core d).squeue := by
    by_cases hd : d = c
    · rw [hd, State.modCore_core, hg]
    · rw [State.modCore_core_other _ _ _ _ hd]
  unfold drainEntry
  split
  · rfl
  · extract_lets older s1
    have h1 : (s1.core d).squeue = (s.core d).squeue := hm _ fun _ => rfl
    split <;> exact h1
theorem drainWhere_squeue (c : Nat) (p : Sgb → Bool) (d : Nat) : ((drainWhere s c p).core d).squeue = (s.core d).squeue :=
  List.foldlRecOn (motive := fun t : State => (t.core d).squeue = (s.core d).squeue) _ _ rfl fun _ ht _ _ => (drainEntry_squeue ..).trans ht
theorem noteWrite_core (k n : Nat) (w : Writer) (g : Option Nat) (c : Nat) : (noteWrite s k n w g).core c = s.core c := by
  unfold noteWrite
  split <;> rfl
theorem drainAfter_squeue (d : Nat) : ((drainAfter s q).core d).squeue = (s.core d).squeue := by
  unfold drainAfter
  extract_lets c s1 s2
  have h2 : (s2.core d).squeue = (s.core d).squeue := (drainWhere_squeue ..).trans (congrArg Core.squeue (noteWrite_core ..))
  split
  · unfold drainOldest
    split
    · exact (drainEntry_squeue ..).trans h2
    · exact h2
  · exact h2
theorem gatherStore_squeue : ((gatherStore s q).core (waveCore q.wave)).squeue = (s.core (waveCore q.wave)).squeue := by
  rw [gatherStore_eq, drainAfter_squeue, State.modCore_core]
  rfl

/-- A store into an entry that has no byte yet. -/
theorem data_put_new (line gs now : Nat) : (Sgb.put { line := line, fgs := gs } q gs now).data = putBytes (q.key % 128) q.bytes 0 [] := rfl
variable (hl : ∀ e ∈ (s.core (waveCore q.wave)).sgb, e.line ≠ lineOf q.key)
include hl

theorem sgb_gather_new (now : Nat) : ((s.core (waveCore q.wave)).gather q now).sgb =
    (s.core (waveCore q.wave)).sgb ++ [Sgb.put { line := lineOf q.key, fgs := seqNext (s.core (waveCore q.wave)).gs } q (seqNext (s.core (waveCore q.wave)).gs) now] := by
  have hf : ((s.core (waveCore q.wave)).sgb.find? fun e => e.line = lineOf q.key ∧ !e.closed) = none :=
    List.find?_eq_none.mpr fun e he hp => hl e he (of_decide_eq_true hp).1
  simp only [Core.gather, hf]
/-- Nothing drains: the line's entry is new and not full, and the buffer has room. -/
theorem gatherStore_new (hr : (s.core (waveCore q.wave)).sgb.length < 48) (hb : q.bytes.length < 128) :
    gatherStore s q = noteWrite (s.modCore (waveCore q.wave) (Core.gather q s.cyc)) q.key q.bytes.length
      { uid := q.uid, grid := q.grid, sid := q.sid, engine := false } (some (waveCore q.wave)) := by
  rw [gatherStore_eq]
  unfold drainAfter
  extract_lets c s1 s2
  have hc : s1.core c = (s.core c).gather q s.cyc := (noteWrite_core ..).trans (State.modCore_core ..)
  have hs : (s1.core c).sgb = _ := (congrArg Core.sgb hc).trans (sgb_gather_new hl s.cyc)
  have h2 : s2 = s1 := by
    refine drainWhere_of_none (List.any_eq_false.mpr fun e he hp => ?_)
    simp only [Bool.and_eq_true, decide_eq_true_eq] at hp
    rw [hs] at he
    rcases List.mem_append.mp he with he | he
    · exact hl e he hp.1.1
    · have hlen := length_putBytes_le (q.key % 128) q.bytes 0 []
      rw [List.mem_singleton.mp he, data_put_new] at hp
      simp only [List.length_nil] at hlen
      omega
  rw [h2, if_neg]
  rw [hs, List.length_append, List.length_singleton]
  omega
/-- The buffer then holds the store's bytes. -/
theorem sgbByte_gather (now : Nat) (hq : (s.core (waveCore q.wave)).squeue = []) (hk : q.key % 128 + q.bytes.length ≤ 128) {j : Nat} (hj : j < q.bytes.length) :
    sgbByte ((s.core (waveCore q.wave)).gather q now) (q.key + j) = q.bytes[j]? := by
  have hline : lineOf (q.key + j) = lineOf q.key := by unfold lineOf; omega
  have hoff : (q.key + j) % 128 = q.key % 128 + j := by omega
  have hsq : ((s.core (waveCore q.wave)).gather q now).squeue = [] := hq
  have hold : ((s.core (waveCore q.wave)).sgb.filter fun e => e.served.isNone).foldl
      (fun o e => if e.line = lineOf (q.key + j) then (Tbl.get? e.data ((q.key + j) % 128)).or o else o) none = none :=
    List.foldlRecOn (motive := (· = none)) _ _ rfl fun o ho e he => by
      rw [if_neg (hline ▸ hl e (List.mem_of_mem_filter he)), ho]
  unfold sgbByte Core.held
  rw [hsq, sgb_gather_new hl, List.filter_append, List.foldl_append, hold]
  simp only [Sgb.put, List.filter_cons, Option.isNone_none, if_true, List.filter_nil, List.foldl_cons, List.foldl_nil, hline, hoff, Option.or_none]
  exact (get?_putBytes (q.key % 128) q.bytes j 0 []).trans (by rw [if_pos (by omega), Nat.sub_zero])

end
end Sys2Proof.Machine
end

section
namespace Sys2Proof.Machine

/-! ### Stores -/

section
variable {s t u : State} {w : Nat}

theorem passQueue_single {q : Queued} {c : Nat} (hq : (s.core c).squeue = [q]) (hr : sgbRoom (s.core c) (lineOf q.key) = true) :
    passQueue s c 1 = gatherStore (s.modCore c fun x => { x with squeue := [] }) q := by
  unfold passQueue
  rw [hq]
  exact if_pos hr
/-- What the store queue passes on at once: the queue is empty before and after. -/
theorem runQueue_single {q : Queued} (hq : (s.core (waveCore q.wave)).squeue = []) (hr : (s.core (waveCore q.wave)).sgb.length < 64) :
    runQueue (s.modCore (waveCore q.wave) fun x => { x with squeue := x.squeue ++ [q] }) (waveCore q.wave) [] = gatherStore s q := by
  have hone : ((s.modCore (waveCore q.wave) fun x => { x with squeue := x.squeue ++ [q] }).core (waveCore q.wave)).squeue = [q] := by
    rw [State.modCore_core]
    exact congrArg (· ++ [q]) hq
  have hroom : sgbRoom ((s.modCore (waveCore q.wave) fun x => { x with squeue := x.squeue ++ [q] }).core (waveCore q.wave)) (lineOf q.key) = true := by
    rw [State.modCore_core]
    exact Bool.or_eq_true_iff.mpr (.inl (decide_eq_true hr))
  have hback : { s.core (waveCore q.wave) with squeue := [] } = s.core (waveCore q.wave) := by rw [← hq]
  unfold runQueue
  rw [hone, List.length_singleton, passQueue_single hone hroom, modCore_modCore]
  exact gatherStore_modCore hback
theorem issueGather_of_still {sid k : Nat} {bs : List Byte} {tag : Bool} (hs : Spec.still s) (hw : s.cur = .wave w) (hr : (s.core (waveCore w)).sgb.length < 48) :
    issueGather s w sid [(k, bs)] tag State.advance =
      let t := gatherStore s ⟨w, sid, s.reqNo, k, bs, tag, (s.wave w).grid, (s.wave w).uid, (knownRels s (waveCore w) [(k, bs.length)]).filter (·.meets k bs.length)⟩
      { t.advance with reqNo := Nat.max t.reqNo (s.reqNo + 1) } := by
  obtain ⟨-, -, -, -, -, hq⟩ := hs.2 w hw
  unfold issueGather
  rw [if_neg (by simp [streamHeld_of_still hs hw, ownHeld_of_still hs hw])]
  extract_lets c id was rels s1 s2 s3
  have h2 : s2 = gatherStore s ⟨w, sid, id, k, bs, tag, (s.wave w).grid, (s.wave w).uid, (knownRels s c [(k, bs.length)]).filter (·.meets k bs.length)⟩ := by
    have hwas : was = [] := congrArg queueIds hq
    have hroom : (s.core (waveCore w)).sgb.length < 64 := by omega
    simp only [s2, hwas]
    exact runQueue_single (q := ⟨w, sid, id, k, bs, tag, _, _, _⟩) hq hroom
  have h3 : inQueue s2 w id = false := by
    have : (s2.core (waveCore w)).squeue = [] := by rw [h2]; exact gatherStore_squeue.trans hq
    unfold inQueue
    rw [this]
    rfl
  have h3' : s3 = s2.advance := by simp only [s3, h3]; rfl
  rw [h3', State.advance_reqNo, h2]

/-- A store that passes its checks, its place, its policy and what stands before it given. -/
theorem stores_of_exec {i : Instr} {a : BitVec 6} {sid : BitVec 4} {q : BitVec 2} {o : BitVec 8} {n need : Nat} {bs : List Byte} {tag : Bool}
    (hx : Admitted i s → exec i s = .next (withData s (s.reg a.toNat) (eaM s a o n) n need n .store fun p t => storeAt t p sid.toNat q.toNat bs tag))
    (hw : Admitted i s → ∃ w, s.cur = .wave w) (hs : Spec.still s) (hn : n ∣ 128) (hn16 : n ≤ 16) (hn0 : 0 < n) (hb : bs.length = n) :
    Spec.stores i s a sid q o n need bs tag := by
  intro hadm cap ea w
  have hv : s.cur = .wave w := by
    obtain ⟨v, hv⟩ := hw hadm
    rw [hv, ← curW_of_wave hv]
  have hx : exec i s = .next (withData s cap ea n need n .store fun p t => storeAt t p sid.toNat q.toNat bs tag) := hx hadm
  have hdirect (p : Place) (s' : State) (h : checkAccess s cap ea n need n .store = (.ok p, s')) (hg : Spec.ungathered s p.key n) (hq : q ≠ 0 ∨ isScratch p.key = true) :
      exec i s = .next (send (noteLeaf s' p) (Spec.asks s sid q.toNat p.rep (.store [(p.key, bs)] tag))).advance := by
    have hr := reads_place h
    have hwv : (noteLeaf s' p).curW = s.curW := hr.curW
    have hq' : ¬(q.toNat = 0 ∧ (!isScratch p.key) = true) := by
      rintro ⟨h0, hsc⟩
      rcases hq with hq | hq
      · exact hq (BitVec.eq_of_toNat_eq h0)
      · rw [hq] at hsc; cases hsc
    rw [hx, withData_of_still hs hv h]
    unfold storeAt
    rw [if_neg hq', hwv]
    refine congrArg Host.Outcome.next (issue_write_of_still (hr.still hs) (hr.cur.trans hv) rfl ?_)
    rw [hr.sgb]
    simp only [ReqKind.spans, List.map_cons, List.map_nil, hb]
    exact hg
  refine ⟨fun t s' h => ?_, fun p s' h hg hq => ⟨hdirect p s' h hg hq, fun hp hf => ?_⟩, fun p s' h hq0 hsc hr => ?_, fun k hk hg => ?_⟩
  · rw [hx, withData_of_trap h]
  · have hc := calm_checkAccess hp (cap := cap) (ea := ea) (size := n) (need := need) (align := n) (u := .store)
    rw [h] at hc
    rw [noteLeaf_of_flat hf]
    have hsend (u : State) (r : Req) : (send u r).mem = u.mem ∧ (send u r).tags = u.tags := by
      unfold send
      extract_lets
      split <;> exact ⟨rfl, rfl⟩
    exact ⟨(hsend ..).1.trans hc.mem, (hsend ..).2.trans hc.tags⟩
  · have hr := reads_place h
    obtain ⟨-, -, -, -, -, hsq⟩ := hs.2 _ hv
    have hq' : q.toNat = 0 ∧ (!isScratch p.key) = true := by simp [hq0, hsc]
    have hlen : ((noteLeaf s' p).core (waveCore w)).sgb.length < 48 := by rwa [hr.sgb]
    intro u rels t
    have hstore : storeAt u p sid.toNat q.toNat bs tag = { t.advance with reqNo := Nat.max t.reqNo (s.reqNo + 1) } := by
      have hg := issueGather_of_still (sid := sid.toNat) (k := p.key) (bs := bs) (tag := tag) (hr.still hs) (hr.cur.trans hv) hlen
      rw [hr.reqNo, hr.wave] at hg
      unfold storeAt
      rw [if_pos hq', hr.curW]
      exact hg
    refine ⟨by rw [hx, withData_of_still hs hv h, hstore], fun hp hf hl => ?_⟩
    have hc := calm_checkAccess hp (cap := cap) (ea := ea) (size := n) (need := need) (align := n) (u := .store)
    rw [h] at hc
    have hu : u = s' := noteLeaf_of_flat hf
    have hl' : ∀ e ∈ (u.core (waveCore w)).sgb, e.line ≠ lineOf p.key := by rwa [hr.sgb]
    have hb128 : bs.length < 128 := by omega
    have ht : t = _ := gatherStore_new hl' hlen hb128
    have hal : n ∣ p.key := checkAccess_aligned hn h hsc
    refine ⟨?_, ?_, fun j hj => ?_⟩
    · rw [ht, noteWrite_mem, State.modCore_mem, hu, hc.mem]
    · rw [ht, noteWrite_tags, State.modCore_tags, hu, hc.tags]
    · obtain ⟨m, hm⟩ := hn
      obtain ⟨y, hy⟩ := hal
      have hfit : p.key % 128 + bs.length ≤ 128 := by
        rw [hb, hy, hm, Nat.mul_mod_mul_left]
        have hlt : y % m < m := Nat.mod_lt _ (Nat.pos_of_ne_zero (by rintro rfl; omega))
        calc n * (y % m) + n = n * (y % m + 1) := (Nat.mul_succ ..).symm
          _ ≤ n * m := Nat.mul_le_mul_left n hlt
      rw [ht, noteWrite_core, State.modCore_core]
      exact sgbByte_gather hl' _ ((hr.squeue _).trans hsq) hfit (hj.trans_eq hb.symm)
  · obtain ⟨hc, hwin, hks, -⟩ := hk
    exact hdirect ⟨k, none⟩ s (checkAccess_of_window hc hwin) hg (.inr hks)

/-- An instruction that contexts may not execute is executed by a wave. -/
theorem exists_wave_of_admitted {i : Instr} (h : Admitted i s) (hc : (regs i).ctx = false) : ∃ w, s.cur = .wave w := by
  unfold Admitted at h
  split at h
  · exact h.elim
  next w hw => exact ⟨w, hw⟩
  · simp [ctxVerdict, ctxCheck, hc] at h
theorem exec_stc {d a : BitVec 6} {sid : BitVec 4} {q : BitVec 2} {o : BitVec 8} (h : Admitted (.stc d a sid q o) s) :
    exec (.stc d a sid q o) s = .next (withData s (s.reg a.toNat) (eaM s a o 16) 16 (if (s.reg d.toNat).tag then permST + permSC else permST) 16 .store fun p t =>
      storeAt t p sid.toNat q.toNat (bytesOf 8 (s.reg d.toNat).lo.toNat ++ bytesOf 8 (s.reg d.toNat).hi.toNat) (s.reg d.toNat).tag) :=
  (rfl : exec _ s = execStc d a sid q o s).trans (checked_of_admitted h _)
theorem exec_ldc {d a : BitVec 6} {sid : BitVec 4} {q : BitVec 2} {o : BitVec 8} (h : Admitted (.ldc d a sid q o) s) :
    exec (.ldc d a sid q o) s = .next (withData s (s.reg a.toNat) (eaM s a o 16) 16 permLD 16 .load fun p t =>
      issue t (Spec.asks t sid q.toNat p.rep (.loadCap d.toNat p.key (decide ((t.reg a.toNat).perm &&& permLC = permLC))))) :=
  (rfl : exec _ s = execLdc d a sid q o s).trans (checked_of_admitted h _)
theorem Reads.reg (h : Reads s t) (hw : s.cur = .wave w) (n : Nat) : t.reg n = s.reg n := by
  rw [State.reg_of_wave _ w n (h.cur.trans hw), State.reg_of_wave _ w n hw, h.wave]

/-! ### A request for a granule of scratch at its home (08 R194) -/

theorem twinLast_of_whole {r : Req} (l : List Req) (h : r.halfAt = none) : twinLast l r = l := by
  have ht (x : Req) : r.twinOf x = false := by simp [Req.twinOf, h]
  simp [twinLast, ht]
theorem routeCut_of_uncut (h : Spec.uncut s) (a b : Nat) : routeCut s a b = (false, s) := by
  obtain ⟨hl, hd⟩ := h
  have hc : s.dies.any (fun d => decide (d.2.fence = .cut)) = false := List.any_eq_false.mpr fun d hm hp => hd d hm (of_decide_eq_true hp)
  simp [routeCut, crossesCut, hl, hc]
/-- A request that is no half of a BFADD2 is taken, and its route is not cut. -/
theorem takeReq_of_underway {n : Nat} {r : Req} {p : Req → Bool} {k : Req → State → State} (h : Spec.underway s n r) (hp : p r = true) (hh : r.halfAt = none) :
    takeReq s n p k = .next (k r (Spec.taken s n)) := by
  obtain ⟨hn, hu⟩ := h
  have ht : (s.modNet fun m => { m with reqs := twinLast (dropAt m.reqs n) r }) = Spec.taken s n := by
    simp only [twinLast_of_whole _ hh]
    rfl
  have hheld : halfHeld s.net.reqs n r = false := by simp [halfHeld, hh]
  have hcut (a b : Nat) : routeCut (Spec.taken s n) a b = (false, Spec.taken s n) := routeCut_of_uncut (s := Spec.taken s n) hu a b
  unfold takeReq
  simp only [hn, hp, hheld, ht, hcut, Bool.not_true, Bool.or_self, Bool.false_eq_true, if_false]
theorem readBytes_granule (m : List Host.Cell) (k : Nat) : (readBytes m k 16).take 8 = readBytes m k 8 ∧ (readBytes m k 16).drop 8 = readBytes m (k + 8) 8 := ⟨rfl, rfl⟩
theorem serveRead_granule {r : Req} {d k : Nat} {lc : Bool} (hk : r.kind = .loadCap d k lc) (hs : isScratch k = true) (hl : homeLost s k = false) :
    serveRead s r = (Spec.answerOf r (.cap d ⟨Tbl.get false s.tags (k / 16) && lc, BitVec.ofNat 64 (readNat s.mem (k + 8) 8), BitVec.ofNat 64 (readNat s.mem k 8)⟩ lc) [k], s) := by
  have hload : loadRead s r k 16 = ({ bytes := memBytes s k 16, tag := readTag s k }, s) := by
    unfold loadRead
    rw [if_neg (by simp [hs]), bypassRead_of_scratch hs hl]
  obtain ⟨hlo, hhi⟩ := readBytes_granule s.mem k
  unfold serveRead
  rw [hk]
  simp only [hload, memBytes, hlo, hhi]
  rfl
theorem arriveRead_granule {r : Req} {d k : Nat} {lc : Bool} (hk : r.kind = .loadCap d k lc) :
    arriveRead s r = (serveRead s r).2.modNet fun m => { m with replies := m.replies ++ [(serveRead s r).1] } := by
  unfold arriveRead
  rw [hk]
theorem exec_scratchRequest_granule {n : Nat} {r : Req} {d k : Nat} {lc : Bool} (h : Spec.underway s n r) (hk : r.kind = .loadCap d k lc)
    (hs : isScratch k = true) (hl : homeLost s k = false) :
    exec (.scratchRequest n) s = .next ((Spec.taken s n).modNet fun m => { m with replies := m.replies ++
      [Spec.answerOf r (.cap d ⟨Tbl.get false s.tags (k / 16) && lc, BitVec.ofNat 64 (readNat s.mem (k + 8) 8), BitVec.ofNat 64 (readNat s.mem k 8)⟩ lc) [k]] }) := by
  have hscr : r.scratch = true := by simp [Req.scratch, hk, ReqKind.keys, hs]
  have hhalf : r.halfAt = none := by simp [Req.halfAt, hk]
  have hread : r.kind.isRead = true := by rw [hk]; rfl
  have hserve := serveRead_granule (s := Spec.taken s n) hk hs hl
  refine (takeReq_of_underway (k := fun r s => if r.kind.isRead then arriveRead s r else arriveWrite s r 0) h hscr hhalf).trans ?_
  rw [hread, if_pos rfl, arriveRead_granule hk, hserve]
  rfl

end

/-- Settles O12: LDC by its request and what its home answers, STC by the rule of every store. -/
theorem capabilityMemory : Obligations.CapabilityMemory := by
  intro s
  refine ⟨fun hs d a sid q o => ?_, fun n r d k lc h hk hscr hl => exec_scratchRequest_granule h hk hscr hl⟩
  intro cap ea v i
  refine ⟨fun hadm => ?_, ?_⟩
  · obtain ⟨w, hw⟩ := exists_wave_of_admitted hadm rfl
    refine ⟨fun t s' h => ?_, fun p s' h => ?_⟩
    · exact (exec_ldc hadm).trans (congrArg Host.Outcome.next (withData_of_trap h))
    · have hr := reads_place h
      have hcur : (noteLeaf s' p).cur = .wave (noteLeaf s' p).curW := by rw [hr.curW, curW_of_wave hw, hr.cur, hw]
      refine (exec_ldc hadm).trans (congrArg Host.Outcome.next ((withData_of_still hs hw h).trans ?_))
      rw [hr.reg hw, issue_read_of_still (hr.still hs) hcur rfl]
      unfold Spec.asks
      rw [hr.curW]
  · exact stores_of_exec exec_stc (exists_wave_of_admitted · rfl) hs (by decide) (by decide) (by decide) (by simp [length_bytesOf])

end Sys2Proof.Machine
end

section
namespace Sys2Proof.Machine

/-! ## Faults and traps -/

section
variable {s : State}

theorem fld_top (m : Word) {lo len : Nat} (h : lo + len = 64) : fld m lo len = m.toNat / 2 ^ lo :=
  Nat.mod_eq_of_lt (Nat.div_lt_of_lt_mul (by rw [← pow_add, h]; exact m.isLt))
theorem Tbl.get?_grids_modGrid (h k : Nat) (f : Grid → Grid) :
    Tbl.get? (s.modGrid h f).grids k = if k = h then (Tbl.get? s.grids h).map f else Tbl.get? s.grids k := by
  unfold State.modGrid State.grid?
  split
  next hg =>
    rw [hg]
    split
    next hk => rw [hk, hg]; rfl
    · rfl
  next g hg =>
    rw [hg]
    exact Tbl.get?_set ..
theorem modGrid_eq (h : Nat) (f : Grid → Grid) : s.modGrid h f = { s with grids := (s.modGrid h f).grids } := by
  unfold State.modGrid
  split <;> rfl
/-- The message of a fault that is taken at once. -/
theorem waveMsg_eq (w : Nat) (t : Trap) : waveMsg s w t false false = {
    m0 := BitVec.ofNat 64 (t.code.num * 2 ^ 56 + w % 32 * 2 ^ 47 + waveCore w * 2 ^ 24 + (if (s.wave w).sup then 2 ^ 22 else 0)
      + (Tbl.get 0 (s.core (waveCore w)).wtag (w % 32)).toNat % 2 ^ 16)
    m1 := BitVec.ofNat 64 ((s.wave w).grid * 2 ^ 32 + (s.wave w).gidx % 2 ^ 32), m2 := t.info, m3 := BitVec.ofNat 64 (s.wave w).pc.addr } := by
  have hsup (b : Bool) : b2n b * 2 ^ 22 = if b then 2 ^ 22 else 0 := by cases b <;> rfl
  unfold waveMsg msgWord0 waveSlot
  dsimp only
  rw [hsup]
  simp [b2n]
theorem raise_wave {w : Nat} (t : Trap) (hw : s.cur = .wave w) : raise s t = waveFault s w t false := by
  unfold raise
  rw [hw]
theorem postMessage_of_unsent {d : Nat} {m : FaultMsg} (h : unsent s d m = true) : postMessage s d m = s.modDie d fun x => { x with naks := x.naks + 1 } := if_pos h
/-- A message that is posted is counted by its grid alone. -/
theorem postMessage_of_sent {d : Nat} {m : FaultMsg} (h : unsent s d m = false) : ∃ gs,
    postMessage s d m = { s with grids := gs, net := { s.net with posts := s.net.posts ++ [⟨d, m, false, s.cyc⟩] } } ∧
    (∀ k, k ≠ m.m1.toNat / 2 ^ 32 → Tbl.get? gs k = Tbl.get? s.grids k) ∧
    ∀ g, Tbl.get? s.grids (m.m1.toNat / 2 ^ 32) = some g → Tbl.get? gs (m.m1.toNat / 2 ^ 32) = some { g with
      nfault := min (g.nfault + 1) (2 ^ 32 - 1), fcode := if g.fcode = 0 then m.m0.toNat / 2 ^ 56 else g.fcode } := by
  have hgrid : fld m.m1 32 32 = m.m1.toNat / 2 ^ 32 := fld_top m.m1 rfl
  have hcode : fld m.m0 56 8 = m.m0.toNat / 2 ^ 56 := fld_top m.m0 rfl
  unfold postMessage
  rw [if_neg (by simp [h]), hgrid, hcode, modGrid_eq]
  refine ⟨_, rfl, fun k hk => ?_, fun g hg => ?_⟩
  · rw [Tbl.get?_grids_modGrid, if_neg hk]
  · rw [Tbl.get?_grids_modGrid, if_pos rfl, hg]
    rfl
theorem takingAFault : Spec.TakingAFault := by
  intro s w t hw x c m stopped
  have hm : waveMsg s w t false false = m := waveMsg_eq w t
  have hr : raise s t = postMessage stopped (coreDie c) m := by
    rw [raise_wave t hw]
    unfold waveFault
    rw [hm]
    rfl
  rw [hr]
  exact ⟨postMessage_of_unsent (s := stopped), postMessage_of_sent (s := stopped)⟩

theorem exec_illegalInstruction_wave {n : Nat} {w : W32} (h : s.cur = .wave n) :
    exec (.illegalInstruction w) s = .next (raise s ⟨if privilegedWord w && !(s.wave n).sup then .priv else .illegal, w.setWidth 64⟩) := by
  have hx : exec (.illegalInstruction w) s = execIllegalInstruction w s := rfl
  rw [hx]
  unfold execIllegalInstruction codeTrap State.curSup
  simp [h]
theorem exec_illegalInstruction_ctx {v n : Nat} {w : W32} (h : s.cur = .ctx v n) :
    exec (.illegalInstruction w) s = .next (raise s ⟨.illegal, w.setWidth 64⟩) := by
  have hx : exec (.illegalInstruction w) s = execIllegalInstruction w s := rfl
  rw [hx]
  unfold execIllegalInstruction codeTrap State.curSup
  simp [h]
theorem does_of_checked {i : Instr} {k : State → State} (h : exec i s = checked i s k) : Spec.does i k s := fun ha => h.trans (checked_of_admitted ha k)
theorem traps : Spec.Traps := by
  intro s c w
  refine ⟨does_of_checked rfl, does_of_checked rfl, fun n hn hp => ?_, fun n hn hp hs => ?_, fun v n hn => exec_illegalInstruction_ctx hn⟩
  · rw [exec_illegalInstruction_wave hn, if_neg (by rcases hp with hp | hp <;> simp [hp])]
  · rw [exec_illegalInstruction_wave hn, if_pos (by simp [hp, hs])]

end

/-- Settles O22: a fault is its message, the wave's stop and the post; the traps are what their instructions raise. -/
theorem faultsAndTraps : Obligations.FaultsAndTraps := ⟨takingAFault, traps⟩

end Sys2Proof.Machine
end

section
namespace Sys2Proof.Machine

/-! ## State registers, waits and yields -/

section
variable {s : State}

theorem exists_curWave_of_admitted {i : Instr} (h : Admitted i s) (hc : (regs i).ctx = false) : s.cur = .wave s.curW := by
  obtain ⟨w, hw⟩ := exists_wave_of_admitted h hc
  rw [curW_of_wave hw, hw]

/-! ### GETS (01 R24, 04 R122) -/

theorem getReg_of_value {d : BitVec 6} {n v : Nat} {code : W32} (h : stateReg s n = some v) (hn : n ≠ 0x8A2) :
    getReg d n code s = (s.setData d.toNat (BitVec.ofNat 64 v)).advance := by
  unfold getReg
  rw [h]
  dsimp only
  rw [if_neg hn]
theorem getReg_of_none {d : BitVec 6} {n : Nat} {code : W32} (h : stateReg s n = none) : getReg d n code s = raise s (codeTrap .illegal code) := by
  unfold getReg
  rw [h]
theorem getReg_raystat {d : BitVec 6} {code : W32} : getReg d 0x8A2 code s =
    ((s.modCore s.curCore fun k => { k with hdrop := false }).setData d.toNat (BitVec.ofNat 64 (raystat (s.core (waveCore s.curW))))).advance := rfl
theorem stateReg_unassigned {n : Nat} (h : n ∉ [0, 1, 2, 3, 4, 5, 6, 7, 8, 0x800, 0x801, 0x802, 0x803, 0x810, 0x8A0, 0x8A1, 0x8A2]) : stateReg s n = none := by
  simp only [List.mem_cons, List.not_mem_nil, or_false, not_or] at h
  unfold stateReg
  split <;> simp_all
theorem exec_gets {d : BitVec 6} {n : BitVec 12} (h : Admitted (.gets d n) s) :
    exec (.gets d n) s = .next (getReg d n.toNat (Instr.gets d n).code s) :=
  (rfl : exec (.gets d n) s = checked (.gets d n) s (getReg d n.toNat (Instr.gets d n).code)).trans (checked_of_admitted h _)
theorem exec_raystatRead {d : BitVec 6} : exec (.raystatRead d) s = exec (.gets d 0x8A2) s := rfl

theorem b2n_mul (b : Bool) (n : Nat) : b2n b * n = if b then n else 0 := by cases b <;> simp [b2n]
/-- The sum over the members that hold. -/
theorem sum_b2n_mul {α : Type} (p : α → Bool) (f : α → Nat) (l : List α) : (l.map fun a => b2n (p a) * f a).sum = ((l.filter p).map f).sum := by
  induction l with
  | nil => rfl
  | cons a l ih =>
    rw [List.map_cons, List.sum_cons, ih, b2n_mul]
    by_cases h : p a = true <;> simp [h]
theorem exm_curWave : exm s.curWave = if s.curWave.full then ((Spec.lanesOn s).map fun l => 2 ^ l).sum else 0 := by
  unfold exm
  rw [sum_b2n_mul]
  rfl
theorem wid_curW : wid s s.curW = (if s.curWave.sup then 2 ^ 41 else 0) + (if s.curWave.full then 0 else 2 ^ 40) + s.curW % 32 * 2 ^ 35 +
    coreX (waveCore s.curW) * 2 ^ 25 + coreY (waveCore s.curW) * 2 ^ 15 := by
  unfold wid waveSlot State.curWave
  dsimp only
  rw [b2n_mul, b2n_mul]
  cases (s.wave s.curW).full <;> rfl
theorem readStateRegister : Spec.ReadStateRegister := by
  intro s d n x c p i r
  have hr {k v : Nat} (hv : stateReg s k = some v) (hk : k ≠ 0x8A2) : r k v := fun hn ha =>
    (exec_gets ha).trans (congrArg Host.Outcome.next (hn ▸ getReg_of_value (hn ▸ hv) (hn ▸ hk)))
  refine ⟨hr rfl (by decide), hr (congrArg some exm_curWave) (by decide), hr rfl (by decide), hr rfl (by decide), hr rfl (by decide), hr rfl (by decide),
    hr rfl (by decide), hr rfl (by decide), hr (congrArg some wid_curW) (by decide), hr rfl (by decide), hr rfl (by decide), hr rfl (by decide),
    hr rfl (by decide), hr rfl (by decide), hr rfl (by decide), hr rfl (by decide), fun hn ha => ?_, fun j hj ha => ?_⟩
  · exact (exec_gets ha).trans (congrArg Host.Outcome.next (getReg_of_none (stateReg_unassigned hn)))
  · have hg : exec (.gets d 0x8A2) s = _ := (exec_gets ha).trans (congrArg Host.Outcome.next getReg_raystat)
    unfold raystat at hg
    rw [b2n_mul] at hg
    rcases hj with rfl | rfl
    · exact hg
    · exact exec_raystatRead.trans hg

/-! ### SETS (01 R25 to R27, 04 R122) -/

section
variable {a : BitVec 6} {n : BitVec 12}

theorem exec_sets_of_some {t : State} (h : setReg s n.toNat (s.lo a.toNat) = some t) (ha : Admitted (.sets a n) s) : exec (.sets a n) s = .next t.advance := by
  have hx : exec (.sets a n) s = execSets a n s := rfl
  rw [hx, execSets, checkedSets_eq, checked_of_admitted ha, h]
theorem exec_sets_of_none (h : setReg s n.toNat (s.lo a.toNat) = none) (ha : Admitted (.sets a n) s) :
    exec (.sets a n) s = .next (raise s (codeTrap .illegal (Instr.sets a n).code)) := by
  have hx : exec (.sets a n) s = execSets a n s := rfl
  rw [hx, execSets, checkedSets_eq, checked_of_admitted ha, h]
  rfl
/-- A register that takes good values and refuses the others. -/
theorem sets_of_ite {good bad : Prop} [Decidable bad] {f : State → State} (h : setReg s n.toNat (s.lo a.toNat) = if bad then none else some (f s)) (hg : good ↔ ¬bad) :
    (good → Spec.does (.sets a n) (fun s => (f s).advance) s) ∧
      (¬good → Spec.does (.sets a n) (fun s => raise s ⟨.illegal, (Instr.sets a n).code.setWidth 64⟩) s) := by
  refine ⟨fun h' => exec_sets_of_some (h.trans (if_neg (hg.mp h'))), fun h' => exec_sets_of_none (h.trans (if_pos ?_))⟩
  exact not_not.mp fun hb => h' (hg.mpr hb)
theorem fld_zero {m : Nat} (w : BitVec m) (len : Nat) : fld w 0 len = w.toNat % 2 ^ len := by
  rw [fld, Nat.pow_zero, Nat.div_one]
theorem setReg_unassigned {m : Nat} {v : Word} (h : m ∉ [1, 2, 3, 0x802, 0x803, 0x8A0, 0x8A1]) : setReg s m v = none := by
  simp only [List.mem_cons, List.not_mem_nil, or_false, not_or] at h
  unfold setReg
  split <;> simp_all

/-! #### EXM (05 R132) -/

theorem get_foldl_put {α : Type} [DecidableEq α] (d : α) (f : Nat → α) (l : Nat) (ls : List Nat) :
    ∀ t : Tbl α, Tbl.get d (ls.foldl (fun t l => Tbl.put d t l (f l)) t) l = if l ∈ ls then f l else Tbl.get d t l := by
  induction ls with
  | nil => exact fun t => rfl
  | cons m ls ih =>
    intro t
    rw [List.foldl_cons, ih]
    by_cases hl : l ∈ ls
    · simp [hl]
    · by_cases hm : l = m
      · simp [hm, Tbl.get_put_same]
      · simp [hl, hm, Tbl.get_put_other]
theorem nest_setNest (x : Wave) (f : Nat → Nat × Bool) {l : Nat} (h : l < 32) : Spec.nest (x.setNest f) l = f l := by
  have hl : l ∈ lanes32 := List.mem_range.mpr h
  unfold Spec.nest Wave.setNest
  dsimp only
  rw [get_foldl_put, get_foldl_put, if_pos hl, if_pos hl]
/-- A write of EXM changes NC and BK alone. -/
theorem setExm_eq (x : Wave) (m : Nat) : setExm x m = { x with nc := (setExm x m).nc, bk := (setExm x m).bk } := by
  unfold setExm
  split <;> rfl
theorem nest_setExm (x : Wave) (m : Nat) {l : Nat} (h : l < 32) : Spec.nest (setExm x m) l = if x.full = false then Spec.nest x l
    else if m.testBit l then (0, false) else if (Spec.nest x l).1 = 0 then (1, (Spec.nest x l).2) else Spec.nest x l := by
  unfold setExm
  cases hf : x.full
  · rfl
  · exact (nest_setNest x _ h).trans rfl
theorem nest_advance {w : Nat} (hw : s.cur = .wave w) (l : Nat) : Spec.nest s.advance.curWave l = Spec.nest s.curWave l := by
  simp [Spec.nest, State.curWave, State.curW, State.advance, State.setPc, hw]
theorem curWave_modCur (f : Wave → Wave) : (s.modCur f).curWave = f s.curWave := State.modWave_wave ..

end

theorem writeStateRegister : Spec.WriteStateRegister := by
  intro s a n v i r
  refine ⟨fun hn => ?_, fun hn => ?_, fun hn ha => ?_, ?_, fun hn => exec_sets_of_none (setReg_unassigned hn)⟩
  · refine sets_of_ite (f := fun s => s.modCur fun x => { x with fmode := v.setWidth 32 }) (bad := fld v 4 28 ≠ 0 ∨ 5 < fld v 0 3) (hn ▸ rfl) ?_
    unfold fld
    omega
  · refine sets_of_ite (f := fun s => s.modCur fun x => { x with fflags := v.setWidth 32 }) (bad := fld v 5 27 ≠ 0) (hn ▸ rfl) ?_
    unfold fld
    omega
  · have hset : setReg s n.toNat v = some (s.modCur (setExm · (fld v 0 32))) := hn ▸ rfl
    have hw := exists_curWave_of_admitted ha rfl
    have heq : s.modCur (setExm · (fld v 0 32)) = s.modCur fun x => { x with nc := (setExm s.curWave (fld v 0 32)).nc, bk := (setExm s.curWave (fld v 0 32)).bk } :=
      congrArg (s.setWave s.curW) (setExm_eq s.curWave (fld v 0 32))
    refine ⟨_, _, _, exec_sets_of_some hset ha, congrArg State.advance heq, fun l hl => ?_⟩
    have hbit : (fld v 0 32).testBit l = v.getLsbD l := by
      rw [fld_zero, Nat.testBit_mod_two_pow, BitVec.getLsbD]
      simp [hl]
    rw [nest_advance (s := s.modCur (setExm · (fld v 0 32))) hw, curWave_modCur, nest_setExm _ _ hl, hbit]
  · intro c x at_ tlru q
    have hx : x < 2 ^ 64 := v.isLt
    refine ⟨fun hn => ?_, fun hn => ?_, fun hn => ?_, fun hn => ?_⟩
    · refine sets_of_ite (f := fun s => s.modDie (coreDie c) fun y => { y with suploc := at_ - dieCore (coreDie c) 0 0 })
        (bad := fld v 20 44 ≠ 0 ∨ coreDie at_ ≠ coreDie c ∨ (!corePresent s at_) = true ∨ (s.die (coreDie c)).mailbox ≠ []) ?_ ?_
      · have hat : at_ = fld v 0 20 := (fld_zero v 20).symm
        rw [hn, hat]
        rfl
      · rw [fld_top v rfl, Bool.not_eq_true']
        simp only [not_or, not_not, Bool.not_eq_false]
        rfl
    · refine sets_of_ite (f := fun s => s.modDie (coreDie c) fun y => { y with wdog := v }) (bad := fld v 16 48 ≠ 0) (hn ▸ rfl) ?_
      rw [fld_top v rfl, not_not]
    · refine sets_of_ite (f := fun s => s.modCore c fun y => { y with raycfg := v })
        (bad := (fld v 48 16 ≠ 0 ∨ fld v 9 23 ≠ 0 ∨ fld v 0 9 = 0 ∨ 256 < fld v 0 9 ∨ fld v 40 8 = 0 ∨ 24 < tlru) ∨
          (tlru ≠ fld (s.core c).raycfg 32 5 ∧ ((s.core c).tslots ≠ [] ∨ (allocs s c).any fun a => decide (a.2 ≠ 0 ∧ 2 ^ 21 - 2 ^ 16 * tlru < a.1 + a.2)))) ?_ ?_
      · rw [hn, ite_or]
        rfl
      · rw [fld_top v rfl, fld_zero]
        simp only [fld, not_or, not_and_or, not_not, Bool.not_eq_true, List.any_eq_false, decide_eq_true_eq, Nat.not_lt, and_assoc, Nat.pos_iff_ne_zero]
        rfl
    · refine sets_of_ite (f := fun s => s.modCore c fun y => { y with rayovf := v })
        (bad := fld v 56 8 ≠ 0 ∨ fld v 48 3 ≠ 0 ∨ 24 < fld v 51 5 ∨ fld v 0 48 % (64 * 2 ^ fld v 51 5) ≠ 0 ∨ (s.core c).ovfN ≠ 0) (hn ▸ rfl) ?_
      rw [fld_top v rfl, fld_zero, Nat.dvd_iff_mod_eq_zero]
      simp only [fld, not_or, not_not, Nat.not_lt]
      rfl

/-! ### Waits and yields (04 R123 to R125) -/

theorem countsAtMost_iff (x : Wave) (l t c p : BitVec 5) : x.countsAtMost l t c p = true ↔
    ¬((l ≠ 31 ∧ l.toNat < x.loads) ∨ (t ≠ 31 ∧ t.toNat < x.stores) ∨ (c ≠ 31 ∧ c.toNat < x.copies) ∨ (p ≠ 31 ∧ p.toNat < x.passes)) := by
  simp only [Wave.countsAtMost, Bool.and_eq_true, decide_eq_true_eq, not_or, not_and_or, not_not, Nat.not_lt, and_assoc]
theorem exec_cwait {l t c p : BitVec 5} (h : Admitted (.cwait l t c p) s) :
    exec (.cwait l t c p) s = .next (if s.curWave.countsAtMost l t c p then s.advance else stall s) :=
  does_of_checked (k := fun s => if s.curWave.countsAtMost l t c p then s.advance else stall s) rfl h
theorem waitsAndYields : Spec.WaitsAndYields := by
  intro s l t c p x held
  refine ⟨does_of_checked rfl, does_of_checked rfl, fun h ha => ?_, fun h ha => ?_⟩
  · rw [exec_cwait ha, if_pos ((countsAtMost_iff ..).mpr h)]
  · rw [exec_cwait ha, if_neg fun hc => (countsAtMost_iff ..).mp hc h]

end

/-- Settles O21, register by register. -/
theorem stateRegistersAndWaits : Obligations.StateRegistersAndWaits := ⟨readStateRegister, writeStateRegister, waitsAndYields⟩

end Sys2Proof.Machine
end

section
namespace Sys2Proof.Machine

/-! ## The start and the end of a wave -/

section
variable {s t : State}

/-! ### The registers of a wave that starts (01 R31, 05 R138) -/

theorem hi_make {perm base len addr : Nat} (hp : perm < 2 ^ 8) :
    (Cap.make perm base len addr).hi.toNat = perm * 2 ^ 56 + base % 2 ^ 25 * 2 ^ 25 + len % 2 ^ 25 :=
  (BitVec.toNat_ofNat ..).trans (Nat.mod_eq_of_lt (by omega))
theorem perm_make {perm base len addr : Nat} (hp : perm < 2 ^ 8) : (Cap.make perm base len addr).perm = perm := by
  unfold Cap.perm fld
  rw [hi_make hp]
  omega
/-- A capability with E = 0 gives back the bounds it was made of, where its address lies in the base's window. -/
theorem bounds_make {perm base len addr : Nat} (hp : perm < 2 ^ 8) (hb : addr / 2 ^ 25 * 2 ^ 25 + base % 2 ^ 25 = base) (ha : addr < 2 ^ 55) (hl : len < 2 ^ 25) :
    (Cap.make perm base len addr).base = base ∧ (Cap.make perm base len addr).top = base + len ∧ (Cap.make perm base len addr).addr = addr := by
  have haddr : (Cap.make perm base len addr).addr = addr := by
    have hlo : (Cap.make perm base len addr).lo.toNat = addr % 2 ^ 55 := (BitVec.toNat_ofNat ..).trans (Nat.mod_eq_of_lt (by omega))
    unfold Cap.addr
    rw [hlo]
    omega
  have hexp : (Cap.make perm base len addr).exp = 0 := by
    unfold Cap.exp fld
    rw [hi_make hp]
    omega
  have hbase : (Cap.make perm base len addr).base = base := by
    unfold Cap.base Cap.b fld
    rw [hexp, haddr, hi_make hp]
    omega
  refine ⟨hbase, ?_, haddr⟩
  unfold Cap.top Cap.len fld
  rw [hbase, hexp, hi_make hp]
  omega
/-- The registers of a wave that starts, with a stack or without. -/
theorem get_started {c2 c3 c4 c5 c6 c7 : Cap} {p : Prop} [Decidable p] (n : Nat) :
    Tbl.get ({} : Cap) ((if p then [] else [(2, c2)]) ++ [(3, c3), (4, c4), (5, c5), (6, c6), (7, c7)]) n =
      if n = 2 ∧ ¬p then c2 else if n = 3 then c3 else if n = 4 then c4 else if n = 5 then c5 else if n = 6 then c6 else if n = 7 then c7 else {} := by
  by_cases hp : p
  · simp [hp, Tbl.get]
  · by_cases hn : n = 2 <;> simp [hp, hn, Tbl.get]
theorem waveStart : Spec.WaveStart := by
  intro s w grp h gidx widx soff base r sup c3 c5 t x len
  have hx : x = _ := (Tbl.get_set_same ({} : Wave) _ w _ : Tbl.get ({} : Wave) t.waves w = _)
  clear_value x
  subst hx
  have hperm : permLD + permST + permLC + permSC + permAT + permES + permED < 2 ^ 8 := by decide
  refine ⟨rfl, rfl, rfl, rfl, rfl, decide_eq_true_iff, rfl, (get_started 1).trans rfl, fun h0 => (get_started 2).trans (if_neg fun h => h.2 h0),
    (get_started 3).trans rfl, ?_, ?_, fun hs hl => ?_, (get_started 5).trans rfl, (get_started 6).trans rfl, (get_started 7).trans rfl, fun n hn => ?_,
    fun _ _ => rfl, fun _ => rfl, rfl, rfl, rfl, ?_⟩
  · exact congrArg Cap.tag ((get_started 4).trans rfl)
  · exact (congrArg Cap.perm ((get_started 4).trans rfl)).trans (perm_make hperm)
  · obtain ⟨hb, ht, ha⟩ := bounds_make (base := 0x7F * 2 ^ 48 + soff) (addr := 0x7F * 2 ^ 48 + soff) hperm (by omega) (by omega) hl
    exact ⟨(congrArg Cap.base ((get_started 4).trans rfl)).trans hb, (congrArg Cap.top ((get_started 4).trans rfl)).trans ht,
      (congrArg Cap.addr ((get_started 4).trans rfl)).trans ha⟩
  · refine (if_neg (by omega)).trans ((get_started n).trans ?_)
    rw [if_neg (by omega), if_neg (by omega), if_neg (by omega), if_neg (by omega), if_neg (by omega), if_neg (by omega)]
  · dsimp only
    split
    · exact .inl rfl
    · exact .inr rfl

end
end Sys2Proof.Machine
end

section
namespace Sys2Proof.Machine

/-! ### What is left of a wave that has ended (04 R127, 12 R299, 16 R390) -/

section
variable {s t u : State} {w : Nat}

/-! #### Its gathered stores drain -/

/-- The entry with a number, closed. -/
def closeEntry (f : Nat) (old : Bool) (y : Sgb) : Sgb := if y.fgs = f then { y with closed := true, sent := y.sent || !old } else y
theorem drainEntry_sgb (c f : Nat) : ∃ b, ((drainEntry s c f).core c).sgb = (s.core c).sgb.map (closeEntry f b) := by
  unfold drainEntry
  split
  next hn =>
    refine ⟨true, ((List.map_congr_left fun y hy => ?_).trans (List.map_id _)).symm⟩
    exact if_neg fun h => List.find?_eq_none.mp hn y hy (decide_eq_true h)
  next e _ =>
    extract_lets older s1
    have h1 : (s1.core c).sgb = (s.core c).sgb.map (closeEntry f older) := congrArg Core.sgb (State.modCore_core ..)
    refine ⟨older, ?_⟩
    split <;> exact h1
theorem closeEntry_same (f : Nat) (b : Bool) (y : Sgb) : (closeEntry f b y).fgs = y.fgs ∧ (closeEntry f b y).writers = y.writers ∧
    (y.closed = true → (closeEntry f b y).closed = true) ∧ (y.fgs = f → (closeEntry f b y).closed = true) := by
  unfold closeEntry
  split
  · exact ⟨rfl, rfl, fun _ => rfl, fun _ => rfl⟩
  next h => exact ⟨rfl, rfl, id, fun h' => absurd h' h⟩
/-- Entries that drain are closed and stay so; no entry's number or writers change. -/
theorem drainEntries_sgb (c : Nat) (l : List Sgb) : ∀ {s : State}, ∀ y ∈ ((l.foldl (fun s e => drainEntry s c e.fgs) s).core c).sgb,
    ∃ x ∈ (s.core c).sgb, x.fgs = y.fgs ∧ x.writers = y.writers ∧ (x.closed = true → y.closed = true) ∧ (y.fgs ∈ l.map (·.fgs) → y.closed = true) := by
  induction l with
  | nil => exact fun y hy => ⟨y, hy, rfl, rfl, id, nofun⟩
  | cons e l ih =>
    intro s y hy
    obtain ⟨x, hx, hfgs, hwr, hcl, hin⟩ := ih y hy
    obtain ⟨b, hb⟩ := drainEntry_sgb (s := s) c e.fgs
    rw [hb] at hx
    obtain ⟨z, hz, rfl⟩ := List.mem_map.mp hx
    obtain ⟨hzf, hzw, hzc, hze⟩ := closeEntry_same e.fgs b z
    refine ⟨z, hz, hzf.symm.trans hfgs, hzw.symm.trans hwr, hcl ∘ hzc, fun hy => ?_⟩
    rcases List.mem_cons.mp hy with h | h
    · exact hcl (hze (hzf.symm.trans (hfgs.trans h)))
    · exact hin h
theorem drainWhere_holdsWave (c : Nat) : ∀ e ∈ ((drainWhere s c (holdsWave w)).core c).sgb, waveSlot w ∈ e.writers → e.closed = true := by
  intro e he hw
  obtain ⟨x, hx, hfgs, hwr, -, hin⟩ := drainEntries_sgb c _ e he
  refine hin (hfgs ▸ List.mem_map_of_mem (List.mem_filter.mpr ⟨hx, ?_⟩))
  unfold holdsWave
  rw [hwr]
  exact List.contains_iff_mem.mpr hw
theorem drainWhere_waiters (c : Nat) (p : Sgb → Bool) : (drainWhere s c p).waiters = s.waiters := by
  refine List.foldlRecOn (motive := fun t : State => t.waiters = s.waiters) _ _ rfl fun t ht e _ => ?_
  unfold drainEntry
  split
  · exact ht
  · extract_lets older s1
    split <;> exact ht

/-! #### It waits on no barrier -/

theorem deregister_waiters (a : Agent) : (deregister s a).waiters = s.waiters.filter fun x => x.agent ≠ a := by
  unfold deregister
  split
  next hn =>
    refine (List.filter_eq_self.mpr fun x hx => ?_).symm
    exact decide_eq_true fun h => List.find?_eq_none.mp hn x hx (decide_eq_true h)
  · rfl

/-! #### What stands of it, and what leaves that standing -/

/-- A wave that has ended. -/
structure Gone (w : Nat) (t : State) : Prop where
  run : (t.wave w).run = .ended
  fault : (t.wave w).fault = none
  regs : (t.wave w).c = []
  lanes : (t.wave w).v = []
  waits : ∀ x ∈ t.waiters, x.agent ≠ .wave w
  stores : ∀ e ∈ (t.core (waveCore w)).sgb, waveSlot w ∈ e.writers → e.closed = true
  streams : ∀ k ∈ (t.core (waveCore w)).streams, k.2.owner ≠ some w
  port : (t.core (waveCore w)).port.st = .idle ∨ (t.core (waveCore w)).port.owner ≠ w ∨ (t.core (waveCore w)).port.orphan = true

/-- `t` has the wave `w` and the cores of `s`, and no more that waits. -/
structure Spares (w : Nat) (s t : State) : Prop where
  wave : t.wave w = s.wave w
  cores : t.cores = s.cores
  waits : ∀ x ∈ t.waiters, x ∈ s.waiters

theorem Spares.refl (s : State) : Spares w s s := ⟨rfl, rfl, fun _ => id⟩
theorem Spares.trans (h : Spares w s t) (k : Spares w t u) : Spares w s u :=
  ⟨k.wave.trans h.wave, k.cores.trans h.cores, fun x hx => h.waits x (k.waits x hx)⟩
theorem Spares.of_eq (hw : t.waves = s.waves) (hc : t.cores = s.cores) (hx : t.waiters = s.waiters) : Spares w s t :=
  ⟨by unfold State.wave; rw [hw], hc, fun _ h => hx ▸ h⟩
theorem Spares.modWave {n : Nat} {f : Wave → Wave} (h : Spares w s t) (hn : n ≠ w) : Spares w s (t.modWave n f) :=
  h.trans ⟨State.modWave_wave_other _ _ _ _ hn.symm, rfl, fun _ => id⟩
theorem Gone.spared (h : Gone w s) (k : Spares w s t) : Gone w t := by
  have hc : t.core (waveCore w) = s.core (waveCore w) := by unfold State.core; rw [k.cores]
  refine ⟨?_, ?_, ?_, ?_, fun x hx => h.waits x (k.waits x hx), ?_, ?_, ?_⟩
  · rw [k.wave]; exact h.run
  · rw [k.wave]; exact h.fault
  · rw [k.wave]; exact h.regs
  · rw [k.wave]; exact h.lanes
  · rw [hc]; exact h.stores
  · rw [hc]; exact h.streams
  · rw [hc]; exact h.port

theorem spares_modGrid {h : Nat} {f : Grid → Grid} : Spares w s (s.modGrid h f) := by
  unfold State.modGrid
  split
  · exact .refl s
  · exact .of_eq rfl rfl rfl
theorem spares_passOn {h n : Nat} {k : Tbl Nat} : Spares w s (passOn s h n k) :=
  (Spares.of_eq rfl rfl rfl : Spares w s s.stamp).trans spares_modGrid
theorem spares_poke {k : Nat} {bs : List Byte} : Spares w s (poke s k bs) := ⟨rfl, rfl, fun _ => id⟩
theorem spares_deregister {a : Agent} : Spares w s (deregister s a) := by
  have hf : Spares w s { s with waiters := s.waiters.filter fun x => x.agent ≠ a } := ⟨rfl, rfl, fun _ => List.mem_of_mem_filter⟩
  unfold deregister
  split
  · exact .refl s
  · exact hf.trans spares_poke
theorem poke_vats (k : Nat) (bs : List Byte) : (poke s k bs).vats = s.vats := rfl
theorem deregister_vats (a : Agent) : (deregister s a).vats = s.vats := by
  unfold deregister
  split
  · rfl
  · exact poke_vats ..
theorem learn_of_wave {n : Nat} (h : s.cur = .wave n) (k : Tbl Nat) : s.learn k = s.modWave n fun x => { x with clk := joinClk x.clk k } := by
  unfold State.learn
  rw [h]
theorem markReg_of_wave {n : Nat} (h : s.cur = .wave n) (d : Nat) (b : Option Nat) : s.markReg d b = s.modWave n (·.mark d b) := by
  unfold State.markReg
  rw [h]
theorem setPc_of_wave {n : Nat} (h : s.cur = .wave n) (c : Cap) : s.setPc c = s.modWave n fun x => { x with pc := c } := by
  unfold State.setPc
  rw [h]
/-- Another wave is woken. -/
theorem spares_wakeAgent {k : Wake} {n : Nat} (hk : k.agent = .wave n) (hn : n ≠ w) : Spares w s (wakeAgent s k) := by
  have h0 : Spares w s { s with cur := .wave n } := .of_eq rfl rfl rfl
  unfold wakeAgent
  rw [hk]
  split
  · exact .refl s
  extract_lets old s1 s2
  have h1 : Spares w s s1 := by
    simp only [s1]
    rw [learn_of_wave rfl, State.setData, State.setReg_of_wave _ n _ _ rfl, markReg_of_wave rfl, State.advance, setPc_of_wave rfl]
    exact (((h0.modWave hn).modWave hn).modWave hn).modWave hn
  have h2 : Spares w s s2 := h1.modWave hn
  clear_value s2
  exact h2.trans (.of_eq rfl rfl rfl)
theorem spares_freeCtx {v n : Nat} (h : ∀ p, (s.ctx v n).stopper = some p → p.1 ≠ w) : Spares w s (freeCtx s v n) := by
  unfold freeCtx
  extract_lets x s1 s2
  split
  · exact .refl s
  have h1 : Spares w s s1 := spares_passOn
  have h2 : Spares w s s2 := h1.trans (.of_eq rfl rfl rfl)
  clear_value s2
  split
  next n' d code hs => exact (h2.trans (spares_wakeAgent rfl (h _ hs))).modWave (h _ hs)
  · exact h2
theorem spares_stopCtx {v n : Nat} (h : ∀ p, (s.ctx v n).stopper = some p → p.1 ≠ w) : Spares w s (stopCtx s v n none) := by
  unfold stopCtx
  extract_lets s1 s2 s3
  have h1 : Spares w s s1 := spares_deregister.trans (.of_eq rfl rfl rfl)
  have hv : s1.vats = s.vats := deregister_vats _
  clear_value s1
  have h2 : Spares w s s2 := h1.trans (.of_eq rfl rfl rfl)
  have hx2 : (s2.ctx v n).stopper = (s.ctx v n).stopper := by
    simp only [s2, State.ctx, State.modVat, State.vat, State.setVat, hv, Tbl.get_set_same]
  clear_value s2
  have h3 : Spares w s s3 := h2.trans (.of_eq rfl rfl rfl)
  have hx3 : (s3.ctx v n).stopper = (s2.ctx v n).stopper := by simp only [s3, State.modCtx_ctx, Option.none_or]
  clear_value s3
  exact h3.trans (spares_freeCtx fun p hp => h p (hx2 ▸ hx3 ▸ hp))

/-! #### EXIT -/

theorem get_map_snd {α : Type} (d : α) (f : α → α) (hd : f d = d) (l : Tbl α) (n : Nat) : Tbl.get d (l.map fun e => (e.1, f e.2)) n = f (Tbl.get d l n) := by
  induction l with
  | nil => exact hd.symm
  | cons e l ih =>
    obtain ⟨k, v⟩ := e
    simp only [List.map_cons, Tbl.get, ih]
    split <;> rfl
theorem closePort_port : ((closePort s w).core (waveCore w)).port.st = .idle ∨ ((closePort s w).core (waveCore w)).port.owner ≠ w ∨
    ((closePort s w).core (waveCore w)).port.orphan = true := by
  unfold closePort
  rw [State.modCore_core]
  split
  next h => exact h.imp_right .inl
  · split
    · exact .inr (.inr rfl)
    · exact .inl rfl
theorem closePort_sgb : ((closePort s w).core (waveCore w)).sgb = (s.core (waveCore w)).sgb := by
  unfold closePort
  rw [State.modCore_core]
  split
  · rfl
  · split <;> rfl
theorem passOn_vats (h n : Nat) (k : Tbl Nat) : (passOn s h n k).vats = s.vats :=
  State.modGrid_field s.stamp (fun t : State => t.vats) (fun _ _ _ => rfl) h _
theorem gone_endWave : Gone w (endWave s w) := by
  unfold endWave
  extract_lets x c s1 s2 s3 s4 s5 s6 s7 s8 s9
  have h1 : ∀ x ∈ s1.waiters, x.agent ≠ .wave w := by
    intro x hx
    rw [deregister_waiters] at hx
    exact of_decide_eq_true (List.mem_filter.mp hx).2
  have h3 : s3.waiters = s1.waiters := drainWhere_waiters ..
  have hsgb : ∀ e ∈ (s3.core c).sgb, waveSlot w ∈ e.writers → e.closed = true := drainWhere_holdsWave c
  clear_value s3
  have h7 : Gone w s7 := by
    have hw : s7.wave w = _ := State.modWave_wave ..
    have hc : s6.core c = _ := State.modCore_core (s := s5) c _
    have hc7 : s7.core c = s6.core c := rfl
    refine ⟨?_, ?_, ?_, ?_, fun x hx => h1 x (h3 ▸ hx), ?_, ?_, ?_⟩
    · rw [hw]
    · rw [hw]
    · rw [hw]
    · rw [hw]
    · intro e he
      rw [hc7, hc] at he
      exact hsgb e (closePort_sgb (s := s3) ▸ he)
    · intro k hk
      rw [hc7, hc] at hk
      exact of_decide_eq_true (List.mem_filter.mp hk).2
    · rw [hc7, hc]
      exact closePort_port (s := s3)
  have hstop : ∀ n p, (s5.ctx (coreVat c) n).stopper = some p → p.1 ≠ w := by
    intro n p hp
    have hx : s5.ctx (coreVat c) n = { s4.ctx (coreVat c) n with stopper := (s4.ctx (coreVat c) n).stopper.filter fun p => p.1 ≠ w } := by
      simp only [s5, State.ctx, State.modVat_vat]
      exact get_map_snd _ (fun k : Ctx => { k with stopper := k.stopper.filter fun p => p.1 ≠ w }) rfl _ _
    rw [hx] at hp
    exact of_decide_eq_true (Option.filter_eq_some_iff.mp hp).2
  have hv8 : s8.vats = s5.vats := passOn_vats ..
  have h8 : Gone w s8 := h7.spared spares_passOn
  clear_value s8
  have h9 : Gone w s9 := h8.spared (.of_eq rfl rfl rfl)
  have hx9 (n : Nat) : s9.ctx (coreVat c) n = s5.ctx (coreVat c) n := by
    unfold State.ctx State.vat
    rw [show s9.vats = s5.vats from hv8]
  clear_value s9 s5
  split
  · split
    next n _ => exact h9.spared (spares_stopCtx fun p hp => hstop n p (hx9 n ▸ hp))
    · exact h9
  · exact h8
theorem exits : Spec.Exits := by
  intro s w hw ha
  have hx : exec .exit s = .next (if s.curWave.loads ≠ 0 then stall s else endWave s s.curW) :=
    does_of_checked (k := fun s => if s.curWave.loads ≠ 0 then stall s else endWave s s.curW) rfl ha
  have hcw : s.curW = w := curW_of_wave hw
  unfold State.curWave at hx
  rw [hcw] at hx
  refine ⟨fun hl => by rw [hx, if_pos hl], fun hl => ⟨endWave s w, by rw [hx, if_neg (not_not.mpr hl)], ?_⟩⟩
  obtain ⟨hrun, hfault, hregs, hlanes, hwaits, hstores, hstreams, hport⟩ := gone_endWave (s := s) (w := w)
  refine ⟨hrun, hfault, fun n => ?_, fun n l => ?_, hwaits, hstores, hstreams, hport⟩
  · unfold Wave.reg
    rw [hregs]
    exact ite_self _
  · unfold Wave.lane
    rw [hlanes]
    rfl

end

/-- Settles O26: the registers that `startWave` makes, and what `endWave` leaves of a wave. -/
theorem waveStartAndExit : Obligations.WaveStartAndExit := ⟨waveStart, exits⟩

end Sys2Proof.Machine
end

section
namespace Sys2Proof.Laws

/-! ## What a word made of a base and fields reads as

Places of fields are pairs (width, from), as `mostOf` has them; places that the decoder reads are pairs (from, length), as `accept` has them. -/

theorem opnd_toNat (w : W32) (lo len : Nat) : (opnd w lo len).toNat = fld w lo len := rfl
theorem fld_eq_extract (w : W32) (lo len : Nat) : fld w lo len = (w.extractLsb' lo len).toNat := by
  rw [BitVec.extractLsb'_toNat, Nat.shiftRight_eq_div_pow, fld]
/-- Two words agree in a field where they agree bit by bit. -/
theorem fld_eq_iff {w x : W32} {lo len : Nat} : fld w lo len = fld x lo len ↔ ∀ j < len, w.getLsbD (lo + j) = x.getLsbD (lo + j) := by
  rw [fld_eq_extract, fld_eq_extract, ← BitVec.toNat_eq, BitVec.eq_of_getLsbD_eq_iff]
  refine forall₂_congr fun j hj => ?_
  simp [hj]
theorem getLsbD_of_fld_eq_zero {w : W32} {lo len j : Nat} (h : fld w lo len = 0) (hl : lo ≤ j) (hj : j < lo + len) : w.getLsbD j = false := by
  have hb := fld_eq_iff (x := 0#32).mp (h.trans (by simp [fld])) (j - lo) (by omega)
  rw [Nat.add_sub_cancel' hl] at hb
  simpa using hb
theorem fld_pair {w : W32} {a m b n q : Nat} (h : fld w a m * 2 ^ n + fld w b n = q) : fld w a m = q / 2 ^ n ∧ fld w b n = q % 2 ^ n := by
  subst h
  have hb : fld w b n < 2 ^ n := Nat.mod_lt _ (Nat.two_pow_pos n)
  rw [Nat.mul_add_mod', Nat.mod_eq_of_lt hb, Nat.add_comm, Nat.add_mul_div_right _ _ (Nat.two_pow_pos n), Nat.div_eq_of_lt hb, Nat.zero_add]
  exact ⟨rfl, rfl⟩

/-! ### One field more -/

theorem word_cons (base v lo : Nat) (ns : List (Nat × Nat)) : word base ((v, lo) :: ns) = word base ns + BitVec.ofNat 32 (v * 2 ^ lo) := by
  have h (ns : List (Nat × Nat)) (x y : Nat) : ns.foldl (fun acc f => acc + f.1 * 2 ^ f.2) (x + y) = ns.foldl (fun acc f => acc + f.1 * 2 ^ f.2) x + y := by
    induction ns generalizing x with
    | nil => rfl
    | cons f ns ih => rw [List.foldl_cons, List.foldl_cons, ← ih, Nat.add_right_comm]
  rw [word, List.foldl_cons, h, BitVec.ofNat_add, word]

section
variable {x : W32} {n lo : Nat} {v : BitVec n} (h : fld x lo n = 0)
include h

/-- A field that is put where a word has zeros carries nothing on: its bits stand beside the word's. -/
theorem add_field : x + BitVec.ofNat 32 (v.toNat * 2 ^ lo) = x ||| v.setWidth 32 <<< lo := by
  have hv : BitVec.ofNat 32 (v.toNat * 2 ^ lo) = v.setWidth 32 <<< lo := BitVec.eq_of_toNat_eq (by simp [Nat.shiftLeft_eq])
  rw [hv]
  refine BitVec.add_eq_or_of_and_eq_zero _ _ (BitVec.eq_of_getLsbD_eq fun i _ => ?_)
  rw [BitVec.getLsbD_and, BitVec.getLsbD_shiftLeft, BitVec.getLsbD_setWidth]
  by_cases hin : lo ≤ i ∧ i < lo + n
  · simp [getLsbD_of_fld_eq_zero h hin.1 hin.2]
  · by_cases hl : i < lo
    · simp [hl]
    · simp [BitVec.getLsbD_of_ge v (i - lo) (by omega)]
/-- A field leaves the bits beside it. -/
theorem fld_add_field {a len : Nat} (hd : lo + n ≤ a ∨ a + len ≤ lo) : fld (x + BitVec.ofNat 32 (v.toNat * 2 ^ lo)) a len = fld x a len := by
  rw [add_field h]
  refine fld_eq_iff.mpr fun j hj => ?_
  rw [BitVec.getLsbD_or, BitVec.getLsbD_shiftLeft, BitVec.getLsbD_setWidth]
  rcases hd with hd | hd
  · simp [BitVec.getLsbD_of_ge v (a + j - lo) (by omega)]
  · simp [show a + j < lo by omega]
theorem opnd_add_field (hl : lo + n ≤ 32) : opnd (x + BitVec.ofNat 32 (v.toNat * 2 ^ lo)) lo n = v := by
  rw [add_field h]
  apply BitVec.eq_of_toNat_eq
  rw [opnd_toNat, fld_eq_extract, ← BitVec.toNat_eq]
  refine BitVec.eq_of_getLsbD_eq fun j hj => ?_
  have hx : x.getLsbD (lo + j) = false := getLsbD_of_fld_eq_zero h (Nat.le_add_right ..) (by omega)
  simp only [BitVec.getLsbD_extractLsb', BitVec.getLsbD_or, BitVec.getLsbD_shiftLeft, BitVec.getLsbD_setWidth, hx]
  simp [hj, show lo + j < 32 by omega, show j < 32 by omega]

end

/-! ### All fields -/

/-- The fields whose numbers `word` takes, and their places. -/
inductive Laid : List Field → List (Nat × Nat) → List (Nat × Nat) → Prop
  | nil : Laid [] [] []
  | cons {n lo : Nat} {v : BitVec n} {fs : List Field} {ns ps : List (Nat × Nat)} (h : Laid fs ns ps) : Laid (⟨n, v, lo⟩ :: fs) ((v.toNat, lo) :: ns) ((n, lo) :: ps)

/-- Bit `j` lies in one of the places. -/
def within (ps : List (Nat × Nat)) (j : Nat) : Bool := ps.any fun p => decide (p.2 ≤ j ∧ j < p.2 + p.1)
/-- The `len` bits from `lo` lie in none of the places. -/
def outside (ps : List (Nat × Nat)) (lo len : Nat) : Bool := ps.all fun p => decide (p.2 + p.1 ≤ lo ∨ lo + len ≤ p.2)
/-- The places lie in a word, one beside the other, and the base has zeros there. -/
def apart (base : Nat) : List (Nat × Nat) → Bool
  | [] => decide (base < 2 ^ 32)
  | p :: ps => decide (p.2 + p.1 ≤ 32) && decide (base / 2 ^ p.2 % 2 ^ p.1 = 0) && outside ps p.2 p.1 && apart base ps

/-- The word has the bits of the base outside the places. -/
def Based (w : W32) (base : Nat) (ps : List (Nat × Nat)) : Prop := ∀ lo len, outside ps lo len = true → fld w lo len = base / 2 ^ lo % 2 ^ len
/-- Each of the fields stands in the word. -/
def Stand (w : W32) : List Field → Prop
  | [] => True
  | ⟨n, v, lo⟩ :: fs => opnd w lo n = v ∧ Stand w fs
/-- The word has the bits of the base in the places (from, length). -/
def Agree (w : W32) (base : Nat) : List (Nat × Nat) → Prop
  | [] => True
  | (lo, len) :: cs => fld w lo len = base / 2 ^ lo % 2 ^ len ∧ Agree w base cs

section
variable {w x : W32} {base : Nat} {fs : List Field} {ns ps cs zs : List (Nat × Nat)}

theorem Agree.fld_eq (h : Agree w base cs) : ∀ c ∈ cs, fld w c.1 c.2 = base / 2 ^ c.1 % 2 ^ c.2 := by
  induction cs with
  | nil => nofun
  | cons c cs ih => exact List.forall_mem_cons.mpr ⟨h.1, ih h.2⟩
theorem outside_cons {p : Nat × Nat} {lo len : Nat} : outside (p :: ps) lo len = true ↔ (p.2 + p.1 ≤ lo ∨ lo + len ≤ p.2) ∧ outside ps lo len = true := by
  simp [outside]
theorem apart_cons {p : Nat × Nat} :
    apart base (p :: ps) = true ↔ p.2 + p.1 ≤ 32 ∧ base / 2 ^ p.2 % 2 ^ p.1 = 0 ∧ outside ps p.2 p.1 = true ∧ apart base ps = true := by
  simp [apart, and_assoc]

theorem Laid.based (hl : Laid fs ns ps) (ha : apart base ps = true) : Based (word base ns) base ps := by
  induction hl with
  | nil =>
    intro lo len _
    rw [fld, word, List.foldl_nil, BitVec.toNat_ofNat, Nat.mod_eq_of_lt (of_decide_eq_true ha)]
  | cons _ ih =>
    intro lo len ho
    obtain ⟨-, hz, hb, ha⟩ := apart_cons.mp ha
    obtain ⟨hd, ho⟩ := outside_cons.mp ho
    rw [word_cons, fld_add_field ((ih ha _ _ hb).trans hz) hd, ih ha _ _ ho]
theorem Laid.stand_add (hl : Laid fs ns ps) {n lo : Nat} {v : BitVec n} (h : fld x lo n = 0) (ho : outside ps lo n = true) (hs : Stand x fs) :
    Stand (x + BitVec.ofNat 32 (v.toNat * 2 ^ lo)) fs := by
  induction hl with
  | nil => trivial
  | cons _ ih =>
    obtain ⟨hd, ho⟩ := outside_cons.mp ho
    obtain ⟨rfl, hs⟩ := hs
    exact ⟨BitVec.eq_of_toNat_eq (fld_add_field h hd.symm), ih ho hs⟩
theorem Laid.stand (hl : Laid fs ns ps) (ha : apart base ps = true) : Stand (word base ns) fs := by
  induction hl with
  | nil => trivial
  | cons hl ih =>
    obtain ⟨h32, hz, ho, ha⟩ := apart_cons.mp ha
    have hx := (hl.based ha _ _ ho).trans hz
    rw [word_cons]
    exact ⟨opnd_add_field hx h32, hl.stand_add hx ho (ih ha)⟩
theorem Laid.fld_eq (hl : Laid fs ns ps) (hw : Stand w fs) (hx : Stand x fs) : ∀ p ∈ ps, fld w p.2 p.1 = fld x p.2 p.1 := by
  induction hl with
  | nil => nofun
  | cons _ ih => exact List.forall_mem_cons.mpr ⟨congrArg BitVec.toNat (hw.1.trans hx.1.symm), ih hw.2 hx.2⟩

/-- Words that agree in places which together hold every bit are equal. -/
theorem eq_of_fld_eq (hc : (List.range 32).all (within ps) = true) (h : ∀ p ∈ ps, fld w p.2 p.1 = fld x p.2 p.1) : w = x := by
  refine BitVec.eq_of_getLsbD_eq fun j hj => ?_
  obtain ⟨p, hp, hin⟩ := List.any_eq_true.mp (List.all_eq_true.mp hc j (List.mem_range.mpr hj))
  obtain ⟨hl, hu⟩ := of_decide_eq_true hin
  have hb := fld_eq_iff.mp (h p hp) (j - p.2) (by omega)
  rwa [Nat.add_sub_cancel' hl] at hb

/-- The places that must be zero lie beside the fields, and the base has zeros there. -/
def blank (base : Nat) (zs ps : List (Nat × Nat)) : Bool := zs.all fun z => outside ps z.1 z.2 && decide (base / 2 ^ z.1 % 2 ^ z.2 = 0)
/-- The fields, the places that must be zero and the constants of the base are a whole word: no bit is ignored. -/
def tiled (base : Nat) (cs zs ps : List (Nat × Nat)) : Bool :=
  apart base ps && blank base zs ps && cs.all (fun c => outside ps c.1 c.2) && (List.range 32).all (within ((cs ++ zs).map Prod.swap ++ ps))

theorem Based.zero (h : Based w base ps) (hz : blank base zs ps = true) : ∀ z ∈ zs, fld w z.1 z.2 = 0 := fun z hm => by
  obtain ⟨ho, h0⟩ := Bool.and_eq_true_iff.mp (List.all_eq_true.mp hz z hm)
  exact (h _ _ ho).trans (of_decide_eq_true h0)
/-- A word with the constants of a base, zeros where they must be and the fields is the word made of the base and the fields. -/
theorem Laid.word_eq (hl : Laid fs ns ps) (ht : tiled base cs zs ps = true) (hc : Agree w base cs) (hz : ∀ z ∈ zs, fld w z.1 z.2 = 0) (hf : Stand w fs) :
    word base ns = w := by
  simp only [tiled, Bool.and_eq_true] at ht
  obtain ⟨⟨⟨ha, hblank⟩, ho⟩, hcover⟩ := ht
  have hb := hl.based ha
  refine eq_of_fld_eq hcover fun p hp => ?_
  rcases List.mem_append.mp hp with hp | hp
  · obtain ⟨q, hq, rfl⟩ := List.mem_map.mp hp
    rcases List.mem_append.mp hq with hq | hq
    · exact (hb q.1 q.2 (List.all_eq_true.mp ho q hq)).trans (hc.fld_eq q hq).symm
    · exact (hb.zero hblank q hq).trans (hz q hq).symm
  · exact hl.fld_eq (hl.stand ha) hf p hp

end

/-! ## Decoding (02 R45, R63) -/

theorem accept_eq_ok {w : W32} {zs : List (Nat × Nat)} {i j : Instr} :
    accept w zs i = .ok j ↔ i = j ∧ wellFormed i = true ∧ ∀ z ∈ zs, fld w z.1 z.2 = 0 := by
  unfold accept
  split
  next hz =>
    have hz : ∀ z ∈ zs, fld w z.1 z.2 = 0 := fun z hm => of_decide_eq_true (List.all_eq_true.mp hz z hm)
    split
    next hi => exact ⟨fun h => ⟨Except.ok.inj h, hi, hz⟩, fun ⟨h, _⟩ => congrArg _ h⟩
    next hi => exact ⟨nofun, fun ⟨_, h, _⟩ => absurd h hi⟩
  next hz => exact ⟨nofun, fun ⟨_, _, h⟩ => absurd (List.all_eq_true.mpr fun z hm => decide_eq_true (h z hm)) hz⟩

/-- What `encode` makes of the instruction, if it is well formed, decodes to it. -/
def Decodes (i : Instr) : Prop := ∀ w, wellFormed i = true → encode i = some w → decode w = .ok i

/-- An instruction decodes from its word when the decoder finds it in every word with the constants of its base and with its fields. -/
theorem decodes_of {i : Instr} {base : Nat} {fs : List Field} {ns ps : List (Nat × Nat)} (he : encode i = some (word base ns)) (hl : Laid fs ns ps)
    (ha : apart base ps = true) (hd : ∀ w, Based w base ps → Stand w fs → ∃ zs j, decode w = accept w zs j ∧ j = i ∧ blank base zs ps = true) : Decodes i := by
  intro w hi h
  obtain rfl := Option.some.inj (he.symm.trans h)
  have hb := hl.based ha
  obtain ⟨zs, j, hx, hj, hz⟩ := hd _ hb (hl.stand ha)
  rw [hx, hj]
  exact accept_eq_ok.mpr ⟨rfl, hi, hb.zero hz⟩

/-- What an arm of the decoder accepts has the arm's word, when the constants that lead to the arm, the places it checks and the fields it reads are the whole word. -/
theorem encodes_of {w : W32} {i j : Instr} {base : Nat} {fs : List Field} {zs ns ps : List (Nat × Nat)} (cs : List (Nat × Nat)) (h : accept w zs i = .ok j)
    (he : encode i = some (word base ns)) (hl : Laid fs ns ps) (hf : Stand w fs) (hc : Agree w base cs) (ht : tiled base cs zs ps = true) :
    wellFormed j = true ∧ encode j = some w := by
  obtain ⟨rfl, hi, hz⟩ := accept_eq_ok.mp h
  rw [he, hl.word_eq ht hc hz hf]
  exact ⟨hi, rfl⟩

/-! ### What an arm accepts has that word -/

section
variable {w : W32} {i : Instr}

theorem encodes_major01 (hm : fld w 26 6 = 0x01) (h : decode01 w = .ok i) : wellFormed i = true ∧ encode i = some w := by
  unfold decode01 at h
  split at h
  case h_30 => cases h
  all_goals next hn => exact encodes_of [(26, 6), (0, 6)] h rfl (by repeat constructor) (by repeat constructor) ⟨hm, hn, trivial⟩ rfl
theorem encodes_major0D (hm : fld w 26 6 = 0x0D) (h : decode0D w = .ok i) : wellFormed i = true ∧ encode i = some w := by
  unfold decode0D at h
  split at h
  case h_9 => cases h
  all_goals next hn => exact encodes_of [(26, 6), (11, 3)] h rfl (by repeat constructor) (by repeat constructor) ⟨hm, hn, trivial⟩ rfl
theorem encodes_major18 (hm : fld w 26 6 = 0x18) (h : decode18 w = .ok i) : wellFormed i = true ∧ encode i = some w := by
  unfold decode18 at h
  split at h
  case h_9 => cases h
  all_goals next hn => exact encodes_of [(26, 6), (0, 8)] h rfl (by repeat constructor) (by repeat constructor) ⟨hm, hn, trivial⟩ rfl
theorem encodes_major1D (hm : fld w 26 6 = 0x1D) (h : decode1D w = .ok i) : wellFormed i = true ∧ encode i = some w := by
  unfold decode1D at h
  split at h
  case h_13 => cases h
  all_goals next hn => exact encodes_of [(26, 6), (0, 5)] h rfl (by repeat constructor) (by repeat constructor) ⟨hm, hn, trivial⟩ rfl
theorem encodes_major20 (hm : fld w 26 6 = 0x20) (h : decode20 w = .ok i) : wellFormed i = true ∧ encode i = some w := by
  unfold decode20 at h
  split at h
  case h_26 => cases h
  all_goals next hn => exact encodes_of [(26, 6), (0, 5)] h rfl (by repeat constructor) (by repeat constructor) ⟨hm, hn, trivial⟩ rfl
theorem encodes_major22 (hm : fld w 26 6 = 0x22) (h : decode22 w = .ok i) : wellFormed i = true ∧ encode i = some w := by
  unfold decode22 at h
  split at h
  case h_7 => cases h
  all_goals next hn => exact encodes_of [(26, 6), (9, 3)] h rfl (by repeat constructor) (by repeat constructor) ⟨hm, hn, trivial⟩ rfl
theorem encodes_major24 (hm : fld w 26 6 = 0x24) (h : decode24 w = .ok i) : wellFormed i = true ∧ encode i = some w := by
  unfold decode24 at h
  split at h
  case h_20 => cases h
  all_goals next hn => exact encodes_of [(26, 6), (0, 6)] h rfl (by repeat constructor) (by repeat constructor) ⟨hm, hn, trivial⟩ rfl
theorem encodes_major25 (hm : fld w 26 6 = 0x25) (h : decode25 w = .ok i) : wellFormed i = true ∧ encode i = some w := by
  unfold decode25 at h
  split at h
  case h_7 => cases h
  all_goals next hn => exact encodes_of [(26, 6), (0, 5)] h rfl (by repeat constructor) (by repeat constructor) ⟨hm, hn, trivial⟩ rfl
theorem encodes_major26 (hm : fld w 26 6 = 0x26) (h : decode26 w = .ok i) : wellFormed i = true ∧ encode i = some w := by
  unfold decode26 at h
  split at h
  case h_23 => cases h
  all_goals next hn => exact encodes_of [(26, 6), (0, 5)] h rfl (by repeat constructor) (by repeat constructor) ⟨hm, hn, trivial⟩ rfl
theorem encodes_major28 (hm : fld w 26 6 = 0x28) (h : decode28 w = .ok i) : wellFormed i = true ∧ encode i = some w := by
  unfold decode28 at h
  split at h
  case h_10 => cases h
  all_goals next hn => exact encodes_of [(26, 6), (0, 5)] h rfl (by repeat constructor) (by repeat constructor) ⟨hm, hn, trivial⟩ rfl
theorem encodes_major2C (hm : fld w 26 6 = 0x2C) (h : decode2C w = .ok i) : wellFormed i = true ∧ encode i = some w := by
  unfold decode2C at h
  split at h
  case h_7 => cases h
  all_goals next hn => exact encodes_of [(26, 6), (0, 5)] h rfl (by repeat constructor) (by repeat constructor) ⟨hm, hn, trivial⟩ rfl
theorem encodes_major2D (hm : fld w 26 6 = 0x2D) (h : decode2D w = .ok i) : wellFormed i = true ∧ encode i = some w := by
  unfold decode2D at h
  split at h
  case h_4 => cases h
  all_goals next hn => exact encodes_of [(26, 6), (19, 2)] h rfl (by repeat constructor) (by repeat constructor) ⟨hm, hn, trivial⟩ rfl
theorem encodes_major2F (hm : fld w 26 6 = 0x2F) (h : decode2F w = .ok i) : wellFormed i = true ∧ encode i = some w := by
  unfold decode2F at h
  split at h
  case h_3 => cases h
  all_goals next hn => exact encodes_of [(26, 6), (0, 6)] h rfl (by repeat constructor) (by repeat constructor) ⟨hm, hn, trivial⟩ rfl
theorem encodes_major33 (hm : fld w 26 6 = 0x33) (h : decode33 w = .ok i) : wellFormed i = true ∧ encode i = some w := by
  unfold decode33 at h
  split at h
  case h_11 => cases h
  all_goals next hn => exact encodes_of [(26, 6), (0, 4)] h rfl (by repeat constructor) (by repeat constructor) ⟨hm, hn, trivial⟩ rfl
theorem encodes_major34 (hm : fld w 26 6 = 0x34) (h : decode34 w = .ok i) : wellFormed i = true ∧ encode i = some w := by
  unfold decode34 at h
  split at h
  case h_13 => cases h
  all_goals next hn => exact encodes_of [(26, 6), (0, 4)] h rfl (by repeat constructor) (by repeat constructor) ⟨hm, hn, trivial⟩ rfl
theorem encodes_major35 (hm : fld w 26 6 = 0x35) (h : decode35 w = .ok i) : wellFormed i = true ∧ encode i = some w := by
  unfold decode35 at h
  split at h
  case h_4 => cases h
  all_goals next hn => exact encodes_of [(26, 6), (0, 4)] h rfl (by repeat constructor) (by repeat constructor) ⟨hm, hn, trivial⟩ rfl
theorem encodes_major36 (hm : fld w 26 6 = 0x36) (h : decode36 w = .ok i) : wellFormed i = true ∧ encode i = some w := by
  unfold decode36 at h
  split at h
  case h_13 => cases h
  all_goals next hn =>
    obtain ⟨hhi, hlo⟩ := fld_pair (n := 2) hn
    exact encodes_of [(26, 6), (12, 2), (0, 2)] h rfl (by repeat constructor) (by repeat constructor) ⟨hm, hhi, hlo, trivial⟩ rfl
theorem encodes_major37 (hm : fld w 26 6 = 0x37) (h : decode37 w = .ok i) : wellFormed i = true ∧ encode i = some w := by
  unfold decode37 at h
  split at h
  case h_12 => cases h
  all_goals next hn => exact encodes_of [(26, 6), (0, 5)] h rfl (by repeat constructor) (by repeat constructor) ⟨hm, hn, trivial⟩ rfl
theorem encodes_major38 (hm : fld w 26 6 = 0x38) (h : decode38 w = .ok i) : wellFormed i = true ∧ encode i = some w := by
  unfold decode38 at h
  split at h
  case h_14 => cases h
  all_goals next hn => exact encodes_of [(26, 6), (18, 5)] h rfl (by repeat constructor) (by repeat constructor) ⟨hm, hn, trivial⟩ rfl
theorem encodes_major39 (hm : fld w 26 6 = 0x39) (h : decode39 w = .ok i) : wellFormed i = true ∧ encode i = some w := by
  unfold decode39 at h
  split at h
  case h_15 => cases h
  all_goals next hn =>
    obtain ⟨hhi, hlo⟩ := fld_pair (n := 5) hn
    exact encodes_of [(26, 6), (23, 3), (18, 5)] h rfl (by repeat constructor) (by repeat constructor) ⟨hm, hhi, hlo, trivial⟩ rfl
theorem encodes_major3A (hm : fld w 26 6 = 0x3A) (h : decode3A w = .ok i) : wellFormed i = true ∧ encode i = some w := by
  unfold decode3A at h
  split at h
  case h_10 => cases h
  all_goals next hn => exact encodes_of [(26, 6), (18, 5)] h rfl (by repeat constructor) (by repeat constructor) ⟨hm, hn, trivial⟩ rfl
theorem encodes_major3B (hm : fld w 26 6 = 0x3B) (h : decode3B w = .ok i) : wellFormed i = true ∧ encode i = some w := by
  unfold decode3B at h
  split at h
  case h_8 => cases h
  all_goals next hn => exact encodes_of [(26, 6), (18, 5)] h rfl (by repeat constructor) (by repeat constructor) ⟨hm, hn, trivial⟩ rfl
theorem encodes_major3D (hm : fld w 26 6 = 0x3D) (h : decode3D w = .ok i) : wellFormed i = true ∧ encode i = some w := by
  unfold decode3D at h
  split at h
  case h_14 => cases h
  all_goals next hn => exact encodes_of [(26, 6), (20, 6)] h rfl (by repeat constructor) (by repeat constructor) ⟨hm, hn, trivial⟩ rfl
theorem encodes_major3E (hm : fld w 26 6 = 0x3E) (h : decode3E w = .ok i) : wellFormed i = true ∧ encode i = some w := by
  unfold decode3E at h
  split at h
  case h_8 => cases h
  all_goals next hn => exact encodes_of [(26, 6), (20, 6)] h rfl (by repeat constructor) (by repeat constructor) ⟨hm, hn, trivial⟩ rfl

theorem encodes_of_decode (h : decode w = .ok i) : wellFormed i = true ∧ encode i = some w := by
  unfold decode at h
  split at h
  case h_1 hm => exact encodes_major01 hm h
  case h_13 hm => exact encodes_major0D hm h
  case h_24 hm => exact encodes_major18 hm h
  case h_29 hm => exact encodes_major1D hm h
  case h_30 hm => exact encodes_major20 hm h
  case h_32 hm => exact encodes_major22 hm h
  case h_34 hm => exact encodes_major24 hm h
  case h_35 hm => exact encodes_major25 hm h
  case h_36 hm => exact encodes_major26 hm h
  case h_38 hm => exact encodes_major28 hm h
  case h_39 hm => exact encodes_major2C hm h
  case h_40 hm => exact encodes_major2D hm h
  case h_42 hm => exact encodes_major2F hm h
  case h_46 hm => exact encodes_major33 hm h
  case h_47 hm => exact encodes_major34 hm h
  case h_48 hm => exact encodes_major35 hm h
  case h_49 hm => exact encodes_major36 hm h
  case h_50 hm => exact encodes_major37 hm h
  case h_51 hm => exact encodes_major38 hm h
  case h_52 hm => exact encodes_major39 hm h
  case h_53 hm => exact encodes_major3A hm h
  case h_54 hm => exact encodes_major3B hm h
  case h_55 hm => exact encodes_major3D hm h
  case h_56 hm => exact encodes_major3E hm h
  case h_57 => cases h
  all_goals next hm => exact encodes_of [(26, 6)] h rfl (by repeat constructor) (by repeat constructor) ⟨hm, trivial⟩ rfl

end

/-! ### What is encoded decodes

Each theorem is of the instructions of one decoder, whose arm the constants of the word lead to. -/

theorem decodes_scalarImmediates (d a s : BitVec 6) (k : BitVec 14) (w : BitVec 1) (m : BitVec 20) :
    ∀ i ∈ [Instr.addi d a k, .andi d a k, .ori d a k, .xori d a k, .slli d a w s, .srli d a w s, .srai d a w s, .slti d a k, .sltiu d a k, .lui d m,
      .auipc d m, .jal d m, .jalr d a, .cinci d a k, .csetbi d a k], Decodes i := by
  simp only [List.mem_cons, List.not_mem_nil, or_false, forall_eq_or_imp, forall_eq]
  and_intros
  all_goals
    exact decodes_of rfl (by repeat constructor) rfl fun w hw hf =>
      ⟨_, _, by unfold decode; rw [hw 26 6 rfl]; exact rfl, by simp only [Stand] at hf; simp only [hf], rfl⟩

theorem decodes_scalarMemory (d a : BitVec 6) (s : BitVec 4) (q : BitVec 2) (o : BitVec 8) :
    ∀ i ∈ [Instr.ldB d a s q o, .ldH d a s q o, .ldW d a s q o, .ldD d a s q o, .stB d a s q o, .stH d a s q o, .stW d a s q o, .stD d a s q o,
      .ldc d a s q o, .stc d a s q o], Decodes i := by
  simp only [List.mem_cons, List.not_mem_nil, or_false, forall_eq_or_imp, forall_eq]
  and_intros
  all_goals
    exact decodes_of rfl (by repeat constructor) rfl fun w hw hf =>
      ⟨_, _, by unfold decode; rw [hw 26 6 rfl]; exact rfl, by simp only [Stand] at hf; simp only [hf], rfl⟩

theorem decodes_vectorImmediates (d a : BitVec 7) (k : BitVec 12) :
    ∀ i ∈ [Instr.vaddi d a k, .vmovi d k], Decodes i := by
  simp only [List.mem_cons, List.not_mem_nil, or_false, forall_eq_or_imp, forall_eq]
  and_intros
  all_goals
    exact decodes_of rfl (by repeat constructor) rfl fun w hw hf =>
      ⟨_, _, by unfold decode; rw [hw 26 6 rfl]; exact rfl, by simp only [Stand] at hf; simp only [hf], rfl⟩

theorem decodes_vectorMemory (d a : BitVec 7) (c : BitVec 6) (s : BitVec 4) (q : BitVec 2) :
    ∀ i ∈ [Instr.vld d a c s q, .vst d a c s q, .vldmc d a c s q], Decodes i := by
  simp only [List.mem_cons, List.not_mem_nil, or_false, forall_eq_or_imp, forall_eq]
  and_intros
  all_goals
    exact decodes_of rfl (by repeat constructor) rfl fun w hw hf =>
      ⟨_, _, by unfold decode; rw [hw 26 6 rfl]; exact rfl, by simp only [Stand] at hf; simp only [hf], rfl⟩

theorem decodes_vfcvt {d a s r c} : Decodes (.vfcvt d a s r c) :=
  decodes_of rfl (by repeat constructor) rfl fun w hw hf =>
    ⟨_, _, by unfold decode; rw [hw 26 6 rfl]; exact rfl, by simp only [Stand] at hf; simp only [hf], rfl⟩

theorem decodes_rep {l c x y z s} : Decodes (.rep l c x y z s) :=
  decodes_of rfl (by repeat constructor) rfl fun w hw hf =>
    ⟨_, _, by unfold decode; rw [hw 26 6 rfl]; exact rfl, by simp only [Stand] at hf; simp only [hf], rfl⟩

theorem decodes_major01 (d a b : BitVec 6) (w : BitVec 1) :
    ∀ i ∈ [Instr.add d a b w, .sub d a b w, .mul d a b w, .mulh d a b w, .mulhu d a b w, .div d a b w, .divu d a b w, .rem d a b w, .remu d a b w,
      .and d a b w, .or d a b w, .xor d a b w, .andn d a b w, .sll d a b w, .srl d a b w, .sra d a b w, .ror d a b w, .min d a b w, .max d a b w,
      .minu d a b w, .maxu d a b w, .slt d a b w, .sltu d a b w, .seq d a b w, .sne d a b w, .clz d a w, .ctz d a w, .popc d a w, .brev d a w], Decodes i := by
  simp only [List.mem_cons, List.not_mem_nil, or_false, forall_eq_or_imp, forall_eq]
  and_intros
  all_goals
    exact decodes_of rfl (by repeat constructor) rfl fun w hw hf =>
      ⟨_, _, by unfold decode decode01; rw [hw 26 6 rfl, hw 0 6 rfl]; exact rfl, by simp only [Stand] at hf; simp only [hf], rfl⟩

theorem decodes_major0D (a b : BitVec 6) (o : BitVec 11) :
    ∀ i ∈ [Instr.beq a b o, .bne a b o, .blt a b o, .bge a b o, .bltu a b o, .bgeu a b o, .btag a o, .bntag a o], Decodes i := by
  simp only [List.mem_cons, List.not_mem_nil, or_false, forall_eq_or_imp, forall_eq]
  and_intros
  all_goals
    exact decodes_of rfl (by repeat constructor) rfl fun w hw hf =>
      ⟨_, _, by unfold decode decode0D; rw [hw 26 6 rfl, hw 11 3 rfl]; exact rfl, by simp only [Stand] at hf; simp only [hf], rfl⟩

theorem decodes_major18 (d a b s : BitVec 6) :
    ∀ i ∈ [Instr.cinc d a b, .csetb d a b, .cperm d a b, .cfmt d a b, .cfld d a s, .ctest d a, .cclrt d a, .csubc d a b], Decodes i := by
  simp only [List.mem_cons, List.not_mem_nil, or_false, forall_eq_or_imp, forall_eq]
  and_intros
  all_goals
    exact decodes_of rfl (by repeat constructor) rfl fun w hw hf =>
      ⟨_, _, by unfold decode decode18; rw [hw 26 6 rfl, hw 0 8 rfl]; exact rfl, by simp only [Stand] at hf; simp only [hf], rfl⟩

theorem decodes_major1D (d a b c : BitVec 6) (m p : BitVec 3) :
    ∀ i ∈ [Instr.fadd d a b m, .fsub d a b m, .fmul d a b m, .ffma d a b m, .fdiv d a b m, .fsqrt d a m, .fmin d a b, .fmax d a b, .fcmp d a b p,
      .fcvt d a c m, .fclass d a, .fsgn d a b p], Decodes i := by
  simp only [List.mem_cons, List.not_mem_nil, or_false, forall_eq_or_imp, forall_eq]
  and_intros
  all_goals
    exact decodes_of rfl (by repeat constructor) rfl fun w hw hf =>
      ⟨_, _, by unfold decode decode1D; rw [hw 26 6 rfl, hw 0 5 rfl]; exact rfl, by simp only [Stand] at hf; simp only [hf], rfl⟩

theorem decodes_major20 (d a b : BitVec 7) :
    ∀ i ∈ [Instr.vadd d a b, .vsub d a b, .vmul d a b, .vmulh d a b, .vmad d a b, .vand d a b, .vor d a b, .vxor d a b, .vandn d a b, .vshl d a b,
      .vshr d a b, .vsra d a b, .vmin d a b, .vmax d a b, .vminu d a b, .vmaxu d a b, .vabs d a, .vsel d a b, .vmov d a, .vcmpEq d a b,
      .vcmpNe d a b, .vcmpLt d a b, .vcmpGe d a b, .vcmpLtu d a b, .vcmpGeu d a b], Decodes i := by
  simp only [List.mem_cons, List.not_mem_nil, or_false, forall_eq_or_imp, forall_eq]
  and_intros
  all_goals
    exact decodes_of rfl (by repeat constructor) rfl fun w hw hf =>
      ⟨_, _, by unfold decode decode20; rw [hw 26 6 rfl, hw 0 5 rfl]; exact rfl, by simp only [Stand] at hf; simp only [hf], rfl⟩

theorem decodes_major22 (d a : BitVec 7) (s : BitVec 5) (k : BitVec 9) :
    ∀ i ∈ [Instr.vshli d a s, .vshri d a s, .vsrai d a s, .vandi d a k, .vori d a k, .vxori d a k], Decodes i := by
  simp only [List.mem_cons, List.not_mem_nil, or_false, forall_eq_or_imp, forall_eq]
  and_intros
  all_goals
    exact decodes_of rfl (by repeat constructor) rfl fun w hw hf =>
      ⟨_, _, by unfold decode decode22; rw [hw 26 6 rfl, hw 9 3 rfl]; exact rfl, by simp only [Stand] at hf; simp only [hf], rfl⟩

theorem decodes_major24 (d a : BitVec 7) (c : BitVec 6) (l : BitVec 5) :
    ∀ i ∈ [Instr.vbcst d c, .vshfl d a c, .vrot d a c, .vredAdd a c, .vredMin a c, .vredMax a c, .vredMinu a c, .vredMaxu a c, .vredAnd a c,
      .vredOr a c, .vredXor a c, .vredFadd a c, .vredFmin a c, .vredFmax a c, .vballot a c, .vpopc a c, .vfirst a c, .vextr l a c, .vins d l c], Decodes i := by
  simp only [List.mem_cons, List.not_mem_nil, or_false, forall_eq_or_imp, forall_eq]
  and_intros
  all_goals
    exact decodes_of rfl (by repeat constructor) rfl fun w hw hf =>
      ⟨_, _, by unfold decode decode24; rw [hw 26 6 rfl, hw 0 6 rfl]; exact rfl, by simp only [Stand] at hf; simp only [hf], rfl⟩

theorem decodes_major25 (d a b : BitVec 7) :
    ∀ i ∈ [Instr.vperm d a b, .vscanAdd d a, .vscanFadd d a, .vscanMin d a, .vscanMax d a, .vlane d], Decodes i := by
  simp only [List.mem_cons, List.not_mem_nil, or_false, forall_eq_or_imp, forall_eq]
  and_intros
  all_goals
    exact decodes_of rfl (by repeat constructor) rfl fun w hw hf =>
      ⟨_, _, by unfold decode decode25; rw [hw 26 6 rfl, hw 0 5 rfl]; exact rfl, by simp only [Stand] at hf; simp only [hf], rfl⟩

theorem decodes_major26 (d a b : BitVec 7) :
    ∀ i ∈ [Instr.vfadd d a b, .vfsub d a b, .vfmul d a b, .vfma d a b, .vfmin d a b, .vfmax d a b, .vfdiv d a b, .vfsqrt d a, .vrcp d a, .vrsq d a,
      .vexp2 d a, .vlog2 d a, .vsin d a, .vcos d a, .vfclass d a, .vfcmpEq d a b, .vfcmpNe d a b, .vfcmpLt d a b, .vfcmpLe d a b, .vfcmpGt d a b,
      .vfcmpGe d a b, .vfcmpUn d a b], Decodes i := by
  simp only [List.mem_cons, List.not_mem_nil, or_false, forall_eq_or_imp, forall_eq]
  and_intros
  all_goals
    exact decodes_of rfl (by repeat constructor) rfl fun w hw hf =>
      ⟨_, _, by unfold decode decode26; rw [hw 26 6 rfl, hw 0 5 rfl]; exact rfl, by simp only [Stand] at hf; simp only [hf], rfl⟩

theorem decodes_major28 (d a b : BitVec 7) :
    ∀ i ∈ [Instr.vbadd2 d a b, .vbmul2 d a b, .vbfma2 d a b, .vpk d a b, .vunpkLo d a, .vunpkHi d a, .vdot4I8 d a b, .vdot4Ui8 d a b, .vdotb d a b], Decodes i := by
  simp only [List.mem_cons, List.not_mem_nil, or_false, forall_eq_or_imp, forall_eq]
  and_intros
  all_goals
    exact decodes_of rfl (by repeat constructor) rfl fun w hw hf =>
      ⟨_, _, by unfold decode decode28; rw [hw 26 6 rfl, hw 0 5 rfl]; exact rfl, by simp only [Stand] at hf; simp only [hf], rfl⟩

theorem decodes_major2C (a : BitVec 7) :
    ∀ i ∈ [Instr.vif a, .velse, .vendif, .vloop, .vbrk a, .vcont a], Decodes i := by
  simp only [List.mem_cons, List.not_mem_nil, or_false, forall_eq_or_imp, forall_eq]
  and_intros
  all_goals
    exact decodes_of rfl (by repeat constructor) rfl fun w hw hf =>
      ⟨_, _, by unfold decode decode2C; rw [hw 26 6 rfl, hw 0 5 rfl]; exact rfl, by simp only [Stand] at hf; simp only [hf], rfl⟩

theorem decodes_major2D (k : BitVec 12) (a : BitVec 7) :
    ∀ i ∈ [Instr.vendl k, .vany a k, .vnone a k], Decodes i := by
  simp only [List.mem_cons, List.not_mem_nil, or_false, forall_eq_or_imp, forall_eq]
  and_intros
  all_goals
    exact decodes_of rfl (by repeat constructor) rfl fun w hw hf =>
      ⟨_, _, by unfold decode decode2D; rw [hw 26 6 rfl, hw 19 2 rfl]; exact rfl, by simp only [Stand] at hf; simp only [hf], rfl⟩

theorem decodes_major2F (d a : BitVec 7) (c : BitVec 6) :
    ∀ i ∈ [Instr.vrebal d a c, .vplane d a c], Decodes i := by
  simp only [List.mem_cons, List.not_mem_nil, or_false, forall_eq_or_imp, forall_eq]
  and_intros
  all_goals
    exact decodes_of rfl (by repeat constructor) rfl fun w hw hf =>
      ⟨_, _, by unfold decode decode2F; rw [hw 26 6 rfl, hw 0 6 rfl]; exact rfl, by simp only [Stand] at hf; simp only [hf], rfl⟩

theorem decodes_major33 (d a b : BitVec 6) (s : BitVec 4) :
    ∀ i ∈ [Instr.atomAdd d a b s, .atomMin d a b s, .atomMax d a b s, .atomMinu d a b s, .atomMaxu d a b s, .atomAnd d a b s, .atomOr d a b s,
      .atomXor d a b s, .atomSwap d a b s, .acas d a b s], Decodes i := by
  simp only [List.mem_cons, List.not_mem_nil, or_false, forall_eq_or_imp, forall_eq]
  and_intros
  all_goals
    exact decodes_of rfl (by repeat constructor) rfl fun w hw hf =>
      ⟨_, _, by unfold decode decode33; rw [hw 26 6 rfl, hw 0 4 rfl]; exact rfl, by simp only [Stand] at hf; simp only [hf], rfl⟩

theorem decodes_major34 (d a b : BitVec 6) (s : BitVec 4) :
    ∀ i ∈ [Instr.atomAddW d a b s, .atomMinW d a b s, .atomMaxW d a b s, .atomMinuW d a b s, .atomMaxuW d a b s, .atomAndW d a b s, .atomOrW d a b s,
      .atomXorW d a b s, .atomSwapW d a b s, .atomFaddW d a b s, .atomBfadd2W d a b s, .acasW d a b s], Decodes i := by
  simp only [List.mem_cons, List.not_mem_nil, or_false, forall_eq_or_imp, forall_eq]
  and_intros
  all_goals
    exact decodes_of rfl (by repeat constructor) rfl fun w hw hf =>
      ⟨_, _, by unfold decode decode34; rw [hw 26 6 rfl, hw 0 4 rfl]; exact rfl, by simp only [Stand] at hf; simp only [hf], rfl⟩

theorem decodes_major35 (d a b : BitVec 6) (s : BitVec 4) :
    ∀ i ∈ [Instr.dqpush d a b s, .dqpop d a s, .dqsteal d a s], Decodes i := by
  simp only [List.mem_cons, List.not_mem_nil, or_false, forall_eq_or_imp, forall_eq]
  and_intros
  all_goals
    exact decodes_of rfl (by repeat constructor) rfl fun w hw hf =>
      ⟨_, _, by unfold decode decode35; rw [hw 26 6 rfl, hw 0 4 rfl]; exact rfl, by simp only [Stand] at hf; simp only [hf], rfl⟩

theorem decodes_major36 (d : BitVec 7) (o s : BitVec 4) (w : BitVec 1) (a : BitVec 6) :
    ∀ i ∈ [Instr.vatomAdd d o w a s, .vatomMin d o w a s, .vatomMax d o w a s, .vatomMinu d o w a s, .vatomMaxu d o w a s, .vatomAnd d o w a s,
      .vatomOr d o w a s, .vatomXor d o w a s, .vatomSwap d o w a s, .vatomFadd d o a s, .vatomBfadd2 d o a s, .vacas d o w a s], Decodes i := by
  simp only [List.mem_cons, List.not_mem_nil, or_false, forall_eq_or_imp, forall_eq]
  and_intros
  all_goals
    exact decodes_of rfl (by repeat constructor) rfl fun w hw hf =>
      ⟨_, _, by unfold decode decode36; rw [hw 26 6 rfl, hw 12 2 rfl, hw 0 2 rfl]; exact rfl, by simp only [Stand] at hf; simp only [hf], rfl⟩

theorem decodes_major37 (d a b : BitVec 6) (s : BitVec 3) :
    ∀ i ∈ [Instr.binit d a b, .barv a, .bexp a b, .bwait d a b, .btry d a b, .binv d a, .fence d a s, .rel a b s, .acq d a s, .acqp d a b s,
      .zfill a b], Decodes i := by
  simp only [List.mem_cons, List.not_mem_nil, or_false, forall_eq_or_imp, forall_eq]
  and_intros
  all_goals
    exact decodes_of rfl (by repeat constructor) rfl fun w hw hf =>
      ⟨_, _, by unfold decode decode37; rw [hw 26 6 rfl, hw 0 5 rfl]; exact rfl, by simp only [Stand] at hf; simp only [hf], rfl⟩

theorem decodes_major38 (n : BitVec 3) (d a b : BitVec 6) :
    ∀ i ∈ [Instr.cqpush n d a b, .cqtry n d a b, .cset n d a, .cgete n d b, .cbind n a, .ccancel n d, .cunbind a, .spop d a, .vspop d a, .evset a b,
      .evclr a b, .evrd d a, .evsig a], Decodes i := by
  simp only [List.mem_cons, List.not_mem_nil, or_false, forall_eq_or_imp, forall_eq]
  and_intros
  all_goals
    exact decodes_of rfl (by repeat constructor) rfl fun w hw hf =>
      ⟨_, _, by unfold decode decode38; rw [hw 26 6 rfl, hw 18 5 rfl]; exact rfl, by simp only [Stand] at hf; simp only [hf], rfl⟩

theorem decodes_major39 (a b d : BitVec 6) :
    ∀ i ∈ [Instr.pset a b, .pget d a, .pres d a, .prel a, .ppass a b, .pjoin a b, .pdrainO a, .pdrainU a, .pclr a, .mstart d a b, .mstop d a,
      .hgath d a, .hcsr d a, .hscat d a], Decodes i := by
  simp only [List.mem_cons, List.not_mem_nil, or_false, forall_eq_or_imp, forall_eq]
  and_intros
  all_goals
    exact decodes_of rfl (by repeat constructor) rfl fun w hw hf =>
      ⟨_, _, by unfold decode decode39; rw [hw 26 6 rfl, hw 23 3 rfl, hw 18 5 rfl]; exact rfl, by simp only [Stand] at hf; simp only [hf], rfl⟩

theorem decodes_major3A (d a b : BitVec 6) :
    ∀ i ∈ [Instr.rrecv d a b, .rsend d a b, .rhit d a, .rbox4 d a b, .rtri d a b, .rroute d a b, .tlreq d a b, .tlevict d a, .hqbind d a b], Decodes i := by
  simp only [List.mem_cons, List.not_mem_nil, or_false, forall_eq_or_imp, forall_eq]
  and_intros
  all_goals
    exact decodes_of rfl (by repeat constructor) rfl fun w hw hf =>
      ⟨_, _, by unfold decode decode3A; rw [hw 26 6 rfl, hw 18 5 rfl]; exact rfl, by simp only [Stand] at hf; simp only [hf], rfl⟩

theorem decodes_major3B (d a b : BitVec 6) :
    ∀ i ∈ [Instr.dbar d a b, .xph d a b, .xmit d a b, .xsel d a, .xrecv d a b, .xend d a, .xslots d a b], Decodes i := by
  simp only [List.mem_cons, List.not_mem_nil, or_false, forall_eq_or_imp, forall_eq]
  and_intros
  all_goals
    exact decodes_of rfl (by repeat constructor) rfl fun w hw hf =>
      ⟨_, _, by unfold decode decode3B; rw [hw 26 6 rfl, hw 18 5 rfl]; exact rfl, by simp only [Stand] at hf; simp only [hf], rfl⟩

theorem decodes_major3D (d a b : BitVec 6) (n : BitVec 12) (l s c p : BitVec 5) (k : BitVec 20) :
    ∀ i ∈ [Instr.nop, .gets d n, .sets a n, .cwait l s c p, .yield, .trap k, .bkpt k, .exit, .invl1, .invi, .launch d a, .grow d a b, .emit d a b], Decodes i := by
  simp only [List.mem_cons, List.not_mem_nil, or_false, forall_eq_or_imp, forall_eq]
  and_intros
  all_goals
    exact decodes_of rfl (by repeat constructor) rfl fun w hw hf =>
      ⟨_, _, by unfold decode decode3D; rw [hw 26 6 rfl, hw 20 6 rfl]; exact rfl, by simp only [Stand] at hf; simp only [hf], rfl⟩

theorem decodes_major3E (d a : BitVec 6) :
    ∀ i ∈ [Instr.mbxpop d, .wresume a, .wkill a, .gkill a, .gpreempt d a, .dbghalt a, .dbgrun a], Decodes i := by
  simp only [List.mem_cons, List.not_mem_nil, or_false, forall_eq_or_imp, forall_eq]
  and_intros
  all_goals
    exact decodes_of rfl (by repeat constructor) rfl fun w hw hf =>
      ⟨_, _, by unfold decode decode3E; rw [hw 26 6 rfl, hw 20 6 rfl]; exact rfl, by simp only [Stand] at hf; simp only [hf], rfl⟩
/-- Every instruction that has a word is what its word decodes to; a step of another agent has none. -/
theorem decodes (i : Instr) : Decodes i := by
  cases i with
  | addi d a k | andi d a k | ori d a k | xori d a k | slti d a k | sltiu d a k | cinci d a k | csetbi d a k =>
    exact decodes_scalarImmediates d a 0 k 0 0 _ (by simp)
  | slli d a w s | srli d a w s | srai d a w s =>
    exact decodes_scalarImmediates d a s 0 w 0 _ (by simp)
  | lui d m | auipc d m | jal d m =>
    exact decodes_scalarImmediates d 0 0 0 0 m _ (by simp)
  | jalr d a =>
    exact decodes_scalarImmediates d a 0 0 0 0 _ (by simp)
  | ldB d a s q o | ldH d a s q o | ldW d a s q o | ldD d a s q o | stB d a s q o | stH d a s q o | stW d a s q o | stD d a s q o | ldc d a s q o
  | stc d a s q o =>
    exact decodes_scalarMemory d a s q o _ (by simp)
  | vaddi d a k =>
    exact decodes_vectorImmediates d a k _ (by simp)
  | vmovi d k =>
    exact decodes_vectorImmediates d 0 k _ (by simp)
  | vld d a c s q | vst d a c s q | vldmc d a c s q =>
    exact decodes_vectorMemory d a c s q _ (by simp)
  | vfcvt => exact decodes_vfcvt
  | rep => exact decodes_rep
  | add d a b w | sub d a b w | mul d a b w | mulh d a b w | mulhu d a b w | div d a b w | divu d a b w | rem d a b w | remu d a b w | and d a b w
  | or d a b w | xor d a b w | andn d a b w | sll d a b w | srl d a b w | sra d a b w | ror d a b w | min d a b w | max d a b w | minu d a b w
  | maxu d a b w | slt d a b w | sltu d a b w | seq d a b w | sne d a b w =>
    exact decodes_major01 d a b w _ (by simp)
  | clz d a w | ctz d a w | popc d a w | brev d a w =>
    exact decodes_major01 d a 0 w _ (by simp)
  | beq a b o | bne a b o | blt a b o | bge a b o | bltu a b o | bgeu a b o =>
    exact decodes_major0D a b o _ (by simp)
  | btag a o | bntag a o =>
    exact decodes_major0D a 0 o _ (by simp)
  | cinc d a b | csetb d a b | cperm d a b | cfmt d a b | csubc d a b =>
    exact decodes_major18 d a b 0 _ (by simp)
  | cfld d a s =>
    exact decodes_major18 d a 0 s _ (by simp)
  | ctest d a | cclrt d a =>
    exact decodes_major18 d a 0 0 _ (by simp)
  | fadd d a b m | fsub d a b m | fmul d a b m | ffma d a b m | fdiv d a b m =>
    exact decodes_major1D d a b 0 m 0 _ (by simp)
  | fsqrt d a m =>
    exact decodes_major1D d a 0 0 m 0 _ (by simp)
  | fmin d a b | fmax d a b =>
    exact decodes_major1D d a b 0 0 0 _ (by simp)
  | fcmp d a b p | fsgn d a b p =>
    exact decodes_major1D d a b 0 0 p _ (by simp)
  | fcvt d a c m =>
    exact decodes_major1D d a 0 c m 0 _ (by simp)
  | fclass d a =>
    exact decodes_major1D d a 0 0 0 0 _ (by simp)
  | vadd d a b | vsub d a b | vmul d a b | vmulh d a b | vmad d a b | vand d a b | vor d a b | vxor d a b | vandn d a b | vshl d a b | vshr d a b
  | vsra d a b | vmin d a b | vmax d a b | vminu d a b | vmaxu d a b | vsel d a b | vcmpEq d a b | vcmpNe d a b | vcmpLt d a b | vcmpGe d a b
  | vcmpLtu d a b | vcmpGeu d a b =>
    exact decodes_major20 d a b _ (by simp)
  | vabs d a | vmov d a =>
    exact decodes_major20 d a 0 _ (by simp)
  | vshli d a s | vshri d a s | vsrai d a s =>
    exact decodes_major22 d a s 0 _ (by simp)
  | vandi d a k | vori d a k | vxori d a k =>
    exact decodes_major22 d a 0 k _ (by simp)
  | vbcst d c =>
    exact decodes_major24 d 0 c 0 _ (by simp)
  | vshfl d a c | vrot d a c =>
    exact decodes_major24 d a c 0 _ (by simp)
  | vredAdd a c | vredMin a c | vredMax a c | vredMinu a c | vredMaxu a c | vredAnd a c | vredOr a c | vredXor a c | vredFadd a c | vredFmin a c
  | vredFmax a c | vballot a c | vpopc a c | vfirst a c =>
    exact decodes_major24 0 a c 0 _ (by simp)
  | vextr l a c =>
    exact decodes_major24 0 a c l _ (by simp)
  | vins d l c =>
    exact decodes_major24 d 0 c l _ (by simp)
  | vperm d a b =>
    exact decodes_major25 d a b _ (by simp)
  | vscanAdd d a | vscanFadd d a | vscanMin d a | vscanMax d a =>
    exact decodes_major25 d a 0 _ (by simp)
  | vlane d =>
    exact decodes_major25 d 0 0 _ (by simp)
  | vfadd d a b | vfsub d a b | vfmul d a b | vfma d a b | vfmin d a b | vfmax d a b | vfdiv d a b | vfcmpEq d a b | vfcmpNe d a b | vfcmpLt d a b
  | vfcmpLe d a b | vfcmpGt d a b | vfcmpGe d a b | vfcmpUn d a b =>
    exact decodes_major26 d a b _ (by simp)
  | vfsqrt d a | vrcp d a | vrsq d a | vexp2 d a | vlog2 d a | vsin d a | vcos d a | vfclass d a =>
    exact decodes_major26 d a 0 _ (by simp)
  | vbadd2 d a b | vbmul2 d a b | vbfma2 d a b | vpk d a b | vdot4I8 d a b | vdot4Ui8 d a b | vdotb d a b =>
    exact decodes_major28 d a b _ (by simp)
  | vunpkLo d a | vunpkHi d a =>
    exact decodes_major28 d a 0 _ (by simp)
  | vif a | vbrk a | vcont a =>
    exact decodes_major2C a _ (by simp)
  | velse | vendif | vloop =>
    exact decodes_major2C 0 _ (by simp)
  | vendl k =>
    exact decodes_major2D k 0 _ (by simp)
  | vany a k | vnone a k =>
    exact decodes_major2D k a _ (by simp)
  | vrebal d a c | vplane d a c =>
    exact decodes_major2F d a c _ (by simp)
  | atomAdd d a b s | atomMin d a b s | atomMax d a b s | atomMinu d a b s | atomMaxu d a b s | atomAnd d a b s | atomOr d a b s | atomXor d a b s
  | atomSwap d a b s | acas d a b s =>
    exact decodes_major33 d a b s _ (by simp)
  | atomAddW d a b s | atomMinW d a b s | atomMaxW d a b s | atomMinuW d a b s | atomMaxuW d a b s | atomAndW d a b s | atomOrW d a b s
  | atomXorW d a b s | atomSwapW d a b s | atomFaddW d a b s | atomBfadd2W d a b s | acasW d a b s =>
    exact decodes_major34 d a b s _ (by simp)
  | dqpush d a b s =>
    exact decodes_major35 d a b s _ (by simp)
  | dqpop d a s | dqsteal d a s =>
    exact decodes_major35 d a 0 s _ (by simp)
  | vatomAdd d o w a s | vatomMin d o w a s | vatomMax d o w a s | vatomMinu d o w a s | vatomMaxu d o w a s | vatomAnd d o w a s | vatomOr d o w a s
  | vatomXor d o w a s | vatomSwap d o w a s | vacas d o w a s =>
    exact decodes_major36 d o s w a _ (by simp)
  | vatomFadd d o a s | vatomBfadd2 d o a s =>
    exact decodes_major36 d o s 0 a _ (by simp)
  | binit d a b | bwait d a b | btry d a b =>
    exact decodes_major37 d a b 0 _ (by simp)
  | barv a =>
    exact decodes_major37 0 a 0 0 _ (by simp)
  | bexp a b | zfill a b =>
    exact decodes_major37 0 a b 0 _ (by simp)
  | binv d a =>
    exact decodes_major37 d a 0 0 _ (by simp)
  | fence d a s | acq d a s =>
    exact decodes_major37 d a 0 s _ (by simp)
  | rel a b s =>
    exact decodes_major37 0 a b s _ (by simp)
  | acqp d a b s =>
    exact decodes_major37 d a b s _ (by simp)
  | cqpush n d a b | cqtry n d a b =>
    exact decodes_major38 n d a b _ (by simp)
  | cset n d a =>
    exact decodes_major38 n d a 0 _ (by simp)
  | cgete n d b =>
    exact decodes_major38 n d 0 b _ (by simp)
  | cbind n a =>
    exact decodes_major38 n 0 a 0 _ (by simp)
  | ccancel n d =>
    exact decodes_major38 n d 0 0 _ (by simp)
  | cunbind a | evsig a =>
    exact decodes_major38 0 0 a 0 _ (by simp)
  | spop d a | vspop d a | evrd d a =>
    exact decodes_major38 0 d a 0 _ (by simp)
  | evset a b | evclr a b =>
    exact decodes_major38 0 0 a b _ (by simp)
  | pset a b | ppass a b | pjoin a b =>
    exact decodes_major39 a b 0 _ (by simp)
  | pget d a | pres d a | mstop d a | hgath d a | hcsr d a | hscat d a =>
    exact decodes_major39 a 0 d _ (by simp)
  | prel a | pdrainO a | pdrainU a | pclr a =>
    exact decodes_major39 a 0 0 _ (by simp)
  | mstart d a b =>
    exact decodes_major39 a b d _ (by simp)
  | rrecv d a b | rsend d a b | rbox4 d a b | rtri d a b | rroute d a b | tlreq d a b | hqbind d a b =>
    exact decodes_major3A d a b _ (by simp)
  | rhit d a | tlevict d a =>
    exact decodes_major3A d a 0 _ (by simp)
  | dbar d a b | xph d a b | xmit d a b | xrecv d a b | xslots d a b =>
    exact decodes_major3B d a b _ (by simp)
  | xsel d a | xend d a =>
    exact decodes_major3B d a 0 _ (by simp)
  | nop | yield | exit | invl1 | invi =>
    exact decodes_major3D 0 0 0 0 0 0 0 0 0 _ (by simp)
  | gets d n =>
    exact decodes_major3D d 0 0 n 0 0 0 0 0 _ (by simp)
  | sets a n =>
    exact decodes_major3D 0 a 0 n 0 0 0 0 0 _ (by simp)
  | cwait l s c p =>
    exact decodes_major3D 0 0 0 0 l s c p 0 _ (by simp)
  | trap k | bkpt k =>
    exact decodes_major3D 0 0 0 0 0 0 0 0 k _ (by simp)
  | launch d a =>
    exact decodes_major3D d a 0 0 0 0 0 0 0 _ (by simp)
  | grow d a b | emit d a b =>
    exact decodes_major3D d a b 0 0 0 0 0 0 _ (by simp)
  | mbxpop d =>
    exact decodes_major3E d 0 _ (by simp)
  | wresume a | wkill a | gkill a | dbghalt a | dbgrun a =>
    exact decodes_major3E 0 a _ (by simp)
  | gpreempt d a =>
    exact decodes_major3E d a _ (by simp)
  | illegalInstruction | sgbIdleDrain | sgbDrainAck | mreqRead | mreqWrite | mreqAtomic | scratchRequest | loadReply | storeAck | pageWalkDone
  | multicastSend | leaseWaitDone | promote | promotionDone | promoteReply | barrierArrival | barrierCredit | barrierWake | workRequest
  | localSlotFill | masterTaskRequest | deferredRangeJoin | groupRunnable | prefetchTimeout | windowRotate | distributorReply | scratchRelease
  | gridRetire | batchTimeout | hitRecordArrive | hqtTimeout | shadingWaveLaunch | ladleRequestStart | ladleWriteAck | ladleComplete | ladleAbort
  | eventArrive | pressGrant | pressOpComplete | contextFree | spillTailReread | harpStart | harpComplete | harpAbort | harpShip | rayArrive
  | rayReinject | dirRay | dirHeatReport | dirTlreq | dirTlevict | pageInDone | pageInFail | replicaCopyDone | evictConfirm | routeQuery | routeReply
  | pageTransfer | tlreqReply | phaseStart | domainBroadcast | exchBeatSend | exchBeatArrive | exchCollReport | exchPhaseEnd | mailboxMessage
  | mailboxRetry | watchdogExpire | sliceEccError | linkDead | saveComplete | restore | leaseSync | leaseBoundTimeout | dieFence | journalEntry
  | launchSlotSubmit | sloterrClear | taggedWrite | taggedWriteDone | tlbInvalidate | tlbInvalidateDone | warmReset | registerWrite | hostMemRead
  | hostMemWrite | completionRecordWrite | vectorTimeFire | droopDetect | droopRecover | currentLimit | thermalLimit | sensorSample | firmwareUpdate
  | bootTimeout | attestation | standbyPowerOn | raystatRead | fieldRepair => exact nofun

/-- Settles O54: the constants of an instruction's word lead the decoder to its arm, and its operands stand in the word. -/
theorem decodingAnEncodedInstruction : Obligations.DecodingAnEncodedInstruction := fun i w hi h => decodes i w hi h

/-- Settles O55: what leads to an arm, what the arm checks and the operands it reads are the whole word. -/
theorem encodingADecodedWord : Obligations.EncodingADecodedWord := fun _ _ h => encodes_of_decode h

end Sys2Proof.Laws
end

section
namespace Sys2Proof.Laws

/-! ## Words of the spec -/

/-- Settles O53: each word is the one that its instruction is encoded as; the others have a major opcode that is not assigned. -/
theorem wordsOfTheSpec : Obligations.WordsOfTheSpec :=
  ⟨decodes (.lui 9 0x48D16) _ rfl rfl, decodes (.addi 9 9 0x2789) _ rfl rfl, decodes (.jalr 0 1) _ rfl rfl, decodes (.fence 9 0 6) _ rfl rfl,
    decodes (.gets 9 5) _ rfl rfl, decodes (.cwait 0 31 31 31) _ rfl rfl, ⟨.unassigned, rfl⟩, ⟨.unassigned, rfl⟩⟩

end Sys2Proof.Laws
end

section
namespace Sys2Proof.Machine

/-! ## Privileged instructions (02 R62, R63) -/

/-- A privileged instruction that waves may execute, and that uses no vector unit, is refused to a wave that is not a supervisor's. -/
theorem exec_of_unprivileged {i : Instr} {s : State} {w : Nat} {k : State → State} (hx : exec i s = checked i s k) (hw : s.cur = .wave w) (hs : (s.wave w).sup = false)
    (hwav : (regs i).wav = true) (hvec : (regs i).vec = false) (hp : (regs i).priv = true) : exec i s = .next (raise s ⟨.priv, i.code.setWidth 64⟩) := by
  have hv : waveVerdict i (s.wave w) = .trap (codeTrap .priv i.code) false := by
    unfold waveVerdict waveCheck
    rw [if_neg (by simp [hwav, hvec]), if_pos (by simp [hp, hs])]
  rw [hx, checked_of_trap hw hv, raise_of_wave hw]
  rfl

/-- Settles O23: each of the instructions is privileged, the accesses to state registers by the register's number. -/
theorem privilege : Obligations.Privilege := by
  intro s w a b n hw hs hn
  have hr : decide (2048 ≤ n.toNat) = true := decide_eq_true hn
  simp only [List.mem_cons, List.not_mem_nil, or_false, forall_eq_or_imp, forall_eq]
  refine ⟨fun _ => ?_, fun _ => ?_, fun _ => ?_, fun _ => ?_, fun _ => ?_, fun _ => ?_, fun _ => ?_, fun _ => ?_, fun _ => ?_⟩
  · exact exec_of_unprivileged ((rfl : _ = execMbxpop a s).trans (checkedMbxpop_eq ..)) hw hs rfl rfl rfl
  · exact exec_of_unprivileged ((rfl : _ = execWresume a s).trans (checkedWresume_eq ..)) hw hs rfl rfl rfl
  · exact exec_of_unprivileged ((rfl : _ = execWkill a s).trans (checkedWkill_eq ..)) hw hs rfl rfl rfl
  · exact exec_of_unprivileged ((rfl : _ = execGkill a s).trans (checkedGkill_eq ..)) hw hs rfl rfl rfl
  · exact exec_of_unprivileged ((rfl : _ = execGpreempt b a s).trans (checkedGpreempt_eq ..)) hw hs rfl rfl rfl
  · exact exec_of_unprivileged ((rfl : _ = execDbghalt a s).trans (checkedDbghalt_eq ..)) hw hs rfl rfl rfl
  · exact exec_of_unprivileged ((rfl : _ = execDbgrun a s).trans (checkedDbgrun_eq ..)) hw hs rfl rfl rfl
  · exact exec_of_unprivileged ((rfl : _ = execGets a n s).trans (checkedGets_eq ..)) hw hs rfl rfl hr
  · exact exec_of_unprivileged ((rfl : _ = execSets a n s).trans (checkedSets_eq ..)) hw hs rfl rfl hr

end Sys2Proof.Machine
end

section
namespace Sys2Proof.Machine

variable {s t : State}

/-! ## Scalar memory instructions (04 R119) -/

theorem send_mem (s : State) (r : Req) : (send s r).mem = s.mem := by
  unfold send
  extract_lets
  split <;> rfl
theorem send_tags (s : State) (r : Req) : (send s r).tags = s.tags := by
  unfold send
  extract_lets
  split <;> rfl

section
variable {w : Nat} {d a : BitVec 6} {sid : BitVec 4} {q : BitVec 2} {o : BitVec 8} {n : Nat}

theorem scalarLoad_of_trap {f : Trap} (h : checkAccess s (s.reg a.toNat) (eaM s a o n) n permLD n .load = (.error f, t)) :
    scalarLoad n d a sid q o s = raise t f := withData_of_trap h
theorem scalarLoad_of_still {p : Place} (hs : Spec.still s) (hw : s.cur = .wave w)
    (h : checkAccess s (s.reg a.toNat) (eaM s a o n) n permLD n .load = (.ok p, t)) :
    scalarLoad n d a sid q o s = (send (noteLeaf t p) (Spec.asks s sid q.toNat p.rep (.load d.toNat p.key n))).advance := by
  have hr := reads_place h
  have hcur : (noteLeaf t p).cur = .wave (noteLeaf t p).curW := by rw [hr.curW, curW_of_wave hw, hr.cur, hw]
  unfold scalarLoad
  rw [withData_of_still hs hw h, issue_read_of_still (hr.still hs) hcur rfl]
  unfold Spec.asks
  rw [hr.curW]

/-- What a scalar load does, of whatever width. -/
theorem loads_of_exec {i : Instr} (hx : Admitted i s → exec i s = .next (scalarLoad n d a sid q o s))
    (hw : Admitted i s → ∃ w, s.cur = .wave w) (hs : Spec.still s) : Admitted i s →
      let cap := s.reg a.toNat
      let ea : Int := cap.addr + o.toInt * n
      (∀ t s', checkAccess s cap ea n permLD n .load = (.error t, s') → exec i s = .next (raise s' t)) ∧
      (∀ p s', checkAccess s cap ea n permLD n .load = (.ok p, s') →
        let t := send (noteLeaf s' p) (Spec.asks s sid q.toNat p.rep (.load d.toNat p.key n))
        exec i s = .next t.advance ∧ (Spec.plain s → Spec.flat p → t.mem = s.mem ∧ t.tags = s.tags)) ∧
      (∀ k, Spec.inScratch s cap ea n permLD n .load k → exec i s = .next (send s (Spec.asks s sid q.toNat false (.load d.toNat k n))).advance) := by
  intro hadm cap ea
  obtain ⟨w, hv⟩ := hw hadm
  have hsent (p : Place) (s' : State) (h : checkAccess s cap ea n permLD n .load = (.ok p, s')) :
      exec i s = .next (send (noteLeaf s' p) (Spec.asks s sid q.toNat p.rep (.load d.toNat p.key n))).advance :=
    (hx hadm).trans (congrArg Host.Outcome.next (scalarLoad_of_still hs hv h))
  refine ⟨fun t s' h => (hx hadm).trans (congrArg Host.Outcome.next (scalarLoad_of_trap h)), fun p s' h => ⟨hsent p s' h, fun hp hf => ?_⟩, fun k hk => ?_⟩
  · have hc := calm_checkAccess hp (cap := cap) (ea := ea) (size := n) (need := permLD) (align := n) (u := .load)
    rw [h] at hc
    rw [noteLeaf_of_flat hf]
    exact ⟨(send_mem ..).trans hc.mem, (send_tags ..).trans hc.tags⟩
  · obtain ⟨hc, hwin, -, -⟩ := hk
    exact hsent ⟨k, none⟩ s (checkAccess_of_window hc hwin)

/-- The bytes of a scalar store are those of the register before its checks. -/
theorem scalarStore_eq (hs : Spec.still s) (hw : s.cur = .wave w) :
    scalarStore n d a sid q o s = withData s (s.reg a.toNat) (eaM s a o n) n permST n .store fun p t =>
      storeAt t p sid.toNat q.toNat (bytesOf n (s.lo d.toNat).toNat) false := by
  unfold scalarStore
  rcases h : checkAccess s (s.reg a.toNat) (eaM s a o n) n permST n .store with ⟨f | p, t⟩
  · rw [withData_of_trap h, withData_of_trap h]
  · have hr := reads_place h
    rw [withData_of_still hs hw h, withData_of_still hs hw h]
    unfold State.lo
    rw [hr.reg hw]

/-- What a scalar store does, of whatever width. -/
theorem stores_of_scalarStore {i : Instr} (hx : Admitted i s → exec i s = .next (scalarStore n d a sid q o s))
    (hw : Admitted i s → ∃ w, s.cur = .wave w) (hs : Spec.still s) (hn : n ∣ 128) (hn16 : n ≤ 16) (hn0 : 0 < n) :
    Spec.stores i s a sid q o n permST (bytesOf n (s.lo d.toNat).toNat) false := by
  refine stores_of_exec (fun hadm => ?_) hw hs hn hn16 hn0 (length_bytesOf ..)
  obtain ⟨w, hv⟩ := hw hadm
  exact (hx hadm).trans (congrArg Host.Outcome.next (scalarStore_eq hs hv))

end

theorem scalarLoads : Spec.ScalarLoads := by
  intro s d a sid q o hs
  refine ⟨?_, ?_, ?_, ?_⟩ <;>
    exact loads_of_exec (fun h => checked_of_admitted h _) (exists_wave_of_admitted · rfl) hs
theorem scalarStores : Spec.ScalarStores := by
  intro s d a sid q o hs
  refine ⟨?_, ?_, ?_, ?_⟩ <;>
    exact stores_of_scalarStore (fun h => checked_of_admitted h _) (exists_wave_of_admitted · rfl) hs (by decide) (by decide) (by decide)

end Sys2Proof.Machine
end

section
namespace Sys2Proof.Machine

variable {s t : State}

/-! ## Bytes and tags after a write -/

theorem readByte_writeBytes (bs : List Byte) : ∀ (m : List Host.Cell) (k x : Nat),
    readByte (writeBytes m k bs) x = if k ≤ x ∧ x < k + bs.length then bs.getD (x - k) 0 else readByte m x := by
  induction bs with
  | nil => intro m k x; rw [if_neg (by simp)]; rfl
  | cons b t ih =>
    intro m k x
    rw [writeBytes, ih, List.length_cons]
    rcases Nat.lt_trichotomy x k with h | rfl | h
    · rw [if_neg (by omega), if_neg (by omega), readByte_writeByte_other _ _ _ _ (by omega)]
    · rw [if_neg (by omega), if_pos (by omega), readByte_writeByte_same, Nat.sub_self]
      rfl
    · have hx : x - k = x - (k + 1) + 1 := by omega
      rw [readByte_writeByte_other _ _ _ _ (by omega), hx, List.getD_cons_succ]
      exact if_congr (by omega) rfl rfl
theorem Tbl.get_filter {α : Type} (d : α) (p : Nat → Bool) (t : Tbl α) (n : Nat) :
    Tbl.get d (t.filter fun e => p e.1) n = if p n then Tbl.get d t n else d := by
  induction t with
  | nil => simp [Tbl.get]
  | cons e t ih =>
    by_cases he : n = e.1
    · subst he
      by_cases hp : p e.1 = true
      · simp [Tbl.get, hp]
      · simp [ih, hp]
    · by_cases hp : p e.1 = true
      · simp [Tbl.get, hp, he, ih]
      · simp [Tbl.get, hp, he, ih]
theorem get_clearTags (t : Tbl Bool) {k n : Nat} (hn : 0 < n) (g : Nat) :
    Tbl.get false (clearTags t k n) g = if k / 16 ≤ g ∧ g ≤ (k + n - 1) / 16 then false else Tbl.get false t g := by
  unfold clearTags
  rw [if_neg (by omega), Tbl.get_filter false (fun x => decide (x < k / 16 ∨ (k + n - 1) / 16 < x))]
  by_cases h : k / 16 ≤ g ∧ g ≤ (k + n - 1) / 16
  · rw [if_pos h, if_neg (by simp; omega)]
  · rw [if_neg h, if_pos (by simp; omega)]

/-! ## A write that goes to no page that stands for zeros (08 R204 to R207) -/

theorem calm_dirtyLine (hp : Spec.plain s) {n l : Nat} (h : Calm s t) : Calm s (dirtyLine t n l) := by
  have hz : t.zeroed = [] := (h.plain hp).2.1
  have he : Tbl.erase t.zeroed l = t.zeroed := by rw [hz]; rfl
  unfold dirtyLine
  rw [he]
  exact calm_trimSlice hp (calm_modSlice h)
theorem calm_accessLine (hp : Spec.plain s) {l : Nat} {a w : Bool} (h : Calm s t) : Calm s (accessLine t l a w) := by
  unfold accessLine
  extract_lets k n data z
  have hd {u : State} (hu : Calm s u) : Calm s (data u) := .ite (calm_dirtyLine hp hu) hu
  clear_value z data
  rw [zpageOf_of_plain (h.plain hp), if_neg (by decide : ¬(none : Option ZPage).isSome = true)]
  exact .ite h (.ite (hd (calm_touchLine hp h)) (.ite (hd (calm_touchLine hp h)) h))
theorem calm_keepOld {k : Nat} (h : Calm s t) : Calm s (keepOld t k) :=
  .ite h (h.trans ⟨rfl, rfl, rfl, rfl, rfl, rfl, rfl, rfl⟩)

/-! ## What a write leaves: requests under way, and the entries of deques -/

theorem clearEntry_ringed (s : State) (z : ZPage) (k : Nat) : (clearEntry s z k).ringed = s.ringed := by
  unfold clearEntry
  split <;> rfl
theorem clearZPage_ringed (s : State) (z : ZPage) (keep : Nat) : (clearZPage s z keep).ringed = s.ringed :=
  List.foldlRecOn (motive := fun u : State => u.ringed = s.ringed) _ _ rfl fun u hu k _ => (clearEntry_ringed u z k).trans hu
theorem notePage_ringed (s : State) (k : Nat) : (notePage s k).ringed = s.ringed := by
  unfold notePage
  split
  · rfl
  · split <;> rfl
theorem evictLine_ringed (s : State) (h l : Nat) : (evictLine s h l).ringed = s.ringed := by
  unfold evictLine
  extract_lets x back _ s1 gone s2 s3
  have h3 : s3.ringed = s.ringed := notePage_ringed s2 _
  clear_value s3
  split
  · rfl
  split
  · rfl
  split
  · rfl
  split
  · exact (clearZPage_ringed ..).trans h3
  · exact h3
theorem trimSlice_ringed (s : State) (h i : Nat) : (trimSlice s h i).ringed = s.ringed := by
  unfold trimSlice
  extract_lets c ways s1 full
  have h1 : s1.ringed = s.ringed := by
    simp only [s1]
    split
    · split
      · exact evictLine_ringed ..
      · rfl
    · rfl
  clear_value s1
  split
  · split
    · exact (evictLine_ringed ..).trans h1
    · exact h1
  · exact h1
theorem touchLine_ringed (s : State) (h l : Nat) : (touchLine s h l).ringed = s.ringed := trimSlice_ringed ..
theorem dirtyLine_ringed (s : State) (h l : Nat) : (dirtyLine s h l).ringed = s.ringed := trimSlice_ringed ..
theorem accessLine_ringed (s : State) (l : Nat) (a w : Bool) : (accessLine s l a w).ringed = s.ringed := by
  unfold accessLine
  extract_lets k n data z
  have hd (u : State) : (data u).ringed = u.ringed := by
    simp only [data]
    split
    · exact dirtyLine_ringed ..
    · rfl
  clear_value data
  split
  · rfl
  split
  · exact (hd _).trans (touchLine_ringed ..)
  split
  · exact (hd _).trans (touchLine_ringed ..)
  split
  · exact (hd _).trans (touchLine_ringed ..)
  · rfl
theorem keepOld_ringed (s : State) (k : Nat) : (keepOld s k).ringed = s.ringed := by
  unfold keepOld
  extract_lets
  split <;> rfl
theorem noteWrite_ringed (s : State) (k n : Nat) (w : Writer) (g : Option Nat) : (noteWrite s k n w g).ringed = s.ringed := by
  unfold noteWrite
  split <;> rfl
theorem keepOld_net (s : State) (k : Nat) : (keepOld s k).net = s.net := by
  unfold keepOld
  extract_lets
  split <;> rfl
theorem noteWrite_net (s : State) (k n : Nat) (w : Writer) (g : Option Nat) : (noteWrite s k n w g).net = s.net := by
  unfold noteWrite
  split <;> rfl

/-- The tags with a new one for granule `g`, if one is given. -/
def putTag (t : Tbl Bool) (g : Nat) : Option Bool → Tbl Bool
  | some x => Tbl.put false t g x
  | none => t

section
variable {w : Writer} {q k : Nat} {bs : List Byte} {tag : Option Bool}

/-- Besides bytes, tags and its own notes a write changes what bringing its line in does. -/
theorem plainWrite_fields {a : State} (ha : a = accessLine (keepOld s k) (lineOf k) (q != 2) true) :
    (plainWrite s w q k bs tag).1.net = a.net ∧ (plainWrite s w q k bs tag).1.ringed = a.ringed ∧
    (plainWrite s w q k bs tag).1.mem = writeBytes a.mem k bs ∧
    (plainWrite s w q k bs tag).1.tags = putTag (clearTags a.tags k bs.length) (k / 16) tag := by
  unfold plainWrite
  simp only [← ha, noteWrite_net, noteWrite_ringed, noteWrite_mem, noteWrite_tags]
  cases tag <;> split <;> exact ⟨rfl, rfl, rfl, rfl⟩
theorem plainWrite_net : (plainWrite s w q k bs tag).1.net = s.net :=
  (plainWrite_fields rfl).1.trans ((reads_accessLine (.refl _)).net.trans (keepOld_net s k))
theorem plainWrite_ringed : (plainWrite s w q k bs tag).1.ringed = s.ringed :=
  (plainWrite_fields rfl).2.1.trans ((accessLine_ringed ..).trans (keepOld_ringed s k))
/-- Where no page stands for zeros, a write puts its bytes, clears the tags of their granules and puts its own. -/
theorem plainWrite_of_plain (hp : Spec.plain s) : (plainWrite s w q k bs tag).1.mem = writeBytes s.mem k bs ∧
    (plainWrite s w q k bs tag).1.tags = putTag (clearTags s.tags k bs.length) (k / 16) tag := by
  have hc : Calm s (accessLine (keepOld s k) (lineOf k) (q != 2) true) := calm_accessLine hp (calm_keepOld (.refl s))
  obtain ⟨-, -, hm, ht⟩ := plainWrite_fields (w := w) (bs := bs) (tag := tag) (s := s) (k := k) (q := q) rfl
  rw [hc.mem] at hm
  rw [hc.tags] at ht
  exact ⟨hm, ht⟩
/-- A write that meets no entry of a deque and no operation of one makes no byte undefined. -/
theorem misuse_of_noDeque (h : Spec.noDeque s) (k n : Nat) : misuse s k n = s := by
  obtain ⟨hr, hq⟩ := h
  have hn : s.net.reqs.filterMap Req.dequeAt = [] := List.filterMap_eq_nil_iff.mpr hq
  simp [misuse, hr, hn]
theorem homeWrite_of_plain (hp : Spec.plain s) (hd : Spec.noDeque s) : (homeWrite s w q k bs tag).1.mem = writeBytes s.mem k bs ∧
    (homeWrite s w q k bs tag).1.tags = putTag (clearTags s.tags k bs.length) (k / 16) tag := by
  obtain ⟨hr, hq⟩ := hd
  have hd' : Spec.noDeque (plainWrite s w q k bs tag).1 := ⟨plainWrite_ringed.trans hr, by rw [plainWrite_net]; exact hq⟩
  have hw : (homeWrite s w q k bs tag).1 = (plainWrite s w q k bs tag).1 := misuse_of_noDeque hd' k bs.length
  rw [hw]
  exact plainWrite_of_plain hp

theorem isHbm_of_scratch (h : isScratch k = true) : isHbm k = false := by
  simp [isHbm, h]
theorem keepOld_of_scratch (h : isScratch k = true) : keepOld s k = s := by
  simp [keepOld, h]
theorem noteWrite_of_scratch {n : Nat} {g : Option Nat} (h : isScratch k = true) : noteWrite s k n w g = s := by
  simp [noteWrite, h]
theorem gwctOf_of_scratch (h : isScratch k = true) : gwctOf s k = leaseNow s (homeDie k) := by
  simp [gwctOf, isHbm_of_scratch h]
/-- 08 R194: a write of scratch passes no slice, and its completion time is its home's. -/
theorem homeWrite_of_scratch (h : isScratch k = true) : homeWrite s w q k bs tag = (misuse { s with
    mem := writeBytes s.mem k bs, flags := putRels s.flags k bs.length w.rels
    tags := putTag (clearTags s.tags k bs.length) (k / 16) tag } k bs.length, leaseNow s (homeDie k)) := by
  unfold homeWrite plainWrite
  simp only [keepOld_of_scratch h, accessLine_scratch (isHbm_lineOf_of_scratch h), noteWrite_of_scratch h, gwctOf_of_scratch h, isHbm_of_scratch h,
    Bool.false_eq_true, and_false, if_false]
  cases tag <;> rfl
end

/-! ## A request at its home (08 R194, R204, R205) -/

theorem mem_of_mem_dropAt {α : Type} {l : List α} {n : Nat} {x : α} (h : x ∈ dropAt l n) : x ∈ l :=
  (List.mem_append.mp h).elim List.mem_of_mem_take List.mem_of_mem_drop
theorem calm_taken (n : Nat) : Calm s (Spec.taken s n) := ⟨rfl, rfl, rfl, rfl, rfl, rfl, rfl, rfl⟩
theorem noDeque_taken (h : Spec.noDeque s) (n : Nat) : Spec.noDeque (Spec.taken s n) := by
  obtain ⟨hr, hq⟩ := h
  exact ⟨hr, fun r hm => hq r (mem_of_mem_dropAt hm)⟩

section
variable {n k : Nat} {r : Req}

theorem loadRead_of_scratch {z : Nat} (hs : isScratch k = true) (hl : homeLost s k = false) :
    loadRead s r k z = ({ bytes := memBytes s k z, tag := readTag s k }, s) := by
  unfold loadRead
  rw [if_neg (by simp [hs]), bypassRead_of_scratch hs hl]
theorem isScratch_of_hbm (h : isHbm k = true) : isScratch k = false := by
  simp [isHbm] at h
  exact h.1
theorem pickReplica_of_bypass {c : Nat} {w : Option Nat} {z : Nat} : pickReplica s c w k z 3 = (none, s) := by
  simp [pickReplica]
theorem grantReplica_of_single {c q : Nat} : grantReplica s c k q false = ([], s) := by
  simp [grantReplica]
theorem overlaySgb_of_empty {c : Core} (hg : c.sgb = []) (hq : c.squeue = []) (bs : List Byte) : overlaySgb c k bs = bs := by
  simp [overlaySgb, hg, hq]
/-- 08 R201: a read with q = 3 of package memory gives the bytes that its home holds, past an empty store gather buffer. -/
theorem loadRead_of_bypass {z : Nat} (hs : isHbm k = true) (hb : homeBad s k = false) (hq : r.q = 3) (hrep : r.rep = false) (hp : Spec.plain s)
    (hg : (s.core (waveCore r.wave)).sgb = []) (hw : (s.core (waveCore r.wave)).squeue = []) :
    ∃ t b, loadRead s r k z = ({ bytes := memBytes s k z, tag := b }, t) ∧ Calm s t ∧ Reads s t := by
  have hc : Calm s (accessLine s (lineOf k) true false) := calm_accessLine hp (.refl s)
  have hr : Reads s (accessLine s (lineOf k) true false) := reads_accessLine (.refl s)
  have hread : homeRead s k z 3 = ({ bytes := memBytes s k z, tag := readTag s k }, accessLine s (lineOf k) true false) := by
    unfold homeRead memBytes readTag
    rw [if_neg (by simp [hb])]
    simp only [show (3 != 2) = true from rfl, hc.mem, hc.tags]
  have hover : overlaySgb ((accessLine s (lineOf k) true false).core (waveCore r.wave)) k (memBytes s k z) = memBytes s k z :=
    overlaySgb_of_empty ((hr.sgb _).trans hg) ((hr.squeue _).trans hw) _
  refine ⟨accessLine s (lineOf k) true false, (sgbTag ((accessLine s (lineOf k) true false).core (waveCore r.wave)) k).getD (readTag s k), ?_, hc, hr⟩
  unfold loadRead bypassRead belowRead
  rw [if_neg (by simp [hq])]
  simp only [hq, hrep, pickReplica_of_bypass, hread, grantReplica_of_single, overSgb, isScratch_of_hbm hs, Bool.false_eq_true, if_false, hover]

section
variable {d z : Nat} (hk : r.kind = .load d k z)
include hk

theorem scratch_of_load : r.scratch = isScratch k := by
  simp [Req.scratch, hk, ReqKind.keys]
theorem halfAt_of_load : r.halfAt = none := by
  simp [Req.halfAt, hk]
theorem arriveRead_load : arriveRead s r = (serveRead s r).2.modNet fun m => { m with replies := m.replies ++ [(serveRead s r).1] } := by
  unfold arriveRead
  rw [hk]
/-- A load whose bytes could be read is answered with them. -/
theorem serveRead_load {bs : List Byte} {b : Bool} (h : loadRead s r k z = ({ bytes := bs, tag := b }, t)) :
    serveRead s r = (Spec.answerOf r (.reg d (.data (BitVec.ofNat 64 (ofBytes bs)))) [k], t) := by
  unfold serveRead
  rw [hk]
  simp only [h]
  rfl
theorem exec_scratchRequest_load (h : Spec.underway s n r) (hs : isScratch k = true) (hl : homeLost s k = false) :
    exec (.scratchRequest n) s = .next ((Spec.taken s n).modNet fun m => { m with replies := m.replies ++
      [Spec.answerOf r (.reg d (.data (BitVec.ofNat 64 (readNat s.mem k z)))) [k]] }) := by
  have hread : r.kind.isRead = true := by rw [hk]; rfl
  have hserve := serveRead_load hk (loadRead_of_scratch (s := Spec.taken s n) hs hl)
  refine (takeReq_of_underway (k := fun r s => if r.kind.isRead then arriveRead s r else arriveWrite s r 0) h ((scratch_of_load hk).trans hs) (halfAt_of_load hk)).trans ?_
  rw [hread, if_pos rfl, arriveRead_load hk, hserve]
  rfl

theorem exec_mreqRead_load (h : Spec.underway s n r) (hs : isHbm k = true) (hb : homeBad s k = false) (hq : r.q = 3) (hrep : r.rep = false) (hp : Spec.plain s)
    (hg : (s.core (waveCore r.wave)).sgb = []) (hw : (s.core (waveCore r.wave)).squeue = []) :
    ∃ t, exec (.mreqRead n) s = .next t ∧ t.mem = s.mem ∧ t.tags = s.tags ∧ t.net = { (Spec.taken s n).net with replies := (Spec.taken s n).net.replies ++
      [Spec.answerOf r (.reg d (.data (BitVec.ofNat 64 (readNat s.mem k z)))) [k]] } := by
  obtain ⟨t, b, hload, hc, hr⟩ := loadRead_of_bypass (s := Spec.taken s n) (r := r) (z := z) hs hb hq hrep ((calm_taken n).plain hp) hg hw
  have hread : (r.kind.isRead && !r.scratch) = true := by
    rw [scratch_of_load hk, isScratch_of_hbm hs, hk]
    rfl
  have harrive := arriveRead_load (s := Spec.taken s n) hk
  rw [serveRead_load hk hload] at harrive
  refine ⟨_, (takeReq_of_underway (k := fun r s => arriveRead s r) h hread (halfAt_of_load hk)).trans (congrArg Host.Outcome.next harrive), hc.mem, hc.tags, ?_⟩
  rw [State.modNet_net, hr.net]
  rfl

end

section
variable {bs : List Byte} {tag : Bool} (hk : r.kind = .store [(k, bs)] tag)
include hk

theorem scratch_of_store : r.scratch = isScratch k := by
  simp [Req.scratch, hk, ReqKind.keys]
theorem halfAt_of_store : r.halfAt = none := by
  simp [Req.halfAt, hk]
theorem route_of_store : (r.route s).2 = keyHome k := by
  simp [Req.route, hk, ReqKind.keys]
theorem serveWrite_store {h : State × Nat} (hh : homeWrite s (Spec.writer r) r.q k bs (if tag then some true else none) = h) (hb : homeBad s k = false) :
    serveWrite s r = ((h.2, 0), none, h.1) := by
  subst hh
  unfold serveWrite
  rw [hk]
  simp only [List.foldl_cons, List.foldl_nil, hb, Bool.false_eq_true, if_false, Nat.zero_max]
  rfl
theorem arriveWrite_store {h : State × Nat} (hh : homeWrite s (Spec.writer r) r.q k bs (if tag then some true else none) = h) (hb : homeBad s k = false) :
    arriveWrite s r 0 = Spec.acked h.1 r h.2 (keyHome k) [] := by
  unfold arriveWrite
  rw [hk]
  simp only [serveWrite_store hk hh hb, route_of_store hk]
  rfl
theorem exec_of_store {h : State × Nat} (hu : Spec.underway s n r) (hh : homeWrite (Spec.taken s n) (Spec.writer r) r.q k bs (if tag then some true else none) = h)
    (hb : homeBad s k = false) :
    exec (if isScratch k then .scratchRequest n else .mreqWrite n 0) s = .next (Spec.acked h.1 r h.2 (keyHome k) []) := by
  have harrive : arriveWrite (Spec.taken s n) r 0 = _ := arriveWrite_store hk hh hb
  have hread : r.kind.isRead = false := by rw [hk]; rfl
  split
  next hs =>
    refine (takeReq_of_underway (k := fun r s => if r.kind.isRead then arriveRead s r else arriveWrite s r 0) hu ((scratch_of_store hk).trans hs) (halfAt_of_store hk)).trans ?_
    rw [hread, if_neg Bool.false_ne_true, harrive]
  next hs =>
    have hw : (r.kind.isWrite && !r.scratch) = true := by
      rw [scratch_of_store hk, Bool.eq_false_of_not_eq_true hs, hk]
      rfl
    exact (takeReq_of_underway (k := fun r s => arriveWrite s r (Nat.min 0 2)) hu hw (halfAt_of_store hk)).trans (congrArg Host.Outcome.next harrive)
/-- A store that is cut off or refused changes nothing, and is acknowledged with the error. -/
theorem arriveWrite_failed {err : Nat} (hs : isScratch k = false) (he : err ≠ 0) :
    (arriveWrite s r err).mem = s.mem ∧ (arriveWrite s r err).tags = s.tags ∧
    (arriveWrite s r err).net.acks = s.net.acks ++ [⟨r.wave, r.sid, 0, err, false, r.id, r.grid, keyHome k⟩] := by
  have hf : arriveWrite s r err = failReq s r err := by
    unfold arriveWrite
    rw [hk]
    exact if_pos he
  have hsc : r.scratch = false := (scratch_of_store hk).trans hs
  rw [hf]
  unfold failReq
  simp only [hk, hsc, route_of_store hk]
  exact ⟨rfl, rfl, rfl⟩
theorem exec_mreqWrite_failed {err : Nat} (hu : Spec.underway s n r) (hs : isScratch k = false) (he : err ≠ 0) :
    ∃ t, exec (.mreqWrite n err) s = .next t ∧ t.mem = s.mem ∧ t.tags = s.tags ∧
      t.net.acks = s.net.acks ++ [⟨r.wave, r.sid, 0, min err 2, false, r.id, r.grid, keyHome k⟩] := by
  have hw : (r.kind.isWrite && !r.scratch) = true := by
    rw [scratch_of_store hk, hs, hk]
    rfl
  exact ⟨_, takeReq_of_underway (k := fun r s => arriveWrite s r (Nat.min err 2)) hu hw (halfAt_of_store hk),
    arriveWrite_failed (s := Spec.taken s n) hk hs (show min err 2 ≠ 0 by omega)⟩

end

/-- The bytes and tags after a store took effect at its home. -/
theorem store_contents {w : Writer} {q : Nat} {bs : List Byte} {tag : Bool} (hp : Spec.plain s) (hd : Spec.noDeque s) (hn : 0 < bs.length) :
    let u := (homeWrite s w q k bs (if tag then some true else none)).1
    (∀ x, readByte u.mem x = if k ≤ x ∧ x < k + bs.length then bs.getD (x - k) 0 else readByte s.mem x) ∧
    (∀ g, Tbl.get false u.tags g = if k / 16 ≤ g ∧ g ≤ (k + bs.length - 1) / 16 then tag && decide (g = k / 16) else Tbl.get false s.tags g) := by
  intro u
  obtain ⟨hm, ht⟩ := homeWrite_of_plain (w := w) (q := q) (k := k) (bs := bs) (tag := if tag then some true else none) hp hd
  refine ⟨fun x => ?_, fun g => ?_⟩
  · simp only [u, hm, readByte_writeBytes]
  · have hclear := get_clearTags s.tags hn (k := k) g
    simp only [u, ht]
    cases tag
    case false => exact hclear.trans (by rw [Bool.false_and])
    case true =>
      simp only [if_true, Bool.true_and, putTag]
      by_cases hg : g = k / 16
      · rw [hg, Tbl.get_put_same, if_pos ⟨Nat.le_refl _, by omega⟩, decide_eq_true rfl]
      · rw [Tbl.get_put_other _ _ _ _ _ hg, hclear, decide_eq_false hg]

end

theorem homeAccesses : Spec.HomeAccesses := by
  intro s n err k r hu u
  refine ⟨fun d z hk => ⟨fun hs hl => exec_scratchRequest_load hk hu hs hl, fun hs hb hq hrep hp hg hw => exec_mreqRead_load hk hu hs hb hq hrep hp hg hw⟩,
    fun bs tag hk => ⟨fun hb => ⟨exec_of_store hk hu rfl hb, fun hp hd hn => ?_⟩, fun hs he => exec_mreqWrite_failed hk hu hs he⟩,
    fun hs w q bs tag => (homeWrite_of_scratch hs).trans (by cases tag <;> rfl)⟩
  exact store_contents ((calm_taken n).plain hp) (noDeque_taken hd n) hn

/-- Settles O11: the instructions by their checks and what they send, the home by what it reads and writes. -/
theorem scalarMemory : Obligations.ScalarMemory := ⟨scalarLoads, scalarStores, homeAccesses⟩

end Sys2Proof.Machine
end

section
namespace Sys2Proof.Machine

/-! ## The press's dense blocks (03 R91, R92) -/

theorem denseArithmetic : Spec.DenseArithmetic := by
  intro wa wb val nf a b
  refine ⟨fun h => ?_, fun ha hb h => ?_, fun ha hb ha0 hb0 => ?_⟩
  · simp [passStep, h, nonfinite]
  · simp [passStep, ha, hb, h, nonfinite]
  · simp only [passStep, ha, hb, ha0, hb0, or_self, if_false]
    exact ⟨rfl, rfl⟩

/-! ## The box test (15 R378) -/

/-- A parameter of the interval that is left, if one is. -/
def inInterval (i : Option (ℚ × ℚ)) (t : ℚ) : Prop := ∃ j, i = some j ∧ j.1 ≤ t ∧ t ≤ j.2

theorem inInterval_some {i : ℚ × ℚ} {t : ℚ} : inInterval (some i) t ↔ i.1 ≤ t ∧ t ≤ i.2 := by
  simp [inInterval]

/-- A parameter lies between those of the two planes of an axis just where the ray lies between the planes. -/
theorem between_planes {o d lo hi t : ℚ} (hd : d ≠ 0) (h : lo ≤ hi) :
    (min ((lo - o) / d) ((hi - o) / d) ≤ t ∧ t ≤ max ((lo - o) / d) ((hi - o) / d)) ↔ lo ≤ o + t * d ∧ o + t * d ≤ hi := by
  rcases hd.lt_or_gt with hn | hp
  · have hle : (hi - o) / d ≤ (lo - o) / d := div_le_div_of_nonpos_of_le hn.le (by linarith)
    rw [min_eq_right hle, max_eq_left hle, div_le_iff_of_neg hn, le_div_iff_of_neg hn]
    constructor <;> rintro ⟨h1, h2⟩ <;> constructor <;> linarith
  · have hle : (lo - o) / d ≤ (hi - o) / d := div_le_div_of_nonneg_right (by linarith) hp.le
    rw [min_eq_left hle, max_eq_right hle, div_le_iff₀ hp, le_div_iff₀ hp]
    constructor <;> rintro ⟨h1, h2⟩ <;> constructor <;> linarith

/-- One axis of the test keeps just the parameters that put the ray between its two planes. -/
theorem inInterval_bind_slab {o d lo hi t : ℚ} {i : Option (ℚ × ℚ)} (h : lo ≤ hi) :
    inInterval (i.bind (slab o d lo hi)) t ↔ inInterval i t ∧ lo ≤ o + t * d ∧ o + t * d ≤ hi := by
  rcases i with _ | i
  · simp [inInterval]
  rw [Option.bind_some, inInterval_some]
  by_cases hd : d = 0
  · by_cases ho : o < lo ∨ hi < o
    · simp only [slab, hd, ho, if_true, inInterval, mul_zero, add_zero]
      grind
    · simp only [slab, hd, ho, if_true, if_false, inInterval_some, mul_zero, add_zero]
      grind
  · rw [← between_planes hd h]
    simp only [slab, hd, if_false, inInterval_some, max_le_iff, le_min_iff]
    tauto

/-- The entry of an interval is its least parameter. -/
theorem entry_iff_least {i : Option (ℚ × ℚ)} {e : ℚ} :
    (match i with
      | some j => if j.1 ≤ j.2 then some j.1 else none
      | none => none) = some e ↔ inInterval i e ∧ ∀ t, inInterval i t → e ≤ t := by
  rcases i with _ | ⟨near, far⟩
  · simp [inInterval]
  simp only [inInterval_some, Option.ite_none_right_eq_some, Option.some.injEq]
  constructor
  · rintro ⟨h, rfl⟩
    exact ⟨⟨le_rfl, h⟩, fun t ht => ht.1⟩
  · rintro ⟨⟨h1, h2⟩, hl⟩
    exact ⟨h1.trans h2, h1.antisymm (hl near ⟨le_rfl, h1.trans h2⟩)⟩

theorem boxTest : Spec.BoxTest := by
  intro ox oy oz dx dy dz t0 t1 lx ly lz hx hy hz e inside
  by_cases hb : lx ≤ hx ∧ ly ≤ hy ∧ lz ≤ hz
  · obtain ⟨bx, by_, bz⟩ := hb
    have hmem (t : ℚ) : inInterval (((slab ox dx lx hx (t0, t1)).bind (slab oy dy ly hy)).bind (slab oz dz lz hz)) t ↔ inside t := by
      rw [inInterval_bind_slab bz, inInterval_bind_slab by_, ← Option.bind_some (f := slab ox dx lx hx), inInterval_bind_slab bx, inInterval_some]
      simp only [inside, and_assoc]
    simp only [← hmem]
    simp only [boxEntry, bx, by_, bz, and_self, if_true]
    exact entry_iff_least
  · have hno : ¬inside e := fun ⟨_, _, ⟨h1, h2⟩, ⟨h3, h4⟩, h5, h6⟩ => hb ⟨h1.trans h2, h3.trans h4, h5.trans h6⟩
    simp [boxEntry, hb, hno]

/-! ## The triangle test (15 R379) -/

/-- Cramer's rule for the ray's point and the triangle's plane: `s` from the first vertex to the origin, `d` the direction, `p`
and `q` the two edges. -/
theorem plane_point_iff {s d p q : ℚ × ℚ × ℚ} {t u v : ℚ} (h : dot3 p (cross d q) ≠ 0) :
    (dot3 q (cross s p) / dot3 p (cross d q) = t ∧ dot3 s (cross d q) / dot3 p (cross d q) = u ∧ dot3 d (cross s p) / dot3 p (cross d q) = v) ↔
      s.1 + t * d.1 = u * p.1 + v * q.1 ∧ s.2.1 + t * d.2.1 = u * p.2.1 + v * q.2.1 ∧ s.2.2 + t * d.2.2 = u * p.2.2 + v * q.2.2 := by
  obtain ⟨sx, sy, sz⟩ := s
  obtain ⟨dx, dy, dz⟩ := d
  simp only [dot3, cross] at h ⊢
  constructor
  · rintro ⟨ht, hu, hv⟩
    rw [div_eq_iff h] at ht hu hv
    refine ⟨?_, ?_, ?_⟩ <;> apply mul_right_cancel₀ h
    · linear_combination (-dx) * ht + p.1 * hu + q.1 * hv
    · linear_combination (-dy) * ht + p.2.1 * hu + q.2.1 * hv
    · linear_combination (-dz) * ht + p.2.2 * hu + q.2.2 * hv
  · rintro ⟨e1, e2, e3⟩
    obtain rfl : sx = u * p.1 + v * q.1 - t * dx := by linarith
    obtain rfl : sy = u * p.2.1 + v * q.2.1 - t * dy := by linarith
    obtain rfl : sz = u * p.2.2 + v * q.2.2 - t * dz := by linarith
    refine ⟨?_, ?_, ?_⟩ <;> rw [div_eq_iff h] <;> ring

theorem triangleTest : Spec.TriangleTest := by
  intro ox oy oz dx dy dz t0 t1 ax ay az bx by_ bz cx cy cz t u v ds on det
  have hdet : dot3 (sub3 (bx, by_, bz) (ax, ay, az)) (cross (dx, dy, dz) (sub3 (cx, cy, cz) (ax, ay, az))) = det := rfl
  by_cases h0 : det = 0
  · simp [triHit, hdet, h0]
  have hon (o d a b c : ℚ) : on o d a b c ↔ (o - a) + t * d = u * (b - a) + v * (c - a) := by
    simp only [on]
    constructor <;> intro h <;> linarith
  have hplane := plane_point_iff (s := sub3 (ox, oy, oz) (ax, ay, az)) (t := t) (u := u) (v := v) (hdet.trans_ne h0)
  simp only [triHit, hdet, h0, Bool.false_eq_true, false_and, or_self, if_false, Option.ite_none_right_eq_some, Option.some.injEq, Prod.mk.injEq]
  rw [hon, hon, hon]
  rw [hdet] at hplane
  constructor
  · rintro ⟨hin, ht, hu, hv⟩
    obtain ⟨hx, hy, hz⟩ := hplane.mp ⟨ht, hu, hv⟩
    rw [ht, hu, hv] at hin
    exact ⟨h0, hx, hy, hz, hin⟩
  · rintro ⟨-, hx, hy, hz, hin⟩
    obtain ⟨ht, hu, hv⟩ := hplane.mpr ⟨hx, hy, hz⟩
    rw [ht, hu, hv]
    exact ⟨hin, rfl, rfl, rfl⟩

/-- Settles O39: a block pair case by case, the box by the least parameter of an interval, the triangle by Cramer's rule. -/
theorem unitArithmetic : Obligations.UnitArithmetic := ⟨denseArithmetic, boxTest, triangleTest⟩

end Sys2Proof.Machine
end

section
namespace Sys2Proof.Machine

variable {f : Fmt}

/-! ## The codes of a format (03 R73, R74) -/

/-- What rounding takes of a format: the significand is not empty, and the largest finite code is a normal one that is not
the first of its binade. -/
structure Fmt.Regular (f : Fmt) : Prop where
  tw_pos : 1 ≤ f.tw
  tw_le : f.tw ≤ 23
  normal_lt_max : 2 ^ f.tw < f.maxBits
  max_mod : f.maxBits % 2 ^ f.tw ≠ 0
  inf_eq : f.hasInf = true → f.infBits = f.maxBits + 1

theorem regular_of_mem (hf : f ∈ Spec.fmts) : f.Regular := by
  simp only [Spec.fmts, List.mem_cons, List.not_mem_nil, or_false] at hf
  rcases hf with rfl | rfl | rfl | rfl | rfl <;> constructor <;> decide

/-- The value of a magnitude code, as a real. -/
noncomputable def codeReal (f : Fmt) (c : Nat) : ℝ := (Spec.codeValue f c : ℚ)

/-- The exponent of a unit in the last place of the binade `j`; the subnormal numbers lie in binade 0. -/
def unitExp (f : Fmt) (j : Nat) : ℤ := j + 1 - f.bias - f.tw

/-- The `q`-th code from the start of a binade stands for `q` units. -/
theorem codeReal_binade {j q : Nat} (hq : q ≤ 2 ^ (f.tw + 1)) (hj : j = 0 ∨ 2 ^ f.tw ≤ q) :
    codeReal f (j * 2 ^ f.tw + q) = q * 2 ^ unitExp f j := by
  have hp : 0 < 2 ^ f.tw := by positivity
  have hpow : 2 ^ (f.tw + 1) = 2 * 2 ^ f.tw := by ring
  unfold codeReal Spec.codeValue unitExp
  rcases lt_or_ge q (2 ^ f.tw) with hlt | hge
  · obtain rfl : j = 0 := hj.resolve_right (by omega)
    rw [Nat.zero_mul, Nat.zero_add, Nat.div_eq_of_lt hlt, Nat.mod_eq_of_lt hlt, if_pos rfl]
    push_cast
    ring_nf
  obtain ⟨t, rfl⟩ := Nat.exists_eq_add_of_le hge
  have hnormal : t / 2 ^ f.tw + (j + 1) ≠ 0 := Nat.succ_ne_zero _
  rw [show j * 2 ^ f.tw + (2 ^ f.tw + t) = t + 2 ^ f.tw * (j + 1) by ring, Nat.add_mul_div_left _ _ hp, Nat.add_mul_mod_self_left, if_neg hnormal]
  rcases (show t ≤ 2 ^ f.tw by omega).eq_or_lt with rfl | ht
  · rw [Nat.div_self hp, Nat.mod_self]
    push_cast
    rw [show (1 + ((j : ℤ) + 1) - f.bias - f.tw) = (j + 1 - f.bias - f.tw) + 1 by ring, zpow_add_one₀ two_ne_zero]
    ring
  · rw [Nat.div_eq_of_lt ht, Nat.mod_eq_of_lt ht]
    push_cast
    rw [zero_add]

/-- Every code lies in a binade. -/
theorem exists_binade (f : Fmt) (c : Nat) : ∃ j q, c = j * 2 ^ f.tw + q ∧ q < 2 ^ (f.tw + 1) ∧ (j = 0 ∨ 2 ^ f.tw ≤ q) := by
  have hp : 0 < 2 ^ f.tw := by positivity
  have hpow : 2 ^ (f.tw + 1) = 2 * 2 ^ f.tw := by ring
  have hm := Nat.mod_lt c hp
  have hc := Nat.div_add_mod' c (2 ^ f.tw)
  rcases Nat.eq_zero_or_pos (c / 2 ^ f.tw) with h0 | h0
  · exact ⟨0, c, by omega, by rw [h0] at hc; omega, .inl rfl⟩
  · obtain ⟨j, hj⟩ := Nat.exists_eq_add_of_le' h0
    rw [hj, Nat.add_mul] at hc
    exact ⟨j, 2 ^ f.tw + c % 2 ^ f.tw, by omega, by omega, .inr (Nat.le_add_right ..)⟩

/-- The codes of a binade and the one after it are a unit apart. -/
theorem codeReal_succ_binade {j q : Nat} (hq : q < 2 ^ (f.tw + 1)) (hj : j = 0 ∨ 2 ^ f.tw ≤ q) :
    codeReal f (j * 2 ^ f.tw + q + 1) = (q + 1) * 2 ^ unitExp f j := by
  rw [Nat.add_assoc, codeReal_binade (by omega) (by omega)]
  push_cast
  rfl

theorem codeReal_strictMono (f : Fmt) : StrictMono (codeReal f) := by
  refine strictMono_nat_of_lt_succ fun c => ?_
  obtain ⟨j, q, rfl, hq, hj⟩ := exists_binade f c
  rw [codeReal_binade hq.le hj, codeReal_succ_binade hq hj]
  have : (0 : ℝ) < 2 ^ unitExp f j := by positivity
  linarith

@[simp] theorem codeReal_zero (f : Fmt) : codeReal f 0 = 0 := by
  simpa using codeReal_binade (f := f) (j := 0) (Nat.zero_le _) (.inl rfl)

/-- The least normal number, in units of the subnormal ones. -/
theorem codeReal_least_units (f : Fmt) : codeReal f (2 ^ f.tw) = 2 ^ f.tw * 2 ^ unitExp f 0 := by
  simpa using codeReal_binade (f := f) (j := 0) (q := 2 ^ f.tw) (Nat.pow_le_pow_right two_pos (Nat.le_succ _)) (.inl rfl)
theorem codeReal_least (f : Fmt) : codeReal f (2 ^ f.tw) = 2 ^ (1 - (f.bias : ℤ)) := by
  rw [codeReal_least_units, ← zpow_natCast, ← zpow_add₀ two_ne_zero]
  congr 1
  simp [unitExp]
theorem lt_least_iff {x : ℝ} : x < codeReal f (2 ^ f.tw) ↔ x / 2 ^ unitExp f 0 < 2 ^ f.tw := by
  rw [codeReal_least_units, div_lt_iff₀ (by positivity)]

/-- The largest finite number's distance from its neighbours is the same below and above. -/
theorem codeReal_max_succ (hf : f.Regular) :
    codeReal f (f.maxBits + 1) = codeReal f f.maxBits + (codeReal f f.maxBits - codeReal f (f.maxBits - 1)) := by
  have hp : 0 < 2 ^ f.tw := by positivity
  have hpow : 2 ^ (f.tw + 1) = 2 * 2 ^ f.tw := by ring
  have hmod := hf.max_mod
  obtain ⟨j, q, hc, hq, hj⟩ := exists_binade f f.maxBits
  have hne : q ≠ 2 ^ f.tw := by
    rintro rfl
    rw [hc, ← Nat.succ_mul, Nat.mul_mod_left] at hmod
    exact hmod rfl
  have hq0 : q ≠ 0 := by
    rintro rfl
    rw [hc, Nat.add_zero, Nat.mul_mod_left] at hmod
    exact hmod rfl
  obtain ⟨p, rfl⟩ := Nat.exists_eq_succ_of_ne_zero hq0
  rw [hc, codeReal_succ_binade hq hj, codeReal_binade hq.le hj, show j * 2 ^ f.tw + (p + 1) - 1 = j * 2 ^ f.tw + p by omega, codeReal_binade (by omega) (by omega)]
  push_cast
  ring

/-! ## The value of the bits of a format (03 R74) -/

theorem scaled_eq (neg : Bool) (m : Nat) (e : ℤ) : ∃ n d, Val.scaled neg m e = .fin neg n d ∧ d ≠ 0 ∧ (n : ℚ) / d = m * 2 ^ e := by
  unfold Val.scaled
  split
  case isTrue h =>
    refine ⟨_, _, rfl, one_ne_zero, ?_⟩
    obtain ⟨k, rfl⟩ := Int.eq_ofNat_of_zero_le h
    simp
  case isFalse h =>
    refine ⟨_, _, rfl, by positivity, ?_⟩
    obtain ⟨k, hk⟩ := Int.eq_ofNat_of_zero_le (show 0 ≤ -e by omega)
    obtain rfl : e = -k := by omega
    simp [div_eq_mul_inv]

theorem fieldValue_eq (f : Fmt) (neg : Bool) (c : Nat) :
    ∃ n d, fieldValue neg (c / 2 ^ f.tw) (c % 2 ^ f.tw) f.tw f.bias = .fin neg n d ∧ d ≠ 0 ∧ (n : ℚ) / d = Spec.codeValue f c := by
  unfold fieldValue Spec.codeValue
  split <;> exact scaled_eq ..

theorem decode_of_finite (hf : f.Regular) {b : Nat} (h : b % 2 ^ (f.ew + f.tw) ≤ f.maxBits) :
    f.decode b = fieldValue (f.sign b) (f.mag b / 2 ^ f.tw) (f.mag b % 2 ^ f.tw) f.tw f.bias := by
  change f.mag b ≤ f.maxBits at h
  by_cases hi : f.hasInf = true
  · have := hf.inf_eq hi
    simp only [Fmt.decode, hi, if_true]
    rw [if_neg (by omega), if_neg (by omega)]
  · simp only [Fmt.decode, hi]
    exact if_neg (not_lt.mpr h)

theorem decode_of_inf {b : Nat} (hi : f.hasInf = true) (h : b % 2 ^ (f.ew + f.tw) = f.infBits) : f.decode b = .inf (f.sign b) := by
  change f.mag b = f.infBits at h
  simp only [Fmt.decode, hi, h, if_true]

theorem decode_of_nan (hf : f.Regular) {b : Nat} (h : f.maxBits < b % 2 ^ (f.ew + f.tw)) (hn : f.hasInf = true → b % 2 ^ (f.ew + f.tw) ≠ f.infBits) :
    ∃ q, f.decode b = .nan q := by
  change f.maxBits < f.mag b at h
  change f.hasInf = true → f.mag b ≠ f.infBits at hn
  by_cases hi : f.hasInf = true
  · have := hf.inf_eq hi
    have := hn hi
    simp only [Fmt.decode, hi, if_true]
    rw [if_neg (by omega), if_pos (by omega)]
    exact ⟨_, rfl⟩
  · simp only [Fmt.decode, hi]
    exact ⟨_, if_pos h⟩

/-! ## One rounding to units (03 R79, R80) -/

/-- A magnitude that lies `part` of the way from its lower neighbour to the next takes the next. -/
noncomputable def goesUp (mode : Nat) (neg : Bool) (rnd : Nat) (odd : Bool) (part : ℝ) : Bool :=
  decide (part ≠ 0) && match mode with
    | 0 => decide (1 / 2 < part ∨ part = 1 / 2 ∧ odd = true)
    | 1 => false
    | 2 => !neg
    | 3 => neg
    | 4 => decide (1 / 2 ≤ part)
    | _ => decide ((rnd : ℤ) < ⌊part * 2 ^ 16⌋)

section
variable {mode rnd : Nat} {neg odd : Bool} {part : ℝ}

theorem part_ne_zero_of_goesUp (h : goesUp mode neg rnd odd part = true) : part ≠ 0 := by
  simp only [goesUp, Bool.and_eq_true, decide_eq_true_eq] at h
  exact h.1
theorem goesUp_inward (h : Spec.inward mode neg) : goesUp mode neg rnd odd part = false := by
  rcases h with rfl | ⟨rfl, rfl⟩ | ⟨rfl, rfl⟩ <;> simp [goesUp]
theorem goesUp_outward (h : Spec.outward mode neg) : goesUp mode neg rnd odd part = decide (part ≠ 0) := by
  rcases h with ⟨rfl, rfl⟩ | ⟨rfl, rfl⟩ <;> simp [goesUp]
theorem goesUp_even : goesUp 0 neg rnd odd part = true ↔ 1 / 2 < part ∨ part = 1 / 2 ∧ odd = true := by
  simp only [goesUp, Bool.and_eq_true, decide_eq_true_eq, and_iff_right_iff_imp]
  rintro (h | ⟨h, -⟩) <;> rintro rfl <;> norm_num at h
theorem goesUp_away : goesUp 4 neg rnd odd part = true ↔ 1 / 2 ≤ part := by
  simp only [goesUp, Bool.and_eq_true, decide_eq_true_eq, and_iff_right_iff_imp]
  rintro h rfl
  norm_num at h
theorem goesUp_stochastic : goesUp 5 neg rnd odd part = true ↔ (rnd : ℤ) < ⌊part * 2 ^ 16⌋ := by
  simp only [goesUp, Bool.and_eq_true, decide_eq_true_eq, and_iff_right_iff_imp]
  rintro h rfl
  rw [zero_mul, Int.floor_zero] at h
  omega
theorem goesUp_of_half_lt (hm : mode = 0 ∨ mode = 4) (h : 1 / 2 < part) : goesUp mode neg rnd odd part = true := by
  rcases hm with rfl | rfl
  · exact goesUp_even.mpr (.inl h)
  · exact goesUp_away.mpr h.le
theorem goesUp_of_lt_half (hm : mode = 0 ∨ mode = 4) (h : part < 1 / 2) : goesUp mode neg rnd odd part = false := by
  rw [← Bool.not_eq_true]
  rcases hm with rfl | rfl
  · rw [goesUp_even]
    rintro (h' | ⟨h', -⟩) <;> linarith
  · rw [goesUp_away]
    exact not_le.mpr h

/-- The modes other than the stochastic one: to the nearest, or in one direction (03 R79). -/
theorem mode_cases (neg : Bool) (h : mode ≤ 4) : mode = 0 ∨ mode = 4 ∨ Spec.inward mode neg ∨ Spec.outward mode neg := by
  cases neg <;> simp [Spec.inward, Spec.outward] <;> omega

theorem goesUp_of_goesUp {rnd' : Nat} {odd' : Bool} {part' : ℝ} (hm : mode ≤ 4) (h : goesUp mode neg rnd odd part = true) (hp : 1 / 2 < part') :
    goesUp mode neg rnd' odd' part' = true := by
  rcases mode_cases neg hm with h0 | h4 | hd | hd
  · exact goesUp_of_half_lt (.inl h0) hp
  · exact goesUp_of_half_lt (.inr h4) hp
  · rw [goesUp_inward hd] at h
    exact absurd h Bool.false_ne_true
  · rw [goesUp_outward hd, decide_eq_true_eq]
    linarith

/-- All that a mode other than the stochastic one asks is where the magnitude lies to its lower neighbour and to the middle. -/
theorem goesUp_congr {rnd' : Nat} {part' : ℝ} (hm : mode ≤ 4) (h0 : part = 0 ↔ part' = 0) (hlt : part < 1 / 2 ↔ part' < 1 / 2) (hle : part ≤ 1 / 2 ↔ part' ≤ 1 / 2) :
    goesUp mode neg rnd odd part = goesUp mode neg rnd' odd part' := by
  rcases mode_cases neg hm with rfl | rfl | hd | hd
  · have heq : part = 1 / 2 ↔ part' = 1 / 2 := by rw [eq_iff_le_not_lt, eq_iff_le_not_lt, hlt, hle]
    rw [Bool.eq_iff_iff, goesUp_even, goesUp_even, ← not_le, ← not_le, hle, heq]
  · rw [Bool.eq_iff_iff, goesUp_away, goesUp_away, ← not_lt, ← not_lt, hlt]
  · rw [goesUp_inward hd, goesUp_inward hd]
  · rw [goesUp_outward hd, goesUp_outward hd, Bool.eq_iff_iff, decide_eq_true_eq, decide_eq_true_eq, ne_eq, ne_eq, h0]
end

/-- A fraction in units of `2 ^ u`, as a fraction of integers. -/
theorem units_eq (num den : Nat) (u : ℤ) :
    (((if 0 ≤ u then num else num * 2 ^ (-u).toNat : Nat) : ℝ) / ((if 0 ≤ u then den * 2 ^ u.toNat else den : Nat) : ℝ)) = (num : ℝ) / den / 2 ^ u := by
  split
  case isTrue h =>
    obtain ⟨k, rfl⟩ := Int.eq_ofNat_of_zero_le h
    simp [div_div]
  case isFalse h =>
    obtain ⟨k, hk⟩ := Int.eq_ofNat_of_zero_le (show 0 ≤ -u by omega)
    obtain rfl : u = -k := by omega
    simp [div_eq_mul_inv]
    ring

/-- The choice, on the remainder of a division. -/
theorem goesUp_remainder {R D : Nat} (mode : Nat) (neg odd : Bool) (rnd : Nat) (hD : D ≠ 0) (hR : R ≠ 0) :
    goesUp mode neg rnd odd (R / D) = match mode with
      | 0 => decide (D < 2 * R ∨ 2 * R = D ∧ odd = true)
      | 1 => false
      | 2 => !neg
      | 3 => neg
      | 4 => decide (D ≤ 2 * R)
      | _ => decide (rnd < R * 2 ^ 16 / D) := by
  have hD' : (0 : ℝ) < D := by positivity
  have hpart : (R : ℝ) / D ≠ 0 := by positivity
  have hlt : (1 / 2 < (R : ℝ) / D) ↔ D < 2 * R := by
    rw [div_lt_div_iff₀ two_pos hD', one_mul, mul_comm]
    exact_mod_cast Iff.rfl
  have heq : ((R : ℝ) / D = 1 / 2) ↔ 2 * R = D := by
    rw [div_eq_div_iff hD'.ne' two_ne_zero, one_mul, mul_comm]
    exact_mod_cast Iff.rfl
  have hle : (1 / 2 ≤ (R : ℝ) / D) ↔ D ≤ 2 * R := by
    rw [div_le_div_iff₀ two_pos hD', one_mul, mul_comm]
    exact_mod_cast Iff.rfl
  have hdraw : ((rnd : ℤ) < ⌊(R : ℝ) / D * 2 ^ 16⌋) ↔ rnd < R * 2 ^ 16 / D := by
    rw [Int.lt_iff_add_one_le, Int.le_floor, div_mul_eq_mul_div, le_div_iff₀ hD', Nat.lt_iff_add_one_le, Nat.le_div_iff_mul_le (by omega)]
    exact_mod_cast Iff.rfl
  simp only [goesUp, hpart, ne_eq, not_false_eq_true, decide_true, Bool.true_and, hlt, heq, hle, hdraw]

/-- One rounding takes the integer part in units or the next, by the fraction that is left. -/
theorem roundUnits_eq {den : Nat} (mode : Nat) (neg : Bool) (rnd num : Nat) (u : ℤ) (hd : den ≠ 0) :
    let y : ℝ := (num : ℝ) / den / 2 ^ u
    roundUnits mode neg rnd num den u =
      (⌊y⌋₊ + if goesUp mode neg rnd (decide (⌊y⌋₊ % 2 = 1)) (Int.fract y) then 1 else 0, decide (Int.fract y ≠ 0)) := by
  intro y
  have hy : (((if 0 ≤ u then num else num * 2 ^ (-u).toNat : Nat) : ℝ) / ((if 0 ≤ u then den * 2 ^ u.toNat else den : Nat) : ℝ)) = y := units_eq ..
  have hD : (if 0 ≤ u then den * 2 ^ u.toNat else den) ≠ 0 := by split <;> positivity
  unfold roundUnits
  extract_lets N D q R up
  have hfl : ⌊y⌋₊ = q := by rw [← hy, Nat.floor_div_eq_div]
  have hfr : Int.fract y = (R : ℝ) / D := by rw [← hy, Int.fract_div_natCast_eq_div_natCast_mod]
  rw [hfl, hfr]
  by_cases hR : R = 0
  · simp [hR, goesUp]
  · have hup : goesUp mode neg rnd (decide (q % 2 = 1)) (R / D) = up := by
      rw [goesUp_remainder mode neg _ rnd hD hR]
      simp only [decide_eq_true_eq]
      rfl
    have hpart : (R : ℝ) / D ≠ 0 := div_ne_zero (Nat.cast_ne_zero.mpr hR) (Nat.cast_ne_zero.mpr hD)
    rw [if_neg hR, hup, decide_eq_true hpart]
    cases up <;> rfl

/-! ## The exponent (03 R81) -/

theorem lt_two_zpow_iff {num den : Nat} (hd : den ≠ 0) (k : ℤ) :
    (if 0 ≤ k then decide (num < den * 2 ^ k.toNat) else decide (num * 2 ^ (-k).toNat < den)) = true ↔ (num : ℝ) / den < 2 ^ k := by
  have hd' : (0 : ℝ) < den := by positivity
  split
  case isTrue h =>
    obtain ⟨k, rfl⟩ := Int.eq_ofNat_of_zero_le h
    rw [decide_eq_true_eq, div_lt_iff₀ hd', mul_comm, zpow_natCast]
    exact_mod_cast Iff.rfl
  case isFalse h =>
    obtain ⟨m, hm⟩ := Int.eq_ofNat_of_zero_le (show 0 ≤ -k by omega)
    obtain rfl : k = -m := by omega
    rw [decide_eq_true_eq, zpow_neg, div_lt_iff₀ hd', ← div_eq_inv_mul, lt_div_iff₀ (by positivity), zpow_natCast, neg_neg]
    exact_mod_cast Iff.rfl

theorem floorLog2_spec {num den : Nat} (hn : num ≠ 0) (hd : den ≠ 0) :
    (2 : ℝ) ^ floorLog2 num den ≤ num / den ∧ (num : ℝ) / den < 2 ^ (floorLog2 num den + 1) := by
  have hd' : (0 : ℝ) < den := by positivity
  have hn1 : ((2 : ℝ) ^ num.log2) ≤ num := by exact_mod_cast Nat.log2_self_le hn
  have hn2 : (num : ℝ) < 2 ^ (num.log2 + 1) := by exact_mod_cast Nat.lt_log2_self
  have hd1 : ((2 : ℝ) ^ den.log2) ≤ den := by exact_mod_cast Nat.log2_self_le hd
  have hd2 : (den : ℝ) < 2 ^ (den.log2 + 1) := by exact_mod_cast Nat.lt_log2_self
  have hlow : (2 : ℝ) ^ ((num.log2 : ℤ) - den.log2 - 1) ≤ num / den := by
    rw [le_div_iff₀ hd', sub_sub, ← Nat.cast_succ, zpow_sub₀ two_ne_zero, zpow_natCast, zpow_natCast, div_mul_eq_mul_div, div_le_iff₀ (by positivity)]
    exact mul_le_mul hn1 hd2.le hd'.le (by positivity)
  have hhigh : (num : ℝ) / den < 2 ^ ((num.log2 : ℤ) - den.log2 + 1) := by
    rw [div_lt_iff₀ hd', sub_add_eq_add_sub, ← Nat.cast_succ, zpow_sub₀ two_ne_zero, zpow_natCast, zpow_natCast, div_mul_eq_mul_div, lt_div_iff₀ (by positivity)]
    exact mul_lt_mul hn2 hd1 (by positivity) (by positivity)
  have hiff := lt_two_zpow_iff (num := num) hd ((num.log2 : ℤ) - den.log2)
  unfold floorLog2
  extract_lets k below
  by_cases hb : below = true
  · rw [if_pos hb, sub_add_cancel]
    exact ⟨hlow, hiff.mp hb⟩
  · rw [if_neg hb]
    exact ⟨not_lt.mp (hb ∘ hiff.mpr), hhigh⟩

/-! ## Rounding into a format (03 R81 to R83) -/

/-- Whether an overflow in the mode is to an infinity. -/
def overflowsToInf (mode : Nat) (neg : Bool) : Bool := match mode with
  | 1 => false
  | 2 => !neg
  | 3 => neg
  | _ => true

/-- What becomes of the code that the first rounding gives: past the largest it overflows. -/
def settled (f : Fmt) (mode : Nat) (sat neg : Bool) (c : Nat) (inexact : Bool) : Nat × Nat :=
  if f.maxBits < c then
    (if !overflowsToInf mode neg || sat then f.signBits neg + f.maxBits else if f.hasInf then f.signBits neg + f.infBits else f.dnan, flOF + flNX)
  else (f.signBits neg + c, if inexact then flNX else 0)

section
variable {mode c n d q j : Nat} {sat ftz neg i : Bool} {r : Nat → Nat}

theorem overflowsToInf_eq (mode : Nat) (neg : Bool) : overflowsToInf mode neg = !decide (Spec.inward mode neg) := by
  rcases mode with _ | _ | _ | _ | m <;> cases neg <;> simp [Spec.inward, overflowsToInf]
theorem settled_of_le (h : c ≤ f.maxBits) : settled f mode sat neg c i = (f.signBits neg + c, if i then flNX else 0) := if_neg (not_lt.mpr h)
theorem settled_of_inward (h : f.maxBits < c) (hm : Spec.inward mode neg) : settled f mode sat neg c i = (f.signBits neg + f.maxBits, flOF + flNX) := by
  rw [settled, if_pos h, overflowsToInf_eq, decide_eq_true hm]
  rfl
theorem settled_past (h : f.maxBits < c) (hm : ¬Spec.inward mode neg) : settled f mode sat neg c i =
    (if sat then f.signBits neg + f.maxBits else if f.hasInf then f.signBits neg + f.infBits else f.dnan, flOF + flNX) := by
  rw [settled, if_pos h, overflowsToInf_eq, decide_eq_false hm]
  rfl

/-- Rounding a magnitude that is not zero: once with no limit on the exponent, and again where that is tiny (log 24). -/
theorem roundFmt_fin (hn : n ≠ 0) : roundFmt f mode sat ftz r (.fin neg n d) =
    let k := floorLog2 n d
    let t := roundUnits mode neg (r 0) n d (k - f.tw)
    let e := (if decide (t.1 = 2 ^ (f.tw + 1)) then k + 1 else k) + f.bias
    if 1 ≤ e then settled f mode sat neg (e.toNat * 2 ^ f.tw + ((if decide (t.1 = 2 ^ (f.tw + 1)) then 2 ^ f.tw else t.1) - 2 ^ f.tw)) t.2
    else if ftz && f.flush then (f.signBits neg, flUF + flNX)
    else
      let t := roundUnits mode neg (r 1) n d (unitExp f 0)
      (f.signBits neg + t.1, if t.2 then flUF + flNX else 0) := by
  have hunit : unitExp f 0 = 1 - (f.bias : ℤ) - f.tw := by simp [unitExp]
  rw [hunit]
  exact if_neg hn

/-- A first rounding whose exponent is that of binade `j`. -/
theorem roundFmt_of_exponent (hn : n ≠ 0) (hk : floorLog2 n d + f.bias = j + 1) (hu : roundUnits mode neg (r 0) n d (unitExp f j) = (q, i))
    (hq : 2 ^ f.tw ≤ q) : roundFmt f mode sat ftz r (.fin neg n d) = settled f mode sat neg (j * 2 ^ f.tw + q) i := by
  have hexp : floorLog2 n d - f.tw = unitExp f j := by unfold unitExp; omega
  rw [roundFmt_fin hn]
  simp only [hexp, hu]
  by_cases hc : q = 2 ^ (f.tw + 1)
  · have he : floorLog2 n d + 1 + f.bias = (j + 2 : Nat) := by push_cast; omega
    simp only [decide_eq_true hc, if_true, he]
    rw [if_pos (by omega), Int.toNat_natCast, Nat.sub_self, hc]
    congr 1
    ring
  · have he : floorLog2 n d + f.bias = (j + 1 : Nat) := by push_cast; omega
    simp only [decide_eq_false hc, Bool.false_eq_true, if_false, he]
    rw [if_pos (by omega), Int.toNat_natCast, Nat.succ_mul]
    congr 1
    omega

/-- A first rounding carried from below the normal numbers to the least of them. -/
theorem roundFmt_of_carry (hn : n ≠ 0) (hk : floorLog2 n d + f.bias = 0) (hu : roundUnits mode neg (r 0) n d (floorLog2 n d - f.tw) = (2 ^ (f.tw + 1), i)) :
    roundFmt f mode sat ftz r (.fin neg n d) = settled f mode sat neg (2 ^ f.tw) i := by
  have he : floorLog2 n d + 1 + f.bias = 1 := by omega
  rw [roundFmt_fin hn]
  simp only [hu, decide_true, if_true, he, le_refl, Int.toNat_one, one_mul, Nat.sub_self, Nat.add_zero]

/-- A first rounding that is tiny. -/
theorem roundFmt_of_tiny (hn : n ≠ 0) (hk : floorLog2 n d + f.bias ≤ 0)
    (hu : floorLog2 n d + f.bias = 0 → (roundUnits mode neg (r 0) n d (floorLog2 n d - f.tw)).1 ≠ 2 ^ (f.tw + 1)) :
    roundFmt f mode sat ftz r (.fin neg n d) = if ftz && f.flush then (f.signBits neg, flUF + flNX)
      else
        let t := roundUnits mode neg (r 1) n d (unitExp f 0)
        (f.signBits neg + t.1, if t.2 then flUF + flNX else 0) := by
  rw [roundFmt_fin hn]
  refine if_neg ?_
  by_cases h0 : floorLog2 n d + f.bias = 0
  · rw [decide_eq_false (hu h0)]
    simp only [Bool.false_eq_true, if_false]
    omega
  · split <;> omega

end

/-! ## The code below a magnitude, and the one it is rounded to -/

/-- How far a magnitude lies from the code below it to the next. -/
noncomputable def partOf (f : Fmt) (c : Nat) (x : ℝ) : ℝ := (x - codeReal f c) / (codeReal f (c + 1) - codeReal f c)

/-- `c` is the code below a magnitude. -/
def Under (f : Fmt) (c : Nat) (x : ℝ) : Prop := codeReal f c ≤ x ∧ x < codeReal f (c + 1)

/-- The code that a magnitude above `c` is rounded to. -/
noncomputable def roundedCode (f : Fmt) (mode : Nat) (neg : Bool) (rnd c : Nat) (x : ℝ) : Nat :=
  c + if goesUp mode neg rnd (decide (c % 2 = 1)) (partOf f c x) then 1 else 0

section
variable {c e : Nat} {x : ℝ}

/-- Only the stochastic mode asks for the random value. -/
theorem roundedCode_congr {mode rnd : Nat} {neg : Bool} (hm : mode ≤ 4) (rnd' : Nat) : roundedCode f mode neg rnd c x = roundedCode f mode neg rnd' c x := by
  rw [roundedCode, roundedCode, goesUp_congr hm Iff.rfl Iff.rfl Iff.rfl]

theorem gap_pos (f : Fmt) (c : Nat) : 0 < codeReal f (c + 1) - codeReal f c := sub_pos.mpr (codeReal_strictMono f (Nat.lt_succ_self c))
theorem partOf_eq_zero : partOf f c x = 0 ↔ x = codeReal f c := by
  rw [partOf, div_eq_zero_iff, or_iff_left (gap_pos f c).ne', sub_eq_zero]

theorem Under.le_of_le (h : Under f c x) (he : codeReal f e ≤ x) : e ≤ c :=
  Nat.lt_succ_iff.mp ((codeReal_strictMono f).lt_iff_lt.mp (he.trans_lt h.2))
theorem Under.lt_of_lt (h : Under f c x) (he : x < codeReal f e) : c < e := (codeReal_strictMono f).lt_iff_lt.mp (h.1.trans_lt he)

/-- A magnitude of so many whole units lies over the code of that many. -/
theorem under_of_floor {j q : Nat} (hx : 0 ≤ x) (hfl : ⌊x / 2 ^ unitExp f j⌋₊ = q) (hq : q < 2 ^ (f.tw + 1)) (hj : j = 0 ∨ 2 ^ f.tw ≤ q) :
    Under f (j * 2 ^ f.tw + q) x ∧ partOf f (j * 2 ^ f.tw + q) x = Int.fract (x / 2 ^ unitExp f j) := by
  have hu : (0 : ℝ) < 2 ^ unitExp f j := by positivity
  have hy : 0 ≤ x / 2 ^ unitExp f j := by positivity
  have hfr : Int.fract (x / 2 ^ unitExp f j) = x / 2 ^ unitExp f j - q := by
    rw [← hfl, natCast_floor_eq_intCast_floor hy]
    rfl
  obtain ⟨hlo, hhi⟩ := (Nat.floor_eq_iff hy).mp hfl
  rw [le_div_iff₀ hu] at hlo
  rw [div_lt_iff₀ hu] at hhi
  unfold Under partOf
  rw [codeReal_binade hq.le hj, codeReal_succ_binade hq hj, hfr]
  refine ⟨⟨hlo, hhi⟩, ?_⟩
  field_simp
  ring

theorem odd_binade (hf : f.Regular) (j q : Nat) : (j * 2 ^ f.tw + q) % 2 = q % 2 := by
  obtain ⟨t, ht⟩ := Nat.exists_eq_add_of_le hf.tw_pos
  rw [ht, pow_add, pow_one, show j * (2 * 2 ^ t) + q = q + 2 * (j * 2 ^ t) by ring, Nat.add_mul_mod_self_left]

/-- A rounding to units is a rounding to the codes. -/
theorem roundUnits_code (hf : f.Regular) {n d j q : Nat} (mode : Nat) (neg : Bool) (rnd : Nat) (hd : d ≠ 0)
    (hfl : ⌊(n : ℝ) / d / 2 ^ unitExp f j⌋₊ = q) (hq : q < 2 ^ (f.tw + 1)) (hj : j = 0 ∨ 2 ^ f.tw ≤ q) :
    let c := j * 2 ^ f.tw + q
    Under f c (n / d) ∧ j * 2 ^ f.tw + (roundUnits mode neg rnd n d (unitExp f j)).1 = roundedCode f mode neg rnd c (n / d) ∧
      (roundUnits mode neg rnd n d (unitExp f j)).2 = decide ((n : ℝ) / d ≠ codeReal f c) := by
  intro c
  obtain ⟨hun, hpart⟩ := under_of_floor (by positivity) hfl hq hj
  rw [roundUnits_eq mode neg rnd n _ hd, hfl, ← hpart, roundedCode, odd_binade hf, ← Nat.add_assoc]
  refine ⟨hun, rfl, decide_eq_decide.mpr (not_congr partOf_eq_zero)⟩

end

/-! ## What each mode takes (03 R79) -/

/-- The middle between a code and the next. -/
noncomputable def middle (f : Fmt) (c : Nat) : ℝ := (codeReal f c + codeReal f (c + 1)) / 2

section
variable {mode rnd c e : Nat} {neg odd : Bool} {x : ℝ}

theorem partOf_lt_half : partOf f c x < 1 / 2 ↔ x < middle f c := by
  rw [partOf, middle, div_lt_iff₀ (gap_pos f c)]
  constructor <;> intro h <;> linarith
theorem partOf_le_half : partOf f c x ≤ 1 / 2 ↔ x ≤ middle f c := by
  rw [partOf, middle, div_le_iff₀ (gap_pos f c)]
  constructor <;> intro h <;> linarith
theorem partOf_eq_half : partOf f c x = 1 / 2 ↔ x = middle f c := by
  rw [eq_iff_le_not_lt, partOf_le_half, partOf_lt_half, ← eq_iff_le_not_lt]

theorem roundedCode_of_eq (h : x = codeReal f c) : roundedCode f mode neg rnd c x = c := by
  rw [roundedCode, if_neg, Nat.add_zero]
  exact fun hup => part_ne_zero_of_goesUp hup (partOf_eq_zero.mpr h)

theorem roundedCode_le_max (h : Under f c x) (htop : x ≤ codeReal f f.maxBits) : roundedCode f mode neg rnd c x ≤ f.maxBits := by
  have hc : c ≤ f.maxBits := (codeReal_strictMono f).le_iff_le.mp (h.1.trans htop)
  rcases hc.eq_or_lt with rfl | hlt
  · rw [roundedCode_of_eq (htop.antisymm h.1)]
  · unfold roundedCode
    split <;> omega

/-- Rounding gives the value itself just where a code stands for it. -/
theorem codeReal_roundedCode (h : Under f c x) : codeReal f (roundedCode f mode neg rnd c x) = x ↔ x = codeReal f c := by
  refine ⟨fun heq => ?_, fun heq => by rw [roundedCode_of_eq heq, heq]⟩
  unfold roundedCode at heq
  split at heq
  · exact absurd heq h.2.ne'
  · exact heq.symm

/-- Of all codes the lower of the two about a magnitude is the nearest, up to the middle. -/
theorem Under.nearest_lower (h : Under f c x) (hp : x ≤ middle f c) (e : Nat) :
    |codeReal f c - x| ≤ |codeReal f e - x| ∧ (|codeReal f c - x| = |codeReal f e - x| → e ≠ c → x = middle f c) := by
  obtain ⟨h1, h2⟩ := h
  unfold middle at hp ⊢
  rw [abs_of_nonpos (by linarith : codeReal f c - x ≤ 0)]
  rcases lt_trichotomy e c with hlt | rfl | hgt
  · have := codeReal_strictMono f hlt
    rw [abs_of_neg (by linarith)]
    exact ⟨by linarith, fun heq => by linarith⟩
  · rw [abs_of_nonpos (by linarith)]
    exact ⟨le_rfl, fun _ hne => absurd rfl hne⟩
  · have : codeReal f (c + 1) ≤ codeReal f e := (codeReal_strictMono f).monotone hgt
    rw [abs_of_pos (by linarith)]
    exact ⟨by linarith, fun heq _ => by linarith⟩
/-- From the middle on the upper one is; below it no code but the lower one is as near. -/
theorem Under.nearest_upper (h : Under f c x) (hp : middle f c ≤ x) (e : Nat) :
    |codeReal f (c + 1) - x| ≤ |codeReal f e - x| ∧ (|codeReal f (c + 1) - x| = |codeReal f e - x| → e ≠ c + 1 → x = middle f c ∧ e ≤ c) := by
  obtain ⟨h1, h2⟩ := h
  unfold middle at hp ⊢
  rw [abs_of_pos (by linarith : 0 < codeReal f (c + 1) - x)]
  rcases lt_trichotomy e (c + 1) with hlt | rfl | hgt
  · have := (codeReal_strictMono f).monotone (Nat.lt_succ_iff.mp hlt)
    rw [abs_of_nonpos (by linarith)]
    exact ⟨by linarith, fun heq _ => ⟨by linarith, Nat.lt_succ_iff.mp hlt⟩⟩
  · rw [abs_of_pos (by linarith)]
    exact ⟨le_rfl, fun _ hne => absurd rfl hne⟩
  · have := codeReal_strictMono f hgt
    rw [abs_of_pos (by linarith)]
    exact ⟨by linarith, fun heq => by linarith⟩

/-- Each mode takes of the two codes about a magnitude the one that 03 R79 names. -/
theorem rounds_roundedCode (h : Under f c x) : Spec.rounds f mode neg x (roundedCode f mode neg rnd c x) := by
  unfold roundedCode
  refine ⟨?_, ?_, fun hd => ?_, fun hd => ?_⟩
  · rintro rfl e -
    by_cases hup : middle f c < x ∨ x = middle f c ∧ c % 2 = 1
    · rw [if_pos (by rwa [goesUp_even, ← not_le, partOf_le_half, not_le, partOf_eq_half, decide_eq_true_eq])]
      obtain ⟨hle, htie⟩ := h.nearest_upper (hup.elim le_of_lt fun hx => hx.1.ge) e
      refine ⟨hle, fun heq hne => ?_⟩
      have := (hup.resolve_left (htie heq hne).1.not_gt).2
      omega
    · rw [if_neg (by rwa [goesUp_even, ← not_le, partOf_le_half, not_le, partOf_eq_half, decide_eq_true_eq])]
      obtain ⟨hx, hodd⟩ := not_or.mp hup
      obtain ⟨hle, htie⟩ := h.nearest_lower (not_lt.mp hx) e
      exact ⟨hle, fun heq hne => Nat.mod_two_ne_one.mp fun h1 => hodd ⟨htie heq hne, h1⟩⟩
  · rintro rfl e -
    by_cases hup : middle f c ≤ x
    · rw [if_pos (by rwa [goesUp_away, ← not_lt, partOf_lt_half, not_lt])]
      obtain ⟨hle, htie⟩ := h.nearest_upper hup e
      refine ⟨hle, fun heq => ?_⟩
      by_cases hne : e = c + 1
      · exact hne.le
      · exact (htie heq hne).2.trans (Nat.le_succ c)
    · rw [if_neg (by rwa [goesUp_away, ← not_lt, partOf_lt_half, not_lt])]
      obtain ⟨hle, htie⟩ := h.nearest_lower (not_le.mp hup).le e
      refine ⟨hle, fun heq => ?_⟩
      by_contra hne
      exact hup (htie heq (by omega)).ge
  · rw [goesUp_inward hd]
    exact ⟨h.1, fun e _ he => h.le_of_le he⟩
  · rw [goesUp_outward hd]
    by_cases h0 : x = codeReal f c
    · rw [if_neg (by simpa using partOf_eq_zero.mpr h0)]
      exact ⟨h0.le, fun e _ he => (codeReal_strictMono f).le_iff_le.mp (h0.ge.trans he)⟩
    · rw [if_pos (by simpa using h0 ∘ partOf_eq_zero.mp)]
      exact ⟨h.2.le, fun e _ he => (codeReal_strictMono f).lt_iff_lt.mp ((lt_of_le_of_ne h.1 (Ne.symm h0)).trans_le he)⟩

end

/-! ## The rounding of finite values (03 R81 to R83) -/

section
variable {mode n d : Nat} {sat ftz neg : Bool} {r : Nat → Nat}

/-- The exponent of a normal number. -/
theorem exponent_of_least_le (hn : n ≠ 0) (hd : d ≠ 0) (h : codeReal f (2 ^ f.tw) ≤ (n : ℝ) / d) : ∃ j : Nat, floorLog2 n d + f.bias = j + 1 := by
  rw [codeReal_least] at h
  have := (zpow_lt_zpow_iff_right₀ (one_lt_two (α := ℝ))).mp (h.trans_lt (floorLog2_spec hn hd).2)
  exact ⟨(floorLog2 n d + f.bias - 1).toNat, by omega⟩
theorem exponent_of_lt_least (hn : n ≠ 0) (hd : d ≠ 0) (h : (n : ℝ) / d < codeReal f (2 ^ f.tw)) : floorLog2 n d + f.bias ≤ 0 := by
  rw [codeReal_least] at h
  have := (zpow_lt_zpow_iff_right₀ (one_lt_two (α := ℝ))).mp ((floorLog2_spec hn hd).1.trans_lt h)
  omega

/-- A magnitude has `tw + 1` bits before the point in the units of its first rounding. -/
theorem floor_units (hn : n ≠ 0) (hd : d ≠ 0) (t : Nat) :
    2 ^ t ≤ ⌊(n : ℝ) / d / 2 ^ (floorLog2 n d - t)⌋₊ ∧ ⌊(n : ℝ) / d / 2 ^ (floorLog2 n d - t)⌋₊ < 2 ^ (t + 1) := by
  obtain ⟨hlo, hhi⟩ := floorLog2_spec hn hd
  have hu : (0 : ℝ) < 2 ^ (floorLog2 n d - t) := by positivity
  rw [Nat.le_floor_iff (by positivity), Nat.floor_lt (by positivity), le_div_iff₀ hu, div_lt_iff₀ hu]
  push_cast
  rw [← zpow_natCast, ← zpow_natCast, ← zpow_add₀ two_ne_zero, ← zpow_add₀ two_ne_zero, Nat.cast_succ, add_right_comm, add_sub_cancel]
  exact ⟨hlo, hhi⟩

theorem num_ne_zero_of_least_le (h : codeReal f (2 ^ f.tw) ≤ (n : ℝ) / d) : n ≠ 0 := by
  rintro rfl
  have hpos : codeReal f 0 < codeReal f (2 ^ f.tw) := codeReal_strictMono f (by positivity)
  rw [codeReal_zero] at hpos
  exact absurd (hpos.trans_le h) (by simp)

/-- A normal magnitude is rounded from the code under it. -/
theorem roundFmt_normal (mode : Nat) (sat ftz neg : Bool) (r : Nat → Nat) (hf : f.Regular) (hd : d ≠ 0) (h : codeReal f (2 ^ f.tw) ≤ (n : ℝ) / d) :
    ∃ c, 2 ^ f.tw ≤ c ∧ Under f c (n / d) ∧
      roundFmt f mode sat ftz r (.fin neg n d) = settled f mode sat neg (roundedCode f mode neg (r 0) c (n / d)) (decide ((n : ℝ) / d ≠ codeReal f c)) := by
  have hn := num_ne_zero_of_least_le h
  obtain ⟨j, hj⟩ := exponent_of_least_le hn hd h
  have hexp : floorLog2 n d - f.tw = unitExp f j := by unfold unitExp; omega
  obtain ⟨hq1, hq2⟩ := floor_units hn hd f.tw
  rw [hexp] at hq1 hq2
  obtain ⟨hun, hcode, hinexact⟩ := roundUnits_code hf mode neg (r 0) hd rfl hq2 (.inr hq1)
  have hge : 2 ^ f.tw ≤ (roundUnits mode neg (r 0) n d (unitExp f j)).1 := by
    rw [roundUnits_eq mode neg (r 0) n _ hd]
    exact hq1.trans (Nat.le_add_right ..)
  refine ⟨_, hq1.trans (Nat.le_add_left ..), hun, ?_⟩
  rw [roundFmt_of_exponent hn hj (Prod.eta _).symm hge, hcode, hinexact]

/-- A first rounding that carries took the last step of its binade, and is inexact. -/
theorem goesUp_of_carry {t rnd : Nat} (hn : n ≠ 0) (hd : d ≠ 0) (hu : (roundUnits mode neg rnd n d (floorLog2 n d - t)).1 = 2 ^ (t + 1)) :
    let y : ℝ := (n : ℝ) / d / 2 ^ (floorLog2 n d - t)
    goesUp mode neg rnd (decide (⌊y⌋₊ % 2 = 1)) (Int.fract y) = true ∧ (roundUnits mode neg rnd n d (floorLog2 n d - t)).2 = true ∧ 2 ^ (t + 1) - 1 < y := by
  intro y
  have hlt : ⌊y⌋₊ < 2 ^ (t + 1) := (floor_units hn hd t).2
  rw [roundUnits_eq mode neg rnd n _ hd] at hu ⊢
  have hup : goesUp mode neg rnd (decide (⌊y⌋₊ % 2 = 1)) (Int.fract y) = true := by
    by_contra hno
    rw [if_neg hno] at hu
    exact hlt.ne hu
  rw [if_pos hup] at hu
  have hne := part_ne_zero_of_goesUp hup
  have hpos := (Int.fract_nonneg y).lt_of_ne' hne
  have hfloor : (⌊y⌋₊ : ℝ) + 1 = 2 ^ (t + 1) := by exact_mod_cast hu
  rw [← Int.self_sub_floor, ← natCast_floor_eq_intCast_floor (by positivity)] at hpos
  exact ⟨hup, decide_eq_true hne, by linarith⟩

/-- The unit of the binade below the normal numbers is half that of the subnormal numbers. -/
theorem units_below_normal (x : ℝ) (hk : floorLog2 n d + f.bias = 0) : x / 2 ^ (floorLog2 n d - f.tw) = 2 * (x / 2 ^ unitExp f 0) := by
  rw [show floorLog2 n d - f.tw = unitExp f 0 - 1 by unfold unitExp; push_cast; omega, zpow_sub_one₀ two_ne_zero]
  field_simp

/-- Where the first rounding carries to the least normal number, the rounding to the subnormal numbers does too. -/
theorem roundedCode_of_carry {rnd : Nat} (rnd' : Nat) (hn : n ≠ 0) (hd : d ≠ 0) (hm : mode ≤ 4) (hk : floorLog2 n d + f.bias = 0)
    (h : (n : ℝ) / d < codeReal f (2 ^ f.tw)) (hu : (roundUnits mode neg rnd n d (floorLog2 n d - f.tw)).1 = 2 ^ (f.tw + 1)) :
    ∃ c, Under f c (n / d) ∧ (n : ℝ) / d ≠ codeReal f c ∧ roundedCode f mode neg rnd' c (n / d) = 2 ^ f.tw := by
  have hp : 1 ≤ 2 ^ f.tw := Nat.one_le_two_pow
  have hpow : 2 ^ (f.tw + 1) = 2 * 2 ^ f.tw := by ring
  obtain ⟨hup, -, hlow⟩ := goesUp_of_carry hn hd hu
  rw [units_below_normal _ hk, pow_succ] at hlow
  have hhigh : (n : ℝ) / d / 2 ^ unitExp f 0 < 2 ^ f.tw := lt_least_iff.mp h
  have hfl : ⌊(n : ℝ) / d / 2 ^ unitExp f 0⌋₊ = 2 ^ f.tw - 1 := by
    rw [Nat.floor_eq_iff (by positivity), Nat.cast_pred hp]
    push_cast
    constructor <;> linarith
  obtain ⟨hun, hpart⟩ := under_of_floor (f := f) (by positivity) hfl (by omega) (.inl rfl)
  have hhalf : 1 / 2 < partOf f (0 * 2 ^ f.tw + (2 ^ f.tw - 1)) ((n : ℝ) / d) := by
    rw [hpart, ← Int.self_sub_floor, ← natCast_floor_eq_intCast_floor (by positivity), hfl, Nat.cast_pred hp]
    push_cast
    linarith
  refine ⟨_, hun, fun h0 => ?_, ?_⟩
  · rw [partOf_eq_zero.mpr h0] at hhalf
    norm_num at hhalf
  · rw [roundedCode, if_pos (goesUp_of_goesUp hm hup hhalf)]
    omega

/-- A magnitude below the normal numbers is rounded from the code under it. -/
theorem roundFmt_subnormal (hf : f.Regular) (hn : n ≠ 0) (hd : d ≠ 0) (hm : mode ≤ 4) (hz : (ftz && f.flush) = false) (h : (n : ℝ) / d < codeReal f (2 ^ f.tw)) :
    ∃ c fl, Under f c (n / d) ∧ roundFmt f mode sat ftz r (.fin neg n d) = (f.signBits neg + roundedCode f mode neg 0 c (n / d), fl) ∧
      ((n : ℝ) / d = codeReal f c → fl = 0) ∧ ((n : ℝ) / d ≠ codeReal f c → fl = flUF + flNX ∨ fl = flNX ∧ roundedCode f mode neg 0 c (n / d) = 2 ^ f.tw) := by
  have hk := exponent_of_lt_least hn hd h
  by_cases hu : floorLog2 n d + f.bias = 0 ∧ (roundUnits mode neg (r 0) n d (floorLog2 n d - f.tw)).1 = 2 ^ (f.tw + 1)
  · obtain ⟨h0, hcarry⟩ := hu
    obtain ⟨c, hun, hne, hcode⟩ := roundedCode_of_carry 0 hn hd hm h0 h hcarry
    obtain ⟨-, hinexact, -⟩ := goesUp_of_carry hn hd hcarry
    refine ⟨c, flNX, hun, ?_, fun h => absurd h hne, fun _ => .inr ⟨rfl, hcode⟩⟩
    rw [roundFmt_of_carry hn h0 (Prod.ext hcarry hinexact), settled_of_le hf.normal_lt_max.le, hcode]
    rfl
  · have hx : ⌊(n : ℝ) / d / 2 ^ unitExp f 0⌋₊ < 2 ^ f.tw := by
      rw [Nat.floor_lt (by positivity)]
      exact_mod_cast lt_least_iff.mp h
    obtain ⟨hun, hcode, hinexact⟩ := roundUnits_code hf mode neg (r 1) hd rfl (hx.trans (Nat.pow_lt_pow_succ one_lt_two)) (.inl rfl)
    rw [Nat.zero_mul, Nat.zero_add] at hun hcode hinexact
    rw [Nat.zero_add, roundedCode_congr hm 0] at hcode
    refine ⟨_, if (n : ℝ) / d = codeReal f ⌊(n : ℝ) / d / 2 ^ unitExp f 0⌋₊ then 0 else flUF + flNX, hun, ?_, fun h => if_pos h, fun h => .inl (if_neg h)⟩
    rw [roundFmt_of_tiny hn hk (not_and.mp hu), hz, ← hcode]
    simp only [Bool.false_eq_true, if_false, hinexact, decide_eq_true_eq, ite_not]

/-- A magnitude that is not past the largest finite one becomes one of the two codes about it, unless it is tiny and FTZ is on. -/
theorem roundFmt_inRange (hf : f.Regular) (hd : d ≠ 0) (hm : mode ≤ 4) (hz : (ftz && f.flush) = false ∨ n = 0 ∨ codeReal f (2 ^ f.tw) ≤ (n : ℝ) / d)
    (htop : (n : ℝ) / d ≤ codeReal f f.maxBits) :
    ∃ c fl, Under f c (n / d) ∧ roundFmt f mode sat ftz r (.fin neg n d) = (f.signBits neg + roundedCode f mode neg 0 c (n / d), fl) ∧
      ((n : ℝ) / d = codeReal f c → fl = 0) ∧
      ((n : ℝ) / d ≠ codeReal f c → fl = flNX ∧ 2 ^ f.tw ≤ roundedCode f mode neg 0 c (n / d) ∨ fl = flUF + flNX ∧ (n : ℝ) / d < codeReal f (2 ^ f.tw)) := by
  rcases Nat.eq_zero_or_pos n with rfl | hn
  · have hx : ((0 : Nat) : ℝ) / d = codeReal f 0 := by simp
    refine ⟨0, 0, ⟨hx.ge, hx.trans_lt (codeReal_strictMono f one_pos)⟩, ?_, fun _ => rfl, fun h => absurd hx h⟩
    rw [roundedCode_of_eq hx]
    rfl
  replace hn := hn.ne'
  rcases le_or_gt (codeReal f (2 ^ f.tw)) ((n : ℝ) / d) with h | h
  · obtain ⟨c, hc, hun, hout⟩ := roundFmt_normal mode sat ftz neg r hf hd h
    rw [settled_of_le (roundedCode_le_max hun htop), roundedCode_congr hm 0] at hout
    refine ⟨c, _, hun, hout, fun h => ?_, fun h => .inl ⟨?_, hc.trans (Nat.le_add_right ..)⟩⟩ <;> simp [h]
  · have hz := hz.resolve_right (not_or.mpr ⟨hn, h.not_ge⟩)
    obtain ⟨c, fl, hun, hout, hexact, hinexact⟩ := roundFmt_subnormal (sat := sat) (neg := neg) (r := r) hf hn hd hm hz h
    refine ⟨c, fl, hun, hout, hexact, fun hne => ?_⟩
    rcases hinexact hne with hfl | ⟨hfl, hcode⟩
    · exact .inr ⟨hfl, h⟩
    · exact .inl ⟨hfl, hcode.ge⟩

end

/-! ## Overflow, FTZ and the stochastic mode (03 R80, R81, R83) -/

section
variable {mode n d : Nat} {sat ftz neg : Bool} {r : Nat → Nat}

/-- The code under a magnitude past the largest finite number is the largest, or past it. -/
theorem roundFmt_of_max_lt (mode : Nat) (sat ftz neg : Bool) (r : Nat → Nat) (hf : f.Regular) (hd : d ≠ 0) (h : codeReal f f.maxBits < (n : ℝ) / d) :
    ∃ c, f.maxBits ≤ c ∧ Under f c (n / d) ∧
      roundFmt f mode sat ftz r (.fin neg n d) = settled f mode sat neg (roundedCode f mode neg (r 0) c (n / d)) (decide ((n : ℝ) / d ≠ codeReal f c)) := by
  obtain ⟨c, -, hun, hout⟩ := roundFmt_normal mode sat ftz neg r hf hd ((codeReal_strictMono f hf.normal_lt_max).trans h).le
  exact ⟨c, hun.le_of_le h.le, hun, hout⟩

/-- The middle past the largest finite number. -/
theorem middle_max (hf : f.Regular) : middle f f.maxBits = codeReal f f.maxBits + (codeReal f f.maxBits - codeReal f (f.maxBits - 1)) / 2 := by
  rw [middle, codeReal_max_succ hf]
  ring

theorem lt_middle (f : Fmt) (c : Nat) : codeReal f c < middle f c := by
  have := gap_pos f c
  unfold middle
  linarith
theorem middle_lt_succ (f : Fmt) (c : Nat) : middle f c < codeReal f (c + 1) := by
  have := gap_pos f c
  unfold middle
  linarith

theorem not_inward_of_outward (h : Spec.outward mode neg) : ¬Spec.inward mode neg := by
  rcases h with ⟨rfl, rfl⟩ | ⟨rfl, rfl⟩ <;> simp [Spec.inward]
theorem not_inward_of_nearest (h : mode = 0 ∨ mode = 4) : ¬Spec.inward mode neg := by
  rcases h with rfl | rfl <;> simp [Spec.inward]

/-- A magnitude past the largest finite one that is rounded down to it does not overflow. -/
theorem roundFmt_to_max (hf : f.Regular) (hd : d ≠ 0) (h : codeReal f f.maxBits < (n : ℝ) / d) (h' : (n : ℝ) / d < codeReal f (f.maxBits + 1))
    (hup : goesUp mode neg (r 0) (decide (f.maxBits % 2 = 1)) (partOf f f.maxBits (n / d)) = false) :
    roundFmt f mode sat ftz r (.fin neg n d) = (f.signBits neg + f.maxBits, flNX) := by
  obtain ⟨c, hc, hun, hout⟩ := roundFmt_of_max_lt mode sat ftz neg r hf hd h
  obtain rfl : c = f.maxBits := (Nat.lt_succ_iff.mp (hun.lt_of_lt h')).antisymm hc
  rw [hout, roundedCode, if_neg (Bool.not_eq_true _ ▸ hup), Nat.add_zero, settled_of_le le_rfl, decide_eq_true h.ne']
  rfl

/-- One that is rounded up overflows, in a mode that does not take it down. -/
theorem roundFmt_past (hf : f.Regular) (hd : d ≠ 0) (h : codeReal f f.maxBits < (n : ℝ) / d) (hm : ¬Spec.inward mode neg)
    (hup : goesUp mode neg (r 0) (decide (f.maxBits % 2 = 1)) (partOf f f.maxBits (n / d)) = true) :
    roundFmt f mode sat ftz r (.fin neg n d) = (if sat then f.signBits neg + f.maxBits else if f.hasInf then f.signBits neg + f.infBits else f.dnan, flOF + flNX) := by
  obtain ⟨c, hc, -, hout⟩ := roundFmt_of_max_lt mode sat ftz neg r hf hd h
  rw [hout, settled_past _ hm]
  rcases hc.eq_or_lt with rfl | hlt
  · rw [roundedCode, if_pos hup]
    exact Nat.lt_succ_self _
  · exact hlt.trans_le (Nat.le_add_right ..)

/-- In a mode that takes it down, a magnitude overflows from the next number on. -/
theorem roundFmt_inward_past (hf : f.Regular) (hd : d ≠ 0) (h : codeReal f (f.maxBits + 1) ≤ (n : ℝ) / d) (hm : Spec.inward mode neg) :
    roundFmt f mode sat ftz r (.fin neg n d) = (f.signBits neg + f.maxBits, flOF + flNX) := by
  obtain ⟨c, -, hun, hout⟩ := roundFmt_of_max_lt mode sat ftz neg r hf hd ((codeReal_strictMono f (Nat.lt_succ_self _)).trans_le h)
  rw [hout, settled_of_inward _ hm]
  exact (Nat.lt_of_succ_le (hun.le_of_le h)).trans_le (Nat.le_add_right ..)

/-- FTZ: a magnitude that does not reach the last number before the normal ones, with no limit on the exponent, is tiny. -/
theorem roundFmt_flushed (hn : n ≠ 0) (hd : d ≠ 0) (hz : (ftz && f.flush) = true)
    (h : (n : ℝ) / d ≤ codeReal f (2 ^ f.tw) - codeReal f (2 ^ f.tw) / 2 ^ (f.tw + 1)) :
    roundFmt f mode sat ftz r (.fin neg n d) = (f.signBits neg, flUF + flNX) := by
  have hl : 0 < codeReal f (2 ^ f.tw) := by rw [codeReal_least]; positivity
  have hlt : (n : ℝ) / d < codeReal f (2 ^ f.tw) := h.trans_lt (sub_lt_self _ (by positivity))
  rw [roundFmt_of_tiny hn (exponent_of_lt_least hn hd hlt), hz, if_pos rfl]
  intro hk hcarry
  obtain ⟨-, -, hlow⟩ := goesUp_of_carry hn hd hcarry
  rw [units_below_normal _ hk, ← mul_div_assoc, lt_div_iff₀ (by positivity)] at hlow
  have hhalf : codeReal f (2 ^ f.tw) / 2 ^ (f.tw + 1) = 2 ^ unitExp f 0 / 2 := by
    rw [codeReal_least_units, pow_succ]
    field_simp
  rw [hhalf, codeReal_least_units] at h
  rw [pow_succ] at hlow
  linarith

/-- The stochastic mode takes the next code where the random value is below the fraction (03 R80). -/
theorem roundFmt_stochastic (hf : f.Regular) (hd : d ≠ 0) (h : codeReal f (2 ^ f.tw) ≤ (n : ℝ) / d) (htop : (n : ℝ) / d ≤ codeReal f f.maxBits) :
    ∃ c ≤ f.maxBits, Under f c (n / d) ∧ roundFmt f 5 sat ftz r (.fin neg n d) =
      (f.signBits neg + if (r 0 : ℤ) < ⌊partOf f c (n / d) * 2 ^ 16⌋ then c + 1 else c, if partOf f c (n / d) = 0 then 0 else flNX) := by
  obtain ⟨c, -, hun, hout⟩ := roundFmt_normal 5 sat ftz neg r hf hd h
  have hc := roundedCode_le_max (mode := 5) (neg := neg) (rnd := r 0) hun htop
  refine ⟨c, (Nat.le_add_right ..).trans hc, hun, ?_⟩
  rw [hout, settled_of_le hc, roundedCode]
  simp only [goesUp_stochastic, decide_eq_true_eq, ne_eq, partOf_eq_zero, ite_not, add_ite, Nat.add_zero]

end

theorem roundingRules : Spec.RoundingRules := by
  intro f mode sat ftz neg r b n d hmem hd g x out top ulp least code past
  have hf := regular_of_mem hmem
  have hx : ((x : ℚ) : ℝ) = (n : ℝ) / d := by simp only [x]; push_cast; rfl
  have hle (q : ℚ) : q ≤ x ↔ (q : ℝ) ≤ (n : ℝ) / d := by rw [← hx, Rat.cast_le]
  have hge (q : ℚ) : x ≤ q ↔ (n : ℝ) / d ≤ (q : ℝ) := by rw [← hx, Rat.cast_le]
  have hlt (q : ℚ) : x < q ↔ (n : ℝ) / d < (q : ℝ) := by rw [← hx, Rat.cast_lt]
  have hgt (q : ℚ) : q < x ↔ (q : ℝ) < (n : ℝ) / d := by rw [← hx, Rat.cast_lt]
  have heq (a : Nat) : g a = x ↔ codeReal f a = (n : ℝ) / d := by rw [← hx]; exact Rat.cast_inj.symm
  have hmid : ((top + ulp / 2 : ℚ) : ℝ) = middle f f.maxBits := by rw [middle_max hf]; simp only [top, ulp]; push_cast; rfl
  have hnext : ((top + ulp : ℚ) : ℝ) = codeReal f (f.maxBits + 1) := by rw [codeReal_max_succ hf]; simp only [top, ulp]; push_cast; rfl
  refine ⟨⟨fun h => ?_, decode_of_inf, decode_of_nan hf⟩, fun hm hz htop => ?_, ?_, fun hm => ⟨fun h h' => ?_, fun h => ?_⟩, fun hm h => ?_, fun hm h => ?_,
    fun hftz hfl hn h => ?_, fun _ => rfl, rfl⟩
  · rw [decode_of_finite hf h]
    exact fieldValue_eq ..
  · have hz' : (ftz && f.flush) = false ∨ n = 0 ∨ codeReal f (2 ^ f.tw) ≤ (n : ℝ) / d := by
      rw [Bool.and_eq_false_iff, or_assoc]
      exact hz.imp_right (.imp_right (.imp_right (hle _).mp))
    obtain ⟨c, fl, hun, hout, hexact, hinexact⟩ := roundFmt_inRange (sat := sat) (neg := neg) (r := r) hf hd hm hz' ((hge _).mp htop)
    refine ⟨_, fl, hout, roundedCode_le_max hun ((hge _).mp htop), ?_, ?_, ?_, ?_⟩
    · rw [hx]
      exact rounds_roundedCode hun
    · rw [heq, codeReal_roundedCode hun]
      exact hexact
    · rw [ne_eq, heq, codeReal_roundedCode hun, hlt]
      exact fun h => (hinexact h).imp_left And.left
    · rw [ne_eq, heq, codeReal_roundedCode hun]
      exact fun h hc => ((hinexact h).resolve_left fun hn => hn.2.not_gt hc).1
  · rintro rfl h htop
    obtain ⟨c, hc, hun, hout⟩ := roundFmt_stochastic (sat := sat) (ftz := ftz) (neg := neg) (r := r) hf hd ((hle _).mp h) ((hge _).mp htop)
    refine ⟨c, hc, (hle _).mpr hun.1, (hlt _).mpr hun.2, ?_⟩
    intro part
    have hpart : (part : ℝ) = partOf f c (n / d) := by
      simp only [part]
      push_cast
      rw [hx]
      rfl
    have hfloor : ⌊partOf f c (n / d) * 2 ^ 16⌋ = ⌊part * 2 ^ 16⌋ := by
      rw [← hpart, ← Rat.floor_cast (α := ℝ)]
      push_cast
      rfl
    have hzero : partOf f c (n / d) = 0 ↔ part = 0 := by rw [← hpart, Rat.cast_eq_zero]
    simp only [hfloor, hzero] at hout
    exact hout
  · have h' := (hlt _).mp h'
    rw [hmid] at h'
    exact roundFmt_to_max hf hd ((hgt _).mp h) (h'.trans (middle_lt_succ ..)) (goesUp_of_lt_half hm (partOf_lt_half.mpr h'))
  · have h := (hgt _).mp h
    rw [hmid] at h
    refine roundFmt_past hf hd ((lt_middle ..).trans h) (not_inward_of_nearest hm) (goesUp_of_half_lt hm ?_)
    rwa [← not_le, partOf_le_half, not_le]
  · by_cases hn : x < top + ulp
    · rw [if_pos hn]
      exact roundFmt_to_max hf hd ((hgt _).mp h) (((hlt _).mp hn).trans_eq hnext) (goesUp_inward hm)
    · rw [if_neg hn]
      exact roundFmt_inward_past hf hd (hnext.symm.trans_le ((hle _).mp (not_lt.mp hn))) hm
  · refine roundFmt_past hf hd ((hgt _).mp h) (not_inward_of_outward hm) ?_
    rw [goesUp_outward hm, decide_eq_true_eq, ne_eq, partOf_eq_zero]
    exact ((hgt _).mp h).ne'
  · refine roundFmt_flushed hn hd (by rw [hftz, hfl]; rfl) ?_
    have h := (hge _).mp h
    push_cast at h
    exact h

end Sys2Proof.Machine
end

section
namespace Sys2Proof.Machine

variable {f : Fmt} {a b c : Bool} {n d m e k l mode : Nat}

/-! ## Exact arithmetic (04 R114) -/

theorem number_fin (a : Bool) (n d : Nat) : Spec.number (.fin a n d) = (if a then -(n : ℚ) else n) / d := by
  cases a <;> simp [Spec.number, Val.snum, Val.den]

/-- A value with the sign and the size of an integer numerator. -/
theorem number_of_int (t : ℤ) (d : Nat) : Spec.number (.fin (decide (t < 0)) t.natAbs d) = t / d := by
  rw [number_fin, Nat.cast_natAbs]
  split
  case isTrue h => rw [abs_of_neg (of_decide_eq_true h)]; push_cast; ring
  case isFalse h => rw [abs_of_nonneg (not_lt.mp (h ∘ decide_eq_true))]

/-- The sum of two fractions, as one. -/
theorem number_add (hd : d ≠ 0) (he : e ≠ 0) : Spec.number (.fin a n d) + Spec.number (.fin b m e) =
    (((Val.fin a n d).snum * e + (Val.fin b m e).snum * d : ℤ) : ℚ) / ((d * e : Nat) : ℚ) := by
  have hd' : (d : ℚ) ≠ 0 := Nat.cast_ne_zero.mpr hd
  have he' : (e : ℚ) ≠ 0 := Nat.cast_ne_zero.mpr he
  simp only [Spec.number, Val.den]
  push_cast
  rw [div_add_div _ _ hd' he']
  ring

theorem add_fin (hd : d ≠ 0) (he : e ≠ 0) : ∃ s i j, Val.add mode (.fin a n d) (.fin b m e) = (.fin s i j, 0) ∧ j ≠ 0 ∧
    Spec.number (.fin s i j) = Spec.number (.fin a n d) + Spec.number (.fin b m e) ∧ (i = 0 → s = if n = 0 ∧ m = 0 ∧ a = b then a else decide (mode = 3)) := by
  rw [number_add hd he]
  simp only [Val.add]
  generalize (Val.fin a n d).snum * e + (Val.fin b m e).snum * d = t
  by_cases ht : t = 0
  · rw [if_pos ht]
    refine ⟨_, _, _, rfl, one_ne_zero, ?_, fun _ => rfl⟩
    simp [number_fin, ht]
  · rw [if_neg ht]
    exact ⟨_, _, _, rfl, mul_ne_zero hd he, number_of_int t _, fun h => absurd (Int.natAbs_eq_zero.mp h) ht⟩

theorem number_mul : Spec.number (.fin (a != b) (n * m) (d * e)) = Spec.number (.fin a n d) * Spec.number (.fin b m e) := by
  rw [number_fin, number_fin, number_fin, div_mul_div_comm]
  cases a <;> cases b <;> simp

theorem number_div : Spec.number (.fin (a != b) (n * e) (d * m)) = Spec.number (.fin a n d) / Spec.number (.fin b m e) := by
  rw [number_fin, number_fin, number_fin, div_div_div_eq]
  cases a <;> cases b <;> simp [neg_div, div_neg]

theorem fma_fin (hd : d ≠ 0) (he : e ≠ 0) (hl : l ≠ 0) : ∃ s i j, Val.fma mode (.fin a n d) (.fin b m e) (.fin c k l) = (.fin s i j, 0) ∧ j ≠ 0 ∧
    Spec.number (.fin s i j) = Spec.number (.fin a n d) * Spec.number (.fin b m e) + Spec.number (.fin c k l) := by
  obtain ⟨s, i, j, hout, hj, hnum, -⟩ := add_fin (mode := mode) (a := a != b) (b := c) (n := n * m) (m := k) (mul_ne_zero hd he) hl
  refine ⟨s, i, j, ?_, hj, by rw [hnum, number_mul]⟩
  have hmul : Val.mul (.fin a n d) (.fin b m e) = (.fin (a != b) (n * m) (d * e), 0) := rfl
  simp only [Val.fma, hmul, hout]
  rfl

/-! ## The square root (04 R114) -/

/-- The bits of a root that are found so far, and those still to come. -/
theorem isqrtFrom_spec (n : Nat) : ∀ i r, r * r ≤ n → n < (r + 2 ^ (i + 1)) * (r + 2 ^ (i + 1)) → isqrtFrom n i r = Nat.sqrt n
  | 0, r, hlo, hhi => by
    rw [Nat.eq_sqrt, isqrtFrom]
    split
    case isTrue h => exact ⟨h, hhi⟩
    case isFalse h => exact ⟨hlo, not_le.mp h⟩
  | i + 1, r, hlo, hhi => by
    rw [isqrtFrom]
    split
    case isTrue h => exact isqrtFrom_spec n i _ h (by rwa [add_assoc, ← two_mul, ← pow_succ'])
    case isFalse h => exact isqrtFrom_spec n i r hlo (not_le.mp h)

theorem isqrt_eq_sqrt (n : Nat) : isqrt n = Nat.sqrt n := by
  refine isqrtFrom_spec n _ 0 (Nat.zero_le n) ?_
  have hlt : n < 2 ^ (n.log2 + 1) := Nat.lt_log2_self
  refine hlt.trans_le ?_
  rw [zero_add, ← pow_add]
  exact Nat.pow_le_pow_right two_pos (by omega)

/-- No code and no middle between two codes separates the reals: they are rounded alike. -/
def Alike (x y : ℝ) : Prop := ∀ m : Nat, m ≤ 2 ^ 25 → ∀ s : ℤ, ((m : ℝ) * 2 ^ s ≤ x ↔ (m : ℝ) * 2 ^ s ≤ y) ∧ (x ≤ (m : ℝ) * 2 ^ s ↔ y ≤ (m : ℝ) * 2 ^ s)

/-- In units that are small enough a short number is a whole number of them, or no greater than the root. -/
theorem short_number_units {K B : Nat} (hn : n ≠ 0) (hB : B * B * d ≤ 4 ^ K) (hm : m ≤ B) (s : ℤ) :
    (m : ℝ) * 2 ^ s * (d * 2 ^ K) ≤ Nat.sqrt (n * d * 4 ^ K) ∨ (Nat.sqrt (n * d * 4 ^ K) : ℝ) + 1 ≤ m * 2 ^ s * (d * 2 ^ K) := by
  have hzpow : (m : ℝ) * 2 ^ s * (d * 2 ^ K) = m * d * 2 ^ (s + K) := by
    rw [zpow_add₀ two_ne_zero, zpow_natCast]
    ring
  rw [hzpow]
  rcases le_or_gt 0 (s + K) with h | h
  · obtain ⟨j, hj⟩ := Int.eq_ofNat_of_zero_le h
    rw [hj, zpow_natCast]
    exact_mod_cast le_or_gt (m * d * 2 ^ j) (Nat.sqrt (n * d * 4 ^ K))
  · left
    have hr : B * d ≤ Nat.sqrt (n * d * 4 ^ K) := by
      rw [Nat.le_sqrt]
      calc B * d * (B * d) = d * (B * B * d) := by ring
        _ ≤ n * d * 4 ^ K := Nat.mul_le_mul (Nat.le_mul_of_pos_left d (Nat.pos_of_ne_zero hn)) hB
    calc (m : ℝ) * d * 2 ^ (s + K) ≤ m * d := mul_le_of_le_one_right (by positivity) (zpow_le_one_of_nonpos₀ one_le_two h.le)
      _ ≤ Nat.sqrt (n * d * 4 ^ K) := by exact_mod_cast (Nat.mul_le_mul_right d hm).trans hr

/-- The units in which the model takes a root are small enough for every code and middle. -/
theorem le_root_units (d : Nat) : 2 ^ 25 * 2 ^ 25 * d ≤ 4 ^ (d.log2 + 64) := by
  calc 2 ^ 25 * 2 ^ 25 * d ≤ 2 ^ 50 * 2 ^ (d.log2 + 1) := Nat.mul_le_mul (by decide) Nat.lt_log2_self.le
    _ = 2 ^ (50 + (d.log2 + 1)) := (pow_add ..).symm
    _ ≤ 2 ^ (2 * (d.log2 + 64)) := Nat.pow_le_pow_right two_pos (by omega)
    _ = 4 ^ (d.log2 + 64) := pow_mul ..

theorem alike_refl (x : ℝ) : Alike x x := fun _ _ _ => ⟨Iff.rfl, Iff.rfl⟩

/-- Two reals between the same whole numbers of such units. -/
theorem alike_of_units {x y r W : ℝ} (hW : 0 < W) (hx1 : r < x * W) (hx2 : x * W < r + 1) (hy1 : r < y * W) (hy2 : y * W < r + 1)
    (h : ∀ m : Nat, m ≤ 2 ^ 25 → ∀ s : ℤ, (m : ℝ) * 2 ^ s * W ≤ r ∨ r + 1 ≤ (m : ℝ) * 2 ^ s * W) : Alike x y := by
  intro m hm s
  rw [← mul_le_mul_iff_left₀ hW, ← mul_le_mul_iff_left₀ hW (b := x), ← mul_le_mul_iff_left₀ hW (c := y), ← mul_le_mul_iff_left₀ hW (b := y)]
  rcases h m hm s with h | h <;> constructor <;> constructor <;> intro <;> linarith

/-- The root, in the model's units. -/
theorem sqrt_mul_units (n K : Nat) (hd : d ≠ 0) : √((n : ℝ) / d) * (d * 2 ^ K) = √((n * d * 4 ^ K : Nat) : ℝ) := by
  have hW : (0 : ℝ) ≤ d * 2 ^ K := by positivity
  rw [← Real.sqrt_sq hW, ← Real.sqrt_mul (by positivity)]
  congr 1
  push_cast
  rw [show (4 : ℝ) = 2 ^ 2 by norm_num, ← pow_mul]
  field_simp
  ring

/-- The fraction that the model takes for a root is rounded as the root is. -/
theorem sqrt_alike (hn : n ≠ 0) (hd : d ≠ 0) :
    ∃ i j, Val.sqrt (.fin false n d) = (.fin false i j, 0) ∧ i ≠ 0 ∧ j ≠ 0 ∧ Alike ((i : ℝ) / j) (√((n : ℝ) / d)) := by
  have hshort := fun m hm s => short_number_units (m := m) hn (le_root_units d) hm s
  simp only [Val.sqrt, if_neg hn, Bool.false_eq_true, if_false, isqrt_eq_sqrt]
  generalize d.log2 + 64 = K at *
  have hW : (0 : ℝ) < d * 2 ^ K := by positivity
  have hpos : 0 < Nat.sqrt (n * d * 4 ^ K) := Nat.sqrt_pos.mpr (by positivity)
  have hroot := sqrt_mul_units n K hd
  split
  case isTrue hsq =>
    refine ⟨_, _, rfl, hpos.ne', by positivity, ?_⟩
    rw [← hsq, Nat.cast_mul, Real.sqrt_mul_self (Nat.cast_nonneg _), ← eq_div_iff hW.ne'] at hroot
    rw [hroot]
    push_cast
    exact alike_refl _
  case isFalse hsq =>
    have hhalf : ((2 * Nat.sqrt (n * d * 4 ^ K) + 1 : Nat) : ℝ) / (2 * d * 2 ^ K : Nat) * (d * 2 ^ K) = Nat.sqrt (n * d * 4 ^ K) + 1 / 2 := by
      push_cast
      field_simp
    have hne : (Nat.sqrt (n * d * 4 ^ K) : ℝ) ≠ √((n * d * 4 ^ K : Nat) : ℝ) := fun h => hsq (by
      have := Real.mul_self_sqrt (Nat.cast_nonneg (α := ℝ) (n * d * 4 ^ K))
      rw [← h] at this
      exact_mod_cast this)
    refine ⟨_, _, rfl, by omega, by positivity, alike_of_units hW ?_ ?_ ?_ ?_ hshort⟩
    · linarith
    · linarith
    · rw [hroot]
      exact lt_of_le_of_ne Real.nat_sqrt_le_real_sqrt hne
    · rw [hroot]
      exact Real.real_sqrt_lt_nat_sqrt_succ

/-! ### Codes and middles are short numbers -/

theorem unit_bound (hf : f.Regular) : 2 ^ (f.tw + 1) ≤ 2 ^ 24 := Nat.pow_le_pow_right two_pos (Nat.succ_le_succ hf.tw_le)

theorem codeReal_short (hf : f.Regular) (c : Nat) : ∃ m : Nat, m ≤ 2 ^ 25 ∧ ∃ s : ℤ, codeReal f c = m * 2 ^ s := by
  obtain ⟨j, q, rfl, hq, hj⟩ := exists_binade f c
  exact ⟨q, (hq.le.trans (unit_bound hf)).trans (Nat.pow_le_pow_right two_pos (by decide)), _, codeReal_binade hq.le hj⟩
theorem middle_short (hf : f.Regular) (c : Nat) : ∃ m : Nat, m ≤ 2 ^ 25 ∧ ∃ s : ℤ, middle f c = m * 2 ^ s := by
  obtain ⟨j, q, rfl, hq, hj⟩ := exists_binade f c
  refine ⟨2 * q + 1, ?_, unitExp f j - 1, ?_⟩
  · have := unit_bound hf
    omega
  · rw [middle, codeReal_binade hq.le hj, codeReal_succ_binade hq hj, zpow_sub_one₀ two_ne_zero]
    push_cast
    ring

section
variable {x y : ℝ} {rnd : Nat} {neg : Bool}

theorem Alike.code_le (h : Alike x y) (hf : f.Regular) (c : Nat) : codeReal f c ≤ x ↔ codeReal f c ≤ y := by
  obtain ⟨m, hm, s, heq⟩ := codeReal_short hf c
  rw [heq]
  exact (h m hm s).1
theorem Alike.le_code (h : Alike x y) (hf : f.Regular) (c : Nat) : x ≤ codeReal f c ↔ y ≤ codeReal f c := by
  obtain ⟨m, hm, s, heq⟩ := codeReal_short hf c
  rw [heq]
  exact (h m hm s).2
theorem Alike.eq_code (h : Alike x y) (hf : f.Regular) (c : Nat) : x = codeReal f c ↔ y = codeReal f c := by
  rw [le_antisymm_iff, h.le_code hf, h.code_le hf, ← le_antisymm_iff]
theorem Alike.under (h : Alike x y) (hf : f.Regular) {c : Nat} (hc : Under f c x) : Under f c y :=
  ⟨(h.code_le hf c).mp hc.1, not_le.mp fun hle => hc.2.not_ge ((h.code_le hf _).mpr hle)⟩

/-- Such reals are rounded to one code. -/
theorem Alike.roundedCode_eq (h : Alike x y) (hf : f.Regular) (hm : mode ≤ 4) (c : Nat) : roundedCode f mode neg rnd c x = roundedCode f mode neg rnd c y := by
  obtain ⟨m, hmle, s, heq⟩ := middle_short hf c
  unfold roundedCode
  rw [goesUp_congr (rnd' := rnd) (part' := partOf f c y) hm]
  · rw [partOf_eq_zero, partOf_eq_zero, h.eq_code hf]
  · rw [partOf_lt_half, partOf_lt_half, heq, ← not_le, ← not_le, (h m hmle s).1]
  · rw [partOf_le_half, partOf_le_half, heq, (h m hmle s).2]
end

/-- A square root is rounded as the real root is. -/
theorem roundFmt_sqrt (hf : f.Regular) {ftz : Bool} {r : Nat → Nat} (hm : mode ≤ 4) (hn : n ≠ 0) (hd : d ≠ 0)
    (hlo : codeReal f (2 ^ f.tw) ≤ √((n : ℝ) / d)) (hhi : √((n : ℝ) / d) ≤ codeReal f f.maxBits) :
    ∃ i, roundFmt f mode false ftz r (Val.sqrt (.fin false n d)).1 = (i, if codeReal f i = √((n : ℝ) / d) then 0 else flNX) ∧
      i ≤ f.maxBits ∧ Spec.rounds f mode false (√((n : ℝ) / d)) i := by
  obtain ⟨p, q, hsqrt, hp, hq, halike⟩ := sqrt_alike hn hd
  obtain ⟨c, -, hun, hout⟩ := roundFmt_normal mode false ftz false r hf hq ((halike.code_le hf _).mpr hlo)
  have hroot := halike.under hf hun
  have hc := roundedCode_le_max (mode := mode) (neg := false) (rnd := r 0) hroot hhi
  rw [halike.roundedCode_eq hf hm, settled_of_le hc] at hout
  refine ⟨_, ?_, hc, rounds_roundedCode hroot⟩
  rw [hsqrt, hout]
  simp only [Fmt.signBits, Bool.false_eq_true, if_false, Nat.zero_add, codeReal_roundedCode hroot, halike.eq_code hf, decide_eq_true_eq, ne_eq, ite_not]

/-! ## Operands (03 R83) -/

theorem read_of_flushed {ftz : Bool} {x : Nat} (hz : ftz = true) (hfl : f.flush = true) (h0 : 0 < x % 2 ^ (f.ew + f.tw)) (h : x % 2 ^ (f.ew + f.tw) < 2 ^ f.tw) :
    f.read ftz x = .fin (f.sign x) 0 1 := by
  have hsub : f.subnormal x = true := decide_eq_true ⟨h0, h⟩
  rw [Fmt.read, hz, hfl, hsub]
  rfl
theorem read_of_kept {ftz : Bool} {x : Nat} (h : ftz = false ∨ f.flush = false ∨ x % 2 ^ (f.ew + f.tw) = 0 ∨ 2 ^ f.tw ≤ x % 2 ^ (f.ew + f.tw)) :
    f.read ftz x = f.decode x := by
  have hkept : (ftz && f.flush && f.subnormal x) = false := by
    rcases h with h | h | h
    · rw [h]
      rfl
    · rw [h, Bool.and_false, Bool.false_and]
    · have hsub : f.subnormal x = false := decide_eq_false fun (hs : 0 < x % 2 ^ (f.ew + f.tw) ∧ x % 2 ^ (f.ew + f.tw) < 2 ^ f.tw) => by omega
      rw [hsub, Bool.and_false]
  rw [Fmt.read, hkept]
  rfl

theorem exactArithmetic : Spec.ExactArithmetic := by
  intro f mode ftz a b c r x y z n d m e k l hmem hd he hl u v w is p
  have hf := regular_of_mem hmem
  obtain ⟨s, i, j, hadd, hj, hnum, hzero⟩ := add_fin (mode := mode) (a := a) (b := b) (n := n) (m := m) hd he
  refine ⟨⟨s, i, j, hadd, hj, (congrArg (fun o => p o.1) hadd).trans hnum, hzero⟩, ⟨_, _, _, rfl, mul_ne_zero hd he, number_mul, fun _ => rfl⟩, fun hm => ?_, fun hm hn => ?_, fun hm hn => ?_, fma_fin hd he hl,
    ⟨rfl, rfl, rfl, rfl, rfl, rfl⟩, read_of_flushed, read_of_kept, fun hn ha => ?_, fun hn => ?_, ?_⟩
  · have hdiv : Val.div u v = (.fin (a != b) (n * e) (d * m), 0) := if_neg hm
    exact ⟨_, _, _, hdiv, mul_ne_zero hd hm, (congrArg (fun o => p o.1) hdiv).trans number_div, fun _ => rfl⟩
  · simp [u, v, Val.div, hm, hn]
  · simp [u, v, Val.div, hm, hn]
  · simp [u, Val.sqrt, hn, ha]
  · simp [u, Val.sqrt, hn]
  · rintro root hn rfl hm hlo hhi
    exact roundFmt_sqrt hf hm hn hd hlo hhi

/-- Settles O42: a magnitude by the code under it and the way to the next, and a root by the fraction that no code or middle
parts from it. -/
theorem roundingAndArithmetic : Obligations.RoundingAndArithmetic := ⟨roundingRules, exactArithmetic⟩

end Sys2Proof.Machine
end

section
namespace Sys2Proof.Machine

/-! ## The release before a grid's work is given (05 R144, 09 R244) -/

section
variable {s : State} {w : Nat}

theorem underWay_of_still (hs : Spec.still s) (hw : s.cur = .wave w) (p : Nat → Bool) : underWay s w p = false := by
  obtain ⟨hr, hp, ha, hm, -, hq⟩ := hs.2 w hw
  simp only [underWay, hq, List.any_nil, Bool.or_false, Bool.or_eq_false_iff, List.any_eq_false, Bool.and_eq_true, decide_eq_true_eq]
  refine ⟨⟨⟨fun r h e => hr r h e.1.1, fun r h e => hp r h e.1⟩, fun r h e => ha r h e.1⟩, fun m h e => ?_⟩
  obtain ⟨r, hmem, e⟩ := List.any_eq_true.mp e
  simp only [Bool.and_eq_true, decide_eq_true_eq] at e
  exact hm m h r hmem e.1

/-- A release to the system whose stores are all visible goes on at once. -/
theorem releaseThen_of_joinable {k : State → State} (hs : Spec.still s) (hw : s.cur = .wave w) (hj : Spec.joinable s 6 fun _ => true) :
    releaseThen s k = k (Spec.joined s 6 fun _ => true) := by
  obtain hn | ⟨hg, he | hl⟩ := hj
  · exact absurd hn (by decide)
  · exact absurd he (by decide)
  rw [curW_of_wave hw] at hg
  have hg : (s.core (waveCore w)).sgb.any (holdsWave w) = false := by simpa [holdsWave] using hg
  have hx : s.curWave = s.wave w := by rw [State.curWave, curW_of_wave hw]
  have ht : ¬leaseNow s s.curDie < Spec.latest (s.wave w) (fun _ => true) + Spec.guard 6 := by rw [← hx]; omega
  unfold Spec.latest at ht
  rw [List.foldl_map] at ht
  unfold releaseThen fenceThen
  simp only [curW_of_wave hw, underWay_of_still hs hw, drainWhere_of_none hg, hg]
  exact if_neg ht

end

/-! ## What a write leaves of the grids and their pending ranges -/

/-- `t` has the grids of `s` and their pending ranges. -/
structure SameWork (s t : State) : Prop where
  grids : t.grids = s.grids
  tasks : t.tasks = s.tasks

namespace SameWork
variable {s t u : State}

theorem refl (s : State) : SameWork s s := ⟨rfl, rfl⟩
theorem trans (h : SameWork s t) (k : SameWork t u) : SameWork s u := ⟨k.grids.trans h.grids, k.tasks.trans h.tasks⟩
theorem ite {c : Prop} [Decidable c] (ht : SameWork s t) (hu : SameWork s u) : SameWork s (if c then t else u) := by
  split <;> assumption
theorem foldl {α : Type} {f : State → α → State} {l : List α} (hf : ∀ t a, SameWork s t → SameWork s (f t a)) (h : SameWork s t) : SameWork s (l.foldl f t) :=
  List.foldlRecOn l f h fun t ht a _ => hf t a ht

end SameWork

section
variable {s t : State}

theorem sameWork_modSlice {n f} (h : SameWork s t) : SameWork s (t.modSlice n f) := ⟨h.grids, h.tasks⟩
theorem sameWork_zeroRange {k n} (h : SameWork s t) : SameWork s (zeroRange t k n) := ⟨h.grids, h.tasks⟩
theorem sameWork_keepTlbs {p} (h : SameWork s t) : SameWork s (keepTlbs t p) := ⟨h.grids, h.tasks⟩
theorem sameWork_clearEntry {z k} (h : SameWork s t) : SameWork s (clearEntry t z k) := .ite ⟨h.grids, h.tasks⟩ h
theorem sameWork_clearZPage {z keep} (h : SameWork s t) : SameWork s (clearZPage t z keep) :=
  sameWork_keepTlbs (.foldl (fun _ _ => sameWork_clearEntry) (h.trans ⟨rfl, rfl⟩))
theorem sameWork_notePage {k} (h : SameWork s t) : SameWork s (notePage t k) := by
  unfold notePage
  split
  · exact h
  split
  · exact ⟨h.grids, h.tasks⟩
  · exact h
theorem sameWork_evictLine {n l} (h : SameWork s t) : SameWork s (evictLine t n l) := by
  unfold evictLine
  extract_lets x back _ s1 gone s2
  have h2 : SameWork s s2 := ⟨h.grids, h.tasks⟩
  refine .ite ⟨h.grids, h.tasks⟩ (.ite (sameWork_zeroRange h2) (.ite h2 ?_))
  split
  · exact sameWork_clearZPage (sameWork_notePage h2)
  · exact sameWork_notePage h2
theorem sameWork_trimSlice {n l} (h : SameWork s t) : SameWork s (trimSlice t n l) := by
  unfold trimSlice
  extract_lets c ways s1 full
  have h1 : SameWork s s1 := by
    simp only [s1]
    split
    · split
      · exact sameWork_evictLine h
      · exact h
    · exact h
  clear_value s1
  split
  · split
    · exact sameWork_evictLine h1
    · exact h1
  · exact h1
theorem sameWork_touchLine {n l} (h : SameWork s t) : SameWork s (touchLine t n l) := sameWork_trimSlice (sameWork_modSlice h)
theorem sameWork_dirtyLine {n l} (h : SameWork s t) : SameWork s (dirtyLine t n l) :=
  sameWork_trimSlice (sameWork_modSlice (h.trans ⟨rfl, rfl⟩))
theorem sameWork_accessLine {l a w} (h : SameWork s t) : SameWork s (accessLine t l a w) := by
  unfold accessLine
  extract_lets k n data z
  have hd : ∀ {u}, SameWork s u → SameWork s (data u) := fun hu => .ite (sameWork_dirtyLine hu) hu
  have hz : ∀ {z}, SameWork s { zeroRange t k 128 with zeroed := z } := (sameWork_zeroRange (k := k) (n := 128) h).trans ⟨rfl, rfl⟩
  exact .ite h (.ite (hd (sameWork_touchLine h)) (.ite (hd (sameWork_touchLine hz)) (.ite (hd (sameWork_touchLine h)) h)))
theorem sameWork_keepOld {k} (h : SameWork s t) : SameWork s (keepOld t k) := .ite h ⟨h.grids, h.tasks⟩
theorem sameWork_noteWrite {k n w g} (h : SameWork s t) : SameWork s (noteWrite t k n w g) := .ite h ⟨h.grids, h.tasks⟩
theorem sameWork_plainWrite {w q k bs tag} (h : SameWork s t) : SameWork s (plainWrite t w q k bs tag).1 := by
  unfold plainWrite
  extract_lets s1 s2 s3 s4 s5
  have h2 : SameWork s s2 := sameWork_accessLine (sameWork_keepOld h)
  have h4 : SameWork s s4 := by
    simp only [s4]
    cases tag <;> exact ⟨h2.grids, h2.tasks⟩
  have h5 : SameWork s s5 := .ite (sameWork_modSlice h4) h4
  exact sameWork_noteWrite (h5.trans ⟨rfl, rfl⟩)
theorem sameWork_misuse {k n} (h : SameWork s t) : SameWork s (misuse t k n) :=
  .foldl (f := freeWordAt) (fun _ _ hu => ⟨hu.grids, hu.tasks⟩) h
theorem sameWork_homeWrite {w q k bs tag} (h : SameWork s t) : SameWork s (homeWrite t w q k bs tag).1 := sameWork_misuse (sameWork_plainWrite h)

end

/-! ## The ranges of a grid that is accepted (07 R181, R182) -/

/-- Shares of `n` in proportion to parts of a whole make no more than `n`. -/
theorem sum_shares_le (n m : Nat) (l : List Nat) (hm : l.sum ≤ m) : (l.map fun x => n * x / m).sum ≤ n := by
  have h : ∀ l : List Nat, (l.map fun x => n * x / m).sum ≤ n * l.sum / m := by
    intro l
    induction l with
    | nil => exact Nat.zero_le _
    | cons x t ih =>
      rw [List.map_cons, List.sum_cons, List.sum_cons, Nat.mul_add]
      exact (Nat.add_le_add_left ih _).trans (Nat.div_add_div_le_add_div ..)
  exact (h l).trans (Nat.div_le_of_le_mul (by rw [Nat.mul_comm m]; exact Nat.mul_le_mul_left n hm))

/-- The ranges of the given lengths that follow one another from `a` on, after those of `acc`. -/
def rangesFrom (ps : List (Nat × Nat)) (acc : List (Nat × Nat × Nat)) (a : Nat) : List (Nat × Nat × Nat) :=
  (ps.foldl (fun (a : List (Nat × Nat × Nat) × Nat) p => (a.1 ++ [(p.1, a.2, a.2 + p.2)], a.2 + p.2)) (acc, a)).1
theorem mem_rangesFrom (ps : List (Nat × Nat)) (j : Nat) : ∀ (acc : List (Nat × Nat × Nat)) (a : Nat),
    (∃ p ∈ rangesFrom ps acc a, p.2.1 ≤ j ∧ j < p.2.2) ↔ (∃ p ∈ acc, p.2.1 ≤ j ∧ j < p.2.2) ∨ (a ≤ j ∧ j < a + (ps.map (·.2)).sum) := by
  induction ps with
  | nil => intro acc a; simp [rangesFrom]
  | cons p ps ih =>
    intro acc a
    have hs : rangesFrom (p :: ps) acc a = rangesFrom ps (acc ++ [(p.1, a, a + p.2)]) (a + p.2) := rfl
    rw [hs, ih, List.map_cons, List.sum_cons]
    simp only [List.mem_append, List.mem_singleton, or_and_right, exists_or, exists_eq_left, or_assoc]
    exact or_congr_right (by omega)

/-- The ranges into which an index range is cut are its indices, where a die is live. -/
theorem mem_cutRange {s : State} (hd : liveDies s ≠ []) {lo hi : Nat} (h : lo ≤ hi) (j : Nat) :
    (∃ p ∈ cutRange s lo hi, p.2.1 ≤ j ∧ j < p.2.2) ↔ lo ≤ j ∧ j < hi := by
  unfold cutRange
  extract_lets ds total parts rest qs
  have hle : (parts.map (·.2)).sum ≤ hi - lo := by
    have hp : parts.map (·.2) = (ds.map (·.2)).map fun x => (hi - lo) * x / Nat.max total 1 := by
      simp only [parts, List.map_map]
      rfl
    rw [hp]
    exact sum_shares_le _ _ _ (Nat.le_max_left ..)
  have hq : (qs.map (·.2)).sum = hi - lo := by
    have hne : parts ≠ [] := by simpa [parts, ds] using hd
    obtain ⟨p, t, he⟩ := List.exists_cons_of_ne_nil hne
    simp only [rest, qs, he, List.map_cons, List.sum_cons] at hle ⊢
    omega
  have hf : (∃ p ∈ (rangesFrom qs [] lo).filter fun p => p.2.1 < p.2.2, p.2.1 ≤ j ∧ j < p.2.2) ↔ ∃ p ∈ rangesFrom qs [] lo, p.2.1 ≤ j ∧ j < p.2.2 := by
    refine exists_congr fun p => and_congr_left fun hj => ?_
    rw [List.mem_filter, decide_eq_true_eq]
    exact and_iff_left (hj.1.trans_lt hj.2)
  refine hf.trans ((mem_rangesFrom qs j [] lo).trans ?_)
  rw [hq, Nat.add_sub_cancel' h]
  simp only [List.not_mem_nil, false_and, exists_false, false_or]

/-- A range enters the pools as the parts into which it is cut. -/
theorem poolRange_work (s : State) (h lo hi : Nat) : (poolRange s h lo hi).grids = s.grids ∧
    (poolRange s h lo hi).tasks = s.tasks ++ (cutRange s lo hi).map fun p => ⟨h, p.2.1, p.2.2, .pool p.1, s.cyc⟩ := by
  unfold poolRange
  generalize cutRange s lo hi = l
  induction l generalizing s with
  | nil => exact ⟨rfl, (List.append_nil _).symm⟩
  | cons p l ih =>
    obtain ⟨hg, ht⟩ := ih (note { s with tasks := s.tasks ++ [⟨h, p.2.1, p.2.2, .pool p.1, s.cyc⟩] } ⟨p.1, h, 0, p.2.1, p.2.2⟩)
    exact ⟨hg, ht.trans (List.append_assoc ..)⟩

/-! ## A grid that is accepted (05 R139, R142, R148) -/

section
variable {s : State} {r : List Word} {depth parent asid vec q : Nat}

theorem newHandle_ne_zero (s : State) : newHandle s ≠ 0 := by
  unfold newHandle
  extract_lets c
  cases hf : c.find? fun h => h ≠ 0 ∧ (s.grid? h).isNone with
  | none => exact Nat.one_ne_zero
  | some h =>
    have hh := List.find?_some hf
    rw [decide_eq_true_eq] at hh
    exact hh.1
theorem newHandle_lt (s : State) : newHandle s < 2 ^ 32 := by
  unfold newHandle
  extract_lets c
  cases hf : c.find? fun h => h ≠ 0 ∧ (s.grid? h).isNone with
  | none => decide
  | some h =>
    obtain ⟨i, -, hi⟩ := List.mem_map.mp (List.mem_of_find?_eq_some hf)
    exact hi ▸ Nat.mod_lt _ (by decide)

/-- The grid that a record makes, at a depth and under a parent, before any of its groups is granted. -/
def Grid.MadeOf (y : Grid) (r : List Word) (depth parent asid : Nat) : Prop :=
  y.record = r ∧ y.depth = depth ∧ y.parent = parent ∧ y.asid = asid ∧ y.groups = recGroups r ∧ y.st = .pending

/-- A grid takes a handle, and the next one is tried after it (05 R142). -/
def takeHandle (s : State) (h : Nat) (y : Grid) : State := { s.setGrid h y with handle := (h + 1) % 2 ^ 32 }
theorem takeHandle_get? (h : Nat) (y : Grid) : Tbl.get? (takeHandle s h y).grids h = some y := (Tbl.get?_set ..).trans (if_pos rfl)
theorem takeHandle_tasks (h : Nat) (y : Grid) : (takeHandle s h y).tasks = s.tasks := rfl
theorem takeHandle_liveDies (h : Nat) (y : Grid) : liveDies (takeHandle s h y) = liveDies s := rfl
theorem calm_takeHandle (h : Nat) (y : Grid) : Calm s (takeHandle s h y) := ⟨rfl, rfl, rfl, rfl, rfl, rfl, rfl, rfl⟩
theorem noDeque_takeHandle (h : Nat) (y : Grid) (hd : Spec.noDeque s) : Spec.noDeque (takeHandle s h y) := hd

theorem newGrid_eq (s : State) (r : List Word) (depth parent asid vec : Nat) (sup : Bool) : ∃ y : Grid, y.MadeOf r depth parent asid ∧
    newGrid s r depth parent asid vec sup = (newHandle s, takeHandle s (newHandle s) y) := by
  unfold newGrid
  generalize newHandle s = h
  exact ⟨_, ⟨rfl, rfl, rfl, rfl, rfl, rfl⟩, rfl⟩
/-- A node is accepted with an empty queue, any other grid with its index space in the pools. -/
theorem acceptGrid_eq (s : State) (r : List Word) (depth parent asid vec q : Nat) : ∃ y : Grid, y.MadeOf r depth parent asid ∧
    acceptGrid s r depth parent asid vec q = (newHandle s, if recKind r = 1 then
        (homeWrite (takeHandle s (newHandle s) y) {} 1 (q + 24) (bytesOf 8 0) none).1.modGrid (newHandle s) fun g => { g with qkey := q }
      else poolRange (takeHandle s (newHandle s) y) (newHandle s) 0 (recGroups r)) := by
  obtain ⟨y, hm, he⟩ := newGrid_eq s r depth parent asid vec false
  refine ⟨y, hm, ?_⟩
  unfold acceptGrid
  rw [he]
  dsimp only
  split <;> rfl

theorem acceptGrid_handle : (acceptGrid s r depth parent asid vec q).1 = newHandle s := by
  obtain ⟨y, -, he⟩ := acceptGrid_eq s r depth parent asid vec q
  rw [he]
theorem acceptGrid_grid? : ∃ y : Grid, (acceptGrid s r depth parent asid vec q).2.grid? (newHandle s) = some y ∧
    y.MadeOf r depth parent asid ∧ (recKind r = 1 → y.qkey = q) := by
  obtain ⟨y, hm, he⟩ := acceptGrid_eq s r depth parent asid vec q
  rw [he, State.grid?]
  by_cases hk : recKind r = 1
  · rw [if_pos hk, Tbl.get?_grids_modGrid, if_pos rfl, (sameWork_homeWrite (.refl _)).grids, takeHandle_get?]
    exact ⟨_, rfl, hm, fun _ => rfl⟩
  · rw [if_neg hk, (poolRange_work ..).1, takeHandle_get?]
    exact ⟨y, rfl, hm, fun h => absurd h hk⟩
/-- The pending ranges of a grid that is no node are its indices. -/
theorem acceptGrid_index_tasks (hk : recKind r ≠ 1) (hd : liveDies s ≠ []) : ∃ new,
    (acceptGrid s r depth parent asid vec q).2.tasks = s.tasks ++ new ∧ (∀ k ∈ new, k.grid = newHandle s) ∧
      ∀ j, (∃ k ∈ new, k.lo ≤ j ∧ j < k.hi) ↔ j < recGroups r := by
  obtain ⟨y, -, he⟩ := acceptGrid_eq s r depth parent asid vec q
  rw [he, if_neg hk, (poolRange_work ..).2, takeHandle_tasks]
  rw [← takeHandle_liveDies (newHandle s) y] at hd
  refine ⟨_, rfl, fun k hk => ?_, fun j => ?_⟩
  · obtain ⟨p, -, hp⟩ := List.mem_map.mp hk
    rw [← hp]
  · simp only [List.mem_map, exists_exists_and_eq_and]
    exact (mem_cutRange hd (Nat.zero_le _) j).trans (and_iff_right (Nat.zero_le j))
theorem acceptGrid_node_tasks (hk : recKind r = 1) : (acceptGrid s r depth parent asid vec q).2.tasks = s.tasks := by
  obtain ⟨y, -, he⟩ := acceptGrid_eq s r depth parent asid vec q
  have ht := (sameWork_homeWrite (w := {}) (q := 1) (k := q + 24) (bs := bytesOf 8 0) (tag := none) (.refl (takeHandle s (newHandle s) y))).tasks
  rw [he, if_pos hk, modGrid_eq]
  exact ht.trans (takeHandle_tasks ..)
/-- A node begins with PROD and CONS zero. -/
theorem acceptGrid_node_queue (hk : recKind r = 1) (hp : Spec.plain s) (hd : Spec.noDeque s) :
    readNat (acceptGrid s r depth parent asid vec q).2.mem (q + 24) 8 = 0 := by
  obtain ⟨y, -, he⟩ := acceptGrid_eq s r depth parent asid vec q
  have hm := (homeWrite_of_plain (w := {}) (q := 1) (k := q + 24) (bs := bytesOf 8 0) (tag := none)
    ((calm_takeHandle (newHandle s) y).plain hp) (noDeque_takeHandle (newHandle s) y hd)).1
  rw [he, if_pos hk, modGrid_eq]
  dsimp only
  rw [hm]
  exact readNat_writeBytes ..

end

/-! ## LAUNCH (05 R143 to R145) -/

section
variable {s u : State} {d a : BitVec 6} {r : List Word}

/-- The launching wave's grid. -/
def launcherGrid (s : State) : Grid := (s.grid? s.curWave.grid).getD { record := [] }
/-- Where a record's queue stands, if the record names one. -/
def launchPlace (s : State) (r : List Word) : Option Nat × State :=
  if recKind r = 1 then queuePlace s r s.curCore (launcherGrid s).asid else (some 0, s)
/-- LAUNCH of a good record, whose queue stands at `q`, by a wave of the grid `g`. -/
def launchAt (d : BitVec 6) (r : List Word) (g : Grid) (parent q : Nat) (u : State) : State :=
  if g.depth = 10 then distReply u d.toNat 2 0
  else if !someCoreFits u r then distReply u d.toNat 5 0
  else if gridsFull u then distReply u d.toNat 3 0
  else
    let (h, u) := acceptGrid u r (g.depth + 1) parent g.asid g.vec q
    distReply u d.toNat 0 h (some (h, none))
/-- LAUNCH of a record that has been read. -/
def launchRecord (d : BitVec 6) (r : List Word) (s : State) : State :=
  if s.curWave.widx ≠ 0 then distReply s d.toNat 4 0
  else if recordBad s r || decide (recKind r = 2) then distReply s d.toNat 1 0
  else match (launchPlace s r).1 with
    | none => distReply (launchPlace s r).2 d.toNat 1 0
    | some q => launchAt d r (launcherGrid s) s.curWave.grid q (launchPlace s r).2

theorem exec_launch (h : Admitted (.launch d a) s) : exec (.launch d a) s = .next
    (withAccess s (s.reg a.toNat) (s.reg a.toNat).addr 64 permLD 64 .load fun p t =>
      releaseThen t fun t => withGranules t (granulesAt p.key 4) fun gs t => launchRecord d (wordsOf gs) t) := by
  refine ((rfl : exec _ s = execLaunch d a s).trans (checked_of_admitted h _)).trans ?_
  rfl

theorem launchRecord_of_widx (h : s.curWave.widx ≠ 0) : launchRecord d r s = distReply s d.toNat 4 0 := if_pos h
theorem launchRecord_of_bad (h : s.curWave.widx = 0) (hb : recordBad s r = true ∨ recKind r = 2) : launchRecord d r s = distReply s d.toNat 1 0 := by
  simp [launchRecord, h, hb]
theorem launchRecord_of_noPlace (h : s.curWave.widx = 0 ∧ recordBad s r = false ∧ recKind r ≠ 2) (hq : (launchPlace s r).1 = none) :
    launchRecord d r s = distReply (launchPlace s r).2 d.toNat 1 0 := by
  obtain ⟨hx, hb, hk⟩ := h
  simp [launchRecord, hx, hb, hk, hq]
theorem launchRecord_of_place {q : Nat} (h : s.curWave.widx = 0 ∧ recordBad s r = false ∧ recKind r ≠ 2) (hq : (launchPlace s r).1 = some q) :
    launchRecord d r s = launchAt d r (launcherGrid s) s.curWave.grid q (launchPlace s r).2 := by
  obtain ⟨hx, hb, hk⟩ := h
  simp [launchRecord, hx, hb, hk, hq]

end

section
variable {s u : State} {d a : BitVec 6} {r : List Word} {g : Grid} {parent q : Nat}

theorem launchAt_of_deep (h : g.depth = 10) : launchAt d r g parent q u = distReply u d.toNat 2 0 := if_pos h
theorem launchAt_of_noFit (h : g.depth ≠ 10) (hf : someCoreFits u r = false) : launchAt d r g parent q u = distReply u d.toNat 5 0 := by
  simp [launchAt, h, hf]
theorem launchAt_of_full (h : g.depth ≠ 10) (hf : someCoreFits u r = true) (hn : 4096 ≤ u.grids.length) :
    launchAt d r g parent q u = distReply u d.toNat 3 0 := by
  simp [launchAt, h, hf, gridsFull, hn]
theorem launchAt_of_room (h : g.depth ≠ 10) (hf : someCoreFits u r = true) (hn : u.grids.length < 4096) : launchAt d r g parent q u =
    distReply (acceptGrid u r (g.depth + 1) parent g.asid g.vec q).2 d.toNat 0 (newHandle u) (some (newHandle u, none)) := by
  have hh : (acceptGrid u r (g.depth + 1) parent g.asid g.vec q).1 = newHandle u := acceptGrid_handle
  simp [launchAt, h, hf, gridsFull, Nat.not_le.mpr hn, hh]
/-- A core that could hold a group is on a live die. -/
theorem liveDies_of_someCoreFits (hf : someCoreFits u r = true) : liveDies u ≠ [] := by
  intro h
  simp [someCoreFits, h] at hf

theorem withGranules_of_bad {ks : List Nat} {k : List Cap → State → State} {pa : Nat} (h : (readKeys s ks).2.1 = some pa) :
    withGranules s ks k = raise (readKeys s ks).2.2 ⟨.ecc, BitVec.ofNat 64 pa⟩ := by
  unfold withGranules
  split
  next l t he => rw [he] at h; cases h
  next l pa' t he => rw [he] at h ⊢; cases h; rfl
theorem withGranules_of_read {ks : List Nat} {k : List Cap → State → State} (h : (readKeys s ks).2.1 = none) :
    withGranules s ks k = k (readKeys s ks).1 (readKeys s ks).2.2 := by
  unfold withGranules
  split
  next l t he => rw [he]
  next l pa' t he => rw [he] at h; cases h

/-- Settles O24: LAUNCH by its access, the record that it reads, and what the distributor does with one. -/
theorem launches : Obligations.Launches := by
  intro s s' d a p hs ha cap
  have hx := exec_launch ha
  obtain ⟨w, hw⟩ := exists_wave_of_admitted ha rfl
  refine ⟨fun t s' hc => ?_, fun hc hj => ?_⟩
  · rw [hx, withAccess, hc]
  have hr := reads_place hc
  have hl : exec (.launch d a) s = .next (withGranules (Spec.joined (noteLeaf s' p) 6 fun _ => true) (granulesAt p.key 4) fun gs t => launchRecord d (wordsOf gs) t) := by
    rw [hx, withAccess, hc]
    exact congrArg _ (releaseThen_of_joinable (hr.still hs) (hr.cur.trans hw) hj)
  intro l v
  refine ⟨fun pa hp => hl.trans (congrArg _ (withGranules_of_bad hp)), fun hn => ?_⟩
  replace hl := hl.trans (congrArg _ (withGranules_of_read hn))
  intro r x g ends good place u
  have hends {t : State} {st n : Nat} {made : Option (Nat × Option Nat)} (h : launchRecord d r v = distReply t d.toNat st n made) : ends t st n made :=
    hl.trans (congrArg _ h)
  refine ⟨fun h => hends (launchRecord_of_widx h), fun h hb => hends (launchRecord_of_bad h hb), fun h hq => hends (launchRecord_of_noPlace h hq), fun q h hq => ?_⟩
  have hp := launchRecord_of_place (d := d) h hq
  refine ⟨fun hd => hends (hp.trans (launchAt_of_deep hd)), fun hd hf => hends (hp.trans (launchAt_of_noFit hd hf)),
    fun hd hf hg => hends (hp.trans (launchAt_of_full hd hf hg)), fun hd hf hg => ?_⟩
  obtain ⟨y, hy, ⟨hrec, hdep, hpar, hasid, hgroups, hst⟩, hkey⟩ := acceptGrid_grid? (s := u) (r := r) (depth := g.depth + 1) (parent := x.grid) (asid := g.asid) (vec := g.vec) (q := q)
  refine ⟨newHandle u, _, hends (hp.trans (launchAt_of_room hd hf hg)), newHandle_ne_zero u, newHandle_lt u,
    fun _ => ⟨y, hy, hrec, hdep, hpar, hasid, hgroups, hst⟩, fun hk => acceptGrid_index_tasks (by omega) (liveDies_of_someCoreFits hf),
    fun hk => ⟨acceptGrid_node_tasks hk, fun _ => ⟨y, hy, hkey hk⟩, acceptGrid_node_queue hk⟩⟩

end

end Sys2Proof.Machine
end

section
namespace Sys2Proof.Machine

/-! ## GROW (05 R146, R147) -/

section
variable {s : State} {d a b : BitVec 6} {w h n : Nat} {g : Grid}

theorem release_of_wave (hw : s.cur = .wave w) :
    s.release = s.stamp.modWave w fun x => { x with clk := Tbl.set x.clk x.uid s.stamp.seq } := by
  have hc : s.stamp.cur = .wave w := hw
  unfold State.release
  extract_lets t
  change t.cur = _ at hc
  split
  next v hv => cases hc.symm.trans hv; rfl
  next hv => cases hc.symm.trans hv
  next hv => cases hc.symm.trans hv
/-- A release leaves the registers. -/
theorem release_lo (hw : s.cur = .wave w) (k : Nat) : s.release.lo k = s.lo k := by
  have hc : s.release.cur = .wave w := (congrArg State.cur (release_of_wave hw)).trans hw
  have hx : (s.release.wave w).reg k = (s.wave w).reg k := by
    rw [release_of_wave hw, State.modWave_wave]
    rfl
  rw [State.lo, State.lo, State.reg_of_wave _ w k hc, State.reg_of_wave _ w k hw, hx]
theorem joined_lo (hw : s.cur = .wave w) (c : BitVec 3) (p : Nat → Bool) (k : Nat) : (Spec.joined s c p).lo k = s.lo k := by
  unfold Spec.joined
  split
  · rfl
  · exact release_lo hw k

/-- GROW by `n` of the grid `g`, whose handle is `h`. -/
def growGrid (d : BitVec 6) (h n : Nat) (g : Grid) (s : State) : State :=
  if g.killed ∨ g.st = .retired then distReply s d.toNat 7 0
  else if recKind g.record ≠ 0 then distReply s d.toNat 8 0
  else if recGmax g.record < g.groups + n then distReply s d.toNat 6 g.groups
  else if n = 0 then distReply s d.toNat 0 g.groups
  else
    let s := s.setGrid h { g with
      groups := g.groups + n, st := if g.st = .draining then .running else g.st, grown := g.grown ++ [(g.groups, s.curClk)] }
    let s := { s with tasks := s.tasks ++ [⟨h, g.groups, g.groups + n, .deferred, s.cyc⟩] }
    distReply s d.toNat 0 g.groups (some (h, some n))
/-- GROW of what a handle names. -/
def growHandle (d : BitVec 6) (h n : Nat) (s : State) : State := match s.grid? h with
  | none => distReply s d.toNat 7 0
  | some g => growGrid d h n g s

theorem exec_grow (ha : Admitted (.grow d a b) s) : exec (.grow d a b) s = .next (releaseThen s fun t =>
    growHandle d (fld (t.lo a.toNat) 0 32) (fld (t.lo b.toNat) 0 32) t) :=
  ((rfl : exec _ s = execGrow d a b s).trans (checked_of_admitted ha _)).trans rfl

theorem growHandle_of_none (hg : s.grid? h = none) : growHandle d h n s = distReply s d.toNat 7 0 := by
  rw [growHandle, hg]
theorem growHandle_of_grid (hg : s.grid? h = some g) : growHandle d h n s = growGrid d h n g s := by
  rw [growHandle, hg]

theorem growGrid_of_gone (hk : g.killed = true ∨ g.st = .retired) : growGrid d h n g s = distReply s d.toNat 7 0 := if_pos hk
section
variable (hk : ¬(g.killed = true ∨ g.st = .retired))
include hk

theorem growGrid_of_otherKind (h0 : recKind g.record ≠ 0) : growGrid d h n g s = distReply s d.toNat 8 0 := by
  rw [growGrid, if_neg hk, if_pos h0]
theorem growGrid_of_tooMany (h0 : recKind g.record = 0) (hn : recGmax g.record < g.groups + n) : growGrid d h n g s = distReply s d.toNat 6 g.groups := by
  rw [growGrid, if_neg hk, if_neg (not_not.mpr h0), if_pos hn]
theorem growGrid_of_nothing (h0 : recKind g.record = 0) (hn : g.groups + n ≤ recGmax g.record) (hz : n = 0) :
    growGrid d h n g s = distReply s d.toNat 0 g.groups := by
  rw [growGrid, if_neg hk, if_neg (not_not.mpr h0), if_neg (Nat.not_lt.mpr hn), if_pos hz]
theorem growGrid_of_room (h0 : recKind g.record = 0) (hn : g.groups + n ≤ recGmax g.record) (hz : n ≠ 0) :
    growGrid d h n g s = distReply { s.setGrid h { g with
      groups := g.groups + n, st := if g.st = .draining then .running else g.st, grown := g.grown ++ [(g.groups, s.curClk)] } with
        tasks := s.tasks ++ [⟨h, g.groups, g.groups + n, .deferred, s.cyc⟩] } d.toNat 0 g.groups (some (h, some n)) := by
  rw [growGrid, if_neg hk, if_neg (not_not.mpr h0), if_neg (Nat.not_lt.mpr hn), if_neg hz]
  rfl

end

theorem growth : Spec.Growth := by
  intro s d a b hs ha hj u h n ends
  obtain ⟨w, hw⟩ := exists_wave_of_admitted ha rfl
  have hx : exec (.grow d a b) s = .next (growHandle d h n u) := by
    rw [exec_grow ha, releaseThen_of_joinable hs hw hj, joined_lo hw, joined_lo hw, fld_zero, fld_zero]
  have hends {t : State} {st v : Nat} {made : Option (Nat × Option Nat)} (he : growHandle d h n u = distReply t d.toNat st v made) : ends t st v made :=
    hx.trans (congrArg _ he)
  refine ⟨fun hg => hends (growHandle_of_none hg), fun g hg => ?_⟩
  have hg' := growHandle_of_grid (d := d) (n := n) hg
  refine ⟨fun hk => hends (hg'.trans (growGrid_of_gone hk)), fun hl hr => ?_⟩
  have hk : ¬(g.killed = true ∨ g.st = .retired) := by simp [hl, hr]
  exact ⟨fun h0 => hends (hg'.trans (growGrid_of_otherKind hk h0)), fun h0 hn => hends (hg'.trans (growGrid_of_tooMany hk h0 hn)),
    fun h0 hn hz => hends (hg'.trans (growGrid_of_nothing hk h0 hn hz)), fun h0 hn hz => hends (hg'.trans (growGrid_of_room hk h0 hn hz))⟩

end

/-! ## EMIT (05 R149, R150) -/

section
variable {s t : State} {d a b : BitVec 6} {cap : Cap} {w h : Nat} {g : Grid} {q : Queue} {ks : List Nat}

theorem reads_mapAcross (n : Nat) : ∀ {t : State} {ea : Nat}, Reads s t → Reads s (mapAcross t ea n).2 := by
  induction n with
  | zero => exact fun ht => ht
  | succ n ih =>
    intro t ea ht
    unfold mapAcross
    split
    next u he => exact .of_snd he (reads_window ht)
    next p u he => exact ih (reads_noteLeaf (.of_snd he (reads_window ht)))
theorem withMapped_of_none {ea n : Nat} {k : List Nat → State → State} {v : State} (hm : mapAcross s ea n = (none, v)) :
    withMapped s ea n k = raise v ⟨.xlate, BitVec.ofNat 64 ea⟩ := by
  rw [withMapped, hm]
theorem withMapped_of_some {ea n : Nat} {k : List Nat → State → State} {v : State} (hm : mapAcross s ea n = (some ks, v)) :
    withMapped s ea n k = k ks v := by
  rw [withMapped, hm]

/-- The payload is in the slot of PROD, PROD has moved on, and a batch that begins has its time (05 R149, R150). -/
def putPayload (h : Nat) (g : Grid) (q : Queue) (gs : List Cap) (s : State) : State :=
  let by_ : Writer := { uid := s.curWave.uid, grid := s.curWave.grid }
  let s := emitClk (writeAcross s by_ (keyHome g.qkey) g.asid (q.slot q.prod) (gs.map capOctets)) h
  let s := (homeWrite s {} 1 (g.qkey + 24) (bytesOf 4 ((q.prod + 1) % 2 ^ 32)) none).1
  if openSlots q = 0 then s.modGrid h fun g => { g with first := s.cyc } else s
/-- EMIT of a payload that has been read. -/
def emitPayload (d : BitVec 6) (h : Nat) (g : Grid) (q : Queue) (gs : List Cap) (s : State) : State :=
  let s := putPayload h g q gs s
  distReply (if openSlots q + 1 = q.need then readyBatch s h q.need else s) d.toNat 0 q.prod
/-- EMIT of a payload that is mapped to the keys `ks`, once the wave has released. -/
def emitMapped (d : BitVec 6) (h : Nat) (g : Grid) (q : Queue) (ks : List Nat) (s : State) : State :=
  if g.closed then distReply s d.toNat 10 0
  else if (q.prod + 2 ^ 32 - q.cons) % 2 ^ 32 = q.slots then distReply s d.toNat 9 0
  else withGranules s ks (emitPayload d h g q)
/-- EMIT to the grid `g`, whose handle is `h`. -/
def emitGrid (d : BitVec 6) (cap : Cap) (h : Nat) (g : Grid) (s : State) : State :=
  if g.st = .retired then releaseThen s fun s => distReply s d.toNat 7 0
  else if recKind g.record ≠ 1 then releaseThen s fun s => distReply s d.toNat 8 0
  else if cap.isZero then releaseThen s fun s => distReply (closeNode (emitClk s h) h) d.toNat 0 0
  else
    let q := Queue.read s g.qkey
    withAccess s cap cap.addr (16 * q.rsz) permLD 16 .load fun _ s => withMapped s cap.addr q.rsz fun ks s => releaseThen s (emitMapped d h g q ks)

theorem exec_emit_of_none (ha : Admitted (.emit d a b) s) (hg : s.grid? (fld (s.lo b.toNat) 0 32) = none) :
    exec (.emit d a b) s = .next (releaseThen s fun s => distReply s d.toNat 7 0) := by
  refine ((rfl : exec _ s = execEmit d a b s).trans (checked_of_admitted ha _)).trans (congrArg _ ?_)
  dsimp only
  rw [hg]
theorem exec_emit_of_grid (ha : Admitted (.emit d a b) s) (hg : s.grid? (fld (s.lo b.toNat) 0 32) = some g) :
    exec (.emit d a b) s = .next (emitGrid d (s.reg a.toNat) (fld (s.lo b.toNat) 0 32) g s) := by
  refine ((rfl : exec _ s = execEmit d a b s).trans (checked_of_admitted ha _)).trans (congrArg _ ?_)
  dsimp only
  rw [hg]
  rfl

theorem emitGrid_of_retired (hr : g.st = .retired) : emitGrid d cap h g s = releaseThen s fun s => distReply s d.toNat 7 0 := if_pos hr
section
variable (hr : g.st ≠ .retired)
include hr

theorem emitGrid_of_otherKind (hk : recKind g.record ≠ 1) : emitGrid d cap h g s = releaseThen s fun s => distReply s d.toNat 8 0 := by
  rw [emitGrid, if_neg hr, if_pos hk]
theorem emitGrid_of_close (hk : recKind g.record = 1) (hc : cap = ⟨false, 0, 0⟩) :
    emitGrid d cap h g s = releaseThen s fun s => distReply (closeNode (emitClk s h) h) d.toNat 0 0 := by
  rw [emitGrid, if_neg hr, if_neg (not_not.mpr hk), if_pos (show cap.isZero = true from decide_eq_true hc)]
theorem emitGrid_of_payload (hk : recKind g.record = 1) (hc : cap ≠ ⟨false, 0, 0⟩) : emitGrid d cap h g s =
    withAccess s cap cap.addr (16 * (Queue.read s g.qkey).rsz) permLD 16 .load fun _ t =>
      withMapped t cap.addr (Queue.read s g.qkey).rsz fun ks t => releaseThen t (emitMapped d h g (Queue.read s g.qkey) ks) := by
  have hz : ¬cap.isZero = true := fun hz => hc (of_decide_eq_true hz)
  rw [emitGrid, if_neg hr, if_neg (not_not.mpr hk), if_neg hz]

end

theorem emitMapped_of_closed (hc : g.closed = true) : emitMapped d h g q ks s = distReply s d.toNat 10 0 := if_pos hc
theorem emitMapped_of_full (hc : g.closed = false) (hf : (q.prod + 2 ^ 32 - q.cons) % 2 ^ 32 = q.slots) :
    emitMapped d h g q ks s = distReply s d.toNat 9 0 := by
  rw [emitMapped, hc, if_neg Bool.false_ne_true, if_pos hf]
theorem emitMapped_of_room (hc : g.closed = false) (hf : (q.prod + 2 ^ 32 - q.cons) % 2 ^ 32 ≠ q.slots) :
    emitMapped d h g q ks s = withGranules s ks (emitPayload d h g q) := by
  rw [emitMapped, hc, if_neg Bool.false_ne_true, if_neg hf]
theorem emitPayload_of_open {gs : List Cap} (hn : openSlots q + 1 ≠ q.need) :
    emitPayload d h g q gs s = distReply (putPayload h g q gs s) d.toNat 0 q.prod := by
  rw [emitPayload, if_neg hn]
theorem emitPayload_of_last {gs : List Cap} (hn : openSlots q + 1 = q.need) :
    emitPayload d h g q gs s = distReply (readyBatch (putPayload h g q gs s) h q.need) d.toNat 0 q.prod := by
  rw [emitPayload, if_pos hn]

theorem emission : Spec.Emission := by
  intro s d a b hs ha cap h ends all u
  obtain ⟨w, hw⟩ := exists_wave_of_admitted ha rfl
  have hh : fld (s.lo b.toNat) 0 32 = h := fld_zero ..
  have hends {f : State → State} {t : State} {st v : Nat} (he : exec (.emit d a b) s = .next (releaseThen s f)) (hj : Spec.joinable s 6 all)
      (hf : f u = distReply t d.toNat st v) : ends t st v :=
    he.trans (congrArg _ ((releaseThen_of_joinable hs hw hj).trans hf))
  refine ⟨fun hg hj => hends (exec_emit_of_none ha (hh ▸ hg)) hj rfl, fun g hg => ?_⟩
  have hx : exec (.emit d a b) s = .next (emitGrid d cap h g s) := hh ▸ exec_emit_of_grid ha (hh ▸ hg)
  refine ⟨fun hr hj => hends (hx.trans (congrArg _ (emitGrid_of_retired hr))) hj rfl, fun hr => ⟨fun hk hj => hends (hx.trans (congrArg _ (emitGrid_of_otherKind hr hk))) hj rfl,
    fun hk hc hj => hends (hx.trans (congrArg _ (emitGrid_of_close hr hk hc))) hj rfl, fun hk hc => ?_⟩⟩
  intro q
  have hp := hx.trans (congrArg _ (emitGrid_of_payload hr hk hc))
  refine ⟨fun t s' he => ?_, fun p s' v he => ?_⟩
  · rw [hp, withAccess, he]
  replace hp : exec (.emit d a b) s = .next (withMapped (noteLeaf s' p) cap.addr q.rsz fun ks t => releaseThen t (emitMapped d h g q ks)) := by
    rw [hp, withAccess, he]
  refine ⟨fun hm => hp.trans (congrArg _ (withMapped_of_none hm)), fun ks hm hj => ?_⟩
  have hv : Reads s v := .of_snd hm (reads_mapAcross _ (reads_place he))
  intro u
  replace hp := (hp.trans (congrArg _ (withMapped_of_some hm))).trans (congrArg _ (releaseThen_of_joinable (hv.still hs) (hv.cur.trans hw) hj))
  refine ⟨fun hl => hp.trans (congrArg _ (emitMapped_of_closed hl)), fun hl hf => hp.trans (congrArg _ (emitMapped_of_full hl hf)), fun hl hf => ?_⟩
  replace hp := hp.trans (congrArg _ (emitMapped_of_room hl hf))
  refine ⟨fun pa hb => hp.trans (congrArg _ (withGranules_of_bad hb)), fun hb => ?_⟩
  replace hp := hp.trans (congrArg _ (withGranules_of_read hb))
  exact ⟨fun hn => hp.trans (congrArg _ (emitPayload_of_open hn)), fun hn => hp.trans (congrArg _ (emitPayload_of_last hn))⟩

/-- Settles O25: GROW and EMIT by the release before them, the grid that the handle names, and the room that it has. -/
theorem growthAndEmission : Obligations.GrowthAndEmission := ⟨growth, emission⟩

end

end Sys2Proof.Machine
end

section
namespace Sys2Proof.Machine

/-! ## Steps of grids (05 R135, R139, R140, R150) -/

section
variable {s : State} {n : Nat} {g : Grid}

/-- A step that asks for a condition acts when it holds, and changes nothing at another time. -/
theorem acts_of_ite {i : Instr} {ready c : Prop} [Decidable c] {t : State} (h : exec i s = .next (if c then t else s)) (hc : ready ↔ c) :
    (ready → exec i s = .next t) ∧ (¬ready → exec i s = .next s) :=
  ⟨fun hr => by rw [h, if_pos (hc.mp hr)], fun hr => by rw [h, if_neg (hr ∘ hc.mpr)]⟩

theorem exec_scratchRelease : exec (.scratchRelease n) s = .next (if releasable s n then releaseGroup s n else s) := rfl
theorem exec_batchTimeout (hg : s.grid? n = some g) : exec (.batchTimeout n) s = .next (
    if recKind g.record = 1 ∧ !g.closed ∧ openSlots (Queue.read s g.qkey) ≠ 0 ∧ (Queue.read s g.qkey).qt ≠ 0 ∧ g.first + (Queue.read s g.qkey).qt ≤ s.cyc then
      readyBatch s n (openSlots (Queue.read s g.qkey)) else s) := by
  refine (rfl : exec _ s = execBatchTimeout n s).trans ?_
  rw [execBatchTimeout, hg]
theorem exec_completionRecordWrite (hg : s.grid? n = some g) : exec (.completionRecordWrite n) s = .next (
    if g.st = .retired ∧ recCrec g.record ∧ !g.recorded ∧ ringRoom s then writeRecord s n g else s) := by
  refine (rfl : exec _ s = execCompletionRecordWrite n s).trans ?_
  rw [execCompletionRecordWrite, hg]

/-- 22 R455, R458: the ring is on, and a record fits between its tail and its head. -/
theorem ringRoom_iff : ringRoom s = true ↔ bit s.bar0.ercfg 5 = true ∧
    (s.bar0.erhead + 2 ^ 32 - s.bar0.ertail) % 2 ^ 32 ≠ 2 ^ max 4 (min 20 (s.bar0.ercfg.toNat % 32)) := by
  rw [ringRoom, ringLg, fld_zero, Bool.and_eq_true, decide_eq_true_eq]
  rfl

/-! ### Retirement -/

section
variable {u : State}

theorem completeGrid_of_done (h : recCrec g.record = false ∨ g.recorded = true) : completeGrid s n g = finishGrid s n g := by
  obtain h | h := h <;> simp [completeGrid, h]
theorem completeGrid_of_room (hc : recCrec g.record = true) (hr : g.recorded = false) (hm : ringRoom s = true) :
    completeGrid s n g = finishGrid (writeRecord s n g) n g := by
  simp [completeGrid, hc, hr, hm]
theorem completeGrid_of_noRoom (hc : recCrec g.record = true) (hr : g.recorded = false) (hm : ringRoom s = false) : completeGrid s n g = s := by
  simp [completeGrid, hc, hr, hm]

/-- A grid that is gone, or that has not all it needs to retire, stands. -/
theorem retireGrid_of_busy (h : ∀ g, u.grid? n = some g → g.st ≠ .retired ∧ (g.st ≠ .draining ∨ gridQuiet u n = false)) : retireGrid u n = u := by
  unfold retireGrid
  split
  · rfl
  next g hg =>
    obtain ⟨hr, hd⟩ := h g hg
    rw [if_neg hr, if_pos (by simpa using hd)]
/-- A grid whose stores may not yet be seen everywhere waits. -/
theorem retireGrid_of_early (hg : u.grid? n = some g) (hd : g.st = .draining) (ht : leaseNow u u.master < g.gw + 32) : retireGrid u n = u := by
  simp [retireGrid, hg, hd, ht]
/-- What retirement completes: a grid that has retired before as it stands, one that retires now with its writes published. -/
theorem retireGrid_of_ready (hg : u.grid? n = some g)
    (h : g.st = .retired ∨ (g.st = .draining ∧ gridQuiet u n = true ∧ g.gw + 32 ≤ leaseNow u u.master)) :
    retireGrid u n = completeGrid (if g.st = .retired then u else (publishGrid u n { g with st := .retired }).setGrid n { g with st := .retired })
      n { g with st := .retired } := by
  obtain hr | ⟨hd, hq, ht⟩ := h
  · have he : { g with st := .retired } = g := by rw [← hr]
    rw [he]
    simp [retireGrid, hg, hr]
  · simp [retireGrid, hg, hd, hq, Nat.not_lt.mpr ht]

end
end

/-! ## Steps of the distributors (07 R179 to R182) -/

section
variable {s : State} {c d n : Nat} {t : Task}

theorem workRequest_of_idle (h : asks s c = false) : workRequest s c = s := by
  simp [workRequest, h]
/-- A core that asks is granted half of a pool range, at least one index (07 R179). -/
theorem workRequest_of_pool (h : asks s c = true) (hg : (grantable s c).1 = some t) : workRequest s c =
    (let mid := if t.hi - t.lo = 1 then t.hi else t.lo + (t.hi - t.lo) / 2
     let own : Task := ⟨t.grid, t.lo, mid, .core c, s.cyc⟩
     dispatchLocal { note s ⟨coreDie c, t.grid, 0, t.lo, mid⟩ with
       tasks := replaceTask s.tasks t (own :: if mid < t.hi then [⟨t.grid, mid, t.hi, t.hold, s.cyc⟩] else []) } c own) := by
  obtain ⟨o, hp⟩ : ∃ o, grantable s c = (some t, o) := ⟨_, Prod.ext hg rfl⟩
  unfold workRequest
  rw [h, hp]
  rfl
/-- Where the pool has nothing for it, the upper half of another core's local range (07 R179). -/
theorem workRequest_of_steal (h : asks s c = true) (hg : grantable s c = (none, some t)) : workRequest s c =
    (let mid := if t.hi ≤ t.lo + 1 then t.lo else t.lo + (t.hi - t.lo + 1) / 2
     let own : Task := ⟨t.grid, mid, t.hi, .core c, s.cyc⟩
     dispatchLocal { s with tasks := replaceTask s.tasks t ((if t.lo < mid then [⟨t.grid, t.lo, mid, t.hold, t.since⟩] else []) ++ [own]) } c own) := by
  unfold workRequest
  rw [h, hg]
  rfl

theorem exec_localSlotFill_of_empty (he : (emptyShadow s c).isSome = true) (hb : bestTask s (usableLocal s c) = some t) :
    exec (.localSlotFill c) s = .next (dispatchLocal s c t) := by
  refine (rfl : exec _ s = execLocalSlotFill c s).trans ?_
  rw [execLocalSlotFill, if_neg (by simpa [Option.isSome_iff_ne_none] using he), hb]
theorem exec_localSlotFill_of_full (he : emptyShadow s c = none) : exec (.localSlotFill c) s = .next s := by
  refine (rfl : exec _ s = execLocalSlotFill c s).trans ?_
  rw [execLocalSlotFill, he]
  rfl
theorem exec_deferredRangeJoin (hd : ∀ t ∈ s.tasks, t.grid = n → t.hold = .deferred) (hf : s.tasks.find? (fun t => t.grid = n) = some t) :
    exec (.deferredRangeJoin n) s = .next (poolRange { s with tasks := replaceTask s.tasks t [] } n t.lo t.hi) := by
  refine (rfl : exec _ s = execDeferredRangeJoin n s).trans ?_
  rw [execDeferredRangeJoin, if_neg (by simpa using hd), hf]

end

/-! ## Shadow slots (07 R185, R186) -/

section
variable {s : State} {c slot : Nat} {sh : Shadow} {g : Grid}

theorem shadowDue_iff (k : Nat) : shadowDue s c k = true ↔ ∃ h, Tbl.get? (s.core c).shadow k = some h ∧ h.filled + 2000 ≤ s.cyc := by
  simp [shadowDue, Option.any_eq_true]
theorem startOrder_iff : startOrder s c slot = true ↔
    if slot = 0 then (s.core c).ran1 ≠ some s.cyc else ¬∃ h, Tbl.get? (s.core c).shadow 0 = some h ∧ h.filled + 2000 ≤ s.cyc := by
  rw [← shadowDue_iff, startOrder]
  split
  · exact decide_eq_true_iff
  · rw [Bool.not_eq_true', Bool.not_eq_true]
/-- The core notes that slot 1 has started a group in this cycle. -/
def noteRan (s : State) (c slot : Nat) : State := if slot = 1 then s.modCore c fun k => { k with ran1 := some s.cyc } else s
theorem noteRan_shadow : ((noteRan s c slot).core c).shadow = (s.core c).shadow := by
  unfold noteRan
  split
  · rw [State.modCore_core]
  · rfl
theorem noteRan_grid? (h : Nat) : (noteRan s c slot).grid? h = s.grid? h := by
  unfold noteRan
  split <;> rfl

/-- The group of a filled slot starts in its turn, with its prefetch or without. -/
theorem takeShadow_of_group (hs : Tbl.get? (s.core c).shadow slot = some sh) (hg : s.grid? sh.grid = some g) (fetch : Bool) :
    takeShadow s c slot fetch = if startOrder s c slot = true then
      startGroup ((if fetch then prefetch (noteRan s c slot) c sh g else noteRan s c slot).modCore c fun k => { k with shadow := Tbl.erase k.shadow slot }) c sh g
      else s := by
  have hv : (if slot = 1 ∧ (Tbl.get? (s.core c).shadow 1).isSome then s.modCore c fun k => { k with ran1 := some s.cyc } else s) = noteRan s c slot :=
    if_congr (and_iff_left_of_imp (by rintro rfl; rw [hs]; rfl)) rfl rfl
  unfold takeShadow
  simp only [hv, runShadow, noteRan_shadow, noteRan_grid?, hs, hg]
  cases startOrder s c slot <;> rfl
theorem takeShadow_of_empty (hs : Tbl.get? (s.core c).shadow slot = none) (fetch : Bool) : takeShadow s c slot fetch = s := by
  have hv : ¬(slot = 1 ∧ (Tbl.get? (s.core c).shadow 1).isSome = true) := by
    rintro ⟨rfl, h⟩
    rw [hs] at h
    cases h
  unfold takeShadow
  simp only [if_neg hv, runShadow, hs, ite_self]

theorem exec_groupRunnable : exec (.groupRunnable c slot) s = .next (takeShadow s c slot true) := rfl
theorem exec_prefetchTimeout : exec (.prefetchTimeout c slot) s = .next (if shadowDue s c slot then takeShadow s c slot false else s) := rfl

end

/-! ## The issue window (07 R190) -/

section
variable {s : State} {c w v : Nat}

theorem exec_windowRotate_of_free (h : windowCount s c < 16) : exec (.windowRotate c) s = .next (fillWindow s c) := by
  refine (rfl : exec _ s = execWindowRotate c s).trans ?_
  exact congrArg _ (if_neg fun hw => absurd hw.1 (Nat.not_le.mpr h))
/-- One free position goes to the first of the ready waves. -/
theorem fillWindow_of_one (h : windowCount s c = 15) : fillWindow s c = match firstWave (effPrio s) (·.entered) (readyWaves s c) with
    | some w => s.modWave w fun x => { x with run := .window, entered := s.cyc }
    | none => s := by
  unfold fillWindow
  rw [h]
  rfl
theorem exec_windowRotate_of_full (h : 16 ≤ windowCount s c) (ht : (s.core c).rotated = 0 ∨ (s.core c).rotated + 64 ≤ s.cyc)
    (hw : firstWave (effPrio s) (·.entered) ((coreWaves s c .ready).filter fun w => w.2.entered + 512 ≤ s.cyc) = some w)
    (hv : firstWave (fun x => 15 - effPrio s x) (·.entered) (coreWaves s c .window) = some v) :
    exec (.windowRotate c) s = .next (((s.modWave v fun x => { x with run := .ready, entered := s.cyc }).modWave w fun x =>
      { x with run := .window, entered := s.cyc }).modCore c fun k => { k with rotated := s.cyc }) := by
  refine (rfl : exec _ s = execWindowRotate c s).trans ?_
  simp only [execWindowRotate, if_pos (And.intro h ht), hw, hv]

end

/-! ## The master's grant of another die's range (07 R182) -/

section
variable {s : State} {d : Nat} {could : Nat → Bool} {t : Task}

/-- The pool ranges of other dies that may be received. -/
def otherPools (s : State) (d : Nat) (could : Nat → Bool) : List Task :=
  s.tasks.filter fun t => (match t.hold with
    | .pool k => decide (k ≠ d)
    | _ => false) && could t.grid
/-- The upper part of a range moves to the die's pool. -/
def moveToPool (s : State) (d : Nat) (t : Task) (mid : Nat) : State :=
  note { s with tasks := replaceTask s.tasks t (t.below mid ++ [⟨t.grid, mid, t.hi, .pool d, s.cyc⟩]) } ⟨d, t.grid, 0, mid, t.hi⟩
/-- What the master moves to a die whose cores could receive the grids of `could`. -/
def masterMoves (s : State) (d : Nat) (could : Nat → Bool) : State :=
  match bestTask s (otherPools s d could) with
  | some t => moveToPool s d t (if t.hi = t.lo + 1 then t.lo else t.lo + (t.hi - t.lo) / 2)
  | none => match stealFrom s (fun v => decide (coreDie v ≠ d)) could with
    | some t => moveToPool s d t (cutLocal t)
    | none => s

theorem exec_masterTaskRequest : exec (.masterTaskRequest d) s = .next (masterMoves s d fun h =>
    (if dieLive s d then needyCores s d else []).any fun c => mayReceive s c h) := rfl
theorem masterMoves_of_pool (h : bestTask s (otherPools s d could) = some t) :
    masterMoves s d could = moveToPool s d t (if t.hi = t.lo + 1 then t.lo else t.lo + (t.hi - t.lo) / 2) := by
  rw [masterMoves, h]
theorem masterMoves_of_local (hp : otherPools s d could = []) (h : stealFrom s (fun v => decide (coreDie v ≠ d)) could = some t) :
    masterMoves s d could = moveToPool s d t (cutLocal t) := by
  rw [masterMoves, hp, bestTask, h]
/-- Where no core asks, nothing moves. -/
theorem masterMoves_of_none (h : ∀ g, could g = false) : masterMoves s d could = s := by
  have hp : otherPools s d could = [] := List.filter_eq_nil_iff.mpr fun t _ => by simp [h]
  have hl : stealFrom s (fun v => decide (coreDie v ≠ d)) could = none := by
    unfold stealFrom
    simp [h]
  rw [masterMoves, hp, bestTask, hl]

theorem masterRequests : Spec.MasterRequests := by
  intro s d could pools moved
  have hlive (h : dieLive s d = true) : exec (.masterTaskRequest d) s = .next (masterMoves s d could) := by
    rw [exec_masterTaskRequest, h]
    rfl
  refine ⟨fun t h hb => (hlive h).trans (congrArg _ (masterMoves_of_pool hb)), fun t h hp hb => (hlive h).trans (congrArg _ (masterMoves_of_local hp hb)), fun h => ?_⟩
  refine exec_masterTaskRequest.trans (congrArg _ (masterMoves_of_none fun g => ?_))
  obtain h | h := h <;> simp [h]

end

theorem gridStepsOwn : Spec.GridStepsOwn := by
  intro s n c slot r
  refine ⟨acts_of_ite exec_scratchRelease .rfl, ?_, ringRoom_iff, fun g hg => acts_of_ite (exec_batchTimeout hg) (by simp),
    fun g hg => acts_of_ite (exec_completionRecordWrite hg) (by simp), rfl, fun h => congrArg _ (workRequest_of_idle h), fun t h hg => congrArg _ (workRequest_of_pool h hg),
    fun t h hg => congrArg _ (workRequest_of_steal h hg), fun t he hb => exec_localSlotFill_of_empty he hb, exec_localSlotFill_of_full,
    fun t hd hf => exec_deferredRangeJoin hd hf, ?_, fun hs => congrArg _ (takeShadow_of_empty hs true), exec_windowRotate_of_free, fun h => ?_,
    fun w v h ht hw hv => exec_windowRotate_of_full h ht hw hv⟩
  · intro u
    refine ⟨fun h => congrArg _ (retireGrid_of_busy h), fun g hg => ⟨fun hd _ ht => congrArg _ (retireGrid_of_early hg hd ht), fun h => ?_⟩⟩
    intro y v
    have hx : exec (.gridRetire n) s = .next (completeGrid v n y) := congrArg _ (retireGrid_of_ready hg h)
    exact ⟨fun hc => hx.trans (congrArg _ (completeGrid_of_done hc)), fun hc hr hm => hx.trans (congrArg _ (completeGrid_of_room hc hr hm)),
      fun hc hr hm => hx.trans (congrArg _ (completeGrid_of_noRoom hc hr hm))⟩
  · intro sh g hs hg due turn v starts
    refine ⟨acts_of_ite (exec_groupRunnable.trans (congrArg _ (takeShadow_of_group hs hg true))) startOrder_iff.symm, ?_⟩
    refine acts_of_ite (c := shadowDue s c slot = true ∧ startOrder s c slot = true) (exec_prefetchTimeout.trans (congrArg _ ?_))
      (and_congr (shadowDue_iff slot).symm startOrder_iff.symm)
    rw [takeShadow_of_group hs hg, ite_and]
    rfl
  · exact (exec_windowRotate_of_free (by omega)).trans (congrArg _ (fillWindow_of_one h))

end Sys2Proof.Machine
end

section
namespace Sys2Proof.Laws

/-- Settles O27: each step by the condition that its meaning asks for, the master's by the ranges that a core of the die could receive. -/
theorem gridSteps : Obligations.GridSteps := ⟨Machine.gridStepsOwn, Machine.masterRequests⟩

end Sys2Proof.Laws
end

section
namespace Sys2Proof.Machine

/-! ## What a vector instruction writes (06 R154) -/

/-- The wave at its next instruction. -/
def Wave.next (x : Wave) : Wave := { x with pc := x.pc.setAddr (x.pc.addr + 4) }
/-- The wave with flags raised. -/
def Wave.flag (x : Wave) (fl : Nat) : Wave := { x with fflags := x.fflags ||| BitVec.ofNat 32 fl }
/-- The state from whose place the next random values are drawn. -/
def State.drawAt (s : State) (r : Nat) : State := { s with rnd := r }

section
variable {s : State}

theorem modCur_modCur (f g : Wave → Wave) : (s.modCur f).modCur g = s.modCur fun x => g (f x) := by
  change (s.modCur f).setWave s.curW (g (s.modCur f).curWave) = _
  rw [curWave_modCur]
  exact congrArg (fun w => { s with waves := w }) (Tbl.set_set ..)
theorem modCur_congr {f g : Wave → Wave} (h : f s.curWave = g s.curWave) : s.modCur f = s.modCur g := congrArg (s.setWave s.curW) h
theorem advance_of_wave (hw : s.cur = .wave s.curW) : s.advance = s.modCur Wave.next := by
  have hpc : s.pc = s.curWave.pc := by rw [State.pc, hw]; rfl
  rw [State.advance, setPc_of_wave hw, hpc]
  rfl
theorem raiseFlags_eq (fl : Nat) : s.raiseFlags fl = s.modCur (·.flag fl) := rfl
theorem drew_eq (mode n : Nat) : s.drew mode n = s.drawAt (s.drew mode n).rnd := by
  unfold State.drew
  split <;> rfl
theorem drew_rnd (mode n : Nat) : (s.drew mode n).rnd = if mode = 5 then s.rnd + n else s.rnd := by
  unfold State.drew
  split <;> rfl
theorem drawAt_modCur (r : Nat) (f : Wave → Wave) : (s.drawAt r).modCur f = (s.modCur f).drawAt r := rfl
theorem curWave_drawAt (r : Nat) : (s.drawAt r).curWave = s.curWave := rfl
theorem lane_next_flag (x : Wave) (fl n l : Nat) : (x.flag fl).next.lane n l = x.lane n l := by
  unfold Wave.lane
  cases x
  rfl
theorem flag_zero (x : Wave) : x.flag 0 = x := by
  change ({ x with fflags := x.fflags ||| 0#32 } : Wave) = x
  rw [BitVec.or_zero]

end

/-! ### Lanes -/

theorem cover_eq (x : Wave) (n : Nat) : ∃ p, x.cover n = { x with poison := p } := by
  unfold Wave.cover
  split
  · exact ⟨_, rfl⟩
  · exact ⟨x.poison, rfl⟩
theorem lane_cover (x : Wave) (k n l : Nat) : (x.cover k).lane n l = x.lane n l := by
  obtain ⟨p, hp⟩ := cover_eq x k
  rw [hp]
  rfl
/-- A write of lanes changes the vector registers and deferred marks alone. -/
theorem setLanes_eq (x : Wave) (d : Nat) (ls : List Nat) (f : Nat → W32) : ∃ v p, x.setLanes d ls f = { x with v := v, poison := p } := by
  have hfold : ∀ y : Wave, ∃ v, ls.foldl (fun y l => y.setLane d l (f l)) y = { y with v := v } := by
    induction ls with
    | nil => exact fun y => ⟨y.v, rfl⟩
    | cons l ls ih =>
      intro y
      obtain ⟨v, hv⟩ := ih (y.setLane d l (f l))
      exact ⟨v, hv⟩
  obtain ⟨v, hv⟩ := hfold x
  unfold Wave.setLanes
  rw [hv]
  split
  · obtain ⟨p, hp⟩ := cover_eq { x with v := v } (64 + d)
    exact ⟨v, p, hp⟩
  · exact ⟨v, x.poison, rfl⟩
theorem lane_setLane (x : Wave) {d k n l : Nat} (v : W32) (hk : k < 32) (hl : l < 32) : (x.setLane d k v).lane n l = if n = d ∧ l = k then v else x.lane n l := by
  have hkey : n * 32 + l = d * 32 + k ↔ n = d ∧ l = k := by omega
  unfold Wave.setLane Wave.lane
  split
  case isTrue h => rw [hkey.mpr h, Tbl.get_set_same]
  case isFalse h => exact Tbl.get_set_other _ _ _ _ _ (h ∘ hkey.mp)
theorem lane_setLanes (x : Wave) {d n l : Nat} {ls : List Nat} (f : Nat → W32) (hls : ∀ k ∈ ls, k < 32) (hl : l < 32) :
    (x.setLanes d ls f).lane n l = if n = d ∧ l ∈ ls then f l else x.lane n l := by
  have hfold : ∀ y : Wave, (ls.foldl (fun y l => y.setLane d l (f l)) y).lane n l = if n = d ∧ l ∈ ls then f l else y.lane n l := by
    induction ls with
    | nil => simp
    | cons k ls ih =>
      intro y
      rw [List.foldl_cons, ih (fun k hk => hls k (List.mem_cons_of_mem _ hk)), lane_setLane y _ (hls k List.mem_cons_self) hl]
      by_cases hd : n = d <;> by_cases hk : l = k <;> simp [hd, hk]
  unfold Wave.setLanes
  dsimp only
  split
  · rw [lane_cover, hfold]
  · exact hfold x

theorem mem_lanes {x : Wave} {l : Nat} : l ∈ x.lanes ↔ l < 32 ∧ x.active l = true := by
  rw [Wave.lanes, lanes32, List.mem_filter, List.mem_range]

/-! ### The states that the rules of chapter 6 describe -/

section
variable {s : State} {d fl r : Nat} {on : Nat → Bool} {f g : Nat → W32}

/-- A wave whose lanes and deferred marks alone have changed, with flags and random values, at the next instruction. -/
theorem vec_of_wave (hw : s.cur = .wave s.curW) {y : Wave} (hy : ∃ v p, y = { s.curWave with v := v, poison := p })
    (hl : ∀ n l, l < 32 → y.lane n l = if n = d ∧ on l = true then f l else s.curWave.lane n l) :
    Spec.vec s ((s.modCur fun _ => y.flag fl).drawAt r).advance d on f fl r := by
  have hadv : ((s.modCur fun _ => y.flag fl).drawAt r).advance = (s.modCur fun _ => (y.flag fl).next).drawAt r := by
    rw [advance_of_wave (s := (s.modCur fun _ => y.flag fl).drawAt r) hw, drawAt_modCur, modCur_modCur]
  obtain ⟨v, p, hy⟩ := hy
  rw [hadv, Spec.vec, curWave_drawAt, curWave_modCur]
  refine ⟨⟨v, p, (y.flag fl).fflags, r, congrArg (·.drawAt r) (modCur_congr ?_)⟩, fun n l h => (lane_next_flag ..).trans (hl n l h), ?_, rfl⟩
  · rw [hy]
    rfl
  · rw [hy]
    rfl

/-- A write of lanes, with flags and random values. -/
theorem vec_of_setLanes (hw : s.cur = .wave s.curW) {ls : List Nat} (hls : ∀ l, l ∈ ls ↔ l < 32 ∧ on l = true) (hf : ∀ l, l < 32 → on l = true → f l = g l) :
    Spec.vec s ((s.modCur fun x => (x.setLanes d ls f).flag fl).drawAt r).advance d on g fl r := by
  refine vec_of_wave (y := s.curWave.setLanes d ls f) hw (setLanes_eq ..) fun n l hl => ?_
  rw [lane_setLanes _ f (fun k hk => ((hls k).mp hk).1) hl]
  by_cases ho : on l = true
  · simp [hls, hl, ho, hf l hl ho]
  · simp [hls, ho]

end

/-! ### Integer lanes -/

section
variable {s : State} {i : Instr} {d : BitVec 7}

theorem exec_of_vecExec (h : exec i s = vecExec i s) (ha : Admitted i s) : exec i s = .next (vecEffect i s).advance :=
  h.trans (checked_of_admitted ha _)

/-- A write of the active lanes. -/
theorem lanewise_of_vecWrite {f : Wave → Nat → W32} {g : Nat → W32} (hx : exec i s = vecExec i s) (hc : (regs i).ctx = false) (he : vecEffect i s = vecWrite d f s)
    (hf : ∀ l < 32, f s.curWave l = g l) : Spec.lanewise i d s g := by
  intro ha
  refine ⟨_, exec_of_vecExec hx ha, ?_⟩
  have hflag : vecWrite d f s = (s.modCur fun x => (x.setLanes d.toNat s.curWave.lanes (f s.curWave)).flag 0).drawAt s.rnd :=
    modCur_congr (s := s) (f := fun x => x.setLanes d.toNat x.lanes (f x)) (g := fun x => (x.setLanes d.toNat s.curWave.lanes (f s.curWave)).flag 0) (flag_zero _).symm
  rw [he, hflag]
  exact vec_of_setLanes (exists_curWave_of_admitted ha hc) (fun _ => mem_lanes) fun l hl _ => hf l hl

end
end Sys2Proof.Machine
end

section
namespace Sys2Proof.Machine

/-! ## Vector integers and moves (06 R160, R161, R166, R167) -/

/-! ### One lane -/

section
variable (x y z : W32)

theorem ofNat_b2n {n : Nat} (p : Prop) [Decidable p] : BitVec.ofNat n (b2n (decide p)) = Spec.truth n p := by
  by_cases h : p <;> simp [h, b2n, Spec.truth]
theorem vecOp_mul : vecOp .mul x y z = BitVec.ofInt 32 (x.toInt * y.toInt) := by
  rw [BitVec.ofInt_mul, BitVec.ofInt_toInt, BitVec.ofInt_toInt]
  rfl
theorem vecOp_mad : vecOp .mad x y z = BitVec.ofInt 32 (x.toInt * y.toInt + z.toInt) := by
  rw [BitVec.ofInt_add, BitVec.ofInt_mul, BitVec.ofInt_toInt, BitVec.ofInt_toInt, BitVec.ofInt_toInt]
  rfl
theorem vecOp_sra : vecOp .sra x y z = BitVec.ofInt 32 (x.toInt / 2 ^ (y.toNat % 32)) := by
  rw [vecOp, ← BitVec.ofInt_toInt (x := x.sshiftRight _), BitVec.toInt_sshiftRight, Int.shiftRight_eq_div_pow]
  rfl
theorem vecOp_min : vecOp .min x y z = if x.toInt < y.toInt then x else y := by
  rcases lt_trichotomy x.toInt y.toInt with h | h | h
  · simp [vecOp, h, h.le]
  · obtain rfl := BitVec.eq_of_toInt_eq h
    simp [vecOp]
  · simp [vecOp, h.not_ge, h.not_gt]
theorem vecOp_max : vecOp .max x y z = if x.toInt < y.toInt then y else x := by
  rcases lt_trichotomy x.toInt y.toInt with h | h | h
  · simp [vecOp, h, h.le]
  · obtain rfl := BitVec.eq_of_toInt_eq h
    simp [vecOp]
  · simp [vecOp, h.not_ge, h.not_gt]
theorem vecOp_minu : vecOp .minu x y z = BitVec.ofNat 32 (min x.toNat y.toNat) := by
  simp only [vecOp]
  split
  case isTrue h => rw [Nat.min_eq_left h, BitVec.ofNat_toNat, BitVec.setWidth_eq]
  case isFalse h => rw [Nat.min_eq_right (Nat.le_of_not_le h), BitVec.ofNat_toNat, BitVec.setWidth_eq]
theorem vecOp_maxu : vecOp .maxu x y z = BitVec.ofNat 32 (max x.toNat y.toNat) := by
  simp only [vecOp]
  split
  case isTrue h => rw [Nat.max_eq_right h, BitVec.ofNat_toNat, BitVec.setWidth_eq]
  case isFalse h => rw [Nat.max_eq_left (Nat.le_of_not_le h), BitVec.ofNat_toNat, BitVec.setWidth_eq]
theorem vecOp_abs : vecOp .abs x y z = BitVec.ofInt 32 |x.toInt| := by
  simp only [vecOp]
  split
  case isTrue h => rw [abs_of_neg h, BitVec.ofInt_neg, BitVec.ofInt_toInt]
  case isFalse h => rw [abs_of_nonneg (not_lt.mp h), BitVec.ofInt_toInt]
theorem vecOp_sel : vecOp .sel x y z = if z = 0 then y else x := by
  simp only [vecOp, ne_eq, ite_not]

end

/-- A shift by an amount in the word. -/
theorem toNat_setWidth_mod (n : BitVec 5) : (n.setWidth 32).toNat % 32 = n.toNat := by
  have := n.isLt
  rw [BitVec.toNat_setWidth]
  omega
theorem vecOp_shl_imm (x z : W32) (n : BitVec 5) : vecOp .shl x (n.setWidth 32) z = x <<< n.toNat := congrArg (x <<< ·) (toNat_setWidth_mod n)
theorem vecOp_shr_imm (x z : W32) (n : BitVec 5) : vecOp .shr x (n.setWidth 32) z = x >>> n.toNat := congrArg (x >>> ·) (toNat_setWidth_mod n)
theorem vecOp_sra_imm (x z : W32) (n : BitVec 5) : vecOp .sra x (n.setWidth 32) z = BitVec.ofInt 32 (x.toInt / 2 ^ n.toNat) := by
  rw [vecOp_sra, toNat_setWidth_mod]

/-! ### The instructions -/

section
variable {s : State} {i : Instr} {d a b : BitVec 7} {op : VecOp}

theorem lanewise_of_vecInt {f : W32 → W32 → W32 → W32} (hx : exec i s = vecExec i s) (hc : (regs i).ctx = false) (he : vecEffect i s = vecInt op d a b s)
    (hf : ∀ x y z, vecOp op x y z = f x y z) :
    Spec.lanewise i d s fun l => f (s.curWave.lane a.toNat l) (s.curWave.lane b.toNat l) (s.curWave.lane d.toNat l) :=
  lanewise_of_vecWrite hx hc he fun _ _ => hf ..
theorem lanewise_of_vecImm {y : W32} {f : W32 → W32} (hx : exec i s = vecExec i s) (hc : (regs i).ctx = false) (he : vecEffect i s = vecImm op d a y s)
    (hf : ∀ x z, vecOp op x y z = f x) : Spec.lanewise i d s fun l => f (s.curWave.lane a.toNat l) :=
  lanewise_of_vecWrite hx hc he fun _ _ => hf ..

theorem vectorIntegerForms : Spec.VectorIntegerForms := by
  intro s d a b x y z r
  have rule (op : VecOp) {i : Instr} {f : W32 → W32 → W32 → W32} (hx : exec i s = vecExec i s) (hc : (regs i).ctx = false)
      (he : vecEffect i s = vecInt op d a b s) (hf : ∀ x y z, vecOp op x y z = f x y z) : r i f := lanewise_of_vecInt hx hc he hf
  have unary (op : VecOp) {i : Instr} {f : W32 → W32} (hx : exec i s = vecExec i s) (hc : (regs i).ctx = false)
      (he : vecEffect i s = vecImm op d a 0 s) (hf : ∀ x z, vecOp op x 0 z = f x) : r i fun x _ _ => f x := lanewise_of_vecImm hx hc he hf
  exact ⟨rule .add rfl rfl rfl fun _ _ _ => rfl, rule .sub rfl rfl rfl fun _ _ _ => rfl, rule .mul rfl rfl rfl vecOp_mul,
    rule .mulh rfl rfl rfl fun _ _ _ => rfl, rule .mad rfl rfl rfl vecOp_mad, rule .and rfl rfl rfl fun _ _ _ => rfl,
    rule .or rfl rfl rfl fun _ _ _ => rfl, rule .xor rfl rfl rfl fun _ _ _ => rfl, rule .andn rfl rfl rfl fun _ _ _ => rfl,
    rule .shl rfl rfl rfl fun _ _ _ => rfl, rule .shr rfl rfl rfl fun _ _ _ => rfl, rule .sra rfl rfl rfl vecOp_sra,
    rule .min rfl rfl rfl vecOp_min, rule .max rfl rfl rfl vecOp_max, rule .minu rfl rfl rfl vecOp_minu, rule .maxu rfl rfl rfl vecOp_maxu,
    unary .abs rfl rfl rfl fun x z => vecOp_abs x 0 z, rule .sel rfl rfl rfl vecOp_sel, unary .mov rfl rfl rfl fun _ _ => rfl,
    rule .eq rfl rfl rfl fun _ _ _ => ofNat_b2n _, rule .ne rfl rfl rfl fun _ _ _ => ofNat_b2n _, rule .lt rfl rfl rfl fun _ _ _ => ofNat_b2n _,
    rule .ge rfl rfl rfl fun _ _ _ => ofNat_b2n _, rule .ltu rfl rfl rfl fun _ _ _ => ofNat_b2n _, rule .geu rfl rfl rfl fun _ _ _ => ofNat_b2n _⟩

/-- VINS writes one lane whether it is active or not. -/
theorem vec_vins {n : BitVec 5} {c : BitVec 6} (ha : Admitted (.vins d n c) s) : ∃ t, exec (.vins d n c) s = .next t ∧
    Spec.vec s t d.toNat (fun l => l == n.toNat) (fun _ => (s.lo c.toNat).setWidth 32) 0 s.rnd := by
  refine ⟨_, exec_of_vecExec rfl ha, ?_⟩
  have hflag : vecEffect (.vins d n c) s = (s.modCur fun _ => (s.curWave.setLane d.toNat n.toNat ((s.lo c.toNat).setWidth 32)).flag 0).drawAt s.rnd :=
    modCur_congr (s := s) (f := fun x => x.setLane d.toNat n.toNat ((s.lo c.toNat).setWidth 32))
      (g := fun _ => (s.curWave.setLane d.toNat n.toNat ((s.lo c.toNat).setWidth 32)).flag 0) (flag_zero _).symm
  rw [hflag]
  refine vec_of_wave (exists_curWave_of_admitted ha rfl) ⟨_, _, rfl⟩ fun k l hl => ?_
  rw [lane_setLane _ _ n.isLt hl]
  simp only [beq_iff_eq]

theorem vectorImmediateAndMoveForms : Spec.VectorImmediateAndMoveForms := by
  intro s d a b c m12 m9 n x k r
  have imm (op : VecOp) {i : Instr} {y : W32} (f : W32 → W32) (hx : exec i s = vecExec i s) (hc : (regs i).ctx = false)
      (he : vecEffect i s = vecImm op d a y s) (hf : ∀ x z, vecOp op x y z = f x) : r i fun l => f (x l) := lanewise_of_vecImm hx hc he hf
  have moves (f : Wave → Nat → W32) {i : Instr} (hx : exec i s = vecExec i s) (hc : (regs i).ctx = false) (he : vecEffect i s = vecWrite d f s) :
      r i (f s.curWave) := lanewise_of_vecWrite hx hc he fun _ _ => rfl
  exact ⟨imm .add (· + m12.signExtend 32) rfl rfl rfl fun _ _ => rfl, imm .and (· &&& m9.signExtend 32) rfl rfl rfl fun _ _ => rfl,
    imm .or (· ||| m9.signExtend 32) rfl rfl rfl fun _ _ => rfl, imm .xor (· ^^^ m9.signExtend 32) rfl rfl rfl fun _ _ => rfl,
    imm .shl (· <<< n.toNat) rfl rfl rfl fun x z => vecOp_shl_imm x z n, imm .shr (· >>> n.toNat) rfl rfl rfl fun x z => vecOp_shr_imm x z n,
    imm .sra (fun x => BitVec.ofInt 32 (x.toInt / 2 ^ n.toNat)) rfl rfl rfl fun x z => vecOp_sra_imm x z n,
    moves (fun _ _ => m12.signExtend 32) rfl rfl rfl, moves (fun _ l => BitVec.ofNat 32 l) rfl rfl rfl, moves (fun _ _ => (s.lo c.toNat).setWidth 32) rfl rfl rfl,
    moves (fun x l => x.lane a.toNat (l ^^^ k)) rfl rfl rfl, moves (fun x l => x.lane a.toNat ((l + k) % 32)) rfl rfl rfl,
    moves (fun x l => x.lane a.toNat ((x.lane b.toNat l).toNat % 32)) rfl rfl rfl, vec_vins, does_of_checked rfl⟩

end

/-- Settles O6, by what a write of the active lanes leaves and the operation of one lane. -/
theorem vectorIntegers : Obligations.VectorIntegers := ⟨vectorIntegerForms, vectorImmediateAndMoveForms⟩

end Sys2Proof.Machine
end

section
namespace Sys2Proof.Machine

/-! ## Structured control (06 R169 to R171) -/

section
variable {s : State} {i : Instr}

/-! ### All lanes at once (06 R169, 05 R131) -/

/-- A step of structured control: the change of every lane, or NEST for one whose counter would pass 127. -/
theorem nestStep_rule {f : Wave → Nat → Nat × Bool} {g : Nat → Nat × Bool} (hx : exec i s = checked i s (nestStep i f)) (hc : (regs i).ctx = false)
    (hf : ∀ l, f s.curWave l = g l) (ha : Admitted i s) :
    ((∀ l < 32, (g l).1 ≤ 127) → ∃ t, exec i s = .next t ∧ (∀ l < 32, Spec.nest t.curWave l = g l) ∧
      ∃ n b, t = s.modCur fun x => { x with nc := n, bk := b, pc := x.pc.setAddr (x.pc.addr + 4) }) ∧
    ((∃ l < 32, 127 < (g l).1) → exec i s = .next (raise s ⟨.nest, i.code.setWidth 64⟩)) := by
  have hw := exists_curWave_of_admitted ha hc
  have hover : (lanes32.any fun l => decide (127 < (f s.curWave l).1)) = true ↔ ∃ l < 32, 127 < (g l).1 := by
    simp [lanes32, List.any_eq_true, hf]
  rw [hx, checked_of_admitted ha]
  refine ⟨fun h => ⟨_, congrArg Host.Outcome.next (if_neg ?_), fun l hl => ?_, ?_⟩, fun h => congrArg Host.Outcome.next (if_pos (hover.mpr h))⟩
  · rw [hover]
    rintro ⟨l, hl, hlt⟩
    exact (h l hl).not_gt hlt
  · rw [nest_advance (s := s.modCur fun x => x.setNest (f s.curWave)) hw, curWave_modCur, nest_setNest _ _ hl, hf]
  · refine ⟨(s.curWave.setNest (f s.curWave)).nc, (s.curWave.setNest (f s.curWave)).bk, ?_⟩
    rw [advance_of_wave (s := s.modCur fun x => x.setNest (f s.curWave)) hw, modCur_modCur]
    exact modCur_congr rfl

/-- VBRK and VCONT take the active lanes whose condition holds. -/
theorem active_and_cond (x : Wave) (a : BitVec 7) (l : Nat) :
    (x.active l && x.cond a l) = true ↔ (Spec.nest x l).1 = 0 ∧ (Spec.nest x l).2 = false ∧ decide (x.lane a.toNat l ≠ 0) = true := by
  simp [Wave.active, Wave.cond, Spec.nest, and_assoc]

theorem structuredControl : Spec.StructuredControl := by
  intro s a yes r
  refine ⟨fun ha => nestStep_rule rfl rfl (fun _ => rfl) ha, fun ha => nestStep_rule rfl rfl (fun l => ?_) ha, fun ha => nestStep_rule rfl rfl (fun _ => rfl) ha,
    fun ha => nestStep_rule rfl rfl (fun _ => rfl) ha, fun ha => nestStep_rule rfl rfl (fun l => ?_) ha, fun ha => nestStep_rule rfl rfl (fun l => ?_) ha⟩
  · exact if_congr Iff.rfl rfl ((apply_ite (·, (Spec.nest s.curWave l).2) ..).trans (congrArg (ite _ _) (apply_ite (·, (Spec.nest s.curWave l).2) ..)))
  · exact if_congr (active_and_cond ..) rfl rfl
  · exact if_congr (active_and_cond ..) rfl rfl

/-! ### The end of a loop, and votes (06 R170, R171) -/

theorem nest_setPc {w : Nat} (hw : s.cur = .wave w) (c : Cap) (l : Nat) : Spec.nest (s.setPc c).curWave l = Spec.nest s.curWave l := by
  simp [Spec.nest, State.curWave, State.curW, State.setPc, hw]
theorem branch12_true (m : BitVec 12) : branch12 true m s = s.setPc (s.pc.inc (4 * m.toInt)) := rfl

/-- A lane takes part while it neither waits nor has broken out. -/
theorem lanes_isEmpty {x : Wave} : x.lanes.isEmpty = true ↔ ∀ l < 32, Spec.nest x l ≠ (0, false) := by
  rw [List.isEmpty_iff, List.eq_nil_iff_forall_not_mem]
  simp only [mem_lanes, not_and, Wave.active, Spec.nest, Bool.and_eq_true, decide_eq_true_eq, Bool.not_eq_true', ne_eq, Prod.mk.injEq]

/-- The lanes after VENDL has woken those that continued. -/
def Wave.woken (x : Wave) : Wave := x.setNest fun l => if x.nest l = (1, true) then (0, false) else x.nest l
/-- The lanes after the loop, with those released that broke out. -/
def Wave.released (y : Wave) : Wave := y.setNest fun l =>
  if (y.nest l).2 && decide ((y.nest l).1 = 0) then (0, false) else if (y.nest l).2 then ((y.nest l).1 - 2, (y.nest l).2) else ((y.nest l).1 - 1, (y.nest l).2)

theorem exec_vendl {m : BitVec 12} (ha : Admitted (.vendl m) s) : exec (.vendl m) s =
    .next (if !s.curWave.woken.lanes.isEmpty then branch12 true m (s.modCur fun _ => s.curWave.woken) else (s.modCur fun _ => s.curWave.woken.released).advance) :=
  does_of_checked (k := fun s => if !s.curWave.woken.lanes.isEmpty then branch12 true m (s.modCur fun _ => s.curWave.woken)
    else (s.modCur fun _ => s.curWave.woken.released).advance) rfl ha
theorem nest_woken (x : Wave) {l : Nat} (hl : l < 32) : Spec.nest x.woken l = if Spec.nest x l = (1, true) then (0, false) else Spec.nest x l :=
  nest_setNest _ _ hl
theorem nest_released (y : Wave) {l : Nat} (hl : l < 32) : Spec.nest y.released l =
    if Spec.nest y l = (0, true) then (0, false) else if (Spec.nest y l).2 then ((Spec.nest y l).1 - 2, true) else ((Spec.nest y l).1 - 1, false) := by
  refine (nest_setNest _ _ hl).trans ?_
  have hnest : y.nest l = Spec.nest y l := rfl
  rw [hnest]
  obtain ⟨n, b⟩ := Spec.nest y l
  cases b <;> simp

theorem loopEndAndVotes : Spec.LoopEndAndVotes := by
  intro s a m there any woken left
  refine ⟨does_of_checked rfl, fun ha => ?_, fun ha => ?_⟩
  · have hx : exec (.vnone a m) s = .next (branch12 (!any) m s) := (rfl : exec (.vnone a m) s = execVnone a m s).trans (checked_of_admitted ha _)
    rw [hx]
    cases any <;> rfl
  · have hw := exists_curWave_of_admitted ha rfl
    have hwoken (l : Nat) (hl : l < 32) : Spec.nest s.curWave.woken l = woken l := nest_woken _ hl
    have hleft (l : Nat) (hl : l < 32) : Spec.nest s.curWave.woken.released l = left l := by
      rw [nest_released _ hl, hwoken l hl]
    have hempty : s.curWave.woken.lanes.isEmpty = true ↔ ∀ l < 32, woken l ≠ (0, false) := by
      rw [lanes_isEmpty]
      exact forall₂_congr fun l hl => by rw [hwoken l hl]
    rw [exec_vendl ha]
    refine ⟨fun h => ⟨_, s.curWave.woken.nc, s.curWave.woken.bk, congrArg Host.Outcome.next (if_pos ?_), rfl, fun l hl => ?_⟩,
      fun h => ⟨_, s.curWave.woken.released.nc, s.curWave.woken.released.bk, congrArg Host.Outcome.next (if_neg ?_), rfl, fun l hl => ?_⟩⟩
    · rw [Bool.not_eq_true', ← Bool.not_eq_true, hempty]
      simpa using h
    · rw [branch12_true, nest_setPc (s := s.modCur fun _ => s.curWave.woken) hw, curWave_modCur, hwoken l hl]
    · rw [hempty.mpr h]
      exact Bool.false_ne_true
    · rw [nest_advance (s := s.modCur fun _ => s.curWave.woken.released) hw, curWave_modCur, hleft l hl]

end

/-- Settles O9, by the change of every lane at once and the lanes that VENDL leaves active. -/
theorem structuredControlFlow : Obligations.StructuredControlFlow := ⟨structuredControl, loopEndAndVotes⟩

/-! ## Repetition (06 R173 to R175) -/

/-- Settles O10: no word of a body that is fetched and legal stops it, and `execRep` executes the passes one after another. -/
theorem repetition : Obligations.Repetition := by
  intro s t n c x y z k body is ha hfetch hplan hgo
  have hstop : is.find? (fun i => waveVerdict i t.curWave ≠ .go) = none := by
    simpa using hgo
  have hx : exec (.rep n c x y z k) s = execRep n c x y z k s := rfl
  rw [hx, execRep, checked_of_admitted ha]
  simp only [hfetch, hplan, hstop]

end Sys2Proof.Machine
end

section
namespace Sys2Proof.Machine

/-! ## Vector floating point (06 R158, R162 to R165) -/

section
variable {s : State} {i : Instr} {d a b : BitVec 7} {mode : Nat}

/-- A floating-point instruction: the lanes' results, their flags and the random values that are used up. -/
theorem vecFp_eq (s : State) (d : BitVec 7) (mode : Nat) (f : Wave → Nat → (Nat → Nat) → Nat × Nat) : vecFp d mode f s =
    (s.modCur fun y => (y.setLanes d.toNat s.curWave.lanes fun l => BitVec.ofNat 32 (f s.curWave l (Spec.rand s l)).1).flag
      ((Spec.lanesOn s).foldl (fun g l => g ||| (f s.curWave l (Spec.rand s l)).2) 0)).drawAt (s.drew mode 128).rnd := by
  unfold vecFp
  extract_lets x r fl
  rw [drew_eq, drew_rnd, drew_rnd, raiseFlags_eq, modCur_modCur]
  rfl

theorem floatLanes_of_vecFp {f : Wave → Nat → (Nat → Nat) → Nat × Nat} {g : Nat → Nat × Nat} (hx : exec i s = vecExec i s) (hc : (regs i).ctx = false)
    (he : vecEffect i s = vecFp d mode f s) (hf : ∀ l, f s.curWave l (Spec.rand s l) = g l) : Spec.floatLanes i d mode s g := by
  intro ha
  obtain rfl : (fun l => f s.curWave l (Spec.rand s l)) = g := funext hf
  refine ⟨_, exec_of_vecExec hx ha, ?_⟩
  rw [he, vecFp_eq]
  exact vec_of_setLanes (exists_curWave_of_admitted ha hc) (fun _ => mem_lanes) fun _ _ _ => rfl

/-- Two halves and their flags, as the model puts them together. -/
def joinHalves (lo hi : Nat × Nat) : Nat × Nat := (lo.1 + hi.1 * 2 ^ 16, lo.2 ||| hi.2)
theorem joinHalves_eq (lo hi : Nat × Nat) : joinHalves lo hi = (lo.1 + 2 ^ 16 * hi.1, lo.2 ||| hi.2) := by
  rw [joinHalves, Nat.mul_comm]
theorem halves_eq (f : (Nat → Nat) → Nat → Nat → Nat → Nat × Nat) (r : Nat → Nat) (x y z : Nat) : halves f r x y z =
    joinHalves (f r (x % 2 ^ 16) (y % 2 ^ 16) (z % 2 ^ 16)) (f (fun i => r (i + 2)) (x / 2 ^ 16) (y / 2 ^ 16) (z / 2 ^ 16)) := rfl

theorem vectorFloatForms : Spec.VectorFloatForms := by
  intro s d a b t m c x y z r q
  have rule (i : Instr) {mode : Nat} (f : Wave → Nat → (Nat → Nat) → Nat × Nat) (hx : exec i s = vecExec i s) (hc : (regs i).ctx = false)
      (he : vecEffect i s = vecFp d mode f s) : Spec.floatLanes i d mode s fun l => f s.curWave l (Spec.rand s l) :=
    floatLanes_of_vecFp hx hc he fun _ => rfl
  have unary (i : Instr) (f : Nat → Bool → (Nat → Nat) → Nat → Nat × Nat) (hx : exec i s = vecExec i s) (hc : (regs i).ctx = false)
      (he : vecEffect i s = vecFp1 d a f s) : r i fun g l => f s.rm s.ftz g (x l) := rule i (fun u l g => f s.rm s.ftz g (u.laneN a.toNat l)) hx hc he
  have binary (i : Instr) (f : Nat → Bool → (Nat → Nat) → Nat → Nat → Nat × Nat) (hx : exec i s = vecExec i s) (hc : (regs i).ctx = false)
      (he : vecEffect i s = vecFp2 d a b f s) : r i fun g l => f s.rm s.ftz g (x l) (y l) :=
    rule i (fun u l g => f s.rm s.ftz g (u.laneN a.toNat l) (u.laneN b.toNat l)) hx hc he
  have compares (i : Instr) (p : Nat) (hx : exec i s = vecExec i s) (hc : (regs i).ctx = false) (he : vecEffect i s = vecFcmp p d a b s) : q i p :=
    binary i (fun _ ftz _ x y => ((if (fpCmp fmtFP32 ftz p x y).1 then 1 else 0), (fpCmp fmtFP32 ftz p x y).2)) hx hc he
  exact ⟨binary (.vfadd d a b) (fpAdd fmtFP32) rfl rfl rfl, binary (.vfsub d a b) (fpSub fmtFP32) rfl rfl rfl, binary (.vfmul d a b) (fpMul fmtFP32) rfl rfl rfl,
    rule (.vfma d a b) (fun u l g => fpFma fmtFP32 s.rm s.ftz g (u.laneN a.toNat l) (u.laneN b.toNat l) (u.laneN d.toNat l)) rfl rfl rfl,
    binary (.vfdiv d a b) (fpDiv fmtFP32) rfl rfl rfl, unary (.vfsqrt d a) (fpSqrt fmtFP32) rfl rfl rfl,
    binary (.vfmin d a b) (fun _ ftz _ => fpMinMax fmtFP32 ftz false) rfl rfl rfl, binary (.vfmax d a b) (fun _ ftz _ => fpMinMax fmtFP32 ftz true) rfl rfl rfl,
    compares (.vfcmpEq d a b) 0 rfl rfl rfl, compares (.vfcmpNe d a b) 1 rfl rfl rfl, compares (.vfcmpLt d a b) 2 rfl rfl rfl,
    compares (.vfcmpLe d a b) 3 rfl rfl rfl, compares (.vfcmpGt d a b) 4 rfl rfl rfl, compares (.vfcmpGe d a b) 5 rfl rfl rfl,
    compares (.vfcmpUn d a b) 6 rfl rfl rfl, lanewise_of_vecWrite (i := .vfclass d a) rfl rfl rfl fun _ _ => rfl,
    rule (.vfcvt d a t m c) (fun u l g => vfcvtOp c.toNat (s.mode m.toNat) (decide (t = 1)) s.ftz g (u.laneN a.toNat l)) rfl rfl rfl⟩

theorem vectorTranscendentals : Spec.VectorTranscendentals := by
  intro s d a x r
  have rule (i : Instr) (f : Val → Val × Nat) (hx : exec i s = vecExec i s) (hc : (regs i).ctx = false)
      (he : vecEffect i s = vecFp d 0 (fun x l _ => transcend f s.ftz (x.laneN a.toNat l)) s) : r i f :=
    floatLanes_of_vecFp (f := fun x l _ => transcend f s.ftz (x.laneN a.toNat l)) hx hc he fun _ => rfl
  exact ⟨rule (.vrcp d a) valRcp rfl rfl rfl, rule (.vrsq d a) valRsq rfl rfl rfl, rule (.vexp2 d a) valExp2 rfl rfl rfl, rule (.vlog2 d a) valLog2 rfl rfl rfl,
    rule (.vsin d a) valSin rfl rfl rfl, rule (.vcos d a) valCos rfl rfl rfl⟩

/-! ### Packed halves and bytes (06 R165) -/

theorem fld_byte_lt (x : W32) (lo : Nat) : fld x lo 8 < 2 ^ 8 := Nat.mod_lt _ (by decide)
/-- Four products of bytes added one after another, each modulo the width, are their sum. -/
theorem dot4_eq (sx : Bool) {f : Nat → Int} (hf : ∀ v < 2 ^ 8, f v = if sx then signed 8 v else v) (x y z : W32) : dot4 sx x y z =
    BitVec.ofInt 32 (z.toNat + f (fld x 0 8) * f (fld y 0 8) + f (fld x 8 8) * f (fld y 8 8) + f (fld x 16 8) * f (fld y 16 8) + f (fld x 24 8) * f (fld y 24 8)) := by
  simp only [hf _ (fld_byte_lt _ _)]
  cases sx <;> simp [dot4, wrap, List.range, List.range.loop, BitVec.ofInt_add, BitVec.ofInt_mul]
theorem signed_byte {v : Nat} (hv : v < 2 ^ 8) : (if v < 128 then (v : Int) else (v : Int) - 256) = signed 8 v := by
  rw [signed, Nat.mod_eq_of_lt hv]
  rfl

theorem vectorPackedForms : Spec.VectorPackedForms := by
  intro s d a b x y z r join up byte dot
  have rule (i : Instr) {mode : Nat} (f : Wave → Nat → (Nat → Nat) → Nat × Nat) (hx : exec i s = vecExec i s) (hc : (regs i).ctx = false)
      (he : vecEffect i s = vecFp d mode f s) : Spec.floatLanes i d mode s fun l => f s.curWave l (Spec.rand s l) :=
    floatLanes_of_vecFp hx hc he fun _ => rfl
  have packed (i : Instr) (f : Nat → Bool → (Nat → Nat) → Nat → Nat → Nat → Nat × Nat) (hx : exec i s = vecExec i s) (hc : (regs i).ctx = false)
      (he : vecEffect i s = vecHalves d a b f s) : r i fun g l => join (f s.rm s.ftz g (x l % 2 ^ 16) (y l % 2 ^ 16) (z l % 2 ^ 16))
        (f s.rm s.ftz (up g) (x l / 2 ^ 16) (y l / 2 ^ 16) (z l / 2 ^ 16)) :=
    floatLanes_of_vecFp (f := fun u l g => halves (f s.rm s.ftz) g (u.laneN a.toNat l) (u.laneN b.toNat l) (u.laneN d.toNat l)) hx hc he
      fun _ => (halves_eq ..).trans (joinHalves_eq ..)
  have bytes (i : Instr) (sx : Bool) (f : Nat → Int) (hx : exec i s = vecExec i s) (hc : (regs i).ctx = false)
      (he : vecEffect i s = vecWrite d (fun x l => dot4 sx (x.lane a.toNat l) (x.lane b.toNat l) (x.lane d.toNat l)) s)
      (hf : ∀ v < 2 ^ 8, f v = if sx then signed 8 v else v) : Spec.lanewise i d s (dot f) :=
    lanewise_of_vecWrite hx hc he fun _ _ => dot4_eq sx hf ..
  refine ⟨packed (.vbadd2 d a b) (fun m z g x y _ => fpAdd fmtBF16 m z g x y) rfl rfl rfl, packed (.vbmul2 d a b) (fun m z g x y _ => fpMul fmtBF16 m z g x y) rfl rfl rfl,
    packed (.vbfma2 d a b) (fun m z g x y w => fpFma fmtBF16 m z g x y w) rfl rfl rfl, ?_,
    rule (.vdotb d a b) (fun u l g => dotb s.rm s.ftz g (u.laneN a.toNat l) (u.laneN b.toNat l) (u.laneN d.toNat l)) rfl rfl rfl,
    rule (.vunpkLo d a) (fun u l _ => unpack (u.laneN a.toNat l % 2 ^ 16)) rfl rfl rfl, rule (.vunpkHi d a) (fun u l _ => unpack (u.laneN a.toNat l / 2 ^ 16)) rfl rfl rfl,
    bytes (.vdot4I8 d a b) true (fun v => if v < 128 then v else (v : Int) - 256) rfl rfl rfl fun v hv => (signed_byte hv).trans (if_pos rfl).symm,
    bytes (.vdot4Ui8 d a b) false (fun v => v) rfl rfl rfl fun _ _ => (if_neg Bool.false_ne_true).symm⟩
  have hpk := rule (.vpk d a b) (fun u l g => joinHalves (fpConvert fmtFP32 fmtBF16 s.rm false s.ftz g (u.laneN a.toNat l))
    (fpConvert fmtFP32 fmtBF16 s.rm false s.ftz (fun i => g (i + 2)) (u.laneN b.toNat l))) rfl rfl rfl
  simp only [joinHalves_eq] at hpk
  exact hpk

end

/-- Settles O7, by what a write of the active lanes leaves and the flags that are met on the way. -/
theorem vectorFloatingPoint : Obligations.VectorFloatingPoint := ⟨vectorFloatForms, vectorTranscendentals, vectorPackedForms⟩

end Sys2Proof.Machine
end

section
namespace Sys2Proof.Machine

/-! ## Votes, reductions and scans (06 R166, R168, R176, R177) -/

/-! ### Flags and sums of a list of lanes -/

theorem foldl_add_eq_sum {α M : Type} [AddCommMonoid M] (f : α → M) (l : List α) : l.foldl (fun t a => t + f a) 0 = (l.map f).sum := by
  rw [List.sum_eq_foldl, List.foldl_map]

/-- All flags of the members of a list. -/
def orAll (f : Nat → Nat) (l : List Nat) : Nat := l.foldr (fun a fl => f a ||| fl) 0
theorem foldl_or (f : Nat → Nat) (l : List Nat) : ∀ fl, l.foldl (fun g a => g ||| f a) fl = fl ||| orAll f l := by
  induction l with
  | nil => exact fun fl => (Nat.or_zero fl).symm
  | cons a l ih =>
    intro fl
    rw [List.foldl_cons, ih, Nat.or_assoc]
    rfl

theorem orAll_zero (l : List Nat) : orAll (fun _ => 0) l = 0 := by
  induction l with
  | nil => rfl
  | cons a l ih => exact (Nat.zero_or _).trans ih

/-! ### The tree (06 R168) -/

section
variable (f : Nat → Nat → Nat → Nat × Nat)

theorem tree_succ (x : Nat → Option Nat) (n l : Nat) :
    Spec.tree f x (n + 1) l = ((combOpt (f (n * 16 + l)) (Spec.tree f x n (2 * l)).1 (Spec.tree f x n (2 * l + 1)).1).1,
      (combOpt (f (n * 16 + l)) (Spec.tree f x n (2 * l)).1 (Spec.tree f x n (2 * l + 1)).1).2 ||| (Spec.tree f x n (2 * l)).2 ||| (Spec.tree f x n (2 * l + 1)).2) := by
  rw [Spec.tree]
  cases (Spec.tree f x n (2 * l)).1 <;> cases (Spec.tree f x n (2 * l + 1)).1 <;> simp [combOpt]

/-- One level: the nodes' values, and their flags with those of the level below. -/
theorem treeLevel_range' (p : Nat → Option Nat) (q : Nat → Nat) (c : Nat) : ∀ k,
    (treeLevel f k ((List.range' (2 * k) (2 * c)).map p)).1 = (List.range' k c).map (fun l => (combOpt (f l) (p (2 * l)) (p (2 * l + 1))).1) ∧
    orAll q (List.range' (2 * k) (2 * c)) ||| (treeLevel f k ((List.range' (2 * k) (2 * c)).map p)).2 =
      orAll (fun l => (combOpt (f l) (p (2 * l)) (p (2 * l + 1))).2 ||| q (2 * l) ||| q (2 * l + 1)) (List.range' k c) := by
  induction c with
  | zero => simp [treeLevel, orAll]
  | succ c ih =>
    intro k
    obtain ⟨hv, hf⟩ := ih (k + 1)
    have hsplit : List.range' (2 * k) (2 * (c + 1)) = 2 * k :: (2 * k + 1) :: List.range' (2 * (k + 1)) (2 * c) := rfl
    rw [hsplit]
    refine ⟨congrArg (_ :: ·) hv, ?_⟩
    change q (2 * k) ||| (q (2 * k + 1) ||| orAll q (List.range' (2 * (k + 1)) (2 * c))) |||
      ((combOpt (f k) (p (2 * k)) (p (2 * k + 1))).2 ||| (treeLevel f (k + 1) ((List.range' (2 * (k + 1)) (2 * c)).map p)).2) =
      ((combOpt (f k) (p (2 * k)) (p (2 * k + 1))).2 ||| q (2 * k) ||| q (2 * k + 1)) ||| orAll _ (List.range' (k + 1) c)
    rw [← hf]
    ac_rfl

/-- The levels of the model's tree are those of the rule's. -/
theorem treeLevels_eq (x : Nat → Option Nat) : ∀ n m, (List.range n).foldl (fun (a : List (Option Nat) × Nat) st =>
      let u := treeLevel (fun k => f (st * 16 + k)) 0 a.1
      (u.1, a.2 ||| u.2)) ((List.range (2 ^ (n + m))).map x, 0) =
    ((List.range (2 ^ m)).map (fun l => (Spec.tree f x n l).1), orAll (fun l => (Spec.tree f x n l).2) (List.range (2 ^ m))) := by
  intro n
  induction n with
  | zero =>
    intro m
    have h0 : orAll (fun l => (Spec.tree f x 0 l).2) (List.range (2 ^ m)) = 0 := orAll_zero _
    rw [h0, Nat.zero_add]
    rfl
  | succ n ih =>
    intro m
    obtain ⟨hv, hf⟩ := treeLevel_range' (fun k => f (n * 16 + k)) (fun l => (Spec.tree f x n l).1) (fun l => (Spec.tree f x n l).2) (2 ^ m) 0
    rw [show n + 1 + m = n + (m + 1) by omega, List.range_succ, List.foldl_append, ih (m + 1), List.foldl_cons, List.foldl_nil, pow_succ', List.range_eq_range', List.range_eq_range']
    simp only [tree_succ]
    exact Prod.ext hv hf

theorem treeReduce_lanes (x : Nat → Option Nat) : treeReduce f (lanes32.map x) = Spec.tree f x 5 0 := by
  have h := treeLevels_eq f x 5 0
  unfold treeReduce
  rw [lanes32, show (32 : Nat) = 2 ^ (5 + 0) from rfl, h]
  exact Prod.ext rfl (Nat.or_zero _)

end

section
variable {o : W32 → W32 → W32} {e : W32}

/-- An associative operation with an identity. -/
structure FoldsWith (o : W32 → W32 → W32) (e : W32) : Prop where
  assoc : ∀ u v w, o (o u v) w = o u (o v w)
  left : ∀ v, o e v = v
  right : ∀ v, o v e = v

theorem FoldsWith.foldr_append (h : FoldsWith o e) (vs us : List W32) : (vs ++ us).foldr o e = o (vs.foldr o e) (us.foldr o e) := by
  induction vs with
  | nil => exact (h.left _).symm
  | cons v vs ih => rw [List.cons_append, List.foldr_cons, ih, List.foldr_cons, h.assoc]

/-- A tree of one such operation, with the identity for an absent lane, is a fold. -/
theorem tree_fold (f : Nat → Nat → Nat → Nat × Nat) (hf : ∀ k x y, f k x y = ((o (BitVec.ofNat 32 x) (BitVec.ofNat 32 y)).toNat, 0))
    (ho : FoldsWith o e) (on : Nat → Bool) (w : Nat → W32) : ∀ n l,
    (Spec.tree f (fun l => if on l then some (w l).toNat else none) n l).2 = 0 ∧
    BitVec.ofNat 32 ((Spec.tree f (fun l => if on l then some (w l).toNat else none) n l).1.getD e.toNat) =
      ((List.range' (l * 2 ^ n) (2 ^ n)).map fun l => if on l then w l else e).foldr o e := by
  intro n
  induction n with
  | zero =>
    intro l
    by_cases h : on l = true <;> simp [Spec.tree, h, ho.right]
  | succ n ih =>
    intro l
    obtain ⟨hp0, hp⟩ := ih (2 * l)
    obtain ⟨hq0, hq⟩ := ih (2 * l + 1)
    have hsplit : List.range' (l * 2 ^ (n + 1)) (2 ^ (n + 1)) = List.range' (2 * l * 2 ^ n) (2 ^ n) ++ List.range' ((2 * l + 1) * 2 ^ n) (2 ^ n) := by
      rw [show (2 * l + 1) * 2 ^ n = 2 * l * 2 ^ n + 2 ^ n by ring, List.range'_append_1]
      congr 1 <;> ring
    rw [hsplit, List.map_append, ho.foldr_append, ← hp, ← hq, tree_succ, hp0, hq0]
    generalize (Spec.tree f _ n (2 * l)).1 = p
    generalize (Spec.tree f _ n (2 * l + 1)).1 = q
    cases p <;> cases q <;> simp [combOpt, hf, ho.left, ho.right]

end

/-! ### The register that a reduction writes -/

section
variable {s : State} {i : Instr} {a : BitVec 7} {c : BitVec 6}

theorem setData_of_wave (hw : s.cur = .wave s.curW) (n : Nat) (v : Word) : s.setData n v = s.modCur (·.setReg n (.data v)) := State.setReg_of_wave s _ n _ hw
theorem setData_modCur (hw : s.cur = .wave s.curW) (f : Wave → Wave) (n : Nat) (v : Word) :
    (s.modCur f).setData n v = s.modCur fun x => (f x).setReg n (.data v) :=
  (setData_of_wave (s := s.modCur f) hw n v).trans (modCur_modCur ..)
theorem setData_modCur_congr (hw : s.cur = .wave s.curW) {f g : Wave → Wave} (h : f s.curWave = g s.curWave) (n : Nat) (v : Word) :
    (s.modCur f).setData n v = (s.modCur g).setData n v := by
  rw [setData_modCur hw, setData_modCur hw]
  exact modCur_congr (congrArg (·.setReg n (.data v)) h)
/-- No flag, no random value. -/
theorem setData_flag_zero (hw : s.cur = .wave s.curW) (n : Nat) (v : Word) : ((s.raiseFlags 0).drew 0 160).setData n v = s.setData n v := by
  change (s.modCur (·.flag 0)).setData n v = _
  rw [setData_modCur hw, setData_of_wave hw]
  exact modCur_congr (congrArg (·.setReg n (.data v)) (flag_zero _))

/-- A reduction's tree. -/
def redTree (g : Seed) (f : Comb) (a : BitVec 7) (s : State) : Option Nat × Nat :=
  Spec.tree (fun k => f fun j => s.rand (2 * k + j)) (fun l => if Spec.on s l then some (g (s.curWave.laneN a.toNat l)).1 else none) 5 0
theorem vecRed_eq (g : Seed) (f : Comb) (mode : Nat) (ident : Word) (out : Nat → Word) : vecRed g f mode ident out a c s =
    ((s.raiseFlags ((redTree g f a s).2 ||| orAll (fun l => (g (s.curWave.laneN a.toNat l)).2) (Spec.lanesOn s))).drew mode 160).setData c.toNat
      ((redTree g f a s).1.elim ident out) := by
  unfold vecRed
  extract_lets x r fl
  have hr : r = redTree g f a s := treeReduce_lanes _ _
  have hfl : fl = (redTree g f a s).2 ||| orAll (fun l => (g (s.curWave.laneN a.toNat l)).2) (Spec.lanesOn s) := (foldl_or _ _ _).trans (by rw [hr]; rfl)
  rw [hfl, hr]
  cases (redTree g f a s).1 <;> rfl

/-- The words of the active lanes. -/
def activeWords (s : State) (a : BitVec 7) : List W32 := (Spec.lanesOn s).map (s.curWave.lane a.toNat)

variable (hx : exec i s = vecExec i s)
include hx

theorem toScalar_of_setData {v : Word} (he : Admitted i s → vecEffect i s = s.setData c.toNat v) : Spec.toScalar i c s v :=
  fun ha => by rw [exec_of_vecExec hx ha, he ha]

/-- An integer reduction is a fold of the active lanes' words. -/
theorem toScalar_of_vecRed {op : VecOp} {o : W32 → W32 → W32} {e : W32} {out : Nat → Word} {wide : W32 → Word} (hc : (regs i).ctx = false)
    (he : vecEffect i s = vecRed seedInt (combInt op) 0 (wide e) out a c s) (hout : ∀ n, out n = wide (BitVec.ofNat 32 n)) (hop : ∀ u v, vecOp op u v 0 = o u v)
    (ho : FoldsWith o e) : Spec.toScalar i c s (wide ((activeWords s a).foldr o e)) := by
  refine toScalar_of_setData hx fun hadm => ?_
  obtain ⟨hflags, hvalue⟩ := tree_fold (fun k => combInt op fun i => s.rand (2 * k + i)) (fun _ _ _ => congrArg (fun w : W32 => (w.toNat, 0)) (hop _ _)) ho (Spec.on s)
    (s.curWave.lane a.toNat) 5 0
  have hwords : ((List.range' (0 * 2 ^ 5) (2 ^ 5)).map fun l => if Spec.on s l then s.curWave.lane a.toNat l else e).foldr o e = (activeWords s a).foldr o e := by
    rw [activeWords, Spec.lanesOn, List.foldr_map, List.foldr_map, List.foldr_filter, List.range_eq_range']
    refine congrArg (fun f => List.foldr f e (List.range' 0 32)) (funext₂ fun l acc => ?_)
    split
    · rfl
    · exact ho.left acc
  have hnone : orAll (fun l => (seedInt (s.curWave.laneN a.toNat l)).2) (Spec.lanesOn s) = 0 := orAll_zero _
  rw [he, vecRed_eq, hnone, show (redTree seedInt (combInt op) a s).2 = 0 from hflags, Nat.or_zero, setData_flag_zero (exists_curWave_of_admitted hadm hc), ← hwords, ← hvalue]
  change s.setData c.toNat ((redTree seedInt (combInt op) a s).1.elim (wide e) out) = s.setData c.toNat (wide (BitVec.ofNat 32 ((redTree seedInt (combInt op) a s).1.getD e.toNat)))
  cases (redTree seedInt (combInt op) a s).1 <;> simp [hout]

end

/-! ### Extremes -/

/-- The word that comes first by a key. -/
def better (key : W32 → Int) (u v : W32) : W32 := if key u ≤ key v then u else v
/-- A key that tells words apart, and its last word. -/
structure LastBy (key : W32 → Int) (e : W32) : Prop where
  injective : Function.Injective key
  last : ∀ v, key v ≤ key e

section
variable {key : W32 → Int} {e : W32}

theorem better_assoc (u v w : W32) : better key (better key u v) w = better key u (better key v w) := by
  unfold better
  by_cases huv : key u ≤ key v <;> by_cases hvw : key v ≤ key w
  · simp [huv, hvw, huv.trans hvw]
  · simp [huv, hvw]
  · simp [huv, hvw]
  · simp [huv, hvw, show ¬ key u ≤ key w by omega]
/-- The last word by a key: of two words with one key, which are one word, either. -/
theorem better_neg (hinj : Function.Injective key) (u v : W32) : better (fun w => -key w) u v = if key u ≤ key v then v else u := by
  unfold better
  rcases lt_trichotomy (key u) (key v) with h | h | h
  · simp [h.le, h.not_ge]
  · obtain rfl := hinj h
    simp
  · simp [h.le, h.not_ge]

variable (hk : LastBy key e)
include hk

theorem LastBy.folds : FoldsWith (better key) e where
  assoc := better_assoc
  left v := by
    unfold better
    split
    case isTrue h => exact hk.injective (le_antisymm h (hk.last v))
    case isFalse => rfl
  right v := if_pos (hk.last v)

/-- A fold finds the first of the words by the key. -/
theorem LastBy.foldr_better (ws : List W32) : (∀ w ∈ ws, key (ws.foldr (better key) e) ≤ key w) ∧ (ws ≠ [] → ws.foldr (better key) e ∈ ws) := by
  induction ws with
  | nil => simp
  | cons w ws ih =>
    obtain ⟨hbest, hmem⟩ := ih
    rw [List.foldr_cons, List.forall_mem_cons]
    by_cases h : key w ≤ key (ws.foldr (better key) e)
    · have heq : better key w (ws.foldr (better key) e) = w := if_pos h
      rw [heq]
      exact ⟨⟨le_rfl, fun v hv => h.trans (hbest v hv)⟩, fun _ => List.mem_cons_self⟩
    · have heq : better key w (ws.foldr (better key) e) = ws.foldr (better key) e := if_neg h
      have hne : ws ≠ [] := by
        rintro rfl
        exact h (hk.last w)
      rw [heq]
      exact ⟨⟨(not_le.mp h).le, hbest⟩, fun _ => List.mem_cons_of_mem _ (hmem hne)⟩

/-- The rule of an extreme: `before` orders the values as the key does. -/
theorem LastBy.exists_extreme {s : State} {i : Instr} {a : BitVec 7} {c : BitVec 6} {op : VecOp} {val : W32 → Int} {before : Int → Int → Prop} {ident : Int}
    (hx : exec i s = vecExec i s) (hc : (regs i).ctx = false)
    (he : vecEffect i s = vecRed seedInt (combInt op) 0 (BitVec.ofInt 64 (val e)) (fun n => BitVec.ofInt 64 (val (BitVec.ofNat 32 n))) a c s)
    (hop : ∀ u v, vecOp op u v 0 = better key u v) (hid : val e = ident) (hle : ∀ u v, key u ≤ key v → val u = val v ∨ before (val u) (val v)) :
    ∃ m : Int, Spec.toScalar i c s (BitVec.ofInt 64 m) ∧
      (∀ l ∈ Spec.lanesOn s, m = val (s.curWave.lane a.toNat l) ∨ before m (val (s.curWave.lane a.toNat l))) ∧
      (if Spec.lanesOn s = [] then m = ident else ∃ l ∈ Spec.lanesOn s, m = val (s.curWave.lane a.toNat l)) := by
  obtain ⟨hbest, hmem⟩ := hk.foldr_better (activeWords s a)
  refine ⟨_, toScalar_of_vecRed (wide := fun w => BitVec.ofInt 64 (val w)) hx hc he (fun _ => rfl) hop hk.folds, fun l hl => hle _ _ (hbest _ (List.mem_map_of_mem hl)), ?_⟩
  split
  case isTrue hnil =>
    rw [activeWords, hnil, ← hid]
    rfl
  case isFalse hne =>
    obtain ⟨l, hl, heq⟩ := List.mem_map.mp (hmem (mt List.map_eq_nil_iff.mp hne))
    exact ⟨l, hl, congrArg val heq.symm⟩

end

theorem lastBy_toInt : LastBy (·.toInt) 0x7FFFFFFF := ⟨fun _ _ => BitVec.eq_of_toInt_eq, fun v => Int.le_of_lt_add_one v.toInt_lt⟩
theorem lastBy_neg_toInt : LastBy (-·.toInt) 0x80000000 := ⟨neg_injective.comp lastBy_toInt.injective, fun v => neg_le_neg v.le_toInt⟩
theorem lastBy_toNat : LastBy (·.toNat) 0xFFFFFFFF :=
  ⟨fun _ _ h => BitVec.eq_of_toNat_eq (Int.ofNat_inj.mp h), fun v => Int.ofNat_le.mpr (Nat.le_of_lt_succ v.isLt)⟩
theorem lastBy_neg_toNat : LastBy (-·.toNat) 0 := ⟨neg_injective.comp lastBy_toNat.injective, fun v => neg_nonpos.mpr (Int.natCast_nonneg v.toNat)⟩

section
variable (u v z : W32)

theorem vecOp_min_eq_better : vecOp .min u v z = better (·.toInt) u v := rfl
theorem vecOp_max_eq_better : vecOp .max u v z = better (-·.toInt) u v := (better_neg lastBy_toInt.injective u v).symm
theorem vecOp_minu_eq_better : vecOp .minu u v z = better (·.toNat) u v := by
  simp only [vecOp, better, Nat.cast_le]
theorem vecOp_maxu_eq_better : vecOp .maxu u v z = better (-·.toNat) u v := by
  rw [better_neg lastBy_toNat.injective]
  simp only [vecOp, Nat.cast_le]

end

/-! ### Bitwise combinations -/

/-- An operation on words that is one on bits, with a word of one bit. -/
structure Bitwise (o : W32 → W32 → W32) (f : Bool → Bool → Bool) (e : W32) (ident : Bool) : Prop where
  comm : ∀ p q, f p q = f q p
  assoc : ∀ p q r, f (f p q) r = f p (f q r)
  bit : ∀ u v k, (o u v).getLsbD k = f (u.getLsbD k) (v.getLsbD k)
  ident : ∀ k < 32, e.getLsbD k = ident

section
variable {o : W32 → W32 → W32} {f : Bool → Bool → Bool} {e : W32} {ident : Bool} (hb : Bitwise o f e ident)
include hb

theorem Bitwise.getLsbD_foldr (ws : List W32) (k : Nat) : (ws.foldr o e).getLsbD k = (ws.map (·.getLsbD k)).foldl f (e.getLsbD k) := by
  have : Std.Commutative f := ⟨hb.comm⟩
  have : Std.Associative f := ⟨hb.assoc⟩
  rw [List.foldl_eq_foldr]
  induction ws with
  | nil => rfl
  | cons w ws ih => rw [List.foldr_cons, hb.bit, ih, List.map_cons, List.foldr_cons]

/-- The rule of a bitwise combination. -/
theorem Bitwise.exists_combination {s : State} {i : Instr} {a : BitVec 7} {c : BitVec 6} {op : VecOp} (hx : exec i s = vecExec i s) (hc : (regs i).ctx = false)
    (he : vecEffect i s = vecRed seedInt (combInt op) 0 (e.setWidth 64) zext32 a c s) (hop : ∀ u v, vecOp op u v 0 = o u v) (ho : FoldsWith o e) :
    ∃ m : W32, Spec.toScalar i c s (m.setWidth 64) ∧
      ∀ k < 32, m.getLsbD k = (Spec.lanesOn s).foldl (fun g l => f g ((s.curWave.lane a.toNat l).getLsbD k)) ident := by
  have hout (n : Nat) : zext32 n = (BitVec.ofNat 32 n).setWidth 64 := by
    rw [zext32, ← BitVec.toNat_ofNat, BitVec.ofNat_toNat]
  refine ⟨_, toScalar_of_vecRed (wide := fun w => w.setWidth 64) hx hc he hout hop ho, fun k hk => ?_⟩
  rw [hb.getLsbD_foldr, hb.ident k hk, activeWords, List.map_map, List.foldl_map]
  rfl

end

theorem folds_and : FoldsWith (· &&& ·) (BitVec.allOnes 32) := ⟨BitVec.and_assoc, fun _ => BitVec.allOnes_and, fun _ => BitVec.and_allOnes⟩
theorem folds_or : FoldsWith (· ||| ·) 0 := ⟨BitVec.or_assoc, fun _ => BitVec.zero_or, fun _ => BitVec.or_zero⟩
theorem folds_xor : FoldsWith (· ^^^ ·) 0 := ⟨BitVec.xor_assoc, fun _ => BitVec.zero_xor, fun _ => BitVec.xor_zero⟩
theorem bitwise_and : Bitwise (· &&& ·) (· && ·) (BitVec.allOnes 32) true :=
  ⟨Bool.and_comm, Bool.and_assoc, fun _ _ _ => BitVec.getLsbD_and, fun _ hk => BitVec.getLsbD_allOnes.trans (decide_eq_true hk)⟩
theorem bitwise_or : Bitwise (· ||| ·) (· || ·) 0 false := ⟨Bool.or_comm, Bool.or_assoc, fun _ _ _ => BitVec.getLsbD_or, fun _ _ => BitVec.getLsbD_zero⟩
theorem bitwise_xor : Bitwise (· ^^^ ·) Bool.xor 0 false := ⟨Bool.xor_comm, Bool.xor_assoc, fun _ _ _ => BitVec.getLsbD_xor, fun _ _ => BitVec.getLsbD_zero⟩

theorem vectorReductions : Spec.VectorReductions := by
  intro s a c x true_ r extreme bitwise
  have votes {i : Instr} {v : Word} (hx : exec i s = vecExec i s) (he : vecEffect i s = s.setData c.toNat v) : r i v := toScalar_of_setData hx fun _ => he
  have hle (val : W32 → Int) (u v : W32) (h : val u ≤ val v) : val u = val v ∨ val u < val v := h.eq_or_lt
  have hge (val : W32 → Int) (u v : W32) (h : -val u ≤ -val v) : val u = val v ∨ val u > val v := (neg_le_neg_iff.mp h).eq_or_lt.imp_left Eq.symm
  exact ⟨votes rfl (congrArg (fun n => s.setData c.toNat (BitVec.ofNat 64 n)) (foldl_add_eq_sum ..)), votes rfl rfl, votes rfl rfl,
    votes rfl (congrArg (fun n => s.setData c.toNat (BitVec.ofInt 64 n)) (foldl_add_eq_sum ..)),
    lastBy_toInt.exists_extreme (i := .vredMin a c) (op := .min) (val := (·.toInt)) rfl rfl rfl (vecOp_min_eq_better · · 0) rfl (hle (·.toInt)),
    lastBy_neg_toInt.exists_extreme (i := .vredMax a c) (op := .max) (val := (·.toInt)) rfl rfl rfl (vecOp_max_eq_better · · 0) rfl (hge (·.toInt)),
    lastBy_toNat.exists_extreme (i := .vredMinu a c) (op := .minu) (val := (·.toNat)) rfl rfl rfl (vecOp_minu_eq_better · · 0) rfl (hle (·.toNat)),
    lastBy_neg_toNat.exists_extreme (i := .vredMaxu a c) (op := .maxu) (val := (·.toNat)) rfl rfl rfl (vecOp_maxu_eq_better · · 0) rfl (hge (·.toNat)),
    bitwise_and.exists_combination (i := .vredAnd a c) (op := .and) rfl rfl rfl (fun _ _ => rfl) folds_and,
    bitwise_or.exists_combination (i := .vredOr a c) (op := .or) rfl rfl rfl (fun _ _ => rfl) folds_or,
    bitwise_xor.exists_combination (i := .vredXor a c) (op := .xor) rfl rfl rfl (fun _ _ => rfl) folds_xor⟩

/-! ### What an FP32 lane enters with (03 R75, R84) -/

section
variable {ftz : Bool} {x : Nat}

theorem fp32_decode_nan (h : 0x7F800000 < x % 2 ^ 31) : fmtFP32.decode x = .nan (decide (x % 2 ^ 23 < 2 ^ 22)) := by
  change 0x7F800000 < fmtFP32.mag x at h
  have hmod : fmtFP32.mag x % 2 ^ 23 = x % 2 ^ 23 := Nat.mod_mod_of_dvd x (by decide)
  have hinf : fmtFP32.infBits = 0x7F800000 := rfl
  rw [← hmod, Fmt.decode, if_pos (show fmtFP32.hasInf = true from rfl), if_neg (by omega), if_pos (by omega)]
  rfl
/-- A finite FP32 value is zero when its magnitude's code is. -/
theorem fp32_decode_finite (h : x % 2 ^ 31 < 0x7F800000) : ∃ n d, fmtFP32.decode x = .fin (x.testBit 31) n d ∧ (n = 0 ↔ x % 2 ^ 31 = 0) := by
  obtain ⟨n, d, hval, hd, hnum⟩ := fieldValue_eq fmtFP32 (x.testBit 31) (x % 2 ^ 31)
  refine ⟨n, d, (decode_of_finite (regular_of_mem (by decide)) (Nat.le_of_lt_succ h)).trans hval, ?_⟩
  have hcode : Spec.codeValue fmtFP32 (x % 2 ^ 31) = 0 ↔ x % 2 ^ 31 = 0 := by
    generalize x % 2 ^ 31 = c
    have htw : fmtFP32.tw = 23 := rfl
    unfold Spec.codeValue
    rw [htw]
    split
    case isTrue hlow =>
      rw [mul_eq_zero_iff_right (by positivity), Nat.cast_eq_zero]
      omega
    case isFalse hlow =>
      rw [mul_eq_zero_iff_right (by positivity), Nat.cast_eq_zero]
      omega
  rw [← hcode, ← hnum, div_eq_zero_iff, Nat.cast_eq_zero, or_iff_left (Nat.cast_ne_zero.mpr hd)]

theorem fp32_signBits (hx : x < 2 ^ 32) : fmtFP32.signBits (x.testBit 31) = x / 2 ^ 31 * 2 ^ 31 := by
  have hb : x.testBit 31 = decide (x / 2 ^ 31 = 1) := by
    rw [Nat.testBit_eq_decide_div_mod_eq]
    have : x / 2 ^ 31 < 2 := by omega
    rw [Nat.mod_eq_of_lt this]
  rw [hb, Fmt.signBits]
  by_cases h : x / 2 ^ 31 = 1
  · rw [h]
    rfl
  · rw [show x / 2 ^ 31 = 0 by omega]
    rfl

theorem seedFp_of_fin {n d : Nat} (h : fmtFP32.read ftz x = .fin (x.testBit 31) n d) (hx : x < 2 ^ 32) : seedFp ftz x = (if n = 0 then x / 2 ^ 31 * 2 ^ 31 else x, 0) := by
  rw [seedFp, h]
  simp [Val.isZero, Val.neg, fp32_signBits hx]

theorem seedFp_eq (hx : x < 2 ^ 32) : seedFp ftz x = Spec.seed ftz x := by
  unfold Spec.seed
  have hkept (h : ftz = false ∨ x % 2 ^ 31 = 0 ∨ 2 ^ 23 ≤ x % 2 ^ 31) : fmtFP32.read ftz x = fmtFP32.decode x := read_of_kept (h.imp_right .inr)
  rcases lt_trichotomy (x % 2 ^ 31) 0x7F800000 with h | h | h
  · rw [if_neg h.not_gt]
    obtain ⟨n, d, hdec, hn⟩ := fp32_decode_finite h
    by_cases hz : ftz = true ∧ 0 < x % 2 ^ 31 ∧ x % 2 ^ 31 < 2 ^ 23
    · obtain ⟨hftz, h0, hsub⟩ := hz
      rw [seedFp_of_fin (read_of_flushed (f := fmtFP32) hftz rfl h0 hsub) hx, if_pos rfl, if_pos ⟨hftz, by omega⟩]
    · rw [seedFp_of_fin ((hkept (by cases ftz <;> simp at hz ⊢; omega)).trans hdec) hx]
      by_cases h0 : x % 2 ^ 31 = 0
      · rw [if_pos (hn.mpr h0), show x / 2 ^ 31 * 2 ^ 31 = x by omega, ite_self]
      · rw [if_neg (mt hn.mp h0), if_neg]
        rintro ⟨hftz, he⟩
        exact hz ⟨hftz, by omega, by omega⟩
  · have hdec : fmtFP32.decode x = .inf (fmtFP32.sign x) := decode_of_inf rfl h
    rw [if_neg h.le.not_gt, if_neg (by omega), seedFp, hkept (by omega), hdec]
    rfl
  · rw [if_pos h, seedFp, hkept (by omega), fp32_decode_nan h]
    simp [fmtFP32]

end

/-! ### Floating-point reductions (06 R168) -/

theorem drew_modCur (s : State) (f : Wave → Wave) (mode n : Nat) : (s.modCur f).drew mode n = (s.drawAt (s.drew mode n).rnd).modCur f := by
  rw [drew_eq, drew_rnd, drew_rnd]
  rfl

theorem floatReduction_of_vecRed {s : State} {i : Instr} {a : BitVec 7} {c : BitVec 6} {mode ident : Nat} {word : Word} (f : Comb) (hx : exec i s = vecExec i s)
    (hc : (regs i).ctx = false) (he : vecEffect i s = vecRed (seedFp s.ftz) f mode word zext32 a c s) (hword : word = zext32 ident) (ha : Admitted i s) :
    let x (l : Nat) : Option Nat := if Spec.on s l then some (Spec.seed s.ftz (s.curWave.laneN a.toNat l)).1 else none
    let met := (Spec.lanesOn s).foldl (fun g l => g ||| (Spec.seed s.ftz (s.curWave.laneN a.toNat l)).2) 0
    let v := Spec.tree (fun k => f (fun j => s.rand (2 * k + j))) x 5 0
    ∃ t, exec i s = .next t ∧ ∃ g, t = (({ s with rnd := (s.drew mode 160).rnd }.modCur fun y => { y with fflags := g }).setData c.toNat
      (BitVec.ofNat 64 (v.1.getD ident % 2 ^ 32))).advance ∧ g = s.curWave.fflags ||| BitVec.ofNat 32 (v.2 ||| met) := by
  intro x met v
  have hseed (l : Nat) : seedFp s.ftz (s.curWave.laneN a.toNat l) = Spec.seed s.ftz (s.curWave.laneN a.toNat l) := seedFp_eq (s.curWave.lane a.toNat l).isLt
  have htree : redTree (seedFp s.ftz) f a s = v := by
    simp only [redTree, hseed]
    rfl
  have hmet : orAll (fun l => (seedFp s.ftz (s.curWave.laneN a.toNat l)).2) (Spec.lanesOn s) = met := by
    simp only [hseed, met, foldl_or, Nat.zero_or]
  have hval : v.1.elim word zext32 = BitVec.ofNat 64 (v.1.getD ident % 2 ^ 32) := by
    rw [hword]
    cases v.1 <;> rfl
  refine ⟨_, exec_of_vecExec hx ha, _, ?_, rfl⟩
  rw [he, vecRed_eq, htree, hmet, hval, raiseFlags_eq, drew_modCur]
  exact congrArg State.advance (setData_modCur_congr (s := s.drawAt (s.drew mode 160).rnd) (exists_curWave_of_admitted ha hc) rfl c.toNat _)

theorem vectorFloatReductions : Spec.VectorFloatReductions := by
  intro s a c x met r
  exact ⟨floatReduction_of_vecRed (i := .vredFadd a c) (fredAdd s) rfl rfl rfl rfl, floatReduction_of_vecRed (i := .vredFmin a c) (fredMm s false) rfl rfl rfl rfl,
    floatReduction_of_vecRed (i := .vredFmax a c) (fredMm s true) rfl rfl rfl rfl⟩

/-! ### Scans (06 R166) -/

/-- One lane of a scan: its running result, and the flags so far. -/
def scanStep (g : Nat → Nat × Nat) (f : Nat → Nat → Nat → Nat × Nat) (x : Nat → Nat) (p : Option Nat × Nat) (l : Nat) : Option Nat × Nat :=
  match p.1 with
  | none => (some (g (x l)).1, (g (x l)).2 ||| p.2)
  | some u => (some (f l u (x l)).1, (f l u (x l)).2 ||| p.2)
theorem scan_eq (g : Nat → Nat × Nat) (f : Nat → Nat → Nat → Nat × Nat) (x : Nat → Nat) (ls : List Nat) : Spec.scan g f x ls = ls.foldl (scanStep g f x) (none, 0) := rfl

section
variable {s : State} {a : Nat} {gm : Seed} {fm : Comb} {g : Nat → Nat × Nat} {f : Nat → Nat → Nat → Nat × Nat} {ok : Nat → Prop}

/-- The model's step of a scan is the rule's where a running result is one that a scan can have. -/
def ScanAgrees (s : State) (a : Nat) (gm : Seed) (fm : Comb) (g : Nat → Nat × Nat) (f : Nat → Nat → Nat → Nat × Nat) (ok : Nat → Prop) : Prop :=
  ∀ l, (gm (s.curWave.laneN a l) = g (s.curWave.laneN a l) ∧ ok (g (s.curWave.laneN a l)).1) ∧
    ∀ p, ok p → fm (fun i => s.rand (4 * l + i)) p (s.curWave.laneN a l) = f l p (s.curWave.laneN a l) ∧ ok (f l p (s.curWave.laneN a l)).1

/-- One lane of the model's scan. -/
theorem scanLanes_cons (hag : ScanAgrees s a gm fm g f ok) (k : Nat) (ls : List Nat) {acc : Option Nat} (hok : ∀ p ∈ acc, ok p) : ∃ v : Nat × Nat,
    (∀ p ∈ some v.1, ok p) ∧ (∀ fl, scanStep g f (s.curWave.laneN a) (acc, fl) k = (some v.1, v.2 ||| fl)) ∧
    scanLanes gm fm s s.curWave a (k :: ls) acc = ((k, v.1) :: (scanLanes gm fm s s.curWave a ls (some v.1)).1, v.2 ||| (scanLanes gm fm s s.curWave a ls (some v.1)).2) := by
  obtain ⟨⟨hg, hgok⟩, hf⟩ := hag k
  cases acc with
  | none =>
    refine ⟨g (s.curWave.laneN a k), fun p hp => ?_, fun _ => rfl, ?_⟩
    · obtain rfl := Option.mem_some.mp hp
      exact hgok
    · rw [← hg]
      rfl
  | some u =>
    obtain ⟨hfu, hfok⟩ := hf u (hok u rfl)
    refine ⟨f k u (s.curWave.laneN a k), fun p hp => ?_, fun _ => rfl, ?_⟩
    · obtain rfl := Option.mem_some.mp hp
      exact hfok
    · rw [← hfu]
      rfl

/-- The flags of the model's scan are the rule's. -/
theorem scanLanes_flags (hag : ScanAgrees s a gm fm g f ok) (ls : List Nat) : ∀ {acc : Option Nat} {fl : Nat}, (∀ p ∈ acc, ok p) →
    (ls.foldl (scanStep g f (s.curWave.laneN a)) (acc, fl)).2 = (scanLanes gm fm s s.curWave a ls acc).2 ||| fl := by
  induction ls with
  | nil => exact fun _ => (Nat.zero_or _).symm
  | cons k ls ih =>
    intro acc fl hok
    obtain ⟨v, hv, hstep, hscan⟩ := scanLanes_cons hag k ls hok
    rw [List.foldl_cons, hstep, ih hv, hscan]
    ac_rfl

/-- A lane's value in the model's scan is the rule's over the lanes up to it. -/
theorem scanLanes_get (hag : ScanAgrees s a gm fm g f ok) {ls : List Nat} (hls : ls.Pairwise (· < ·)) {l : Nat} (hl : l ∈ ls) : ∀ {acc : Option Nat} {fl : Nat}, (∀ p ∈ acc, ok p) →
    Tbl.get 0 (scanLanes gm fm s s.curWave a ls acc).1 l = ((ls.filter (· ≤ l)).foldl (scanStep g f (s.curWave.laneN a)) (acc, fl)).1.getD 0 := by
  induction ls with
  | nil => exact absurd hl List.not_mem_nil
  | cons k ls ih =>
    intro acc fl hok
    obtain ⟨v, hv, hstep, hscan⟩ := scanLanes_cons hag k ls hok
    obtain ⟨hk, hls⟩ := List.pairwise_cons.mp hls
    rw [hscan, Tbl.get]
    by_cases hkl : l = k
    · subst hkl
      have hrest : ls.filter (· ≤ l) = [] := List.filter_eq_nil_iff.mpr fun m hm => by simpa using hk m hm
      rw [if_pos rfl, List.filter_cons_of_pos (by simp), hrest, List.foldl_cons, hstep]
      rfl
    · have hmem : l ∈ ls := (List.mem_cons.mp hl).resolve_left hkl
      rw [if_neg hkl, List.filter_cons_of_pos (by simpa using (hk l hmem).le), List.foldl_cons, hstep]
      exact ih hls hmem hv

theorem pairwise_lanesOn (s : State) : (Spec.lanesOn s).Pairwise (· < ·) := List.Pairwise.filter _ List.pairwise_lt_range

theorem vec_of_vecScan {i : Instr} {d r : BitVec 7} {mode : Nat} (ok : Nat → Prop) (hx : exec i s = vecExec i s) (hc : (regs i).ctx = false)
    (he : vecEffect i s = vecScan gm fm mode d r s) (hag : ScanAgrees s r.toNat gm fm g f ok) (ha : Admitted i s) : ∃ t, exec i s = .next t ∧
      Spec.vec s t d.toNat (Spec.on s) (fun l => BitVec.ofNat 32 ((Spec.scan g f (s.curWave.laneN r.toNat) ((Spec.lanesOn s).filter (· ≤ l))).1.getD 0))
        (Spec.scan g f (s.curWave.laneN r.toNat) (Spec.lanesOn s)).2 (s.drew mode 128).rnd := by
  have hnone : ∀ p ∈ (none : Option Nat), ok p := fun _ h => nomatch h
  have hflags := scanLanes_flags hag (Spec.lanesOn s) (fl := 0) hnone
  refine ⟨_, exec_of_vecExec hx ha, ?_⟩
  rw [he]
  unfold vecScan
  extract_lets x u
  rw [raiseFlags_eq, modCur_modCur, drew_modCur, scan_eq, hflags, Nat.or_zero]
  refine vec_of_setLanes (exists_curWave_of_admitted ha hc) (fun _ => mem_lanes) fun l hl hon => ?_
  rw [scan_eq, ← scanLanes_get hag (pairwise_lanesOn s) (List.mem_filter.mpr ⟨List.mem_range.mpr hl, hon⟩) hnone]
  rfl

end

theorem vectorScans : Spec.VectorScans := by
  intro s d a x as_ r
  have hlane (l : Nat) : x l < 2 ^ 32 := (s.curWave.lane a.toNat l).isLt
  have hadd (p y : Nat) : combInt .add (fun _ => 0) p y = ((p + y) % 2 ^ 32, 0) := by
    rw [combInt, vecOp, ← BitVec.ofNat_add, BitVec.toNat_ofNat]
  have hmin {p y : Nat} (hp : p < 2 ^ 32) (hy : y < 2 ^ 32) : combInt .min (fun _ => 0) p y = (if (BitVec.ofNat 32 p).toInt ≤ (BitVec.ofNat 32 y).toInt then p else y, 0) := by
    rw [combInt, vecOp, apply_ite BitVec.toNat, BitVec.toNat_ofNat, BitVec.toNat_ofNat, Nat.mod_eq_of_lt hp, Nat.mod_eq_of_lt hy]
  have hmax {p y : Nat} (hp : p < 2 ^ 32) (hy : y < 2 ^ 32) : combInt .max (fun _ => 0) p y = (if (BitVec.ofNat 32 p).toInt ≤ (BitVec.ofNat 32 y).toInt then y else p, 0) := by
    rw [combInt, vecOp, apply_ite BitVec.toNat, BitVec.toNat_ofNat, BitVec.toNat_ofNat, Nat.mod_eq_of_lt hp, Nat.mod_eq_of_lt hy]
  have hite {P : Prop} [Decidable P] {p y : Nat} (hp : p < 2 ^ 32) (hy : y < 2 ^ 32) : (if P then p else y) < 2 ^ 32 := by
    split <;> assumption
  exact ⟨vec_of_vecScan (i := .vscanAdd d a) (fun _ => True) rfl rfl rfl fun l => ⟨⟨rfl, trivial⟩, fun p _ => ⟨hadd p (x l), trivial⟩⟩,
    vec_of_vecScan (i := .vscanMin d a) (· < 2 ^ 32) rfl rfl rfl fun l => ⟨⟨rfl, hlane l⟩, fun p hp => ⟨hmin hp (hlane l), hite hp (hlane l)⟩⟩,
    vec_of_vecScan (i := .vscanMax d a) (· < 2 ^ 32) rfl rfl rfl fun l => ⟨⟨rfl, hlane l⟩, fun p hp => ⟨hmax hp (hlane l), hite (hlane l) hp⟩⟩,
    vec_of_vecScan (i := .vscanFadd d a) (fun _ => True) rfl rfl rfl fun l => ⟨⟨seedFp_eq (hlane l), trivial⟩, fun _ _ => ⟨rfl, trivial⟩⟩⟩

/-! ### VREBAL (06 R176) -/

/-- The positions before row r. -/
def rowStart (n : Nat → Nat) (r : Nat) : Nat := ((List.range r).map n).sum

section
variable {n : Nat → Nat} {q : Nat}

theorem rowStart_succ (r : Nat) : rowStart n (r + 1) = rowStart n r + n r := by
  simp [rowStart, List.range_succ]
theorem rowStart_mono {r k : Nat} (h : r ≤ k) : rowStart n r ≤ rowStart n k := by
  induction k, h using Nat.le_induction with
  | base => exact le_rfl
  | succ k _ ih => exact ih.trans ((rowStart_succ k).symm ▸ Nat.le_add_right ..)

/-- From row r on: the row that holds the position, or none. -/
theorem rebalAt_rows (c : Nat) : ∀ r,
    (∀ k, r ≤ k → k < r + c → rowStart n k ≤ q → q < rowStart n (k + 1) → rebalAt q ((List.range' r c).map n) r (rowStart n r) = (k, q - rowStart n k)) ∧
    (rowStart n (r + c) ≤ q → rebalAt q ((List.range' r c).map n) r (rowStart n r) = (32, q - rowStart n (r + c))) := by
  induction c with
  | zero => exact fun r => ⟨fun k _ _ => by omega, fun _ => rfl⟩
  | succ c ih =>
    intro r
    obtain ⟨hin, hout⟩ := ih (r + 1)
    rw [rowStart_succ] at hin hout
    rw [Nat.add_right_comm] at hin hout
    rw [List.range'_succ, List.map_cons, rebalAt]
    refine ⟨fun k hr hk hle hlt => ?_, fun hle => ?_⟩
    · by_cases hkr : k = r
      · subst hkr
        rw [if_pos ⟨hle, rowStart_succ k ▸ hlt⟩]
      · have hnext : rowStart n r + n r ≤ rowStart n k := rowStart_succ (n := n) r ▸ rowStart_mono (by omega)
        rw [if_neg (by omega)]
        exact hin k (by omega) hk hle hlt
    · have hnext : rowStart n r + n r ≤ rowStart n (r + (c + 1)) := rowStart_succ (n := n) r ▸ rowStart_mono (by omega)
      rw [if_neg (by omega)]
      exact hout hle

end

/-- An instruction that changes vector registers and deferred marks alone. -/
theorem exists_next_of_modCur {s : State} {i : Instr} {f : Wave → Wave} (hx : exec i s = vecExec i s) (hc : (regs i).ctx = false) (he : vecEffect i s = s.modCur f)
    (hf : ∃ v p, f s.curWave = { s.curWave with v := v, poison := p }) (ha : Admitted i s) : ∃ t, exec i s = .next t ∧
      (∃ v q, t = s.modCur fun x => { x with v := v, poison := q, pc := x.pc.setAddr (x.pc.addr + 4) }) ∧ ∀ k l, t.curWave.lane k l = (f s.curWave).lane k l := by
  have hw : s.cur = .wave s.curW := exists_curWave_of_admitted ha hc
  have hadv : (s.modCur f).advance = s.modCur fun x => (f x).next := by
    rw [advance_of_wave (s := s.modCur f) hw, modCur_modCur]
  obtain ⟨v, p, hf⟩ := hf
  refine ⟨_, exec_of_vecExec hx ha, ⟨v, p, ?_⟩, fun k l => ?_⟩
  · rw [he, hadv]
    refine modCur_congr ?_
    rw [hf]
    rfl
  · rw [he, hadv, curWave_modCur]
    unfold Wave.lane Wave.next
    cases f s.curWave
    rfl

/-- The rows' lengths. -/
def Wave.rows (x : Wave) (a r : Nat) : Nat := if x.active r then x.laneN a r else 0
/-- The row and the offset of a position. -/
def Wave.place (x : Wave) (a q : Nat) : Nat × Nat := rebalAt q (lanes32.map (x.rows a)) 0 0
theorem place_row (x : Wave) (a : Nat) {q r : Nat} (hr : r < 32) (hle : rowStart (x.rows a) r ≤ q) (hlt : q < rowStart (x.rows a) (r + 1)) :
    x.place a q = (r, q - rowStart (x.rows a) r) := (rebalAt_rows 32 0).1 r r.zero_le (by omega) hle hlt
theorem place_past (x : Wave) (a : Nat) {q : Nat} (h : rowStart (x.rows a) 32 ≤ q) : x.place a q = (32, q - rowStart (x.rows a) 32) := (rebalAt_rows 32 0).2 h

/-- The wave after VREBAL. -/
def Wave.rebal (x : Wave) (d a start : Nat) : Wave :=
  (x.setLanes d x.lanes fun l => BitVec.ofNat 32 (x.place a (start + l)).1).setLanes (d + 1) x.lanes fun l => BitVec.ofNat 32 (x.place a (start + l)).2

section
variable (x : Wave) (d a start : Nat)

theorem rebal_eq : ∃ v p, x.rebal d a start = { x with v := v, poison := p } := by
  unfold Wave.rebal
  obtain ⟨v, p, hrow⟩ := setLanes_eq x d x.lanes fun l => BitVec.ofNat 32 (x.place a (start + l)).1
  rw [hrow]
  exact setLanes_eq { x with v := v, poison := p } ..
theorem lane_rebal {k l : Nat} (hl : l < 32) : (x.rebal d a start).lane k l =
    if k = d + 1 ∧ x.active l then BitVec.ofNat 32 (x.place a (start + l)).2 else if k = d ∧ x.active l then BitVec.ofNat 32 (x.place a (start + l)).1 else x.lane k l := by
  have hls : ∀ j ∈ x.lanes, j < 32 := fun j hj => (mem_lanes.mp hj).1
  rw [Wave.rebal, lane_setLanes _ _ hls hl, lane_setLanes _ _ hls hl]
  simp only [mem_lanes, hl, true_and]

end

/-! ### VPLANE (06 R177) -/

/-- The number of the binary digits `c`, the least first. -/
def ofDigits (c : Nat → Nat) (n : Nat) : Nat := (List.range n).foldl (fun t i => t + c i * 2 ^ i) 0
theorem ofDigits_bits {c : Nat → Nat} (hc : ∀ i, c i < 2) (n : Nat) : ofDigits c n < 2 ^ n ∧ ∀ i < n, (ofDigits c n).testBit i = decide (c i = 1) := by
  induction n with
  | zero => exact ⟨Nat.one_pos, fun i hi => absurd hi i.not_lt_zero⟩
  | succ n ih =>
    obtain ⟨hlt, hbit⟩ := ih
    have hstep : ofDigits c (n + 1) = 2 ^ n * c n + ofDigits c n := by
      rw [ofDigits, List.range_succ, List.foldl_append, Nat.mul_comm, Nat.add_comm]
      rfl
    rw [hstep]
    refine ⟨?_, fun i hi => ?_⟩
    · have := Nat.mul_le_mul_left (2 ^ n) (Nat.le_of_lt_succ (hc n))
      rw [pow_succ]
      omega
    · rw [Nat.testBit_two_pow_mul_add _ hlt]
      split
      case isTrue h => exact hbit i h
      case isFalse h =>
        obtain rfl : i = n := by omega
        rw [Nat.sub_self, Nat.testBit_zero]
        have := hc i
        congr 1
        exact propext ⟨fun _ => by omega, fun _ => by omega⟩

/-- An element of the pair of registers. -/
def Wave.elem (x : Wave) (a e : Nat) : Nat := if e < 32 then x.laneN a e else x.laneN (a + 1) (e - 32)
theorem elem_eq (x : Wave) (a : Nat) {e : Nat} (h : e < 64) : x.elem a e = x.laneN (a + e / 32) (e % 32) := by
  unfold Wave.elem
  split
  case isTrue h => rw [Nat.div_eq_of_lt h, Nat.mod_eq_of_lt h, Nat.add_zero]
  case isFalse h => rw [show e / 32 = 1 by omega, show e % 32 = e - 32 by omega]
/-- A plane word: one bit of 32 elements. -/
def Wave.planeWord (x : Wave) (a w l : Nat) : W32 :=
  if l < 2 * w then BitVec.ofNat 32 (ofDigits (fun i => x.elem a (l % 2 * 32 + i) / 2 ^ (l / 2) % 2) 32) else 0
theorem planeWord_bit (x : Wave) (a : Nat) {w l i : Nat} (hl : l < 2 * w) (hi : i < 32) :
    (x.planeWord a w l).getLsbD i = (x.laneN (a + (l % 2 * 32 + i) / 32) ((l % 2 * 32 + i) % 32)).testBit (l / 2) := by
  have hc (j : Nat) : x.elem a (l % 2 * 32 + j) / 2 ^ (l / 2) % 2 < 2 := Nat.mod_lt _ two_pos
  rw [Wave.planeWord, if_pos hl, BitVec.getLsbD_ofNat, (ofDigits_bits hc 32).2 i hi, decide_eq_true hi, Bool.true_and, elem_eq x a (by omega),
    Nat.testBit_eq_decide_div_mod_eq]

theorem vectorRebalanceAndPlane : Spec.VectorRebalanceAndPlane := by
  intro s d a c n p start w elem
  refine ⟨fun ha => ?_, fun ha => ?_⟩
  · obtain ⟨t, ht, hframe, hlane⟩ := exists_next_of_modCur (f := (·.rebal d.toNat a.toNat start)) rfl rfl rfl (rebal_eq ..) ha
    have hp : p = rowStart (s.curWave.rows a.toNat) := rfl
    refine ⟨t, ht, hframe, fun k l hl hout => ?_, fun l hl hon => ?_⟩
    · have hon : s.curWave.active l = Spec.on s l := rfl
      rw [hlane, lane_rebal _ _ _ _ hl, if_neg (by tauto), if_neg (by tauto)]
    · have hact : s.curWave.active l = true := hon
      have hrow : t.curWave.lane d.toNat l = BitVec.ofNat 32 (s.curWave.place a.toNat (start + l)).1 := by
        rw [hlane, lane_rebal _ _ _ _ hl, if_neg (by omega), if_pos ⟨rfl, hact⟩]
      have hoff : t.curWave.lane (d.toNat + 1) l = BitVec.ofNat 32 (s.curWave.place a.toNat (start + l)).2 := by
        rw [hlane, lane_rebal _ _ _ _ hl, if_pos ⟨rfl, hact⟩]
      rw [hp, hrow, hoff]
      refine ⟨fun r hr hle hlt => ?_, fun hle => ?_⟩
      · rw [place_row _ _ hr hle hlt]
        exact ⟨rfl, rfl⟩
      · rw [place_past _ _ hle]
        exact ⟨rfl, rfl⟩
  · obtain ⟨t, ht, hframe, hlane⟩ := exists_next_of_modCur (f := fun x => x.setLanes d.toNat lanes32 (x.planeWord a.toNat w)) rfl rfl rfl (setLanes_eq ..) ha
    have hset {k l : Nat} (hl : l < 32) : t.curWave.lane k l = if k = d.toNat then s.curWave.planeWord a.toNat w l else s.curWave.lane k l := by
      rw [hlane, lane_setLanes (ls := lanes32) _ _ (fun j hj => List.mem_range.mp hj) hl]
      simp only [lanes32, List.mem_range, hl, and_true]
    refine ⟨t, ht, hframe, fun k l hk hl => by rw [hset hl, if_neg hk], fun l hl => ?_⟩
    rw [hset hl, if_pos rfl]
    exact ⟨fun h => if_neg h.not_gt, fun h i hi => planeWord_bit _ _ h hi⟩

/-- Settles O8: a reduction by the levels of its tree, an integer one as a fold, a scan lane by lane. -/
theorem vectorReductionsAndScans : Obligations.VectorReductionsAndScans := ⟨vectorReductions, vectorFloatReductions, vectorScans, vectorRebalanceAndPlane⟩

end Sys2Proof.Machine
end

section
namespace Sys2Proof.Machine

/-! ## Transcendental functions (06 R163) -/

/-! ### Fixed-point arithmetic -/

/-- The unit of the last place. -/
noncomputable def fxUnit : ℝ := (2 ^ 512)⁻¹
/-- What a fixed-point number stands for. -/
noncomputable def fxReal (a : Nat) : ℝ := a * fxUnit

theorem fxUnit_pos : 0 < fxUnit := by
  unfold fxUnit
  positivity
theorem fxReal_nonneg (a : Nat) : 0 ≤ fxReal a := mul_nonneg a.cast_nonneg fxUnit_pos.le
theorem fxOne_mul_fxUnit : (fxOne : ℝ) * fxUnit = 1 := by
  have hone : (fxOne : ℝ) = 2 ^ 512 := by
    rw [fxOne, Nat.cast_pow]
    rfl
  rw [hone]
  exact mul_inv_cancel₀ (by positivity)
theorem fxReal_fxOne : fxReal fxOne = 1 := fxOne_mul_fxUnit
theorem fxOne_pos : 0 < fxOne := Nat.two_pow_pos _

/-- A quotient of naturals is at most one unit below the exact one. -/
theorem fxReal_div (a b : Nat) : (a : ℝ) / b * fxUnit - fxUnit < fxReal (a / b) ∧ fxReal (a / b) ≤ (a : ℝ) / b * fxUnit := by
  have hlt := Nat.lt_floor_add_one ((a : ℝ) / b)
  rw [Nat.floor_div_eq_div] at hlt
  have hle : ((a / b : Nat) : ℝ) ≤ (a : ℝ) / b := Nat.cast_div_le
  have := fxUnit_pos
  exact ⟨by unfold fxReal; nlinarith, by unfold fxReal; nlinarith⟩
theorem abs_fxReal_div_sub {a b : Nat} {x e : ℝ} (h : |(a : ℝ) / b * fxUnit - x| ≤ e) : |fxReal (a / b) - x| ≤ e + fxUnit := by
  obtain ⟨hlo, hhi⟩ := fxReal_div a b
  rw [abs_le] at h ⊢
  exact ⟨by linarith, by linarith [fxUnit_pos]⟩
/-- A number divided by a natural that is c at least. -/
theorem abs_fxReal_natDiv_sub {a b : Nat} {x e c : ℝ} (hc : 0 < c) (hb : c ≤ b) (h : |fxReal a - x| ≤ e) : |fxReal (a / b) - x / b| ≤ e / c + fxUnit := by
  refine abs_fxReal_div_sub ?_
  rw [div_mul_eq_mul_div, ← sub_div, abs_div, Nat.abs_cast]
  exact div_le_div₀ ((abs_nonneg _).trans h) h hc hb

theorem fxMul_real (a b : Nat) : ((a * b : Nat) : ℝ) / fxOne * fxUnit = fxReal a * fxReal b := by
  have hne : (fxOne : ℝ) ≠ 0 := Nat.cast_ne_zero.mpr fxOne_pos.ne'
  rw [div_mul_eq_mul_div, div_eq_iff hne, fxReal, fxReal, Nat.cast_mul]
  linear_combination ((a : ℝ) * b * fxUnit) * -fxOne_mul_fxUnit
theorem abs_mul_sub_le {a b x y e e' B : ℝ} (ha : |a - x| ≤ e) (hb : |b - y| ≤ e') (hB : |b| ≤ B) : |a * b - x * y| ≤ e * B + |x| * e' := by
  have hsplit : a * b - x * y = (a - x) * b + x * (b - y) := by ring
  rw [hsplit]
  refine (abs_add_le _ _).trans ?_
  rw [abs_mul, abs_mul]
  have := (abs_nonneg _).trans ha
  gcongr
theorem abs_fxMul_sub {a b : Nat} {x y e e' B : ℝ} (ha : |fxReal a - x| ≤ e) (hb : |fxReal b - y| ≤ e') (hB : fxReal b ≤ B) :
    |fxReal (fxMul a b) - x * y| ≤ e * B + |x| * e' + fxUnit :=
  abs_fxReal_div_sub (by
    rw [fxMul_real]
    exact abs_mul_sub_le ha hb (by rwa [abs_of_nonneg (fxReal_nonneg b)]))

/-- A sum of n terms, each of which follows its number k and the term before: with every term within `e`, its output
within `e'`, the sum is within `n` of these. -/
theorem abs_series_sub {ser : Nat → Nat → Nat → Int} {out : Nat → Nat → Int} {next : Nat → Nat → Nat} {x y : Nat → ℝ} {e e' : ℝ}
    (hzero : ∀ k p, ser 0 k p = 0) (hsucc : ∀ n k p, ser (n + 1) k p = out k p + ser n (k + 1) (next k p))
    (hout : ∀ k p, |fxReal p - x k| ≤ e → |(out k p : ℝ) * fxUnit - y k| ≤ e') (hnext : ∀ k p, |fxReal p - x k| ≤ e → |fxReal (next k p) - x (k + 1)| ≤ e) (n : Nat) :
    ∀ k p, |fxReal p - x k| ≤ e → |(ser n k p : ℝ) * fxUnit - ∑ j ∈ Finset.range n, y (k + j)| ≤ n * e' := by
  induction n with
  | zero => simp [hzero]
  | succ n ih =>
    intro k p hp
    have hrest := ih (k + 1) _ (hnext k p hp)
    have hsum : ∑ j ∈ Finset.range (n + 1), y (k + j) = y k + ∑ j ∈ Finset.range n, y (k + 1 + j) := by
      rw [Finset.sum_range_succ', add_comm, Nat.add_zero]
      simp only [Nat.add_right_comm k, Nat.add_assoc]
    rw [hsucc, hsum, Int.cast_add, add_mul, add_sub_add_comm, Nat.cast_succ, add_mul, one_mul, add_comm _ e']
    exact (abs_add_le _ _).trans (add_le_add (hout k p hp) hrest)

/-- What every function here may be off by before it is put together. -/
noncomputable def fxTol : ℝ := (2 ^ 450)⁻¹
theorem fxTol_pos : 0 < fxTol := by
  unfold fxTol
  positivity
theorem fxUnit_le_fxTol : 2 ^ 62 * fxUnit = fxTol := by
  unfold fxUnit fxTol
  rw [show (2 : ℝ) ^ 512 = 2 ^ 62 * 2 ^ 450 by rw [← pow_add], mul_inv, mul_inv_cancel_left₀ (by positivity)]
theorem fxTol_le : fxTol ≤ (2 ^ 40)⁻¹ := inv_anti₀ (by positivity) (pow_le_pow_right₀ one_le_two (by decide))
theorem inv_two_pow_pow {a n m : Nat} (h : a * n = 512 + m) : ((2 : ℝ) ^ a)⁻¹ ^ n = fxUnit * (2 ^ m)⁻¹ := by
  rw [inv_pow, ← pow_mul, h, pow_add, mul_inv]
  rfl

/-! ### Inverse tangents (hyperbolic and circular) -/

/-- The sign of a term. -/
def oddSign (alt : Bool) (k : Nat) : ℝ := if alt && decide (k % 2 = 1) then -1 else 1
/-- A term with its sign. -/
def oddPart (alt : Bool) (k p : Nat) : Int := if alt && decide (k % 2 = 1) then -p else p
theorem oddPart_mul_fxUnit (alt : Bool) (k p : Nat) : (oddPart alt k p : ℝ) * fxUnit = oddSign alt k * fxReal p := by
  unfold oddSign oddPart fxReal
  split <;> push_cast <;> ring
/-- A term of the series. -/
noncomputable def oddTerm (alt : Bool) (z : ℝ) (k : Nat) : ℝ := oddSign alt k * (z ^ (2 * k + 1) / (2 * k + 1 : Nat))

theorem abs_oddSign (alt : Bool) (k : Nat) : |oddSign alt k| = 1 := by
  unfold oddSign
  split <;> simp

section
variable {alt : Bool} {z : Nat} {x : ℝ} (hz : |fxReal z - x| ≤ 2 * fxUnit) (h0 : 0 ≤ x) (h3 : x ≤ 1 / 3)
include hz h0 h3

theorem abs_fxOddSeries_sub (n : Nat) : |(fxOddSeries alt (fxMul z z) n 0 z : ℝ) * fxUnit - ∑ j ∈ Finset.range n, oddTerm alt x j| ≤ n * (9 * fxUnit) := by
  have hu := fxUnit_pos
  have htol := fxUnit_le_fxTol
  have hsmall := fxTol_le
  obtain ⟨hlo, hhi⟩ := abs_le.mp hz
  have hsq : |fxReal (fxMul z z) - x * x| ≤ 3 * fxUnit := by
    refine (abs_fxMul_sub (B := 2 / 5) hz hz (by linarith)).trans ?_
    rw [abs_of_nonneg h0]
    nlinarith
  have hsq4 : fxReal (fxMul z z) ≤ 1 / 4 := by
    have := (abs_le.mp hsq).2
    nlinarith
  have hpow (k : Nat) : 0 ≤ x ^ (2 * k + 1) ∧ x ^ (2 * k + 1) ≤ 1 / 3 := ⟨by positivity, (pow_le_of_le_one h0 (by linarith) (by omega)).trans h3⟩
  have h := abs_series_sub (ser := fxOddSeries alt (fxMul z z)) (x := fun k => x ^ (2 * k + 1)) (y := oddTerm alt x) (e := 8 * fxUnit) (e' := 9 * fxUnit)
    (out := fun k p => oddPart alt k (p / (2 * k + 1))) (next := fun _ p => fxMul p (fxMul z z))
    (fun _ _ => rfl) (fun _ _ _ => rfl) (fun k p hp => ?_) (fun k p hp => ?_) n 0 z ?_
  · simpa using h
  · have hterm := abs_fxReal_natDiv_sub one_pos (Nat.one_le_cast.mpr (2 * k).succ_pos) hp
    rw [oddPart_mul_fxUnit, oddTerm, ← mul_sub, abs_mul, abs_oddSign, one_mul]
    linarith
  · obtain ⟨hp0, hp3⟩ := hpow k
    have hnext : x ^ (2 * (k + 1) + 1) = x ^ (2 * k + 1) * (x * x) := by ring
    rw [hnext]
    refine (abs_fxMul_sub hp hsq hsq4).trans ?_
    rw [abs_of_nonneg hp0]
    nlinarith
  · simpa using hz.trans (by linarith)

/-- 180 terms are as good as all. -/
theorem abs_fxOddSeries_sub_of_hasSum {s : ℝ} (hs : HasSum (oddTerm alt x) s) : |(fxOddSeries alt (fxMul z z) 180 0 z : ℝ) * fxUnit - s| ≤ fxTol := by
  have hgeo (k : Nat) : ‖oddTerm alt x k‖ ≤ 1 / 3 * (2 ^ 3)⁻¹ ^ k := by
    have hx : x ^ (2 * k + 1) ≤ (1 / 3) ^ (2 * k + 1) := pow_le_pow_left₀ h0 h3 _
    have hr : (1 / 3 : ℝ) ^ (2 * k + 1) ≤ 1 / 3 * (2 ^ 3)⁻¹ ^ k := by
      rw [pow_succ', pow_mul]
      gcongr
      norm_num
    rw [Real.norm_eq_abs, oddTerm, abs_mul, abs_oddSign, one_mul, abs_of_nonneg (by positivity)]
    exact (div_le_self (by positivity) (by push_cast; linarith [k.cast_nonneg (α := ℝ)])).trans (hx.trans hr)
  have htail := norm_sub_le_of_geometric_bound_of_hasSum (by norm_num) hgeo hs 180
  have hnum : (1 / 3 * (2 ^ 3)⁻¹ ^ 180 / (1 - (2 ^ 3)⁻¹) : ℝ) ≤ fxUnit := by
    rw [inv_two_pow_pow (m := 28) (by decide), div_le_iff₀ (by norm_num)]
    linarith [fxUnit_pos]
  have hser := abs_fxOddSeries_sub (alt := alt) hz h0 h3 180
  have hu := fxUnit_pos
  have htol := fxUnit_le_fxTol
  refine (abs_sub_le _ _ _).trans ((add_le_add hser (htail.trans hnum)).trans ?_)
  push_cast
  linarith

end

theorem abs_fxReal_toNat_sub {t : Int} {s e : ℝ} (hs : 0 ≤ s) (h : |(t : ℝ) * fxUnit - s| ≤ e) : |fxReal t.toNat - s| ≤ e := by
  refine le_trans ?_ h
  rcases le_total 0 t with ht | ht
  · have hcast : ((t.toNat : ℤ) : ℝ) = t := congrArg _ (Int.toNat_of_nonneg ht)
    rw [fxReal, ← hcast, Int.cast_natCast]
  · have hneg : (t : ℝ) * fxUnit ≤ 0 := mul_nonpos_of_nonpos_of_nonneg (Int.cast_nonpos.mpr ht) fxUnit_pos.le
    rw [fxReal, Int.toNat_of_nonpos ht, Nat.cast_zero, zero_mul, abs_of_nonpos (by linarith), abs_of_nonpos (by linarith)]
    linarith

section
variable {z : Nat} {x : ℝ}

theorem hasSum_oddTerm_log (h : |x| < 1) : HasSum (oddTerm false x) ((Real.log (1 + x) - Real.log (1 - x)) / 2) := by
  have heq : oddTerm false x = fun k : Nat => 2 * (1 / (2 * (k : ℝ) + 1)) * x ^ (2 * k + 1) / 2 := by
    funext k
    simp only [oddTerm, oddSign, Bool.false_and, Bool.false_eq_true, if_false, Nat.cast_add, Nat.cast_mul, Nat.cast_ofNat, Nat.cast_one]
    ring
  rw [heq]
  exact (Real.hasSum_log_sub_log_of_abs_lt_one h).div_const 2
theorem oddSign_true (k : Nat) : oddSign true k = (-1) ^ k := by
  rw [oddSign, Bool.true_and]
  rcases Nat.even_or_odd k with h | h
  · rw [h.neg_one_pow, Nat.even_iff.mp h]
    rfl
  · rw [h.neg_one_pow, Nat.odd_iff.mp h]
    rfl
theorem hasSum_oddTerm_arctan (h : |x| < 1) : HasSum (oddTerm true x) (Real.arctan x) := by
  have heq : oddTerm true x = fun k : Nat => (-1) ^ k * x ^ (2 * k + 1) / ((2 * k + 1 : Nat) : ℝ) := funext fun k => by rw [oddTerm, oddSign_true, mul_div_assoc]
  rw [heq]
  exact Real.hasSum_arctan h

theorem abs_fxAtanh_sub (hz : |fxReal z - x| ≤ 2 * fxUnit) (h0 : 0 ≤ x) (h3 : x ≤ 1 / 3) : |fxReal (fxAtanh z) - (Real.log (1 + x) - Real.log (1 - x)) / 2| ≤ fxTol := by
  have hx : |x| < 1 := by
    rw [abs_of_nonneg h0]
    linarith
  have hlog : Real.log (1 - x) ≤ Real.log (1 + x) := Real.log_le_log (by linarith) (by linarith)
  exact abs_fxReal_toNat_sub (by linarith) (abs_fxOddSeries_sub_of_hasSum hz h0 h3 (hasSum_oddTerm_log hx))
theorem abs_fxAtan_sub (hz : |fxReal z - x| ≤ 2 * fxUnit) (h0 : 0 ≤ x) (h3 : x ≤ 1 / 3) : |fxReal (fxAtan z) - Real.arctan x| ≤ fxTol := by
  have hx : |x| < 1 := by
    rw [abs_of_nonneg h0]
    linarith
  exact abs_fxReal_toNat_sub (Real.arctan_nonneg.mpr h0) (abs_fxOddSeries_sub_of_hasSum hz h0 h3 (hasSum_oddTerm_arctan hx))

end

/-- The reciprocal of a natural. -/
theorem abs_fxReal_inv_sub (b : Nat) : |fxReal (fxOne / b) - (b : ℝ)⁻¹| ≤ 2 * fxUnit := by
  have h : |(fxOne : ℝ) / b * fxUnit - (b : ℝ)⁻¹| ≤ 0 := by
    rw [div_mul_eq_mul_div, fxOne_mul_fxUnit, one_div, sub_self, abs_zero]
  exact (abs_fxReal_div_sub h).trans (by linarith [fxUnit_pos])

theorem abs_fxLn2_sub : |fxReal fxLn2 - Real.log 2| ≤ 2 * fxTol := by
  have h := abs_fxAtanh_sub (abs_fxReal_inv_sub 3) (by norm_num) (by norm_num)
  have hlog : Real.log (1 + ((3 : Nat) : ℝ)⁻¹) - Real.log (1 - ((3 : Nat) : ℝ)⁻¹) = Real.log 2 := by
    rw [← Real.log_div (by norm_num) (by norm_num)]
    norm_num
  have hcast : fxReal fxLn2 = 2 * fxReal (fxAtanh (fxOne / 3)) := by
    rw [fxLn2, fxReal, fxReal, Nat.cast_mul, Nat.cast_ofNat, mul_assoc]
  rw [hlog, abs_le] at h
  rw [hcast, abs_le]
  constructor <;> linarith

theorem abs_fxPi_sub : |fxReal fxPi - Real.pi| ≤ 20 * fxTol := by
  have h5 := abs_fxAtan_sub (abs_fxReal_inv_sub 5) (by norm_num) (by norm_num)
  have h239 := abs_fxAtan_sub (abs_fxReal_inv_sub 239) (by norm_num) (by norm_num)
  have hmachin := Real.four_mul_arctan_inv_5_sub_arctan_inv_239
  have hcast : ((16 * fxAtan (fxOne / 5) : Nat) - (4 * fxAtan (fxOne / 239) : Nat) : ℝ) * fxUnit = 16 * fxReal (fxAtan (fxOne / 5)) - 4 * fxReal (fxAtan (fxOne / 239)) := by
    unfold fxReal
    push_cast
    ring
  push_cast at h5 h239
  rw [abs_le] at h5 h239
  have hle : 4 * fxAtan (fxOne / 239) ≤ 16 * fxAtan (fxOne / 5) := by
    have hpi := Real.pi_gt_three
    have htol := fxTol_le
    have hpos : 0 < ((16 * fxAtan (fxOne / 5) : Nat) - (4 * fxAtan (fxOne / 239) : Nat) : ℝ) * fxUnit := by
      rw [hcast]
      linarith
    exact Nat.cast_le.mp (sub_pos.mp (pos_of_mul_pos_left hpos fxUnit_pos.le)).le
  rw [fxPi, fxReal, Nat.cast_sub hle, hcast, abs_le]
  constructor <;> linarith

/-! ### Powers and sines -/

/-- A term of either series. -/
noncomputable def facTerm (x : ℝ) (k : Nat) : ℝ := x ^ k / k.factorial

section
variable {x : ℝ}

theorem facTerm_succ (k : Nat) : facTerm x (k + 1) = facTerm x k * x / (k + 1 : Nat) := by
  rw [facTerm, facTerm, Nat.factorial_succ, pow_succ, Nat.cast_mul, div_mul_eq_mul_div, div_div, mul_comm (k.factorial : ℝ)]
theorem facTerm_succ_succ (k : Nat) : facTerm x (k + 2) = facTerm x k * (x * x) / ((k + 1) * (k + 2) : Nat) := by
  rw [facTerm_succ, facTerm_succ, div_mul_eq_mul_div, div_div, mul_assoc, ← Nat.cast_mul]
theorem facTerm_nonneg (h0 : 0 ≤ x) (k : Nat) : 0 ≤ facTerm x k := by
  unfold facTerm
  positivity
/-- The terms vanish faster than a power. -/
theorem facTerm_le (h0 : 0 ≤ x) (h2 : x ≤ 2) (k : Nat) : facTerm x k ≤ 2 ^ 52 * (2 ^ 4)⁻¹ ^ k := by
  have hpow := Real.pow_div_factorial_le_exp (16 * x) (by linarith) k
  have hexp : Real.exp (16 * x) ≤ 2 ^ 52 := by
    have h32 : Real.exp (16 * x) ≤ Real.exp (32 * 1) := Real.exp_le_exp.mpr (by linarith)
    have h3 : Real.exp (32 * 1) ≤ 3 ^ 32 := by
      rw [show (32 : ℝ) = (32 : Nat) from rfl, Real.exp_nat_mul]
      exact pow_le_pow_left₀ (Real.exp_pos _).le Real.exp_one_lt_three.le _
    exact (h32.trans h3).trans (by norm_num)
  have hsplit : facTerm x k = (16 * x) ^ k / k.factorial * (2 ^ 4)⁻¹ ^ k := by
    rw [facTerm, mul_pow, inv_pow]
    norm_num
    field_simp
  rw [hsplit]
  gcongr
  exact hpow.trans hexp

end

section
variable {x : ℝ} (h0 : 0 ≤ x) (h2 : x ≤ 2)
include h0 h2

/-- 130 terms of a power are as good as all. -/
theorem abs_sum_facTerm_sub_exp : |∑ j ∈ Finset.range 130, facTerm x j - Real.exp x| ≤ fxTol := by
  have hgeo (k : Nat) : ‖facTerm x k‖ ≤ 2 ^ 52 * (2 ^ 4)⁻¹ ^ k := by
    rw [Real.norm_eq_abs, abs_of_nonneg (facTerm_nonneg h0 k)]
    exact facTerm_le h0 h2 k
  have hsum : HasSum (facTerm x) (Real.exp x) := by
    rw [Real.exp_eq_exp_ℝ]
    exact NormedSpace.expSeries_div_hasSum_exp x
  have htail := norm_sub_le_of_geometric_bound_of_hasSum (by norm_num) hgeo hsum 130
  refine htail.trans ?_
  rw [inv_two_pow_pow (m := 8) (by decide), div_le_iff₀ (by norm_num)]
  linarith [fxUnit_pos, fxUnit_le_fxTol]

/-- 80 terms of a sine are as good as all. -/
theorem abs_sum_facTerm_sub_sin : |∑ j ∈ Finset.range 80, oddSign true j * facTerm x (2 * j + 1) - Real.sin x| ≤ fxTol := by
  have hgeo (k : Nat) : ‖oddSign true k * facTerm x (2 * k + 1)‖ ≤ 2 ^ 52 * (2 ^ 8)⁻¹ ^ k := by
    rw [Real.norm_eq_abs, abs_mul, abs_oddSign, one_mul, abs_of_nonneg (facTerm_nonneg h0 _)]
    refine (facTerm_le h0 h2 _).trans ?_
    have hpow : ((2 : ℝ) ^ 4)⁻¹ ^ (2 * k + 1) ≤ (2 ^ 8)⁻¹ ^ k := by
      rw [show ((2 : ℝ) ^ 8)⁻¹ = (2 ^ 4)⁻¹ ^ 2 by norm_num, ← pow_mul]
      exact pow_le_pow_of_le_one (by norm_num) (by norm_num) (2 * k).le_succ
    gcongr
  have hsum : HasSum (fun k => oddSign true k * facTerm x (2 * k + 1)) (Real.sin x) := by
    simp only [oddSign_true, facTerm, ← mul_div_assoc]
    exact Real.hasSum_sin x
  have htail := norm_sub_le_of_geometric_bound_of_hasSum (by norm_num) hgeo hsum 80
  refine htail.trans ?_
  rw [inv_two_pow_pow (m := 128) (by decide), div_le_iff₀ (by norm_num)]
  linarith [fxUnit_pos, fxUnit_le_fxTol]

end

section
variable {y : Nat} {x : ℝ}

theorem abs_fxExpSeries_sub (hy : |fxReal y - x| ≤ 4 * fxTol) (h0 : 0 ≤ x) (h7 : x ≤ 7 / 10) : |fxReal (fxExpSeries y 130 0 fxOne) - Real.exp x| ≤ 2601 * fxTol := by
  have hu := fxUnit_pos
  have htol := fxUnit_le_fxTol
  have hsmall := fxTol_le
  have hpos := fxTol_pos
  have hy7 : fxReal y ≤ 3 / 4 := by
    have := (abs_le.mp hy).2
    linarith
  have hle (k : Nat) : facTerm x k ≤ 1 := by
    refine div_le_one_of_le₀ ((pow_le_one₀ h0 (by linarith)).trans ?_) (Nat.cast_nonneg _)
    exact Nat.one_le_cast.mpr k.factorial_pos
  have hser := abs_series_sub (ser := fun n k p => (fxExpSeries y n k p : Int)) (x := facTerm x) (y := facTerm x) (e := 20 * fxTol) (e' := 20 * fxTol)
    (out := fun _ p => p) (next := fun k p => fxMul p y / (k + 1)) (fun _ _ => rfl) (fun _ _ _ => rfl) (fun k p hp => hp) (fun k p hp => ?_) 130 0 fxOne ?_
  · simp only [Nat.zero_add] at hser
    refine (abs_sub_le _ _ _).trans ((add_le_add hser (abs_sum_facTerm_sub_exp h0 (by linarith))).trans ?_)
    push_cast
    linarith
  · have hstep := abs_fxReal_natDiv_sub one_pos (Nat.one_le_cast.mpr k.succ_pos) (abs_fxMul_sub hp hy hy7)
    have hbound : 20 * fxTol * (3 / 4) + |facTerm x k| * (4 * fxTol) + fxUnit ≤ 19 * fxTol + fxUnit := by
      rw [abs_of_nonneg (facTerm_nonneg h0 k)]
      nlinarith [hle k]
    rw [facTerm_succ]
    linarith
  · rw [fxReal_fxOne]
    simpa [facTerm] using hpos.le

section
variable (hy : |fxReal y - x| ≤ 12 * fxTol) (h0 : 0 ≤ x) (h2 : x ≤ 8 / 5)

theorem six_le_divisor (k : Nat) : (6 : ℝ) ≤ ((2 * k + 2) * (2 * k + 3) : Nat) := by
  push_cast
  nlinarith [k.cast_nonneg (α := ℝ)]

include h0 h2 in
theorem facTerm_odd_le (k : Nat) : facTerm x (2 * k + 1) ≤ 8 / 5 := by
  induction k with
  | zero => simpa [facTerm] using h2
  | succ k ih =>
    have hk : (6 : ℝ) ≤ ((2 * k + 1 + 1) * (2 * k + 1 + 2) : Nat) := six_le_divisor k
    have hk0 := facTerm_nonneg h0 (2 * k + 1)
    have hsq : x * x ≤ 6 := by nlinarith
    rw [show 2 * (k + 1) + 1 = 2 * k + 1 + 2 by ring, facTerm_succ_succ, div_le_iff₀ (by linarith)]
    exact mul_le_mul ih (hsq.trans hk) (mul_self_nonneg x) (by norm_num)

include hy h0 h2

theorem abs_fxSquare_sub : |fxReal (fxMul y y) - x * x| ≤ 40 * fxTol ∧ fxReal (fxMul y y) ≤ 13 / 5 := by
  have hu := fxUnit_pos
  have htol := fxUnit_le_fxTol
  have hsmall := fxTol_le
  have hpos := fxTol_pos
  have hsq : |fxReal (fxMul y y) - x * x| ≤ 40 * fxTol := by
    have := (abs_le.mp hy).2
    refine (abs_fxMul_sub (B := 161 / 100) hy hy (by linarith)).trans ?_
    rw [abs_of_nonneg h0]
    nlinarith
  refine ⟨hsq, ?_⟩
  have := (abs_le.mp hsq).2
  nlinarith

theorem abs_fxSinSeries_sub : |(fxSinSeries (fxMul y y) 80 0 y : ℝ) * fxUnit - Real.sin x| ≤ 2401 * fxTol := by
  have hu := fxUnit_pos
  have htol := fxUnit_le_fxTol
  have hpos := fxTol_pos
  obtain ⟨hsq, hsq3⟩ := abs_fxSquare_sub hy h0 h2
  have hser := abs_series_sub (ser := fxSinSeries (fxMul y y)) (x := fun k => facTerm x (2 * k + 1)) (y := fun k => oddSign true k * facTerm x (2 * k + 1)) (e := 30 * fxTol)
    (e' := 30 * fxTol) (out := oddPart true) (next := fun k p => fxMul p (fxMul y y) / ((2 * k + 2) * (2 * k + 3))) (fun _ _ => rfl) (fun n k p => ?_) (fun k p hp => ?_)
    (fun k p hp => ?_) 80 0 y ?_
  · simp only [Nat.zero_add] at hser
    refine (abs_sub_le _ _ _).trans ((add_le_add hser (abs_sum_facTerm_sub_sin h0 (by linarith))).trans ?_)
    push_cast
    linarith
  · simp [fxSinSeries, oddPart]
  · rw [oddPart_mul_fxUnit, ← mul_sub, abs_mul, abs_oddSign, one_mul]
    exact hp
  · have hstep := abs_fxReal_natDiv_sub (by norm_num) (six_le_divisor k) (abs_fxMul_sub hp hsq hsq3)
    have hbound : 30 * fxTol * (13 / 5) + |facTerm x (2 * k + 1)| * (40 * fxTol) + fxUnit ≤ 142 * fxTol + fxUnit := by
      rw [abs_of_nonneg (facTerm_nonneg h0 _)]
      nlinarith [facTerm_odd_le h0 h2 k]
    rw [show 2 * (k + 1) + 1 = 2 * k + 1 + 2 by ring, facTerm_succ_succ]
    exact hstep.trans (by linarith)
  · simpa [facTerm] using hy.trans (by linarith)

end

end

/-! ### Values -/

/-- What a value may be off by. -/
theorem fxTol_budget : 2 ^ 50 * fxTol = (2 : ℝ) ^ (-400 : ℤ) := by
  rw [fxTol, ← zpow_natCast, ← zpow_natCast, ← zpow_neg, ← zpow_add₀ two_ne_zero]
  rfl

/-- A sign as a factor. -/
def signOf (neg : Bool) : ℝ := if neg then -1 else 1
theorem abs_signOf (neg : Bool) : |signOf neg| = 1 := by
  cases neg <;> simp [signOf]

theorem finite_scaled (neg : Bool) (m : Nat) (e : ℤ) : (Val.scaled neg m e).finite = true := by
  obtain ⟨n, d, h, -, -⟩ := scaled_eq neg m e
  rw [h]
  rfl
theorem number_scaled (neg : Bool) (m : Nat) (e : ℤ) : Spec.number (.scaled neg m e) = (if neg then -1 else 1) * (m * 2 ^ e) := by
  obtain ⟨n, d, h, -, hval⟩ := scaled_eq neg m e
  rw [h, number_fin, ← hval]
  cases neg
  · simp
  · simp [neg_div]
theorem number_fxVal (neg : Bool) (a : Nat) (e : ℤ) : ((Spec.number (fxVal neg a e) : ℚ) : ℝ) = signOf neg * ((fxReal a + fxUnit / 2) * 2 ^ e) := by
  have hexp : (2 : ℝ) ^ (e - (fxBits : ℤ) - 1) = 2 ^ e * fxUnit / 2 := by
    rw [zpow_sub_one₀ two_ne_zero, zpow_sub₀ two_ne_zero, zpow_natCast, fxUnit]
    rfl
  rw [fxVal, number_scaled, signOf, fxReal]
  cases neg <;> push_cast [hexp] <;> simp <;> ring
theorem finite_fxVal (neg : Bool) (a : Nat) (e : ℤ) : (fxVal neg a e).finite = true := finite_scaled ..

theorem number_ofInt (i : ℤ) : Spec.number (.ofInt i) = i := (number_of_int i 1).trans (by simp)

/-! ### Powers of two (06 R163) -/

section
variable {neg ftz : Bool} {n d : Nat}

/-- The signed numerator. -/
def signedNum (neg : Bool) (n : Nat) : ℤ := if neg then -(n : ℤ) else n
theorem number_eq : Spec.number (.fin neg n d) = (signedNum neg n : ℚ) / d := by
  rw [number_fin, signedNum]
  cases neg <;> simp
theorem floor_number : ⌊Spec.number (.fin neg n d)⌋ = signedNum neg n / (d : ℤ) := by
  rw [number_eq]
  exact Rat.floor_intCast_div_natCast ..

/-- The fraction's numerator. -/
def fracNum (neg : Bool) (n d : Nat) : Nat := (signedNum neg n % (d : ℤ)).toNat
variable (hd : d ≠ 0)
include hd
theorem fracNum_eq : ((fracNum neg n d : ℕ) : ℤ) = signedNum neg n % d := Int.toNat_of_nonneg (Int.emod_nonneg _ (Int.natCast_ne_zero.mpr hd))
theorem fracNum_lt : fracNum neg n d < d := by
  have h := Int.emod_lt_of_pos (signedNum neg n) (show (0 : ℤ) < d by omega)
  rw [← fracNum_eq hd] at h
  exact Int.ofNat_lt.mp h
theorem number_eq_floor_add : Spec.number (.fin neg n d) = ⌊Spec.number (.fin neg n d)⌋ + (fracNum neg n d : ℚ) / d := by
  have h := Int.mul_ediv_add_emod (signedNum neg n) d
  rw [← fracNum_eq hd, ← floor_number] at h
  have hq : (signedNum neg n : ℚ) = d * ⌊Spec.number (.fin neg n d)⌋ + fracNum neg n d := by exact_mod_cast h.symm
  calc Spec.number (.fin neg n d) = (signedNum neg n : ℚ) / d := number_eq
    _ = _ := by
      rw [hq, add_div, mul_div_cancel_left₀ _ (Nat.cast_ne_zero.mpr hd)]

omit hd in
theorem valExp2_of_le (h : 200 ≤ Spec.number (.fin neg n d)) : valExp2 (.fin neg n d) = (.scaled false 1 200, 0) := by
  have hi : (200 : ℤ) ≤ signedNum neg n / (d : ℤ) := floor_number ▸ Int.le_floor.mpr h
  exact if_pos hi
omit hd in
theorem valExp2_of_lt (h : Spec.number (.fin neg n d) < -200) : valExp2 (.fin neg n d) = (.scaled false 1 (-200), 0) := by
  have hi : signedNum neg n / (d : ℤ) < (-200 : ℤ) := floor_number ▸ Int.floor_lt.mpr (by exact_mod_cast h)
  have hle : ¬(200 : ℤ) ≤ signedNum neg n / (d : ℤ) := by omega
  exact (if_neg hle).trans (if_pos hi)
omit hd in
theorem valExp2_of_mem (hlo : -200 ≤ Spec.number (.fin neg n d)) (hhi : Spec.number (.fin neg n d) < 200) : valExp2 (.fin neg n d) =
    if fracNum neg n d = 0 then (.scaled false 1 ⌊Spec.number (.fin neg n d)⌋, 0)
    else (fxVal false (fxExpSeries (fxMul (fracNum neg n d * fxOne / d) fxLn2) 130 0 fxOne) ⌊Spec.number (.fin neg n d)⌋, 0) := by
  have h1 : signedNum neg n / (d : ℤ) < (200 : ℤ) := floor_number ▸ Int.floor_lt.mpr (by exact_mod_cast hhi)
  have h2 : (-200 : ℤ) ≤ signedNum neg n / (d : ℤ) := floor_number ▸ Int.le_floor.mpr (by exact_mod_cast hlo)
  rw [floor_number]
  exact (if_neg h1.not_ge).trans (if_neg h2.not_gt)

theorem fxExp2_near (f : Nat) (hf : f < d) :
    |fxReal (fxExpSeries (fxMul (f * fxOne / d) fxLn2) 130 0 fxOne) - 2 ^ ((f : ℝ) / d)| ≤ 2601 * fxTol := by
  have hu := fxUnit_pos
  have htol := fxUnit_le_fxTol
  have hsmall := fxTol_le
  have hln := abs_fxLn2_sub
  have hln2 := Real.log_two_lt_d9
  have hdr : (0 : ℝ) < d := Nat.cast_pos.mpr (Nat.pos_of_ne_zero hd)
  have h0 : 0 ≤ (f : ℝ) / d := by positivity
  have h1 : (f : ℝ) / d ≤ 1 := div_le_one_of_le₀ (Nat.cast_le.mpr hf.le) hdr.le
  have hfrac : |fxReal (f * fxOne / d) - (f : ℝ) / d| ≤ 0 + fxUnit := by
    refine abs_fxReal_div_sub (le_of_eq (abs_eq_zero.mpr ?_))
    rw [Nat.cast_mul]
    linear_combination ((f : ℝ) / d) * fxOne_mul_fxUnit
  have hB : fxReal fxLn2 ≤ 1 := by
    have := (abs_le.mp hln).2
    linarith
  have hmul := abs_fxMul_sub hfrac hln hB
  have hbound : (0 + fxUnit) * 1 + |(f : ℝ) / d| * (2 * fxTol) + fxUnit ≤ 4 * fxTol := by
    rw [abs_of_nonneg h0]
    nlinarith
  have hlog : 0 ≤ Real.log 2 := Real.log_nonneg one_le_two
  have hexp := abs_fxExpSeries_sub (hmul.trans hbound) (by positivity) (by nlinarith)
  rwa [mul_comm _ (Real.log 2), ← Real.rpow_def_of_pos two_pos] at hexp

theorem valExp2_near (hlo : -200 ≤ Spec.number (.fin neg n d)) (hhi : Spec.number (.fin neg n d) < 200) : (valExp2 (.fin neg n d)).1.finite = true ∧ (valExp2 (.fin neg n d)).2 = 0 ∧
    |((Spec.number (valExp2 (.fin neg n d)).1 : ℚ) : ℝ) - (2 : ℝ) ^ ((Spec.number (.fin neg n d) : ℚ) : ℝ)| ≤
      (2 : ℝ) ^ (-400 : ℤ) * (2 : ℝ) ^ ((Spec.number (.fin neg n d) : ℚ) : ℝ) := by
  have hpow : (2 : ℝ) ^ ((Spec.number (.fin neg n d) : ℚ) : ℝ) = 2 ^ ⌊Spec.number (.fin neg n d)⌋ * 2 ^ ((fracNum neg n d : ℝ) / d) := by
    have hsplit := congrArg (Rat.cast : ℚ → ℝ) (number_eq_floor_add (neg := neg) (n := n) hd)
    push_cast at hsplit
    rw [hsplit, Real.rpow_add two_pos, Real.rpow_intCast]
  have hnonneg : 0 ≤ (2 : ℝ) ^ (-400 : ℤ) * (2 : ℝ) ^ ((Spec.number (.fin neg n d) : ℚ) : ℝ) := by positivity
  rw [valExp2_of_mem hlo hhi]
  split
  case isTrue hf =>
    refine ⟨finite_scaled .., rfl, ?_⟩
    refine le_trans (le_of_eq (abs_eq_zero.mpr ?_)) hnonneg
    rw [hpow, hf, number_scaled]
    simp
  case isFalse hf =>
    refine ⟨finite_fxVal .., rfl, ?_⟩
    have hnear := fxExp2_near hd (fracNum neg n d) (fracNum_lt hd)
    have hone : 1 ≤ (2 : ℝ) ^ ((fracNum neg n d : ℝ) / d) := Real.one_le_rpow one_le_two (by positivity)
    have hu := fxUnit_pos
    have htol := fxUnit_le_fxTol
    have hbudget := fxTol_budget
    have hclose : |fxReal (fxExpSeries (fxMul (fracNum neg n d * fxOne / d) fxLn2) 130 0 fxOne) + fxUnit / 2 - 2 ^ ((fracNum neg n d : ℝ) / d)| ≤
        (2 : ℝ) ^ (-400 : ℤ) * 2 ^ ((fracNum neg n d : ℝ) / d) := by
      rw [abs_le] at hnear ⊢
      constructor <;> nlinarith
    rw [number_fxVal, hpow, signOf, if_neg Bool.false_ne_true, one_mul, mul_comm _ ((2 : ℝ) ^ ⌊_⌋), ← mul_sub, abs_mul, mul_left_comm, abs_of_pos (by positivity)]
    gcongr

theorem valExp2_exact {i : ℤ} (hlo : -200 ≤ i) (hhi : i < 200) (h : Spec.number (.fin neg n d) = i) : (valExp2 (.fin neg n d)).1.finite = true ∧ (valExp2 (.fin neg n d)).2 = 0 ∧
    Spec.number (valExp2 (.fin neg n d)).1 = 2 ^ i := by
  have hsplit := number_eq_floor_add (neg := neg) (n := n) hd
  rw [h, Int.floor_intCast, left_eq_add, div_eq_zero_iff, or_iff_left (Nat.cast_ne_zero.mpr hd), Nat.cast_eq_zero] at hsplit
  rw [valExp2_of_mem (by rw [h]; exact_mod_cast hlo) (by rw [h]; exact_mod_cast hhi), if_pos hsplit, h, Int.floor_intCast]
  refine ⟨finite_scaled .., rfl, ?_⟩
  rw [number_scaled]
  simp

end

theorem roundFmt_two_pow_200 (ftz : Bool) : roundFmt fmtFP32 0 false ftz (fun _ => 0) (.scaled false 1 200) = (0x7F800000, flOF + flNX) := by
  cases ftz <;> rfl
theorem roundFmt_two_pow_neg_200 (ftz : Bool) : roundFmt fmtFP32 0 false ftz (fun _ => 0) (.scaled false 1 (-200)) = (0, flUF + flNX) := by
  cases ftz <;> rfl

/-! ### Logarithms (06 R163) -/

/-- The significand of a fraction, in [1, 2). -/
def fxSignificand (n d : Nat) (e : ℤ) : Nat := if 0 ≤ e then n * fxOne / (d * 2 ^ e.toNat) else n * 2 ^ (-e).toNat * fxOne / d
/-- The logarithm of a significand. -/
def fxLog2 (m : Nat) : Nat := 2 * fxAtanh ((m - fxOne) * fxOne / (m + fxOne)) * fxOne / fxLn2

theorem fxSignificand_mem {n d : Nat} {e : ℤ} (hd : d ≠ 0) :
    (n : ℝ) / d / 2 ^ e - fxUnit < fxReal (fxSignificand n d e) ∧ fxReal (fxSignificand n d e) ≤ (n : ℝ) / d / 2 ^ e := by
  have hone := fxOne_mul_fxUnit
  have key {a b : Nat} (h : (a : ℝ) / b * fxUnit = (n : ℝ) / d / 2 ^ e) : (n : ℝ) / d / 2 ^ e - fxUnit < fxReal (a / b) ∧ fxReal (a / b) ≤ (n : ℝ) / d / 2 ^ e :=
    h ▸ fxReal_div a b
  have hdr : (d : ℝ) ≠ 0 := Nat.cast_ne_zero.mpr hd
  unfold fxSignificand
  split
  case isTrue he =>
    obtain ⟨k, rfl⟩ := Int.eq_ofNat_of_zero_le he
    refine key ?_
    push_cast
    rw [Int.toNat_natCast, zpow_natCast, div_mul_eq_mul_div, mul_assoc, hone, mul_one, div_div]
  case isFalse he =>
    obtain ⟨k, hk⟩ := Int.eq_ofNat_of_zero_le (show 0 ≤ -e by omega)
    obtain rfl : e = -k := by omega
    refine key ?_
    push_cast
    rw [neg_neg, Int.toNat_natCast, zpow_neg, zpow_natCast, div_mul_eq_mul_div, mul_assoc, hone, mul_one, div_inv_eq_mul, div_mul_eq_mul_div]

section
variable {m : Nat} {x : ℝ} (hm : |fxReal m - x| ≤ fxUnit) (h1 : 1 ≤ x) (h2 : x < 2)
include hm h1 h2

theorem abs_fxAtanh_significand_sub (hone : fxOne ≤ m) : |2 * fxReal (fxAtanh ((m - fxOne) * fxOne / (m + fxOne))) - Real.log x| ≤ 2 * fxTol := by
  have hu := fxUnit_pos
  have hm1 : 1 ≤ fxReal m := fxReal_fxOne ▸ mul_le_mul_of_nonneg_right (Nat.cast_le.mpr hone) hu.le
  have hquot : (((m - fxOne) * fxOne : Nat) : ℝ) / (m + fxOne : Nat) * fxUnit = (fxReal m - 1) / (fxReal m + 1) := by
    rw [← fxReal_fxOne, fxReal, fxReal, ← sub_mul, ← add_mul, mul_div_mul_right _ _ hu.ne', Nat.cast_mul, Nat.cast_sub hone, Nat.cast_add]
    linear_combination ((m - fxOne : ℝ) / (m + fxOne)) * fxOne_mul_fxUnit
  clear hone
  have hsplit : (fxReal m - 1) / (fxReal m + 1) - (x - 1) / (x + 1) = 2 / ((fxReal m + 1) * (x + 1)) * (fxReal m - x) := by
    field_simp
    ring
  have hfactor : 2 / ((fxReal m + 1) * (x + 1)) ≤ 1 := div_le_one_of_le₀ (by nlinarith) (by positivity)
  have hz : |(fxReal m - 1) / (fxReal m + 1) - (x - 1) / (x + 1)| ≤ fxUnit := by
    rw [hsplit, abs_mul, abs_of_nonneg (by positivity)]
    exact (mul_le_of_le_one_left (abs_nonneg _) hfactor).trans hm
  have hz2 : |fxReal ((m - fxOne) * fxOne / (m + fxOne)) - (x - 1) / (x + 1)| ≤ 2 * fxUnit :=
    (abs_fxReal_div_sub (hquot ▸ hz)).trans (by linarith)
  have hatanh := abs_fxAtanh_sub hz2 (div_nonneg (by linarith) (by linarith)) (by rw [div_le_div_iff₀ (by linarith) (by norm_num)]; linarith)
  have hlog : Real.log (1 + (x - 1) / (x + 1)) - Real.log (1 - (x - 1) / (x + 1)) = Real.log x := by
    have ha : 1 + (x - 1) / (x + 1) = 2 * x / (x + 1) := by
      field_simp
      ring
    have hb : 1 - (x - 1) / (x + 1) = 2 / (x + 1) := by
      field_simp
      ring
    rw [ha, hb, ← Real.log_div (by positivity) (by positivity)]
    congr 1
    field_simp
  rw [hlog, abs_le] at hatanh
  rw [abs_le]
  constructor <;> linarith

theorem abs_fxLog2_sub (hone : fxOne ≤ m) : |fxReal (fxLog2 m) - Real.logb 2 x| ≤ 16 * fxTol := by
  have hu := fxUnit_pos
  have htol := fxUnit_le_fxTol
  have hsmall := fxTol_le
  have hatanh := abs_fxAtanh_significand_sub hm h1 h2 hone
  unfold fxLog2
  generalize fxAtanh ((m - fxOne) * fxOne / (m + fxOne)) = z at hatanh ⊢
  clear hone
  have hln := abs_fxLn2_sub
  have hlo := Real.log_two_gt_d9
  have hx0 : 0 ≤ Real.log x := Real.log_nonneg h1
  have hx2 : Real.log x ≤ Real.log 2 := Real.log_le_log (by linarith) h2.le
  have hlnlo := (abs_le.mp hln).1
  have hquot : ((2 * z * fxOne : Nat) : ℝ) / fxLn2 * fxUnit =
      2 * fxReal (z) / fxReal fxLn2 := by
    rw [fxReal, fxReal, ← mul_assoc, mul_div_mul_right _ _ hu.ne', div_mul_eq_mul_div, Nat.cast_mul, mul_assoc, fxOne_mul_fxUnit, mul_one, Nat.cast_mul, Nat.cast_ofNat]
  have hsplit : 2 * fxReal (z) / fxReal fxLn2 - Real.logb 2 x =
      ((2 * fxReal (z) - Real.log x) - Real.logb 2 x * (fxReal fxLn2 - Real.log 2)) / fxReal fxLn2 := by
    have hne : fxReal fxLn2 ≠ 0 := by linarith
    have hl2 : Real.log 2 ≠ 0 := by linarith
    rw [Real.logb]
    field_simp
    ring
  have hb0 : 0 ≤ Real.logb 2 x := Real.logb_nonneg one_lt_two h1
  have hb1 : Real.logb 2 x ≤ 1 := (Real.logb_le_iff_le_rpow one_lt_two (by linarith)).mpr (by simpa using h2.le)
  have hnum : |(2 * fxReal (z) - Real.log x) - Real.logb 2 x * (fxReal fxLn2 - Real.log 2)| ≤ 4 * fxTol := by
    refine (abs_sub _ _).trans ?_
    rw [abs_mul, abs_of_nonneg hb0]
    nlinarith [abs_nonneg (fxReal fxLn2 - Real.log 2)]
  refine (abs_fxReal_div_sub (e := 8 * fxTol) ?_).trans (by linarith)
  rw [hquot, hsplit, abs_div, abs_of_pos (show 0 < fxReal fxLn2 by linarith), div_le_iff₀ (by linarith)]
  nlinarith

end

/-- A value that stands for a signed fixed-point number. -/
theorem abs_number_fxVal_sub (t : ℤ) : |((Spec.number (fxVal (decide (t < 0)) t.natAbs 0) : ℚ) : ℝ) - t * fxUnit| ≤ fxUnit := by
  have hu := fxUnit_pos
  rw [number_fxVal, zpow_zero, mul_one, fxReal, Nat.cast_natAbs, signOf]
  rcases lt_or_ge t 0 with h | h
  · rw [decide_eq_true h, if_pos rfl, abs_of_neg h, Int.cast_neg, abs_le]
    constructor <;> linarith
  · rw [decide_eq_false h.not_gt, if_neg Bool.false_ne_true, abs_of_nonneg h, abs_le]
    constructor <;> linarith

section
variable {n d : Nat} (hn : n ≠ 0)
include hn

theorem valLog2_eq : valLog2 (.fin false n d) =
    if fxSignificand n d (floorLog2 n d) = fxOne then (.ofInt (floorLog2 n d), 0)
    else (fxVal (decide (floorLog2 n d * fxOne + fxLog2 (fxSignificand n d (floorLog2 n d)) < 0)) (floorLog2 n d * fxOne + fxLog2 (fxSignificand n d (floorLog2 n d))).natAbs 0, 0) :=
  if_neg hn

variable (hd : d ≠ 0)
include hd

theorem significand_mem : 1 ≤ (n : ℝ) / d / 2 ^ floorLog2 n d ∧ (n : ℝ) / d / 2 ^ floorLog2 n d < 2 := by
  obtain ⟨hlo, hhi⟩ := floorLog2_spec hn hd
  rw [zpow_add_one₀ two_ne_zero, mul_comm] at hhi
  rw [one_le_div (by positivity), div_lt_iff₀ (by positivity)]
  exact ⟨hlo, hhi⟩
theorem fxOne_le_significand : fxOne ≤ fxSignificand n d (floorLog2 n d) := by
  obtain ⟨hclose, -⟩ := fxSignificand_mem (n := n) (e := floorLog2 n d) hd
  obtain ⟨hone, -⟩ := significand_mem hn hd
  have hlt : (fxOne : ℝ) * fxUnit < ((fxSignificand n d (floorLog2 n d) + 1 : Nat) : ℝ) * fxUnit := by
    rw [fxOne_mul_fxUnit, Nat.cast_succ, add_mul, one_mul]
    exact lt_add_of_sub_right_lt ((sub_le_sub_right hone _).trans_lt hclose)
  exact Nat.lt_succ_iff.mp (Nat.cast_lt.mp (lt_of_mul_lt_mul_right hlt fxUnit_pos.le))

theorem logb_eq : Real.logb 2 ((n : ℝ) / d) = floorLog2 n d + Real.logb 2 ((n : ℝ) / d / 2 ^ floorLog2 n d) := by
  rw [Real.logb_div (x := (n : ℝ) / d) (by positivity) (by positivity), ← Real.rpow_intCast, Real.logb_rpow two_pos (by norm_num)]
  ring

theorem valLog2_near : (valLog2 (.fin false n d)).1.finite = true ∧ (valLog2 (.fin false n d)).2 = 0 ∧
    |((Spec.number (valLog2 (.fin false n d)).1 : ℚ) : ℝ) - Real.logb 2 ((n : ℝ) / d)| ≤ (2 : ℝ) ^ (-400 : ℤ) := by
  obtain ⟨h1, h2⟩ := significand_mem hn hd
  obtain ⟨hlo, hhi⟩ := fxSignificand_mem (n := n) (e := floorLog2 n d) hd
  have hle := fxOne_le_significand hn hd
  have hu := fxUnit_pos
  have htol := fxUnit_le_fxTol
  have hbudget := fxTol_budget
  rw [valLog2_eq hn, logb_eq hn hd]
  generalize (n : ℝ) / d / 2 ^ floorLog2 n d = x at h1 h2 hlo hhi ⊢
  generalize fxSignificand n d (floorLog2 n d) = m at hlo hhi hle ⊢
  split
  case isTrue hm =>
    refine ⟨rfl, rfl, ?_⟩
    rw [number_ofInt, Rat.cast_intCast, sub_add_cancel_left, abs_neg, abs_of_nonneg (Real.logb_nonneg one_lt_two h1), Real.logb, div_le_iff₀ (Real.log_pos one_lt_two)]
    rw [hm, fxReal_fxOne] at hlo
    clear hle hm
    have hlog := Real.log_le_sub_one_of_pos (show 0 < x by linarith)
    have hln := Real.log_two_gt_d9
    nlinarith
  case isFalse hm =>
    dsimp only
    refine ⟨finite_fxVal .., rfl, ?_⟩
    have hval := abs_number_fxVal_sub (floorLog2 n d * fxOne + fxLog2 m)
    have hlog := abs_fxLog2_sub (abs_le.mpr ⟨by linarith, by linarith⟩) h1 h2 hle
    have hcast : ((floorLog2 n d * fxOne + fxLog2 m : ℤ) : ℝ) * fxUnit = floorLog2 n d + fxReal (fxLog2 m) := by
      rw [Int.cast_add, Int.cast_mul, Int.cast_natCast, Int.cast_natCast, add_mul, mul_assoc, fxOne_mul_fxUnit, mul_one, fxReal]
    rw [hcast, abs_le] at hval
    rw [abs_le] at hlog ⊢
    constructor <;> linarith

theorem valLog2_exact {i : ℤ} (h : (n : ℝ) / d = 2 ^ i) : valLog2 (.fin false n d) = (.ofInt i, 0) := by
  obtain ⟨hlo, hhi⟩ := floorLog2_spec hn hd
  rw [h, zpow_le_zpow_iff_right₀ one_lt_two] at hlo
  rw [h, zpow_lt_zpow_iff_right₀ one_lt_two] at hhi
  have he : floorLog2 n d = i := by omega
  have hle := fxOne_le_significand hn hd
  obtain ⟨-, hsig⟩ := fxSignificand_mem (n := n) (e := floorLog2 n d) hd
  rw [he] at hle hsig
  have hone : fxReal (fxSignificand n d i) ≤ fxReal fxOne := by
    rw [h, div_self (by positivity)] at hsig
    rwa [fxReal_fxOne]
  have heq : fxSignificand n d i = fxOne := le_antisymm (Nat.cast_le.mp (le_of_mul_le_mul_right hone fxUnit_pos)) hle
  rw [valLog2_eq hn, he, if_pos heq]

end

/-! ### Sines and cosines (06 R163) -/

/-- A sine in the first quarter of a turn, with a sign. -/
def sinFirst (neg : Bool) (q den : Nat) : Val :=
  if q = 0 then .zero
  else if 4 * q = den then .fin neg 1 1
  else fxVal neg (fxSinSeries (fxMul (2 * fxMul fxPi (q * fxOne / den)) (2 * fxMul fxPi (q * fxOne / den))) 80 0 (2 * fxMul fxPi (q * fxOne / den))).toNat 0

/-- The angle in fixed point. -/
theorem abs_fxAngle_sub {q den : Nat} (h : 4 * q ≤ den) (hden : den ≠ 0) :
    |fxReal (2 * fxMul fxPi (q * fxOne / den)) - 2 * Real.pi * (q / den)| ≤ 12 * fxTol := by
  have hu := fxUnit_pos
  have htol := fxUnit_le_fxTol
  have hsmall := fxTol_le
  have hpi := Real.pi_lt_d2
  have hpi3 := Real.pi_gt_three
  have hdr : (0 : ℝ) < den := Nat.cast_pos.mpr (Nat.pos_of_ne_zero hden)
  have h0 : 0 ≤ (q : ℝ) / den := by positivity
  have h4 : (q : ℝ) / den ≤ 1 / 4 := by
    rw [div_le_iff₀ hdr]
    have : ((4 * q : Nat) : ℝ) ≤ den := Nat.cast_le.mpr h
    push_cast at this
    linarith
  have hfrac : |fxReal (q * fxOne / den) - (q : ℝ) / den| ≤ 0 + fxUnit := by
    refine abs_fxReal_div_sub (le_of_eq (abs_eq_zero.mpr ?_))
    rw [Nat.cast_mul]
    linear_combination ((q : ℝ) / den) * fxOne_mul_fxUnit
  have hB : fxReal (q * fxOne / den) ≤ 26 / 100 := by
    have := (abs_le.mp hfrac).2
    linarith
  have hmul := abs_fxMul_sub abs_fxPi_sub hfrac hB
  rw [abs_of_pos Real.pi_pos, abs_le] at hmul
  have hcast : fxReal (2 * fxMul fxPi (q * fxOne / den)) = 2 * fxReal (fxMul fxPi (q * fxOne / den)) := by
    rw [fxReal, fxReal, Nat.cast_mul, Nat.cast_ofNat, mul_assoc]
  have hbound : Real.pi * (0 + fxUnit) ≤ 4 * fxUnit := by nlinarith
  rw [hcast, abs_le]
  constructor <;> linarith

theorem sinFirst_near (neg : Bool) {q den : Nat} (h : 4 * q ≤ den) (hden : den ≠ 0) : (sinFirst neg q den).finite = true ∧
    |((Spec.number (sinFirst neg q den) : ℚ) : ℝ) - signOf neg * Real.sin (2 * Real.pi * (q / den))| ≤ (2 : ℝ) ^ (-400 : ℤ) := by
  unfold sinFirst
  split
  case isTrue hq =>
    subst hq
    refine ⟨rfl, ?_⟩
    simp [Val.zero, number_fin]
  case isFalse hq =>
    split
    case isTrue hquarter =>
      have hangle : 2 * Real.pi * ((q : ℝ) / den) = Real.pi / 2 := by
        rw [← hquarter]
        push_cast
        field_simp
        norm_num
      refine ⟨rfl, ?_⟩
      rw [hangle, Real.sin_pi_div_two, number_fin, signOf]
      cases neg <;> simp
    case isFalse hquarter =>
      refine ⟨finite_fxVal .., ?_⟩
      have hu := fxUnit_pos
      have htol := fxUnit_le_fxTol
      have hbudget := fxTol_budget
      have hpi := Real.pi_lt_d2
      have h0 : 0 ≤ 2 * Real.pi * ((q : ℝ) / den) := by positivity
      have h4 : (q : ℝ) / den ≤ 1 / 4 := by
        rw [div_le_iff₀ (by positivity)]
        have : ((4 * q : Nat) : ℝ) ≤ den := Nat.cast_le.mpr h
        push_cast at this
        linarith
      have hhi : 2 * Real.pi * ((q : ℝ) / den) ≤ 8 / 5 := by nlinarith [Real.pi_pos]
      have hsin : 0 ≤ Real.sin (2 * Real.pi * ((q : ℝ) / den)) := Real.sin_nonneg_of_nonneg_of_le_pi h0 (by nlinarith [Real.pi_gt_three])
      have hser := abs_fxReal_toNat_sub hsin (abs_fxSinSeries_sub (abs_fxAngle_sub h hden) h0 hhi)
      rw [number_fxVal, zpow_zero, mul_one, ← mul_sub, abs_mul, abs_signOf, one_mul]
      rw [abs_le] at hser ⊢
      constructor <;> linarith

/-- The sign and the place in the first quarter. -/
theorem sinTurn_eq (num den : Nat) : sinTurn num den =
    let h := if den ≤ 2 * num then num - den / 2 else num
    sinFirst (decide (den ≤ 2 * num)) (if den < 4 * h then den / 2 - h else h) den := by
  unfold sinTurn sinFirst
  simp only [decide_eq_true_eq]

section
variable {num k : Nat}

theorem sinTurn_near (hk : k ≠ 0) (h : num < 2 * k) : (sinTurn num (2 * k)).finite = true ∧
    |((Spec.number (sinTurn num (2 * k)) : ℚ) : ℝ) - Real.sin (2 * Real.pi * (num / (2 * k : Nat)))| ≤ (2 : ℝ) ^ (-400 : ℤ) := by
  have hkr : (k : ℝ) ≠ 0 := Nat.cast_ne_zero.mpr hk
  have hhalf : 2 * k / 2 = k := Nat.mul_div_cancel_left k two_pos
  -- the second half of a turn
  have second : ∃ r : Nat, r < k ∧ sinTurn num (2 * k) = sinFirst (decide (2 * k ≤ 2 * num)) (if 2 * k < 4 * r then k - r else r) (2 * k) ∧
      Real.sin (2 * Real.pi * (num / (2 * k : Nat))) = signOf (decide (2 * k ≤ 2 * num)) * Real.sin (2 * Real.pi * (r / (2 * k : Nat))) := by
    rw [sinTurn_eq, hhalf]
    by_cases hneg : 2 * k ≤ 2 * num
    · refine ⟨num - k, by omega, by simp only [if_pos hneg], ?_⟩
      have hangle : 2 * Real.pi * ((num : ℝ) / (2 * k : Nat)) = 2 * Real.pi * ((num - k : Nat) / (2 * k : Nat)) + Real.pi := by
        rw [Nat.cast_sub (by omega)]
        push_cast
        field_simp
        ring
      rw [hangle, Real.sin_add_pi, decide_eq_true hneg, signOf, if_pos rfl, neg_one_mul]
    · refine ⟨num, by omega, by simp only [if_neg hneg], ?_⟩
      rw [decide_eq_false hneg, signOf, if_neg Bool.false_ne_true, one_mul]
  obtain ⟨r, hr, hturn, hsin⟩ := second
  rw [hturn, hsin]
  -- the second quarter of a turn
  by_cases hq : 2 * k < 4 * r
  · have hangle : 2 * Real.pi * ((r : ℝ) / (2 * k : Nat)) = Real.pi - 2 * Real.pi * ((k - r : Nat) / (2 * k : Nat)) := by
      rw [Nat.cast_sub hr.le]
      push_cast
      field_simp
      ring
    rw [if_pos hq, hangle, Real.sin_pi_sub]
    exact sinFirst_near _ (by omega) (by omega)
  · rw [if_neg hq]
    exact sinFirst_near _ (by omega) (by omega)

end

/-- The sine at a quarter of a turn. -/
def quarterVal (r : Nat) : Val := match r with
  | 1 => .fin false 1 1
  | 3 => .fin true 1 1
  | _ => .zero

theorem sinFirst_quarter (neg : Bool) {q den : Nat} (hq : q ≠ 0) (h : 4 * q = den) : sinFirst neg q den = .fin neg 1 1 := (if_neg hq).trans (if_pos h)
/-- Where one of four quarters begins. -/
theorem sinTurn_quarter {num k j : Nat} (hk : k ≠ 0) (hj : j < 4) (h : 4 * num = j * (2 * k)) : sinTurn num (2 * k) = quarterVal j := by
  have hhalf : 2 * k / 2 = k := Nat.mul_div_cancel_left k two_pos
  rw [sinTurn_eq, hhalf]
  dsimp only
  by_cases hneg : 2 * k ≤ 2 * num
  · rw [decide_eq_true hneg, if_pos hneg]
    by_cases h2 : j = 2
    · obtain rfl : num = k := by subst h2; omega
      rw [Nat.sub_self, if_neg (by omega), h2]
      rfl
    · obtain rfl : j = 3 := by
        interval_cases j <;> omega
      rw [if_neg (by omega)]
      exact sinFirst_quarter true (by omega) (by omega)
  · rw [decide_eq_false hneg, if_neg hneg]
    by_cases h0 : j = 0
    · obtain rfl : num = 0 := by subst h0; omega
      rw [if_neg (by omega), h0]
      rfl
    · obtain rfl : j = 1 := by
        interval_cases j <;> omega
      rw [if_neg (by omega)]
      exact sinFirst_quarter false (by omega) (by omega)

/-- Whole turns do not matter. -/
theorem sin_mod_turn (a : Nat) {den : Nat} (h : den ≠ 0) : Real.sin (2 * Real.pi * ((a % den : Nat) / den)) = Real.sin (2 * Real.pi * (a / den)) := by
  have hdr : (den : ℝ) ≠ 0 := Nat.cast_ne_zero.mpr h
  have ha : (a : ℝ) = den * (a / den : Nat) + (a % den : Nat) := by exact_mod_cast (Nat.div_add_mod a den).symm
  have hquot : (a : ℝ) / den = (a / den : Nat) + (a % den : Nat) / den := by
    rw [div_eq_iff hdr, add_mul, div_mul_cancel₀ _ hdr]
    linarith
  have hangle : 2 * Real.pi * ((a : ℝ) / den) = 2 * Real.pi * ((a % den : Nat) / den) + (a / den : Nat) * (2 * Real.pi) := by
    rw [hquot]
    ring
  rw [hangle, Real.sin_add_nat_mul_two_pi]

section
variable {neg : Bool} {n d : Nat}

theorem isZero_number {v : Val} (h : v.isZero = true) : Spec.number v = 0 := by
  cases v with
  | fin neg n d => simp [number_fin, of_decide_eq_true h]
  | nan q => exact absurd h Bool.false_ne_true
  | inf neg => exact absurd h Bool.false_ne_true
theorem number_negate (v : Val) : Spec.number v.negate = -Spec.number v := by
  cases v with
  | fin neg n d => cases neg <;> simp [Val.negate, number_fin, neg_div]
  | nan q => simp [Val.negate, Spec.number, Val.snum]
  | inf neg => simp [Val.negate, Spec.number, Val.snum]
theorem finite_negate (v : Val) : v.negate.finite = v.finite := by
  cases v <;> rfl

theorem valSin_zero : valSin (.fin neg 0 d) = (.fin neg 0 1, 0) := by
  simp [valSin]
theorem valSin_eq (hn : n ≠ 0) : valSin (.fin neg n d) =
    (if neg && !(sinTurn (2 * n % (2 * d)) (2 * d)).isZero then (sinTurn (2 * n % (2 * d)) (2 * d)).negate else sinTurn (2 * n % (2 * d)) (2 * d), 0) := if_neg hn
theorem valCos_eq : valCos (.fin neg n d) = (sinTurn ((4 * n + d) % (2 * (2 * d))) (2 * (2 * d)), 0) := by
  rw [← Nat.mul_assoc]
  rfl

theorem signed_real : ((Spec.number (.fin neg n d) : ℚ) : ℝ) = signOf neg * (n / d) := by
  rw [number_fin, signOf]
  cases neg <;> simp [neg_div]

variable (hd : d ≠ 0)
include hd

theorem valSin_near : (valSin (.fin neg n d)).1.finite = true ∧ (valSin (.fin neg n d)).2 = 0 ∧
    |((Spec.number (valSin (.fin neg n d)).1 : ℚ) : ℝ) - Real.sin (2 * Real.pi * ((Spec.number (.fin neg n d) : ℚ) : ℝ))| ≤ (2 : ℝ) ^ (-400 : ℤ) := by
  by_cases hn : n = 0
  · rw [hn, valSin_zero]
    refine ⟨rfl, rfl, ?_⟩
    simp [number_fin]
  · obtain ⟨hfin, hnear⟩ := sinTurn_near hd (Nat.mod_lt (2 * n) (by omega))
    have hangle : ((2 * n : Nat) : ℝ) / (2 * d : Nat) = n / d := by
      push_cast
      exact mul_div_mul_left _ _ two_ne_zero
    rw [sin_mod_turn _ (by omega), hangle] at hnear
    rw [valSin_eq hn, signed_real]
    generalize sinTurn (2 * n % (2 * d)) (2 * d) = v at hfin hnear ⊢
    cases neg with
    | false =>
      simp only [Bool.false_and, Bool.false_eq_true, if_false]
      rw [signOf, if_neg Bool.false_ne_true, one_mul]
      exact ⟨hfin, trivial, hnear⟩
    | true =>
      have hsin : Real.sin (2 * Real.pi * (signOf true * (n / d))) = -Real.sin (2 * Real.pi * (n / d)) := by
        rw [← Real.sin_neg, signOf, if_pos rfl]
        ring_nf
      rw [hsin]
      by_cases hz : v.isZero = true
      · rw [isZero_number hz, Rat.cast_zero, zero_sub, abs_neg] at hnear
        simp only [hz, Bool.not_true, Bool.and_false, Bool.false_eq_true, if_false]
        rw [isZero_number hz, Rat.cast_zero, zero_sub, neg_neg]
        exact ⟨hfin, trivial, hnear⟩
      · simp only [Bool.eq_false_iff.mpr hz, Bool.not_false, Bool.and_self, if_true]
        rw [number_negate, finite_negate, Rat.cast_neg, neg_sub_neg, abs_sub_comm]
        exact ⟨hfin, trivial, hnear⟩

theorem valCos_near : (valCos (.fin neg n d)).1.finite = true ∧ (valCos (.fin neg n d)).2 = 0 ∧
    |((Spec.number (valCos (.fin neg n d)).1 : ℚ) : ℝ) - Real.cos (2 * Real.pi * ((Spec.number (.fin neg n d) : ℚ) : ℝ))| ≤ (2 : ℝ) ^ (-400 : ℤ) := by
  obtain ⟨hfin, hnear⟩ := sinTurn_near (k := 2 * d) (by omega) (Nat.mod_lt (4 * n + d) (by omega))
  have hdr : (d : ℝ) ≠ 0 := Nat.cast_ne_zero.mpr hd
  have hangle : 2 * Real.pi * (((4 * n + d : Nat) : ℝ) / (2 * (2 * d) : Nat)) = 2 * Real.pi * (n / d) + Real.pi / 2 := by
    push_cast
    field_simp
    ring
  have hcos : Real.cos (2 * Real.pi * (signOf neg * (n / d))) = Real.cos (2 * Real.pi * (n / d)) := by
    cases neg with
    | false => simp [signOf]
    | true =>
      rw [← Real.cos_neg, signOf, if_pos rfl]
      ring_nf
  rw [sin_mod_turn _ (by omega), hangle, Real.sin_add_pi_div_two] at hnear
  rw [valCos_eq, signed_real, hcos]
  exact ⟨hfin, rfl, hnear⟩

end

/-! ### Quarters of a turn, and the table (06 R163) -/

theorem number_quarterVal (r : Nat) : Spec.number (quarterVal r) = if r = 1 then 1 else if r = 3 then -1 else 0 := by
  unfold quarterVal
  split <;> simp_all [number_fin, Val.zero]
theorem finite_quarterVal (r : Nat) : (quarterVal r).finite = true := by
  unfold quarterVal
  split <;> rfl

section
variable {neg : Bool} {n d : Nat} {j : ℤ} (hd : d ≠ 0) (h : 4 * Spec.number (.fin neg n d) = j)
include hd h

/-- The fraction is a number of quarters, with the sign apart. -/
theorem quarters_eq : ∃ k : Nat, j = signedNum neg k ∧ 4 * n = k * d := by
  have hdq : (d : ℚ) ≠ 0 := Nat.cast_ne_zero.mpr hd
  have hdz : (0 : ℤ) < d := Int.natCast_pos.mpr (Nat.pos_of_ne_zero hd)
  rw [number_eq, ← mul_div_assoc, div_eq_iff hdq] at h
  have hz : 4 * signedNum neg n = j * d := by exact_mod_cast h
  cases neg with
  | false =>
    change 4 * (n : ℤ) = j * d at hz
    obtain ⟨k, rfl⟩ := Int.eq_ofNat_of_zero_le (nonneg_of_mul_nonneg_left (by omega : 0 ≤ j * d) hdz)
    exact ⟨k, rfl, by exact_mod_cast hz⟩
  | true =>
    change 4 * -(n : ℤ) = j * d at hz
    obtain ⟨k, hk⟩ := Int.eq_ofNat_of_zero_le (nonneg_of_mul_nonneg_left (by rw [neg_mul]; omega : 0 ≤ -j * d) hdz)
    obtain rfl : j = -k := by omega
    refine ⟨k, rfl, ?_⟩
    rw [neg_mul, mul_neg, neg_inj] at hz
    exact_mod_cast hz

theorem valSin_quarter (hn : n ≠ 0) : valSin (.fin neg n d) = (quarterVal (j % 4).toNat, 0) := by
  obtain ⟨k, rfl, hk⟩ := quarters_eq hd h
  have hturn : 4 * (2 * n % (2 * d)) = k % 4 * (2 * d) := by
    rw [← Nat.mul_mod_mul_left, ← Nat.mul_mod_mul_right, Nat.mul_left_comm 4, hk, Nat.mul_left_comm k]
  rw [valSin_eq hn, sinTurn_quarter hd (Nat.mod_lt _ (by decide)) hturn]
  cases neg with
  | false =>
    rw [show (signedNum false k % 4).toNat = k % 4 from by change ((k : ℤ) % 4).toNat = _; omega]
    rfl
  | true =>
    have hj : (signedNum true k % 4).toNat = (4 - k % 4) % 4 := by
      change (-(k : ℤ) % 4).toNat = _
      omega
    rw [hj]
    have hlt : k % 4 < 4 := Nat.mod_lt _ (by decide)
    interval_cases k % 4 <;> rfl

theorem valCos_quarter : valCos (.fin neg n d) = (quarterVal ((j + 1) % 4).toNat, 0) := by
  obtain ⟨k, rfl, hk⟩ := quarters_eq hd h
  have hturn : 4 * ((4 * n + d) % (2 * (2 * d))) = (k + 1) % 4 * (2 * (2 * d)) := by
    rw [← Nat.mul_mod_mul_left, ← Nat.mul_mod_mul_right, hk]
    congr 1
    ring
  rw [valCos_eq, sinTurn_quarter (by omega) (Nat.mod_lt _ (by decide)) hturn]
  cases neg with
  | false =>
    rw [show ((signedNum false k + 1) % 4).toNat = (k + 1) % 4 from by change (((k : ℤ) + 1) % 4).toNat = _; omega]
  | true =>
    have hj : ((signedNum true k + 1) % 4).toNat = (5 - k % 4) % 4 := by
      change ((-(k : ℤ) + 1) % 4).toNat = _
      omega
    rw [hj, Nat.add_mod]
    have hlt : k % 4 < 4 := Nat.mod_lt _ (by decide)
    interval_cases k % 4 <;> rfl

end

/-- An exact result: a finite value and no flag, a zero being positive. -/
theorem exact_quarterVal {o : Val × Nat} {r : Nat} {q : ℚ} (h : o = (quarterVal r, 0)) (hq : (if r = 1 then 1 else if r = 3 then -1 else 0) = q) :
    o.1.finite = true ∧ o.2 = 0 ∧ Spec.number o.1 = q ∧ (q = 0 → o.1.neg = false) := by
  rw [h]
  refine ⟨finite_quarterVal r, rfl, (number_quarterVal r).trans hq, ?_⟩
  rintro rfl
  unfold quarterVal
  split <;> simp_all [Val.zero, Val.neg]

/-- A positive fraction. -/
theorem pos_number {neg : Bool} {n d : Nat} (h : 0 < Spec.number (.fin neg n d)) : neg = false ∧ n ≠ 0 := by
  have hn : n ≠ 0 := by
    rintro rfl
    simp [number_fin] at h
  cases neg with
  | false => exact ⟨rfl, hn⟩
  | true =>
    rw [number_fin, if_pos rfl, neg_div, neg_pos] at h
    exact absurd h (by positivity : (0 : ℚ) ≤ (n : ℚ) / d).not_gt

/-- The number of quarters, where it is odd, is not zero. -/
theorem num_ne_zero_of_odd {neg : Bool} {n d : Nat} {j : ℤ} (h : 4 * Spec.number (.fin neg n d) = j) (hj : j % 2 = 1) : n ≠ 0 := by
  rintro rfl
  have hz : (0 : ℚ) = j := by simpa [number_fin] using h
  have : (0 : ℤ) = j := by exact_mod_cast hz
  omega

theorem transcendentalRules : Spec.TranscendentalRules := by
  intro neg ftz b n d hd v x near exact
  have hreal : ((Spec.number (.fin false n d) : ℚ) : ℝ) = (n : ℝ) / d := by
    rw [signed_real, signOf, if_neg Bool.false_ne_true, one_mul]
  have sin (j : ℤ) {q : ℚ} (hn : n ≠ 0) (hj : 4 * x = j) (hq : (if (j % 4).toNat = 1 then 1 else if (j % 4).toNat = 3 then -1 else 0) = q) : exact (valSin v) q :=
    exact_quarterVal (valSin_quarter hd hj hn) hq
  have cos (j : ℤ) {q : ℚ} (hj : 4 * x = j) (hq : (if ((j + 1) % 4).toNat = 1 then 1 else if ((j + 1) % 4).toNat = 3 then -1 else 0) = q) : exact (valCos v) q :=
    exact_quarterVal (valCos_quarter hd hj) hq
  refine ⟨fun f hf => ⟨fun q => ?_, rfl⟩, rfl, rfl, rfl, rfl, rfl, rfl, rfl, fun i hlo hhi hx => ?_, fun hlo hhi => valExp2_near hd hlo hhi, fun hb hx => ?_, fun hb hx => ?_,
    fun hn => if_pos hn, fun hn hneg => (if_neg hn).trans (if_pos hneg), rfl, rfl, fun i hx => ?_, fun hx => ?_, fun hn => if_pos hn, rfl, rfl,
    fun i => ⟨fun hn hx => ?_, fun hx => ?_, fun hx => ?_, fun hx => ?_, fun hx => ?_, fun hx => ?_⟩, valSin_near hd, valCos_near hd⟩
  · simp only [List.mem_cons, List.not_mem_nil, or_false] at hf
    rcases hf with rfl | rfl | rfl | rfl | rfl | rfl <;> rfl
  · obtain ⟨hfin, hflags, hnum⟩ := valExp2_exact hd hlo hhi hx
    exact ⟨hfin, hflags, hnum, fun h => absurd h (zpow_ne_zero _ two_ne_zero)⟩
  · rw [transcend, hb, valExp2_of_le hx, fpOut, roundFmt_two_pow_200]
    rfl
  · rw [transcend, hb, valExp2_of_lt hx, fpOut, roundFmt_two_pow_neg_200]
    rfl
  · obtain ⟨rfl, hn⟩ := pos_number (neg := neg) (n := n) (d := d) (lt_of_lt_of_eq (zpow_pos two_pos i) hx.symm)
    have hpow : (n : ℝ) / d = 2 ^ i := by
      rw [← hreal]
      exact (congrArg (Rat.cast : ℚ → ℝ) hx).trans (by push_cast; rfl)
    change exact (valLog2 (.fin false n d)) i
    rw [valLog2_exact hn hd hpow]
    refine ⟨rfl, rfl, number_ofInt i, fun hi => ?_⟩
    obtain rfl : i = 0 := by exact_mod_cast hi
    rfl
  · obtain ⟨rfl, hn⟩ := pos_number hx
    change near (valLog2 (.fin false n d)) (Real.logb 2 ((Spec.number (.fin false n d) : ℚ) : ℝ)) _
    rw [hreal]
    exact valLog2_near hn hd
  · refine sin (2 * i) hn (by push_cast; linarith) ?_
    rw [if_neg (by omega), if_neg (by omega)]
  · have hj : 4 * x = ((4 * i + 1 : ℤ) : ℚ) := by push_cast; linarith
    exact sin _ (num_ne_zero_of_odd hj (by omega)) hj (if_pos (by omega))
  · have hj : 4 * x = ((4 * i + 3 : ℤ) : ℚ) := by push_cast; linarith
    exact sin _ (num_ne_zero_of_odd hj (by omega)) hj (by rw [if_neg (by omega), if_pos (by omega)])
  · exact cos (4 * i) (by push_cast; linarith) (if_pos (by omega))
  · refine cos (4 * i + 2) (by push_cast; linarith) ?_
    rw [if_neg (by omega), if_pos (by omega)]
  · rcases hx with hx | hx
    · refine cos (4 * i + 1) (by push_cast; linarith) ?_
      rw [if_neg (by omega), if_neg (by omega)]
    · refine cos (4 * i + 3) (by push_cast; linarith) ?_
      rw [if_neg (by omega), if_neg (by omega)]

/-- Settles O43: fixed-point series are within their terms' units and a geometric tail of the real functions, and quarters of a turn are exact. -/
theorem transcendentalFunctions : Obligations.TranscendentalFunctions := transcendentalRules

end Sys2Proof.Machine
end
